-- ==== Sys2Proof/Word.lean ====
section
/-!
DEFINITION. Word.lean: the plain words of the model: bytes, keys, tags, status codes and a table type.
Only names stand here; everything that computes on them is in Machine/Util.lean.
-/
namespace Sys2Proof

/-- One byte (R12). -/
abbrev Byte := BitVec 8

/-- A byte string; element 0 is the first byte (R12). -/
abbrev Bytes := List Byte

/-- A 256-bit key value. -/
abbrev Key := BitVec 256

/-- A 128-bit authentication tag. -/
abbrev Tag := BitVec 128

/-- A SHA-384 value. -/
abbrev Dig384 := BitVec 384

/-- An 8-bit status code (R20). -/
abbrev Code := BitVec 8

/-- A hybrid public key: 97-byte P-384 point, then the 2,592-byte ML-DSA-87 key (R143). -/
abbrev HybKey := BitVec 21512

/-- A hybrid signature, 4,723 bytes (R143): the ECDSA part is the first 96 bytes. -/
structure HybSig where
  ecdsa : BitVec 768
  mldsa : BitVec 37016
  deriving DecidableEq, Repr

/-- A P-384 point, 97 bytes (R143, R146). -/
abbrev Point := BitVec 776

/-- An ML-KEM-1024 encapsulation key or ciphertext, 1,568 bytes (R146). -/
abbrev KemBlob := BitVec 12544

/-- Sparse data by number: pairs with rising keys. -/
abbrev Table (α : Type) := List (Nat × α)

end Sys2Proof
end

