-- ==== Sys2Proof/Syntax.lean ====
section
/-!
DEFINITION. Syntax.lean: the commands of the VTC, one constructor of Instr for each row of the table of
operations and events, with the operands each carries. The table gives no operand; each operand is the
datum that the rule named beside the constructor has the command bring from outside (assumption log 8).
-/
namespace Sys2Proof

/-- The key of a vault slot, named by the derivation path of R97 or, for a key with none, by what it is
(R103, R115). -/
inductive KeyPath where
  | lcroot
  | idEcc
  | idMldsa
  | store (area : Nat)
  | oper
  | session
  | gate
  | tree (port : Nat)
  | wrap
  | slcmem (slice : Nat)
  | slcsvc (slice : Nat)
  | digest (slice : Nat)
  | page (page : Nat)
  | ctxmem (ctx gen : Nat)
  | ctxaux (ctx gen : Nat)
  | region (region keyGen : Nat)
  | chan (slice slot : Nat)
  | flow (peer domEpoch flowEpoch : Nat)
  | domainKey
  | nextDomainKey
  | spdmHandshake
  | spdmMaster
  | bounce (slice dir gen : Nat)
  | appSecret (dir : Nat)
  | joinKey (peer : Nat)
  | epochSecret (peer : Nat)
  | imageKey (slice : Nat)
  deriving DecidableEq, Repr

/-- A wrapped blob (R104). KEY and USED are encrypted; `body` is their 40 ciphertext bytes. -/
structure WrappedBlob where
  format : Nat
  cls : Nat
  attr : BitVec 16
  wrapper : Nat
  reserved : Nat
  iv : BitVec 96
  body : Bytes
  kcv : BitVec 32
  tag : Tag
  deriving DecidableEq, Repr

/-- Where a replacement key comes from (R107 step 1). -/
inductive ReplaceSrc where
  | derived
  | blob (b : WrappedBlob)
  deriving DecidableEq, Repr

/-- The kinds of value of R114 in which the vault can find a complement mismatch, and those of R98. -/
inductive MismatchOf where
  | derivedKey (p : KeyPath)
  | lcRoot (reads : List (BitVec 5355))
  | domainKey
  | spdmOrBounce (bounce : Bool)
  | channelKey (p : KeyPath)
  | usage (p : KeyPath)
  | lcCode
  | generation (p : KeyPath)
  deriving DecidableEq, Repr

/-- What the environment of a start brings (R460, R461): the entropy tests' verdict, the fresh PUF reads,
and the number of good units the assay finds in each pool (unit index, pool number, good). -/
structure StartEnv where
  entropyOk : Bool
  pufReads : List (BitVec 5355)
  pools : List (Nat × Nat × List Nat)
  deriving DecidableEq, Repr

/-- A derivation request as it reaches the vault (R97): label, parent, context bytes, output length,
requesting engine and slice. -/
structure DeriveReq where
  label : Bytes
  parent : KeyPath
  context : Bytes
  lenBits : Nat
  engine : Nat
  slice : Nat
  deriving DecidableEq, Repr

/-- The host's write of a vector's mask (R319): the vector, and whether it is masked after it. -/
structure MsixMask where
  vector : Nat
  masked : Bool
  deriving DecidableEq, Repr

/-- The header of a mailbox command (R316). `page` is 0 for the driver page and s + 1 for slice page s. -/
structure MbxHdr where
  page : Nat
  length : Nat
  seq : Nat
  ctxId : Nat
  status : Code
  reserved : Nat
  tag : Tag
  deriving DecidableEq, Repr

/-- The operand words of a channel operation (R139, R334): addresses already translated by the gate. -/
structure CipherBody where
  jobId : Nat
  ctrl : BitVec 32
  src : Nat
  dst : Nat
  len : Nat
  aadLen : Nat
  iv : BitVec 128
  tag : BitVec 128
  deriving DecidableEq, Repr

/-- An exported channel state (R133). `body` is bytes 32 to 151 as ciphertext. -/
structure ChanBlob where
  format : Nat
  mode : Nat
  slice : Nat
  ctxId : Nat
  ctxGen : Nat
  kcv : BitVec 32
  keySlot : Nat
  reserved : Nat
  iv : BitVec 96
  body : Bytes
  tag : Tag
  deriving DecidableEq, Repr

/-- The part a unit plays in a hybrid key agreement (R146). -/
inductive KaStep where
  | initiate
  | respond (q : Point) (ek : KemBlob) (len : Nat)
  | complete (q : Point) (ct : KemBlob) (len : Nat)
  deriving DecidableEq, Repr

/-- A signed request, challenge, grant or release (R157, R447). `length` is the bytes received. -/
structure SignedReq where
  length : Nat
  format : Nat
  kind : Nat
  signer : Nat
  fromCode : BitVec 16
  toCode : BitVec 16
  unitId : Nat
  sessionId : BitVec 64
  nonce : BitVec 256
  newBinding : BitVec 256
  scope : BitVec 16
  opens : Nat
  reserved : Nat
  signerKey : HybKey
  signature : HybSig
  overCan : Bool
  deriving DecidableEq, Repr

/-- A signed write envelope (R539). -/
structure Envelope where
  format : Nat
  signer : Nat
  index : Nat
  sub : Nat
  unitId : Nat
  sessionId : BitVec 64
  nonce : BitVec 256
  valueLen : Nat
  reserved : Nat
  signerKey : HybKey
  value : Bytes
  signature : HybSig
  deriving DecidableEq, Repr

/-- An identity endorsement (R177): payload keys 1 to 3 and the manufacturing signature, with the protected header, payload and
whole object as they were received. -/
structure Endorsement where
  unitId : Nat
  keyDigest : Dig384
  cls : Nat
  signature : HybSig
  prot : Bytes
  payload : Bytes
  encoded : Bytes
  deriving DecidableEq, Repr

/-- A domain policy (R178): keys 1 to 14, the owner's key of the unprotected header, the signature, with the protected header,
payload and whole object as they were received. -/
structure Policy where
  domainId : Nat
  sequence : Nat
  anchor : Nat
  states : List (BitVec 16)
  debugOpen : Bool
  minVersion : Nat
  firmware : List Dig384
  hostKeyDigest : BitVec 256
  revoked : List Nat
  maxMembers : Nat
  deputies : Nat
  shareMode : Nat
  maxAge : Nat
  epochOnJoin : Bool
  ownerKey : HybKey
  signature : HybSig
  prot : Bytes
  payload : Bytes
  encoded : Bytes
  deriving DecidableEq, Repr

/-- The vtc-domain claim of a hallmark (R181, key -70007). -/
structure DomClaim where
  domainId : Nat
  epoch : Nat
  term : Nat
  role : Nat
  policyDigest : BitVec 256
  deriving DecidableEq, Repr

/-- A hallmark: the claims of R181 and its signature; `stepping` is the text of hwversion. -/
structure Hallmark where
  nonce : BitVec 256
  stepping : Bytes
  uptime : Nat
  dbgstat : Nat
  unitId : Nat
  session : BitVec 64
  signTime : Nat
  lcCode : BitVec 16
  debugMark : Nat
  scope : BitVec 16
  debugOpens : Nat
  fwCounter : Nat
  fwDigest : Dig384
  patchDigest : Dig384
  afwDigest : Dig384
  idKey : HybKey
  endorse : Option Endorsement
  domain : Option DomClaim
  shareMode : Nat
  tenants : Nat
  schedDigest : BitVec 256
  mapGen : Nat
  coresInService : Nat
  bind : Option Dig384
  signature : HybSig
  deriving DecidableEq, Repr

/-- The header of a domain control message (R186), its TYPE being the command itself. -/
structure DomHdr where
  version : Nat
  length : Nat
  domainId : Nat
  sender : Nat
  receiver : Nat
  epoch : Nat
  term : Nat
  txn : Nat
  status : Code
  reserved : Nat
  deriving DecidableEq, Repr

/-- A domain-key envelope (R190): `body` is bytes 16 to 51 as ciphertext. -/
structure KeyEnvelope where
  format : Nat
  index : Nat
  reserved : Nat
  epoch : Nat
  domainId : Nat
  body : Bytes
  tag : Tag
  deriving DecidableEq, Repr

/-- A member of a domain (R176, R206): unit identifier, fabric node index, port of its route. -/
structure Member where
  unit : Nat
  node : Nat
  port : Nat
  deriving DecidableEq, Repr

/-- A host member record (R176): identifier and public key, signed under the host-admission key. -/
structure HostRec where
  hostId : Nat
  key : HybKey
  admKey : HybKey
  signature : HybSig
  deriving DecidableEq, Repr

/-- What a requester offers in NEGOTIATE_ALGORITHMS (R198): SHA-384 as hash, extended asymmetric algorithms and external key exchanges
by vendor and number, AES-256-GCM as AEAD. -/
structure SpdmOffer where
  sha384 : Bool
  sigs : List (BitVec 16 × BitVec 16)
  kexs : List (BitVec 16 × BitVec 16)
  gcm256 : Bool
  deriving DecidableEq, Repr

/-- A role grant (R200): role, partner unit and handoff step. -/
structure RoleGrant where
  role : Nat
  partner : Nat
  step : Nat
  deriving DecidableEq, Repr

/-- A member-down notice (R453). -/
structure Notice where
  source : Nat
  cause : Nat
  flags : Nat
  seq : Nat
  unitId : Nat
  sessionId : BitVec 64
  domainId : Nat
  epoch : Nat
  reserved : Nat
  time : Nat
  tag : Tag
  deriving DecidableEq, Repr

/-- The 16-byte operation header of a REQUEST or RESPONSE (R209). -/
structure OpHdr where
  op : Nat
  status : Code
  bytes : Nat
  window : Nat
  offset : Nat
  tagId : Nat
  deriving DecidableEq, Repr

/-- Work to seal into one outbound frame (R208, R212): the peer's node, the frame type, the cleartext
payload, and who issued it. `ctx` 0 is the system; an alloy names its own port, by which its output leaves (R30). -/
structure SealReq where
  node : Nat
  ftype : Nat
  payload : Bytes
  slice : Nat
  ctx : Nat
  gen : Nat
  queue : Nat
  via : Option Nat
  deriving DecidableEq, Repr

/-- A frame on the fabric (R207). -/
structure Frame where
  routeDst : Nat
  routeSrc : Nat
  routeUse : Nat
  ftype : Nat
  flags : Nat
  dstNode : Nat
  srcNode : Nat
  payloadLen : Nat
  seq : Nat
  reserved : Nat
  payload : Bytes
  tag : Tag
  deriving DecidableEq, Repr

/-- A tier-B request to a pewter engine (R279): region, granule, and the stamp. -/
structure PewReq where
  region : Nat
  granule : Nat
  ctx : Nat
  gen : Nat
  slice : Nat
  reqId : Nat
  deriving DecidableEq, Repr

/-- A bounce record in host memory (R307). -/
structure BounceRec where
  format : Nat
  flags : Nat
  slice : Nat
  keyGen : Nat
  ctxId : Nat
  ctxGen : Nat
  seq : Nat
  length : Nat
  reserved : Nat
  va : Nat
  payload : Bytes
  tag : Tag
  deriving DecidableEq, Repr

/-- What an ATS translation answers (R340): a span with the rights that it carries, or no translation. -/
inductive AtsAnswer where
  | span (hpa log2Size : Nat) (read write : Bool)
  | noTranslation
  deriving DecidableEq, Repr

/-- A firmware image (R462) as parsed from its bytes; `tail` holds the bytes after the body. -/
structure Image where
  format : Nat
  kind : Nat
  version : Nat
  build : Nat
  bodyLen : Nat
  reserved : Nat
  bodyDigest : Dig384
  signerKey : HybKey
  signature : HybSig
  body : Bytes
  tail : Bytes
  deriving DecidableEq, Repr

/-- One reading of a creep gauge (R484): laps in 10 µs, laps in path mode, temperature (°C), rail (mV). -/
structure GaugeRead where
  laps : Nat
  pathLaps : Nat
  temp : Int
  mv : Nat
  deriving DecidableEq, Repr

/-- What a hold-up save meets (R493): VHOLD at t0, VHOLD at its end, sections captured before the rails
fell (in section order), and whether VHOLD fell to 3.20 V during the writing. -/
structure SaveEnv where
  startMv : Nat
  endMv : Nat
  captured : Nat
  dropped320 : Bool
  durationUs : Nat
  deriving DecidableEq, Repr

/-- The owners that may arm a cast (R422). A mailbox owner arms through its slice page. -/
inductive CastVia where
  | arbiter
  | tcu
  | mailbox (h : MbxHdr) (reserved : Nat)
  deriving DecidableEq, Repr

/-- The eight port groups that carry reset notices (R60, R68's LAST_GROUP codes 1 to 7). -/
inductive Group where
  | fab | pool | stk | hse | cpq | arr | mgt
  deriving DecidableEq, Repr

/-- Causes of a TCU restart (R440, R450). -/
inductive TcuCause where
  | sentinel | deadline | lockstep | exception | image | requested
  deriving DecidableEq, Repr

/-- Causes of a chip warm reset (R450, R453): an S4 error, a sentinel condition, or a request. -/
inductive ChipCause where
  | s4 (unit : Nat)
  | sentinel
  | requested
  deriving DecidableEq, Repr

/-- The scope of an S2 or S3 error (R439, R443); `wire` is an item that its protocol retransmits (R49). -/
inductive ErrScope where
  | unit
  | context (ctx : Nat)
  | partition (slice : Nat)
  | wire
  deriving DecidableEq, Repr

/-- A message of the internal trust network that is sent again (R38): its leaf, the direction, and whether the receiver rejected it. -/
structure Resend where
  leaf : Nat
  fromLeaf : Bool
  rejected : Bool
  deriving DecidableEq, Repr

/-- The body of WATCH_ARM (R524). -/
structure WatchBody where
  tap : Nat
  fmt : Nat
  modes : Nat
  selKind : Nat
  sel : Nat
  length : Nat
  cast : Nat
  castSeq : Nat
  result : Nat
  dumpVa : Nat
  event : Nat
  deriving DecidableEq, Repr

/-- A queue record of an image (R382 kind 0x03). -/
structure ImageQueue where
  number : Nat
  ring : Nat
  ringSize : Nat
  head : Nat
  tail : Nat
  cring : Nat
  cringSize : Nat
  chead : Nat
  ctail : Nat
  deriving DecidableEq, Repr

/-- A context with its queues and its host window (R382 kinds 0x02, 0x03 and 0x07): mappings as unit, object index, 64 MiB
ordinal and rights; token slots with their object index. -/
structure ImageCtx where
  id : Nat
  gen : Nat
  debuggable : Bool
  maps : List (Nat × Nat × Nat × Nat)
  tokens : List (Nat × Nat)
  queues : List ImageQueue
  hostH : Nat
  hostBits : BitVec 1024
  hostSeq : Nat
  deriving DecidableEq, Repr

/-- A memory object of an image with its memory (R382 kinds 0x04, 0x09 and 0x0A): the share group's members (context,
generation, WRITE), the export index and its peers, and its 64 MiB units as ordinal, tier B or not, and data. -/
structure ImageObj where
  handle : Nat
  kind : Nat
  rights : Nat
  size : Nat
  holders : List Nat
  group : Option (List (Nat × Nat × Bool))
  peers : Option (Nat × List Nat)
  tokens : Nat
  stride : Nat
  map : List (Nat × Nat)
  units : List (Nat × Bool × Bytes)
  poison : List (Nat × List Nat)
  deriving DecidableEq, Repr

/-- An event record of an image (R382 kind 0x05). -/
structure ImageEvt where
  handle : Nat
  state : Nat
  code : Code
  holders : List Nat
  deriving DecidableEq, Repr

/-- A slice image (R381, R382), as its header's fields and what its records open to. `pend` holds the PENDING records: context,
queue, element, raw descriptor; `chans` the CHANNEL records: channel, context, state, wrapped key. `recordsOk` is the verdict of
check 5 of R384 on every record's index, tag and content. -/
structure SliceImage where
  format : Nat
  target : Nat
  slice : Nat
  srcUnit : Nat
  srcSession : BitVec 64
  dstUnit : Nat
  domainId : Nat
  saveTime : Nat
  offerDigest : BitVec 256
  q : Point
  ct : KemBlob
  blob : Option WrappedBlob
  reserved : Nat
  hallmark : Option Hallmark
  signature : HybSig
  owner : Nat
  ctxs : List ImageCtx
  objs : List ImageObj
  evts : List ImageEvt
  pend : List (Nat × Nat × Nat × Bytes)
  chans : List (Nat × Nat × Bytes × WrappedBlob)
  recordsOk : Bool
  deriving DecidableEq, Repr

/-- The anchor in force and its term, and the epoch change in progress with its T once that is committed (R184, R197). -/
structure AnchorView where
  anchor : Nat
  term : Nat
  pending : Option (Nat × Option Nat)
  deriving DecidableEq, Repr

/-- Where an EXPORT puts its blob, and the saved record it takes, or none for the channel's own state (R133). -/
structure ExportTo where
  dst : Nat
  record : Option Nat
  deriving DecidableEq, Repr

/-- A member of a unit's pool of cores (R47). -/
structure PoolCore where
  pool : Nat
  core : Nat
  deriving DecidableEq, Repr

/-- What an access of R172 touches within its range: its address and length, whether it writes, and the bytes it would write. -/
structure Reach where
  addr : Nat
  len : Nat
  isWrite : Bool
  data : Bytes
  deriving DecidableEq, Repr

/-- A membership list with the digest that its sender names (R186). -/
structure MemberList where
  members : List Member
  digest : BitVec 256
  deriving DecidableEq, Repr

/-- The rest of a MEMBER_UPDATE (R186): a new policy, and the digest of the list that the update leaves. -/
structure AfterUpdate where
  policy : Option Policy
  digest : BitVec 256
  deriving DecidableEq, Repr

/-- The commands of the VTC: one constructor for each row of the table of operations and events, in the
table's order. -/
inductive Instr where
  | sessionStart
  | sessionEnd
  | start (e : StartEnv)
  | accelReady (failedCores : List Nat) (lanes : List Nat) (training : List (BitVec 32))
  | entropyHealthFail
  | drbgReseed
  | keyDerivation (r : DeriveReq)
  | replace (p : KeyPath) (src : ReplaceSrc) (kcv : BitVec 32)
  | replaceComplete (p : KeyPath)
  | destroy (p : KeyPath)
  | keyExport (p : KeyPath) (wrapper : Nat)
  | keyImport (slice ctx : Nat) (b : WrappedBlob)
  | annealCycle (durationMs : Nat)
  | usageReport (engine : Nat) (p : KeyPath) (items bytes : Nat)
  | keyUsageNotice (p : KeyPath)
  | keyUsageLimit (p : KeyPath)
  | vaultComplementMismatch (w : MismatchOf)
  | channelAllocate (h : MbxHdr) (ctx : Nat)
  | channelFree (h : MbxHdr) (ch : Nat)
  | chJob (ch ctx gen : Nat) (b : CipherBody)
  | chJobDone (ch : Nat)
  | chSave (ch ctx gen : Nat)
  | chExport (ch ctx gen : Nat) (dest : ExportTo)
  | chRestoreInternal (ch ctx gen : Nat) (record : Nat)
  | chRestoreBlob (ch ctx gen : Nat) (b : ChanBlob)
  | chAttach (ch ctx gen : Nat) (slot : Nat) (label : BitVec 256)
  | chDetach (ch ctx gen : Nat)
  | coreParityMispredict (unit : Nat) (core : PoolCore)
  | coreKatTest (unit pool : Nat) (pass : Bool)
  | bucketRefill
  | pageAccessViolation (page master : Nat)
  | hybridSign (cls slice : Nat) (msg : Bytes) (corrupted : Bool)
  | hybridVerify (cls slice : Nat) (keyLen sigLen : Nat) (key : HybKey) (msg : Bytes) (sig : HybSig)
  | hybridKeyAgreement (cls slice : Nat) (step : KaStep) (dest : KeyPath)
  | lcNonce
  | nonceExpire
  | lcRequest (r : SignedReq)
  | lcToken (target : BitVec 16) (tok : BitVec 128) (overCan : Bool)
  | debugRequest (r : SignedReq)
  | challengeExpire
  | debugGrant (r : SignedReq)
  | debugScrubDone
  | presenceEdge
  | presenceWindowEnd
  | protectViolation (master range : Nat) (reach : Reach)
  | identityEndorsement (e : Endorsement)
  | domainCreate (p : Policy)
  | domainJoin (domainId anchor : Nat) (ownerDigest : BitVec 256)
  | joinHello (m : DomHdr) (nonce : BitVec 256) (q : Point) (ek : KemBlob) (role : Nat)
  | joinChallenge (m : DomHdr) (nonce : BitVec 256) (q : Point) (ct : KemBlob) (hall : Hallmark)
  | joinEvidence (m : DomHdr) (hall : Hallmark)
  | joinAdmit (m : DomHdr) (p : Policy) (list : MemberList) (deputies : List Nat) (aEdge : Int)
      (aAge : Nat) (role : RoleGrant) (envs : List KeyEnvelope) (switchAt : Nat)
  | joinDone (m : DomHdr) (node port : Nat) (kcvs : List (BitVec 32))
  | joinRefuse (m : DomHdr)
  | joinTimeout (peer : Nat)
  | policyUpdate (p : Policy)
  | hostMember (h : HostRec)
  | hallmarkNonce (nonce : BitVec 256)
  | domainLeave (value : Nat)
  | memberDownReceived (n : Notice)
  | memberLeave (m : DomHdr)
  | epochCoalesceExpire
  | epochAgeLimit
  | epochPrepare (m : DomHdr) (next : Nat)
  | epochShare (m : DomHdr) (q : Point) (ek : KemBlob)
  | epochKey (m : DomHdr) (q : Point) (ct : KemBlob) (env : KeyEnvelope)
  | epochAck (m : DomHdr) (kcv : BitVec 32)
  | epochCommit (m : DomHdr) (switchAt : Nat)
  | epochAckTimeout (unit : Nat)
  | epochGraceEnd
  | memberUpdate (m : DomHdr) (added : List Member) (removed : List Nat) (hosts : List HostRec)
      (after : AfterUpdate)
  | anchorBeatTimer
  | anchorBeat (m : DomHdr)
  | anchorState (m : DomHdr) (members : List Member) (hosts : List HostRec) (policy : Policy)
      (view : AnchorView)
  | anchorProbe (m : DomHdr)
  | anchorSilence (reported : Bool)
  | claimWaitExpire
  | anchorClaim (m : DomHdr) (term : Nat) (deputies : List Nat)
  | domainTermStale (m : DomHdr)
  | roleHandoff (m : DomHdr) (role joiner step : Nat)
  | stateManifest (m : DomHdr) (role step bytes regions received : Nat) (fence : Code)
  | getVersion
  | getCapabilities (requested : BitVec 32)
  | negotiateAlgorithms (offered : SpdmOffer)
  | keyExchange (host : Nat) (q : Point) (ek : KemBlob)
  | finish (mac : BitVec 384) (sig : HybSig)
  | updateKey
  | updateAllKeys
  | verifyNewKey
  | heartbeat
  | endSession
  | getHallmark (nonce : BitVec 256)
  | frameSeal (r : SealReq)
  | frameEgress (port : Nat) (peer seq : Nat)
  | frameReceive (port : Nat) (f : Frame) (parityOk : Bool)
  | ackSend (peer : Nat)
  | ack (peer : Nat) (entries : List (Nat × Code))
  | retransmitTimer (peer seq : Nat)
  | keyMissFill (port peer domEpoch flowEpoch : Nat)
  | flowEpochSwitch (peer : Nat)
  | flowKeyRetire (peer : Nat)
  | fence (ctx queue : Nat) (report : Nat) (slot : Nat)
  | fenceTimeout (ctx queue : Nat)
  | nodeBinding (node unit port : Nat)
  | fabLanemap (port : Nat) (map : BitVec 15)
  | fabLaneup (port lane : Nat) (up : Bool)
  | stepStage (port : Nat) (slot : Nat)
  | chunkEmit (port stepSlot : Nat)
  | stepTimeout (port stepSlot : Nat)
  | stepSlotRelease (port stepSlot : Nat)
  | alloyLaneTest (port lane : Nat) (pass : Bool)
  | pewterRead (r : PewReq)
  | pewterFullWrite (r : PewReq) (data : BitVec 2048)
  | pewterPartialWrite (r : PewReq) (mask : BitVec 256) (data : BitVec 2048)
  | poolReadCompletion (port tag status : Nat) (data : Bytes) (parityOk : Bool)
  | poolWack (port count : Nat)
  | poolTimeout (port : Nat)
  | regionRotate (region : Nat)
  | rotationSweep (region : Nat)
  | stkRequest (stack page : Nat) (isWrite : Bool) (ctx gen : Nat)
  | scrubDone (page : Nat)
  | scrubWriteFail (page stack : Nat)
  | hostInbound (slot : Nat)
  | hostRecordArrive (slot : Nat) (r : BounceRec) (transportOk : Bool)
  | hostOutbound (slot : Nat) (accepted : Bool)
  | bounceState (h : MbxHdr)
  | rekeyDue
  | msixUnmask (m : MsixMask)
  | atsInvalidate (pasid addr size : Nat)
  | atsCompletion (ctx queue : Nat) (a : AtsAnswer)
  | prgResponse (ctx queue : Nat) (success : Bool)
  | submit (cp ctx queue : Nat) (raw : Bytes) (parityOk : Bool)
  | pendingPieceSeal (ctx queue : Nat)
  | translationWalk (ctx queue : Nat)
  | check (cp exec queueId : Nat) (desc : Bytes)
  | pieceRetire (slot : Nat) (code : Code) (detail : Nat)
  | cpqDone (cp count : Nat)
  | doorbell (ctx queue tail : Nat)
  | cqHead (ctx queue head : Nat)
  | faultHoldLimit (ctx queue : Nat)
  | alloc (slot : Nat)
  | free (slot : Nat)
  | objectRelease (isEvent : Bool) (index : Nat)
  | eventCreate (slot : Nat)
  | eventFree (slot : Nat)
  | queueCreate (h : MbxHdr) (ctx queue ring ringSize cring cringSize vector : Nat)
  | queueDestroy (h : MbxHdr) (ctx queue : Nat) (undrained : List Bytes)
  | windowExport (h : MbxHdr) (handle rights : Nat) (nodes : List Nat)
  | objectInfo (h : MbxHdr) (handle : Nat)
  | pasidBind (h : MbxHdr) (slice pasid : Nat)
  | contextCreate (h : MbxHdr) (slice id flags : Nat)
  | contextDestroy (h : MbxHdr) (id : Nat) (undrained : List (Nat × Bytes))
  | eventShare (h : MbxHdr) (handle other : Nat)
  | memoryShare (h : MbxHdr) (handle other va rights : Nat)
  | eventQuery (h : MbxHdr) (handle : Nat)
  | ctxUsage (h : MbxHdr) (id : Nat)
  | sliceFreeze (h : MbxHdr) (slice tilesDone : Nat)
  | sliceThaw (h : MbxHdr) (slice : Nat)
  | sliceOffer (h : MbxHdr) (slice hostAddr : Nat)
  | offerExpire (offer : Nat)
  | sliceSave (h : MbxHdr) (slice target : Nat) (offer : Option (Nat × BitVec 64 × Nat × BitVec 256 × Point × KemBlob)) (hall : Option Hallmark) (extents : Nat)
  | sliceRestore (h : MbxHdr) (slice : Nat) (image : SliceImage)
  | tenantSlices (n : Nat)
  | arrayClean
  | arrTileevt (count : Nat)
  | arrFaultevt (code core : Nat) (coreFailed : Bool)
  | arrayCleanTimeout
  | arrayRecoveryTimeout
  | deferralExpire (slot : Nat)
  | deadlineWithdraw (slot : Nat)
  | throttleWindow
  | capacityChange
  | trefLock
  | trefLoss
  | tpulseEdge (at125ps : Nat)
  | tpulseMissing
  | tpulseSilence
  | virtualEdge
  | timeLo
  | castArm (via : CastVia) (kind : Nat) (flags : Nat) (fire : Nat) (param : Nat)
  | castStageAck (number target : Nat)
  | castCancel (h : MbxHdr) (number seq : Nat)
  | timeNow (h : MbxHdr)
  | castFire (number : Nat)
  | commitAt (time : Nat)
  | freezeAt (time : Nat)
  | clkdStop (index : Nat)
  | clkdResume (index : Nat)
  | neighbourRst (g : Group) (index : Nat)
  | neighbourRstRelease (g : Group) (index : Nat)
  | neighbourFlush (g : Group) (index : Nat)
  | nflushLate (g : Group) (index : Nat)
  | networkResend (r : Resend)
  | errorLatch (unit cls cause whereAt : Nat) (scope : ErrScope)
  | errorClose (unit : Nat)
  | handlerDeadlineMiss (unit : Nat)
  | lockstepMismatch
  | engineReset (unit : Nat) (pools : List (Nat × List Nat))
  | partitionReset (slice : Nat)
  | tcuRestart (c : TcuCause)
  | chipWarmReset (c : ChipCause)
  | noticeRepeat
  | quench (unit check whereAt : Nat)
  | quenchRelease (r : SignedReq)
  | hbTcu (fromTcu : Bool) (beat inv : BitVec 16)
  | hbMgmt (fromMgmt : Bool) (beat inv : BitVec 16)
  | tcuBeatTimeout5ms
  | tcuBeatTimeout50ms
  | mgmtHbTimeout
  | mgmtHbNotArmed
  | startBeatTimeout
  | sentinelSilent (silentB : Bool)
  | resetRequest (e : Envelope)
  | fwImage (img : Image)
  | fwChunk (h : MbxHdr) (offset : Nat) (data : Bytes)
  | fwCommit (h : MbxHdr) (total : Nat)
  | afwLoad (h : MbxHdr) (page : Nat)
  | afwCtrlGo (img : Image) (coresFailed : List Nat)
  | mapFill (core : Nat) (time : Nat)
  | spareCheckDone (pass : Bool)
  | mapRole (h : MbxHdr) (role time : Nat)
  | mapVacant (h : MbxHdr)
  | trainSave (fromMgmt : Bool)
  | trainLoad
  | trainData (write : Option (BitVec 32))
  | retrain (ports : BitVec 32)
  | healthPlan (gauges : List GaugeRead)
  | creepRecord
  | opticsIn (fromMgmt : Bool) (port : Nat) (word : BitVec 32)
  | opticsStale (port : Nat)
  | vholdSample (mv : Nat)
  | pfailN (e : SaveEnv)
  | leadboxRecord
  | nextComplementMismatch
  | summaryFold
  | lbxCursorHi (hi : BitVec 32)
  | lbxWindowAuto
  | lbxVerify
  | lbxNextLo
  | lbxRecord
  | lbxCursor (n : Nat)
  | freezeIn
  | frzTimeLo
  | liveCounterLo (offset : Nat)
  | watchArm (h : MbxHdr) (b : WatchBody)
  | watchCancel (h : MbxHdr) (watch : Nat)
  | digestRotate (h : MbxHdr)
  | watchTimeout (watch : Nat)
  | dumpEnable (e : Envelope)
  | initiateRead (requester txn index sub : Nat) (shadow : Bool)
  | initiateWrite (requester txn index sub total : Nat) (crc : BitVec 32) (data : Bytes)
  | initiateDescribe (requester txn index sub : Nat)
  | mdtSegment (requester txn segno : Nat) (data : Bytes)
  | mdtAck (requester txn next : Nat)
  | mdtAbort (requester txn result : Nat)
  | transferTimeout (requester txn : Nat)
  | addressAssign (unitId address : Nat)
  | statusFrame
  | mgtBusoff
  | configStore
  | dictRead (h : MbxHdr) (index sub slice : Nat)
  | dictDescribe (h : MbxHdr) (index sub slice : Nat)
  | registerWrite (addr : Nat) (value : BitVec 32) (master : Nat)
  | busOffRecovery
  | recordLimitWindow
  deriving DecidableEq, Repr

end Sys2Proof
end

