-- ==== Sys2Proof/Config.lean ====
section
/-!
DEFINITION. Config.lean: what the manual leaves to a standard, to an implementation or to chance.
Every opaque constant here is uninterpreted: nothing in Lean can find a value of one, so a statement holds
whatever it is. Primitives of FIPS and NIST standards that the manual names stand here by their
standard's interface (assumption log 3); free values are one function of a counter (log 4).
-/
namespace Sys2Proof.Config

/-- The field prime of P-384 (FIPS 186-5). -/
def p384 : Nat := 2 ^ 384 - 2 ^ 128 - 2 ^ 96 + 2 ^ 32 - 1

/-- The constant b of the curve P-384. -/
def p384b : Nat :=
  0xB3312FA7E23EE7E4988E056BE3F82D19181D9C6EFE8141120314088F5013875AC656398D8A2ED19D2A85C8EDD3EC2AEF

/-- The base point of P-384, uncompressed. -/
def basePoint : Point := BitVec.ofNat 776 (4 * 2 ^ 768 +
  0xAA87CA22BE8B05378EB1C71EF320AD746E1D3B628BA79B9859F741E082542A385502F25DBF55296C3A545E3872760AB7 * 2 ^ 384 +
  0x3617DE4A96262C6F5D9E98BF9292DC29F8F41DBD289A147CE9DA3113B5F0B8C00A60B1CE1D7E819D7A431D7C90EA0E5F)

/-- The point checks of R147: uncompressed form, which infinity has not, coordinates below the field prime, on the curve. -/
def onCurve (q : Point) : Bool :=
  let x := (q.extractLsb' 384 384).toNat
  let y := (q.extractLsb' 0 384).toNat
  q.extractLsb' 768 8 == 4#8 && decide (x < p384) && decide (y < p384) &&
    decide ((y * y + 3 * x) % p384 = (x * x * x + p384b) % p384)

/-- The first 1,536 bytes of an encapsulation key as one number, the first byte the least. -/
def kemCoeffs (ek : KemBlob) : Nat := (List.range 1536).foldr (fun j v => v * 256 + (ek.extractLsb' (8 * (1567 - j)) 8).toNat) 0

/-- The modulus check of FIPS 203 on an ML-KEM-1024 encapsulation key (R147): each of its 1,024 coefficients of 12 bits is below
3,329. -/
def kemModulus (ek : KemBlob) : Bool :=
  let v := kemCoeffs ek
  (List.range 1024).all fun i => decide (v / 4096 ^ i % 4096 < 3329)

/-- A hybrid public key with a point on the curve: a key that has one as it is. -/
def hybOnCurve (k : HybKey) : HybKey :=
  if onCurve (k.extractLsb' 20736 776) then k else basePoint ++ (k.extractLsb' 0 20736 : BitVec 20736)

/-- A value that nothing constrains: `freeBits w n` is the n-th free value of width w (log 4).
DRBG output (R87) and every value the manual leaves open come from it. -/
opaque freeBits : (w : Nat) → Nat → BitVec w

/-- The mailbox opcodes of channel allocation (0) and release (1), which the manual does not give (log 16). -/
opaque chanOpcode : Nat → Nat

/-- The stack that holds a tier-A address: the manual spreads every page over the 16 stacks and gives no order (R297, log 4). -/
opaque stackOf : Nat → Nat

/-- Partial accumulators of an alloy: the manual gives no number (R242, R406, log 4). -/
opaque accumulators : Nat

/-- SHA-384 (FIPS 180-4). -/
opaque sha384 : Bytes → Dig384

/-- HKDF-Expand with HMAC-SHA-384 to 32 bytes (R303). -/
opaque hkdfExpand32 : BitVec 384 → Bytes → Key

/-- The SPDM 1.3 key schedule: the master secret of a handshake secret (R103). -/
opaque spdmMaster : BitVec 384 → BitVec 384

/-- The SPDM 1.3 key schedule: the MAC that FINISH must carry, of a handshake secret and the transcript (R198). -/
opaque spdmFinished : BitVec 384 → Bytes → BitVec 384

/-- The SPDM 1.3 key schedule step: the request-direction and response-direction application
secrets of a master secret (R103). -/
opaque spdmSecrets : BitVec 384 → BitVec 384 × BitVec 384

/-- One SPDM 1.3 key update of an application secret (R304). -/
opaque spdmUpdate : BitVec 384 → BitVec 384

/-- The r part of an ECDSA P-384 signature, of a per-signature secret (R143, log 5). -/
opaque ecdsaR : BitVec 384 → BitVec 384

/-- The s part that makes r a valid ECDSA P-384 signature of a message under a key (R143, R144, log 5). -/
opaque ecdsaS : HybKey → Bytes → BitVec 384 → BitVec 384

/-- The remaining cases of ECDSA verification, uninterpreted (log 5). -/
opaque ecdsaOther : HybKey → Bytes → BitVec 768 → Bool

/-- The commitment hash of an ML-DSA-87 signature: of a key, a context string, a message and 32 random bytes (R143, log 5). -/
opaque mldsaC : HybKey → Bytes → Bytes → BitVec 256 → BitVec 512

/-- The rest of the ML-DSA-87 signature that a commitment hash makes valid (R143, R144, log 5). -/
opaque mldsaZ : HybKey → Bytes → Bytes → BitVec 512 → BitVec 36504

/-- The remaining cases of ML-DSA-87 verification under a context string, uninterpreted (log 5). -/
opaque mldsaOther : HybKey → Bytes → Bytes → BitVec 37016 → Bool

/-- The ML-DSA-87 public key of a seed ξ (FIPS 204, R97). -/
opaque mldsaPub : BitVec 256 → BitVec 20736

/-- The P-384 point of a private key (R146), which FIPS 186-5 makes a point of the curve. -/
opaque ecPointOf : BitVec 384 → Point
def ecPoint (d : BitVec 384) : Point := if onCurve (ecPointOf d) then ecPointOf d else basePoint

/-- The x-coordinate that the private keys of two points share (R146): of the two points in rising order. -/
opaque ecShared : Point → Point → BitVec 384

/-- The ML-KEM-1024 encapsulation key of a private seed (R146), whose coefficients FIPS 203 keeps below the modulus. -/
opaque kemKeyOf : BitVec 512 → KemBlob
def kemKey (d : BitVec 512) : KemBlob := if kemModulus (kemKeyOf d) then kemKeyOf d else 0

/-- The ciphertext of an ML-KEM-1024 encapsulation to a key with 32 random bytes (R146). -/
opaque kemCt : KemBlob → BitVec 256 → KemBlob

/-- The shared key of an ML-KEM-1024 ciphertext to a key (R146). -/
opaque kemShared : KemBlob → KemBlob → BitVec 256

/-- The mask generator of the engines (R110): its n-th value after a reseed. -/
opaque maskGen : BitVec 256 → Nat → BitVec 512

/-- BCH(255,131) decoding of one word: the 131 data bits and the corrected bits, none beyond 18
errors (the chapter's regeneration pseudocode, R90). -/
opaque bchDecode : BitVec 255 → Option (BitVec 131 × Nat)

/-- BCH(255,131) encoding (enrolment, R89). -/
opaque bchEncode : BitVec 131 → BitVec 255

/-- What the host-admission key signs of a host member record: the manual gives the record no format (R176, log 6). -/
opaque hostMsg : Nat → HybKey → Bytes

/-- The host member record that the bytes of a dictionary write spell, or none where they spell none (R176, log 6). -/
opaque hostRecOf : Bytes → Option HostRec

/-- The fabric node and port by which a unit that no node is bound to is reached: the fabric manager's routing (R186), which the spec
does not give (log 91). -/
opaque joinRoute : Nat → BitVec 13 × Fin 18

/-- The KCV of an identity seed, which is wider than the key that R106 takes (log 4). -/
opaque kcvWide : BitVec 512 → BitVec 32

/-- The new-part cycle of a gauge at rail voltage (mV), temperature (tenths above 0 °C as Nat), and
tap, in ps: the creep reference record written at wafer sort (R484). -/
opaque refModel : Nat → Nat → Int → Nat → Nat

/-- Keys of the parties whose digests the boot ROM holds (R155, R463): hybrid public keys, with points of the curve. -/
opaque mfgKeyBits : HybKey
opaque serviceKeyBits : HybKey
opaque firmwareKeyBits : HybKey
def mfgKey : HybKey := hybOnCurve mfgKeyBits
def serviceKey : HybKey := hybOnCurve serviceKeyBits
def firmwareKey : HybKey := hybOnCurve firmwareKeyBits

/-- The Vendor ID of the accelerator's physical function, which the manual does not give (R198, log 22). -/
opaque vendorId : BitVec 16

/-- The unit identifier written at wafer sort: [63:48] 0 (R176). -/
opaque unitSerial : BitVec 48

/-- The Vendor silicon stepping as two ASCII bytes (R181, R546). -/
opaque stepping : BitVec 16

/-- The secret that this unit's PUF cells were enrolled with, and the cells themselves (R89). -/
opaque pufCells : Nat → BitVec 5355

/-- The 128-bit tokens that Gyondist issues for this unit, by transition (R160). -/
opaque token : Nat → BitVec 128

end Sys2Proof.Config
end

