-- ==== Sys2Proof/Machine/Util.lean ====
section
/-!
DEFINITION. Util.lean: byte order, sparse tables and saturating counters (R12, R18).
-/
namespace Sys2Proof.Machine

/-- The low `n` bytes of v, least significant first (R12). -/
def le : Nat → Nat → Bytes
  | 0, _ => []
  | n + 1, v => BitVec.ofNat 8 v :: le n (v / 256)

/-- The low `n` bytes of v, most significant first. -/
def be (n v : Nat) : Bytes := (le n v).reverse

/-- The number a little-endian byte string spells. -/
def leNat : Bytes → Nat
  | [] => 0
  | b :: r => b.toNat + 256 * leNat r

/-- `n` bytes from offset `off` of a format, little-endian (R12); bytes past the end read as 0. -/
def fld (b : Bytes) (off n : Nat) : Nat := leNat ((b.drop off).take n)

/-- Bits [hi:lo] of a word. -/
def bits (v hi lo : Nat) : Nat := v / 2 ^ lo % 2 ^ (hi + 1 - lo)

/-- One bit of a word. -/
def bit (v n : Nat) : Bool := bits v n n == 1

/-- A flag as a number. -/
def b2n (b : Bool) : Nat := if b then 1 else 0

/-- ASCII bytes of a label. -/
def ascii (t : String) : Bytes := t.toList.map fun c => BitVec.ofNat 8 c.toNat

/-- A byte string brought to exactly n bytes: cut, or padded with zero bytes. -/
def fit (n : Nat) (b : Bytes) : Bytes := b.take n ++ List.replicate (n - b.length) 0

/-- A counter field that stops at its largest value. -/
def sat (w v : Nat) : Nat := min v (2 ^ w - 1)

/-- The value listed for k. -/
def tget {α : Type} : Table α → Nat → Option α
  | [], _ => none
  | (a, v) :: r, k => if a = k then some v else tget r k

/-- The value listed for k, or d. -/
def tgetD {α : Type} (t : Table α) (k : Nat) (d : α) : α := (tget t k).getD d

/-- List v for k, keeping the keys in rising order. -/
def tset {α : Type} : Table α → Nat → α → Table α
  | [], k, v => [(k, v)]
  | (a, b) :: r, k, v =>
    if k < a then (k, v) :: (a, b) :: r
    else if k = a then (k, v) :: r
    else (a, b) :: tset r k v

/-- List nothing for k. -/
def tdel {α : Type} (t : Table α) (k : Nat) : Table α := t.filter fun p => p.1 != k

/-- Change the value listed for k, if one is. -/
def tmod {α : Type} (t : Table α) (k : Nat) (f : α → α) : Table α :=
  t.map fun p => if p.1 = k then (p.1, f p.2) else p

/-- A counter table: unlisted counters are 0. -/
def tcount (t : Table Nat) (k : Nat) : Nat := tgetD t k 0

/-- Add n to a counter. -/
def tbump (t : Table Nat) (k n : Nat) : Table Nat := tset t k (tcount t k + n)

/-- Keys in strictly rising order. -/
def rising {α : Type} : Table α → Bool
  | [] => true
  | [_] => true
  | (a, _) :: (b, w) :: r => decide (a < b) && rising ((b, w) :: r)

/-- A multiple of a that is at least v. -/
def roundUp (v a : Nat) : Nat := (v + a - 1) / a * a

/-- Set or clear a member of a list of numbers. -/
def insertN (l : List Nat) (n : Nat) : List Nat := if l.contains n then l else l ++ [n]

/-- Remove a number. -/
def eraseN (l : List Nat) (n : Nat) : List Nat := l.filter (· != n)

/-- Bits of a list of flags, element 0 lowest. -/
def packBits : List Bool → Nat
  | [] => 0
  | b :: r => b2n b + 2 * packBits r

end Sys2Proof.Machine
end

