-- ==== Sys2Proof/Machine/Aes.lean ====
section
/-!
DEFINITION. Aes.lean: AES-256 (FIPS 197) and the modes of SP 800-38B and SP 800-38D that the units use, over it.
-/
namespace Sys2Proof.Machine

/-- The S-box of FIPS 197: entry b is byte b of this number. -/
def sboxTable : Nat :=
  0x16bb54b00f2d99416842e6bf0d89a18cdf2855cee9871e9b948ed9691198f8e19e1dc186b95735610ef6034866b53e708a8bbd4b1f74dde8c6b4a61c2e2578ba08ae7a65eaf4566ca94ed58d6d37c8e779e4959162acd3c25c2406490a3a32e0db0b5ede14b8ee4688902a22dc4f816073195d643d7ea7c41744975fec130ccdd2f3ff1021dab6bcf5389d928f40a351a89f3c507f02f94585334d43fbaaefd0cf584c4a39becb6a5bb1fc20ed00d153842fe329b3d63b52a05a6e1b1a2c830975b227ebe28012079a059618c323c7041531d871f1e5a534ccf73f362693fdb7c072a49cafa2d4adf04759fa7dc982ca76abd7fe2b670130c56f6bf27b777c63

/-- The inverse S-box of FIPS 197: entry b is byte b of this number. -/
def sboxInvTable : Nat :=
  0x7d0c2155631469e126d677ba7e042b17619953833cbbebc8b0f52aae4d3be0a0ef9cc9939f7ae52d0d4ab519a97f51605fec8027591012b131c7078833a8dd1ff45acd78fec0db9a2079d2c64b3e56fc1bbe18aa0e62b76f89c5291d711af1476edf751ce837f9e28535ade72274ac9673e6b4f0cecff297eadc674f4111913a6b8a130103bdafc1020f3fca8f1e2cd00645b3b80558e4f70ad3bc8c00abd890849d8da75746155edab9edfd5048706c92b6655dcc5ca4d41698688664f6f87225d18b6d49a25b76b224d92866a12e084ec3fa420b954cee3d23c2a632947b54cbe9dec444438e3487ff2f9b8239e37cfbd7f3819ea340bf38a53630d56a0952

/-- One byte through a table of 256 bytes. -/
def subByte (table b : Nat) : Nat := (table >>> (8 * b)) % 256

/-- Multiplication by x in the field of FIPS 197. -/
def xtime (b : Nat) : Nat := if b < 128 then 2 * b else Nat.xor (2 * b - 256) 0x1B

/-- Multiplication in the field of FIPS 197 by a factor below 16. -/
def fieldMul (f b : Nat) : Nat :=
  let x2 := xtime b
  let x4 := xtime x2
  let x8 := xtime x4
  Nat.xor (Nat.xor (if f % 2 = 1 then b else 0) (if f / 2 % 2 = 1 then x2 else 0))
    (Nat.xor (if f / 4 % 2 = 1 then x4 else 0) (if f / 8 % 2 = 1 then x8 else 0))

/-- XOR of two strings of numbers. -/
def xorNats (a b : List Nat) : List Nat := List.zipWith Nat.xor a b

/-- MixColumns of one column with a matrix's first row; each later row is the one above it turned right. -/
def mixColumn (row col : List Nat) : List Nat :=
  (List.range 4).map fun i =>
    ((List.range 4).map fun j => fieldMul (row.getD ((j + 4 - i) % 4) 0) (col.getD j 0)).foldl Nat.xor 0

/-- MixColumns of a state of 16 bytes, column after column. -/
def mixColumns (row st : List Nat) : List Nat :=
  (List.range 4).flatMap fun c => mixColumn row ((st.drop (4 * c)).take 4)

/-- ShiftRows by a step: 1 encrypts, 3 turns back. -/
def shiftRows (step : Nat) (st : List Nat) : List Nat :=
  (List.range 16).map fun i => st.getD ((i + 4 * step * (i % 4)) % 16) 0

/-- The next word of the key schedule of AES-256, from the eight before it. -/
def nextWord (i rcon : Nat) (ws : List (List Nat)) : List Nat :=
  let last := ws.getD 7 []
  let t := if i % 8 = 0 then
      xorNats ((last.drop 1 ++ last.take 1).map (subByte sboxTable)) [rcon, 0, 0, 0]
    else if i % 8 = 4 then last.map (subByte sboxTable) else last
  xorNats (ws.getD 0 []) t

/-- The words of the key schedule from the i-th on, from the eight before them. -/
def moreWords : Nat → Nat → Nat → List (List Nat) → List (List Nat)
  | 0, _, _, _ => []
  | n + 1, i, rcon, ws =>
    let w := nextWord i rcon ws
    w :: moreWords n (i + 1) (if i % 8 = 0 then xtime rcon else rcon) (ws.drop 1 ++ [w])

/-- The fifteen round keys of AES-256 (FIPS 197). -/
def roundKeys (k : Key) : List (List Nat) :=
  let bytes := (be 32 k.toNat).map BitVec.toNat
  let first := (List.range 8).map fun i => (bytes.drop (4 * i)).take 4
  let ws := first ++ moreWords 52 8 1 first
  (List.range 15).map fun r => ((ws.drop (4 * r)).take 4).flatten

/-- The rounds of encryption after the first key; the last round mixes no columns. -/
def encRounds : List Nat → List (List Nat) → List Nat
  | st, [] => st
  | st, [k] => xorNats (shiftRows 1 (st.map (subByte sboxTable))) k
  | st, k :: r => encRounds (xorNats (mixColumns [2, 3, 1, 1] (shiftRows 1 (st.map (subByte sboxTable)))) k) r

/-- The rounds of decryption after the last key. -/
def decRounds : List Nat → List (List Nat) → List Nat
  | st, [] => st
  | st, [k] => xorNats ((shiftRows 3 st).map (subByte sboxInvTable)) k
  | st, k :: r => decRounds (mixColumns [14, 11, 13, 9] (xorNats ((shiftRows 3 st).map (subByte sboxInvTable)) k)) r

/-- A block as 16 numbers, and back. -/
def blockNats (v : BitVec 128) : List Nat := (be 16 v.toNat).map BitVec.toNat
def natsBlock (l : List Nat) : BitVec 128 := BitVec.ofNat 128 (l.foldl (fun a b => a * 256 + b) 0)

/-- One AES-256 block encryption (FIPS 197, R121). -/
@[irreducible] def aesBlock (k : Key) (v : BitVec 128) : BitVec 128 :=
  match roundKeys k with
  | [] => v
  | k0 :: r => natsBlock (encRounds (xorNats (blockNats v) k0) r)

/-- One AES-256 block decryption (FIPS 197, R121). -/
@[irreducible] def aesInv (k : Key) (v : BitVec 128) : BitVec 128 :=
  match (roundKeys k).reverse with
  | [] => v
  | k14 :: r => natsBlock (decRounds (xorNats (blockNats v) k14) r)

/-- Up to 16 bytes as a block, first byte most significant, padded with zero bytes. -/
def toBlock (b : Bytes) : BitVec 128 := BitVec.ofNat 128 (leNat (fit 16 b).reverse)

/-- The 16 bytes of a block. -/
def ofBlock (v : BitVec 128) : Bytes := be 16 v.toNat

/-- Pieces of 16 bytes, the last as long as it is. -/
def chunks : Nat → Bytes → List Bytes
  | 0, _ => []
  | n + 1, b => if b = [] then [] else b.take 16 :: chunks n (b.drop 16)

/-- The blocks of a string, the last padded with zero bytes. -/
def blocksOf (b : Bytes) : List (BitVec 128) := (chunks b.length b).map toBlock

/-- Multiplication in the field of GCM (SP 800-38D). -/
def gfMul (x y : BitVec 128) : BitVec 128 :=
  ((List.range 128).foldl (fun (zv : BitVec 128 × BitVec 128) i =>
    (if x.getMsbD i then zv.1 ^^^ zv.2 else zv.1,
     if zv.2.getLsbD 0 then (zv.2 >>> 1) ^^^ ((0xE1#128) <<< 120) else zv.2 >>> 1)) (0, y)).1

/-- GHASH of further blocks from an accumulator. -/
def ghash (h : BitVec 128) (y : BitVec 128) (bs : List (BitVec 128)) : BitVec 128 :=
  bs.foldl (fun y b => gfMul (y ^^^ b) h) y

/-- A counter block with its low 32 bits advanced (R123). -/
def inc32 (c : BitVec 128) (n : Nat) : BitVec 128 :=
  c.extractLsb' 32 96 ++ (c.setWidth 32 + BitVec.ofNat 32 n)

/-- Keystream of a counter block and those after it: n bytes. -/
def ctrBytes (k : Key) (c : BitVec 128) (n : Nat) : Bytes :=
  ((List.range ((n + 15) / 16)).flatMap fun i => ofBlock (aesBlock k (inc32 c i))).take n

/-- J0 of a 96-bit IV. -/
def gcmJ0 (iv : BitVec 96) : BitVec 128 := iv ++ 1#32

/-- The lengths block of GCM, in bits. -/
def lenBlock (aad text : Nat) : BitVec 128 := BitVec.ofNat 64 (8 * aad) ++ BitVec.ofNat 64 (8 * text)

/-- The keystream of GCM under a 96-bit IV: n bytes. -/
@[irreducible] def ctrStream (k : Key) (iv : BitVec 96) (n : Nat) : Bytes := ctrBytes k (inc32 (gcmJ0 iv) 1) n

/-- The full GCM tag over AAD and ciphertext. -/
@[irreducible] def gcmTag (k : Key) (iv : BitVec 96) (aad ct : Bytes) : Tag :=
  let h := aesBlock k 0
  ghash h 0 (blocksOf aad ++ blocksOf ct ++ [lenBlock aad.length ct.length]) ^^^ aesBlock k (gcmJ0 iv)

/-- Doubling of a CMAC subkey. -/
def dbl (v : BitVec 128) : BitVec 128 := if v.getMsbD 0 then (v <<< 1) ^^^ 0x87#128 else v <<< 1

/-- The CMAC subkeys K1 and K2 of a key. -/
def subkeys (k : Key) : BitVec 128 × BitVec 128 :=
  let k1 := dbl (aesBlock k 0)
  (k1, dbl k1)

/-- The last step of CMAC: the held-back block, whole or padded, masked with its subkey. -/
def cmacEnd (k : Key) (sub : BitVec 128 × BitVec 128) (y : BitVec 128) (last : Bytes) : BitVec 128 :=
  if last.length = 16 then aesBlock k (y ^^^ toBlock last ^^^ sub.1)
  else aesBlock k (y ^^^ toBlock (last ++ [0x80#8]) ^^^ sub.2)

/-- The last step of CMAC where the subkeys are computed beside it. -/
def cmacLast (k : Key) (y : BitVec 128) (last : Bytes) : BitVec 128 := cmacEnd k (subkeys k) y last

/-- CMAC blocks before the last one. -/
def cmacFold (k : Key) (y : BitVec 128) (bs : List Bytes) : BitVec 128 :=
  bs.foldl (fun y b => aesBlock k (y ^^^ toBlock b)) y

/-- AES-256-CMAC (SP 800-38B) with subkeys that are held with the key (R96). -/
@[irreducible] def cmacSub (k : Key) (sub : BitVec 128 × BitVec 128) (m : Bytes) : BitVec 128 :=
  let bs := chunks m.length m
  cmacEnd k sub (cmacFold k 0 bs.dropLast) (bs.getLast?.getD [])

/-- AES-256-CMAC (SP 800-38B). -/
def cmac (k : Key) (m : Bytes) : BitVec 128 := cmacSub k (subkeys k) m

end Sys2Proof.Machine
end

