-- ==== Sys2Proof/Machine/Codes.lean ====
section
/-!
DEFINITION. Codes.lean: the status codes of R20 and those the chapters add (R21), and the unit indices of R438.
-/
namespace Sys2Proof.Machine

/-- OK (R20). -/
abbrev cOk : Code := 0x00#8
/-- DEFERRED (R20). -/
abbrev cDeferred : Code := 0x01#8
/-- REFUSED_SHARE (R20). -/
abbrev cRefusedShare : Code := 0x02#8
/-- REFUSED_QUEUE (R20). -/
abbrev cRefusedQueue : Code := 0x03#8
/-- REFUSED_DEADLINE (R20). -/
abbrev cRefusedDeadline : Code := 0x04#8
/-- BUSY_QUIESCE (R20). -/
abbrev cBusyQuiesce : Code := 0x0A#8
/-- FAULT_UNMAPPED (R20). -/
abbrev cFaultUnmapped : Code := 0x10#8
/-- FAULT_PERMISSION (R20). -/
abbrev cFaultPermission : Code := 0x11#8
/-- STALE_HANDLE (R20). -/
abbrev cStaleHandle : Code := 0x12#8
/-- POISONED_TARGET (R20). -/
abbrev cPoisonedTarget : Code := 0x13#8
/-- DESCRIPTOR_INVALID (R359). -/
abbrev cDescriptorInvalid : Code := 0x14#8
/-- MEMORY_SHARE_FULL (R359). -/
abbrev cMemoryShareFull : Code := 0x15#8
/-- OBJECT_TABLE_FULL (R359). -/
abbrev cObjectTableFull : Code := 0x16#8
/-- RANGE_NOT_CONTIGUOUS (R359). -/
abbrev cRangeNotContiguous : Code := 0x17#8
/-- SLICE_IMAGE_CONFLICT (R387). -/
abbrev cSliceImageConflict : Code := 0x18#8
/-- CONTEXT_TABLE_FULL (R387). -/
abbrev cContextTableFull : Code := 0x1A#8
/-- FENCE_INDETERMINATE (R20). -/
abbrev cFenceIndeterminate : Code := 0x20#8
/-- ABANDONED (R20). -/
abbrev cAbandoned : Code := 0x21#8
/-- CAST_TIME_INVALID (R434). -/
abbrev cCastTimeInvalid : Code := 0x22#8
/-- CAST_FAILED (R434). -/
abbrev cCastFailed : Code := 0x23#8
/-- CAST_CANCELLED (R434). -/
abbrev cCastCancelled : Code := 0x24#8
/-- WATCH_INCOMPLETE (R523). -/
abbrev cWatchIncomplete : Code := 0x25#8
/-- WATCH_INVALID (R523). -/
abbrev cWatchInvalid : Code := 0x26#8
/-- ABORTED_RESET (R20). -/
abbrev cAbortedReset : Code := 0x30#8
/-- TARGET_RESET (R20). -/
abbrev cTargetReset : Code := 0x31#8
/-- GENERATION_DISCARD (R20). -/
abbrev cGenerationDiscard : Code := 0x32#8
/-- EXECUTOR_RESET (R67). -/
abbrev cExecutorReset : Code := 0x33#8
/-- DEVICE_DOWN (R455). -/
abbrev cDeviceDown : Code := 0x34#8
/-- CORE_VACANT (R479). -/
abbrev cCoreVacant : Code := 0x35#8
/-- IMAGE_INVALID (R479). -/
abbrev cImageInvalid : Code := 0x36#8
/-- NO_SPARE (R479). -/
abbrev cNoSpare : Code := 0x37#8
/-- KEY_LIMIT (R119). -/
abbrev cKeyLimit : Code := 0x40#8
/-- KEY_DESTROYED (R119). -/
abbrev cKeyDestroyed : Code := 0x41#8
/-- KEY_CHECK_MISMATCH (R119). -/
abbrev cKeyCheckMismatch : Code := 0x42#8
/-- KEY_UNWRAP_FAIL (R119). -/
abbrev cKeyUnwrapFail : Code := 0x43#8
/-- KEY_SLOTS_FULL (R119). -/
abbrev cKeySlotsFull : Code := 0x44#8
/-- CHAN_TAG_FAIL (R140). -/
abbrev cChanTagFail : Code := 0x45#8
/-- CHAN_STATE_INVALID (R140). -/
abbrev cChanStateInvalid : Code := 0x46#8
/-- CHAN_PARAM (R140). -/
abbrev cChanParam : Code := 0x47#8
/-- SIGNATURE_INVALID (R140). -/
abbrev cSignatureInvalid : Code := 0x48#8
/-- PK_INPUT_INVALID (R140). -/
abbrev cPkInputInvalid : Code := 0x49#8
/-- REMOTE_FAILED_REPEAT (R232). -/
abbrev cRemoteFailedRepeat : Code := 0x4A#8
/-- STEP_INVALID (R259). -/
abbrev cStepInvalid : Code := 0x4B#8
/-- STEP_MISMATCH (R259). -/
abbrev cStepMismatch : Code := 0x4C#8
/-- STEP_INCOMPLETE (R259). -/
abbrev cStepIncomplete : Code := 0x4D#8
/-- STEP_PEER_ABORT (R259). -/
abbrev cStepPeerAbort : Code := 0x4E#8
/-- HOST_RECORD_REJECTED (R323). -/
abbrev cHostRecordRejected : Code := 0x4F#8
/-- DOMAIN_NOT_MEMBER (R201). -/
abbrev cDomainNotMember : Code := 0x50#8
/-- DOMAIN_EVIDENCE_REFUSED (R201). -/
abbrev cDomainEvidenceRefused : Code := 0x51#8
/-- DOMAIN_REVOKED (R201). -/
abbrev cDomainRevoked : Code := 0x52#8
/-- DOMAIN_FULL (R201). -/
abbrev cDomainFull : Code := 0x53#8
/-- DOMAIN_TIMEOUT (R201). -/
abbrev cDomainTimeout : Code := 0x54#8
/-- DOMAIN_TERM_STALE (R201). -/
abbrev cDomainTermStale : Code := 0x55#8
/-- DOMAIN_DUPLICATE (R201). -/
abbrev cDomainDuplicate : Code := 0x56#8
/-- DOMAIN_ANCHOR_LOST (R201). -/
abbrev cDomainAnchorLost : Code := 0x57#8
/-- DOMAIN_POLICY_INVALID (R201). -/
abbrev cDomainPolicyInvalid : Code := 0x58#8
/-- SLICE_IMAGE_INVALID (R387). -/
abbrev cSliceImageInvalid : Code := 0x59#8

/-- Unit indices of R438. -/
abbrev uHse : Nat := 0x30
abbrev uGate : Nat := 0x31
abbrev uArb : Nat := 0x32
abbrev uCipher : Nat := 0x33
abbrev uPk : Nat := 0x34
abbrev uVault : Nat := 0x35
abbrev uTcu : Nat := 0x36

/-- SOURCE codes of R502 beyond the unit indices. -/
abbrev srcSentA : Nat := 0x80
abbrev srcSentB : Nat := 0x81
abbrev srcHold : Nat := 0x82
abbrev srcTime : Nat := 0x83
abbrev srcHealth : Nat := 0x84
abbrev srcLbx : Nat := 0x85
abbrev srcDevice : Nat := 0xFF

/-- The index of pewter port q and of the checker of stack k (R438). -/
def uPewter (q : Nat) : Nat := 0x20 + q
def uStack (k : Nat) : Nat := 0x40 + k

/-- A unit's place among the 45 unit blocks, in unit-index order (R511). -/
def unitPlace (u : Nat) : Nat :=
  if u < 0x12 then u else if u < 0x24 then 18 + (u - 0x20) else if u < 0x37 then 22 + (u - 0x30)
  else 29 + (u - 0x40)

/-- Whether an index names a unit (R438). -/
def unitExists (u : Nat) : Bool :=
  decide (u < 0x12) || (decide (0x20 ≤ u) && decide (u < 0x24)) || (decide (0x30 ≤ u) && decide (u < 0x37)) ||
    (decide (0x40 ≤ u) && decide (u < 0x50))

/-- The codes whose meaning fits a host write that cannot be accepted (R20, R311): its address is not mapped or not permitted, or its target
is in reset. R317 names none: which of them it is stays open (log 4). -/
def hostWriteCodes : List Code := [cFaultUnmapped, cFaultPermission, cTargetReset]

/-- The codes whose meaning fits a refused token (R20, R175): not permitted, or not verified. No rule names it: which of them it is stays
open (log 4). -/
def tokenCodes : List Code := [cFaultPermission, cSignatureInvalid]

end Sys2Proof.Machine
end

