-- ==== Sys2Proof/Machine/PartsCore.lean ====
section
/-!
DEFINITION. PartsCore.lean: the parts of the state that every unit shares: what the block has driven outside,
power and pins, crossings, the internal network, error banks, leadbox, counters, watches and the dictionary.
-/
namespace Sys2Proof.Machine

/-- A value kept with its complement (R50). -/
structure Kept (w : Nat) where
  value : BitVec w
  inv : BitVec w
  deriving DecidableEq, Repr

/-- What the block drives to its outside, in the order it does (the model's own record, log 7). -/
inductive Output where
  | frame (port : Nat) (f : Frame)
  | passFrame (inPort outPort : Nat) (f : Frame)
  | can (id : Nat) (data : Bytes)
  | mukor (id requester txn op index sub result : Nat) (code : Code) (detail : Nat) (data : Bytes)
  | spdm (message : Nat) (body : Bytes)
  | mbxResponse (page opcode seq : Nat) (code : Code) (body : Bytes) (tag : Option Tag)
  | mbxEvent (page type data time : Nat)
  | msix (vector : Nat)
  | completion (ctx queue : Nat) (entry : Bytes)
  | sealedEntry (cp kind : Nat) (status : Code) (queueId detail : Nat) (descriptor : Bytes)
  | workItem (exec slot : Nat)
  | atsRequest (pasid hostVa : Nat)
  | atsInvalidateDone (pasid addr size : Nat)
  | pageRequest (pasid hostVa : Nat)
  | hostWrite (hostAddr : Nat) (data : Bytes)
  | hostRecord (places : List (Nat × Nat)) (r : BounceRec)
  | hostRead (places : List (Nat × Nat))
  | verdict (stack : Nat) (allowed : Bool)
  | stackOutcome (stack ctx gen page : Nat) (code : Code)
  | scrub (stack page : Nat)
  | arrSwitch (ctx gen slice : Nat)
  | arrCut
  | pewter (reqId : Nat) (code : Code) (data : Bytes)
  | poolRead (port offset bytes tag : Nat)
  | poolWrite (port offset tag : Nat) (data : Bytes)
  | castStrobe (number : Nat)
  | castStage (number target : Nat)
  | freezePulse
  | networkMessage (leaf seq : Nat)
  | afwBroadcast (place bodyBytes : Nat) (crc : BitVec 64)
  | mapCoreLoad (core : Nat)
  | wrapped (b : WrappedBlob)
  | cipherResult (ch job : Nat) (code : Code) (dst : Nat) (data : Bytes) (tag : BitVec 128)
  | signature (cls slice : Nat) (sig : HybSig)
  | agreed (q : Point) (kem : KemBlob)
  | outboundRefused (ctx gen queue node : Nat) (code : Code)
  | remoteReply (node tagId op : Nat) (code : Code) (data : Bytes)
  | control (node : Nat) (message : Bytes)
  | coherence (node : Nat) (message : Bytes)
  | debugData (master : Nat) (data : Bytes)
  | joinFragment (node offset : Nat) (last : Bool) (fragment : Bytes)
  deriving DecidableEq, Repr

/-- Power domains of R54 and the session of R7. -/
structure Power where
  sessionOpen : Bool
  sessionId : BitVec 64
  iod : Bool
  cdieA : Bool
  cdieB : Bool
  startIndex : Nat
  ready : Bool
  readmitted : Bool
  heldInReset : Bool
  quenched : Bool
  rootFail : Bool
  saving : Bool
  pendingChip : Option Nat
  tcuDown : Bool
  deriving DecidableEq, Repr

/-- Pins of R80. `presenceAt` is the last session time (ns) at which PRESENCE was high, and
`asserted` its window of 30 s (R83). -/
structure Pins where
  pfailLow : Bool
  presence : Bool
  asserted : Bool
  presenceAt : Option Nat
  quenchLow : Bool
  pwrcycLow : Bool
  freezeAt : Option Nat
  deriving DecidableEq, Repr

/-- A counter crossing (R56, R58): the source's 16-bit count of events, and the receiver's last sample of it. -/
structure Counter where
  source : BitVec 16
  sample : BitVec 16
  deriving DecidableEq, Repr

/-- A held-value crossing (R56, R57): the sender's TAKE flag and the receiver's ACK flag; equal while no value is on its way. -/
structure HeldLine where
  take : Bool
  ack : Bool
  deriving DecidableEq, Repr

/-- A bisynchronous FIFO of 32 entries (R56): its write and read pointers, modulo 64; equal while it is empty. -/
structure Fifo where
  wr : BitVec 6
  rd : BitVec 6
  deriving DecidableEq, Repr

/-- A reset that waits for its neighbours' FLUSH levels (R60). -/
inductive ResetJob where
  | engine (unit : Nat) (pools : List (Nat × List Nat))
  | tcu (rid : Option Nat) (pools : List (Nat × List Nat))
  | chip (c : ChipCause)
  deriving DecidableEq, Repr

/-- Crossings: reset-notice levels (R60), the time each VRST rose and the resets that wait (R60, R61), the three kinds of crossing
(R56), the outputs that wait for their crossing to open (R60), the port levels of R69 to R78, and the late-flush register (R68). A
level's index is 32 × the group code of R68 plus the index within the group. -/
structure Crossings where
  vrst : List Nat
  nrst : List Nat
  vflush : List Nat
  nflush : List Nat
  vrstAt : Table Nat
  resets : List ResetJob
  cc : Table Counter
  ht : Table HeldLine
  bf : Table Fifo
  held : List Output
  laneMap : Table (BitVec 15)
  laneUp : Table Nat
  arrayClean : Bool
  busOff : Bool
  late : Bool
  lateCount : Nat
  lateIndex : Nat
  lateGroup : Nat
  deriving DecidableEq, Repr

/-- What a message of the internal trust network is for (R25, R36, R37, R40, R110, R444). -/
inductive NetKind where
  | key
  | stage
  | discard
  | page
  | reseed
  | work
  | status
  deriving DecidableEq, Repr

/-- A network message that is not acknowledged yet (R38): its header's fields, its payload, when it was sent, and how often it
failed. -/
structure NetMsg where
  kind : NetKind
  source : Nat
  dest : Nat
  seq : BitVec 16
  length : Nat
  payload : Bytes
  sentAt : Nat
  tries : Nat
  deriving DecidableEq, Repr

/-- One direction of a link (R38): the sender's next sequence number, what waits for its acknowledgement, oldest first, and the number
that the receiver takes next. -/
structure NetDir where
  seq : BitVec 16
  sent : List NetMsg
  got : BitVec 16
  deriving DecidableEq, Repr

/-- One link of the internal trust network (R38, R39): from the hub to the leaf, and from the leaf to the hub. -/
structure NetLink where
  down : NetDir
  up : NetDir
  failed : Bool
  failedBefore : Bool
  deriving DecidableEq, Repr

/-- A pool of cipher cores or GHASH multipliers (R45 to R47): the map of its failed members, and the good one to be tested next. -/
structure Pool where
  out : List Nat
  rotation : Nat
  deriving DecidableEq, Repr

/-- An open error of a unit's bank (R17, R18, R439). `rid` names its opening record. -/
structure OpenErr where
  cls : Nat
  cause : Nat
  whereAt : Nat
  scope : ErrScope
  latchedAt : Nat
  rid : Option Nat
  overflow : Nat
  restarts : Nat
  deriving DecidableEq, Repr

/-- What a fixed-window limit counts (R547). -/
inductive LimKey where
  | parity (unit : Nat)
  | vaultMismatch
  | tagFail (peer : Nat)
  | tagFailSlice (slice : Nat)
  | dropRecord (peer kind : Nat)
  | joinHello
  | checkFail
  | hostReject (ctx reason : Nat)
  | genDiscard (ctx : Nat)
  | castSummary (owner : Nat)
  | s0Record (source kind : Nat)
  | other (n : Nat)
  deriving DecidableEq, Repr

/-- A windowed count: the window's number since the session began, and the events in it. -/
structure Limit where
  key : LimKey
  window : Nat
  count : Nat
  deriving DecidableEq, Repr

/-- Error handling and recovery (chapter 15). -/
structure Errors where
  banks : Table OpenErr
  corrected : Table Nat
  informational : Table Nat
  s3Times : List (Nat × Nat)
  partitionTimes : List (Nat × Nat)
  tcuTimes : List Nat
  chipTimes : List Nat
  lastAction : Nat
  hbTcu : BitVec 16
  hubQueue : Nat
  hubHeld : Nat
  hbMgmt : BitVec 16
  tcuBeatAt : Option Nat
  mgmtBeatAt : Option Nat
  arm5 : Bool
  arm50 : Bool
  armMgmt : Bool
  ignoredBeats : Nat
  sentA : Bool
  sentB : Bool
  startAt : Nat
  startBeat : Bool
  readyAt : Nat
  noticeSeq : BitVec 32
  lastNotice : Bytes
  noticeRepeats : Nat
  noticeAt : Nat
  noticePending : List Bytes
  quenchCause : Option (Nat × Nat × Nat × Nat)
  quenchMore : Nat
  chipResets : Nat
  tcuRestarts : Nat
  partitionResets : Nat
  engineResets : Nat
  quenches : Nat
  limits : List Limit
  coldForced : Bool
  requested : List (Nat × Nat)
  arbResetAt : Option Nat
  deriving DecidableEq, Repr

/-- A leadbox record as raised (R502). `rid` is the model's name for it; `names` gives the DETAIL offset and
the rid of a record whose SEQ it carries (R506). -/
structure LbxRec where
  rid : Nat
  kind : Nat
  cls : Nat
  source : Nat
  slice : Option Nat
  count : Nat
  session : BitVec 64
  stamp : Nat
  ctx : Option (Nat × Nat)
  code : Code
  detail : Bytes
  names : Option (Nat × Option Nat)
  deriving DecidableEq, Repr

/-- A record as written in its slot (R502, R504): its 128 bytes. -/
structure LbxSlot where
  seq : BitVec 64
  seqInv : BitVec 64
  body : Bytes
  deriving DecidableEq, Repr

/-- A fold of S0 records beyond 100 (R507). -/
structure Fold where
  source : Nat
  kind : Nat
  count : Nat
  first : Nat
  last : Nat
  deriving DecidableEq, Repr

/-- The leadbox (chapter 18). -/
structure Leadbox where
  slots : Table LbxSlot
  next : BitVec 64
  nextInv : BitVec 64
  ready : Bool
  queue : List LbxRec
  seqOf : Table Nat
  nextRid : Nat
  dropFlag : Bool
  dropped : Nat
  dropCounts : Table Nat
  dropFirst : Nat
  dropLast : Nat
  folds : List Fold
  cursor : BitVec 64
  cursorLo : BitVec 32
  nextHi : BitVec 32
  auto : Bool
  verifyResult : Nat
  verifyState : Nat
  verifySeq : Nat
  dictCursor : BitVec 64
  deriving DecidableEq, Repr

/-- The counter set and its snapshot (R511 to R513). Keys: 0 to 31 device, 32 + 16 u + i unit u of the 45 in
index order, 752 + 16 k + i slice block k. -/
structure Counters where
  live : Table Nat
  snapshot : Table Nat
  snapSource : Nat
  freezeSeq : BitVec 32
  freezeTime : BitVec 64
  freezeHi : BitVec 32
  snapStart : Nat
  snapSession : BitVec 64
  ignored : Nat
  latchHi : BitVec 32
  stat : Table Nat
  deriving DecidableEq, Repr

/-- Statistics of one watch (R517). `unstated` says that it took elements of which the manual gives no statistics (log 28). -/
structure WatchStats where
  elements : Nat
  nans : Nat
  infs : Nat
  zeros : Nat
  subs : Nat
  minBits : BitVec 32
  maxBits : BitVec 32
  sum : BitVec 64
  sumSq : BitVec 64
  unstated : Bool
  deriving DecidableEq, Repr

/-- A tensor watch (R515 to R521). `total` is the number of blocks or chunks, once it is known; `taken` lists those taken. -/
structure Watch where
  slice : Nat
  ctx : Nat
  gen : Nat
  body : WatchBody
  armedAt : Nat
  openAt : Option Nat
  timeoutMs : Nat
  total : Option Nat
  taken : List Nat
  stats : WatchStats
  digest : BitVec 128
  digestGen : Nat
  partialDigest : Bool
  truncated : Bool
  missed : Bool
  dumped : Nat
  deriving DecidableEq, Repr

/-- Tensor watch (chapter 18). `rotateWaiting` holds the DIGEST_ROTATE commands that wait for a digest watch to close. -/
structure Watches where
  table : Table Watch
  digestLevel : Table Nat
  rotateWaiting : List MbxHdr
  closed : Nat
  dumps : Nat
  deriving DecidableEq, Repr

/-- An open Mukor transfer (R532 to R535), under the node address that it was opened at. A write has `data` and `segno` segments
received; a read has its whole value in `data`, `segno` segments sent and `acked` acknowledged. -/
structure Transfer where
  node : Nat
  requester : Nat
  txn : Nat
  write : Bool
  index : Nat
  sub : Nat
  total : Nat
  crc : BitVec 32
  data : Bytes
  segno : Nat
  acked : Nat
  lastAt : Nat
  deriving DecidableEq, Repr

/-- A write that waits for its answer: the node address it came to, and who asked (R533). -/
structure Asker where
  node : Nat
  requester : Nat
  txn : Nat
  index : Nat
  sub : Nat
  deriving DecidableEq, Repr

/-- A sealed copy of the operator configuration (R542): the operator key that sealed it is named by its class, binding and
generation; the settings in force and the BOOT values pending. -/
structure ConfigCopy where
  seq : Nat
  operGen : Nat
  settings : Table Nat
  pending : Table Nat
  iv : BitVec 96
  body : Bytes
  tag : Tag
  deriving DecidableEq, Repr

/-- The dictionary service (chapter 19) and its settings: in force, COMMIT shadows, BOOT values pending. Keys are
index × 256 + sub. `answering` lists the writes that an entry's own command answers. -/
structure Dict where
  force : Table Nat
  shadow : Table Nat
  boot : Table Nat
  copies : Table ConfigCopy
  transfers : List Transfer
  statusSeq : BitVec 32
  busOffCount : Nat
  abandoned : Nat
  configState : Nat
  capacityLast : Nat
  answering : List Asker
  noticeInBusOff : Bool
  deriving DecidableEq, Repr

end Sys2Proof.Machine
end

