-- ==== Sys2Proof/Machine/PartsGate.lean ====
section
/-!
DEFINITION. PartsGate.lean: the parts of the state of the host side and the gate: mailbox, bounce windows, queues,
descriptors, live seals, objects, events, contexts and slices (chapters 10 to 12).
-/
namespace Sys2Proof.Machine

/-- A response that waits for the TCU (R444). -/
structure MbxResp where
  opcode : Nat
  seq : Nat
  ctx : Nat
  code : Code
  body : Bytes
  tag : Option Tag
  deriving DecidableEq, Repr

/-- A driver or slice page of the mailbox BAR (R315, R316, R318): its registers, its event ring, the words of its command area as the host wrote
them, and its response area. -/
structure MbxPage where
  busy : Bool
  respReady : Bool
  evtOvf : Bool
  lastCode : Code
  evtProd : BitVec 16
  unread : Nat
  ring : Table (Nat × Nat × Nat)
  nextSeq : Nat
  command : Table (BitVec 32)
  response : Bytes
  held : Option MbxResp
  deriving DecidableEq, Repr

/-- A bounce record in work: a started host-DMA piece (R310). -/
structure HostWork where
  slot : Nat
  bytes : Nat
  deriving DecidableEq, Repr

/-- An inbound window and the outbound sequence of a context (R309, R313). -/
structure HostWindow where
  high : Nat
  bits : BitVec 1024
  nextOut : Nat
  deriving DecidableEq, Repr

/-- Host sealing (chapter 10). The SPDM session states are 0 none, 1 handshake, 2 open, 3 ending. `marksIn` holds the inbound descriptors
that VerifyNewKey marked; `sealedOut` the descriptors with a record under the outbound generation in force that have not completed, and
`marksOut`, while the previous one is held, those with a record under it (R305). -/
structure HostSeal where
  session : Nat
  negotiated : Nat
  caps : BitVec 32
  requester : Nat
  transcript : Bytes
  genIn : Nat
  genOut : Nat
  updIn : Bool
  marksIn : Option (List Nat)
  sealedOut : List Nat
  marksOut : Option (List Nat)
  updateIn : Nat
  updateOut : Nat
  period : Nat
  rekeyPosted : Bool
  work : List HostWork
  windows : Table HostWindow
  masked : List Nat
  msixPending : List Nat
  msixSent : Nat
  bucketBytes : Table Nat
  bucketRecords : Table Nat
  tagFail : BitVec 16
  otherFail : BitVec 16
  lastReason : Nat
  lastSlice : Nat
  lastCtx : Nat
  recIn : Nat
  recOut : Nat
  rejectTag : Nat
  rejectOther : Nat
  keyUpdates : Nat
  deriving DecidableEq, Repr

/-- A queue bound to a context generation (R326, R330, R370). -/
structure Queue where
  gen : Nat
  slice : Nat
  ring : Nat
  ringSize : Nat
  head : Nat
  tail : Nat
  cring : Nat
  cringSize : Nat
  chead : Nat
  ctail : Nat
  vector : Nat
  stopped : Bool
  deriving DecidableEq, Repr

/-- Why a descriptor's remainder is not yet sealed (R340, R342, R344). -/
inductive Hold where
  | none
  | room
  | walk
  | queued
  | ats (retried discard : Bool)
  | prg (right : Bool)
  | fault (since addr limitMs : Nat)
  deriving DecidableEq, Repr

/-- A descriptor accepted or in translation: what it still owes (R343). `nextElem` is where its remainder starts;
`live` counts its pieces not retired. `reserved` is the room that check 5 of R342 keeps for its first piece; `held` says that its
remainder has been a held fault (R344). -/
structure Desc where
  ctx : Nat
  gen : Nat
  slice : Nat
  queue : Nat
  cp : Nat
  raw : Bytes
  nextElem : Nat
  total : Nat
  piece : Nat
  live : Nat
  hold : Hold
  admitted : Bool
  outcome : Code
  deferral : Nat
  admittedAt : Nat
  code : Code
  detail : Nat
  faultAddr : Nat
  charge : Nat
  host : List (Nat × Nat)
  reseal : Option (Nat × Nat)
  reserved : Bool
  held : Bool
  deriving DecidableEq, Repr

/-- A slot of the live-seal table (R347) with the piece it holds. -/
structure LiveSeal where
  serial : BitVec 64
  wrap : BitVec 32
  dispatched : Bool
  did : Nat
  ctx : Nat
  gen : Nat
  slice : Nat
  queue : Nat
  cls : Nat
  raw : Bytes
  pieceWord : Nat
  start : Nat
  len : Nat
  trs : List Nat
  tag : Tag
  objs : List Nat
  evts : List Nat
  hostEntry : Option Nat
  port : Option Nat
  waiting : Bool
  deferUntil : Option Nat
  deadline : Option Nat
  deriving DecidableEq, Repr

/-- A host-list entry (R341): the PASID and epoch of its translation, and its page spans. -/
structure HostEntry where
  pasid : Nat
  epoch : BitVec 8
  slice : Nat
  spans : List (Nat × Nat)
  deriving DecidableEq, Repr

/-- An entry of a page table or a token map (R336, R339): KIND 1 tier-A page, 2 tier-B region, 3 next level. An entry of KIND 0 is not
listed. -/
structure Mapping where
  kind : Nat
  freeing : Bool
  write : Bool
  read : Bool
  obj : Nat
  frame : Nat
  deriving DecidableEq, Repr

/-- A memory object (R350): STATE 0 FREE, 1 LIVE, 2 FREEING. `holders` lists the contexts; `blocks` is a token region's map (R339). -/
structure MemObj where
  state : Nat
  kind : Nat
  slice : Nat
  rights : Nat
  gen : Nat
  owner : Nat
  holders : List Nat
  qrefs : Nat
  size : Nat
  peers : Option (Nat × List Nat)
  frames : List Nat
  tierB : Bool
  group : Option Nat
  tokens : Nat
  stride : Nat
  blocks : Table Mapping
  deriving DecidableEq, Repr

/-- An event object (R353, R371): 1 UNSIGNALLED, 2 SIGNALLED, 3 ABANDONED; 0 free. -/
structure EvtObj where
  state : Nat
  code : Code
  slice : Nat
  creator : Nat
  gen : Nat
  holders : List Nat
  qrefs : Nat
  deriving DecidableEq, Repr

/-- A page's entry in the page-owner table (R295). KIND 0 free, 1 context, 2 share group or system as there. -/
structure PageOwner where
  kind : Nat
  flags : Nat
  slice : Nat
  owner : Nat
  gen : Nat
  deriving DecidableEq, Repr

/-- Scrub state of a page (R297, R40): the checkers that have acknowledged its revocation, the engines still to finish, and the stacks
whose scrub write has failed once. -/
structure Scrub where
  acks : List Nat
  left : List Nat
  failed : List Nat
  withheld : Bool
  deriving DecidableEq, Repr

/-- A MEMORY_SHARE that waits for the rotation of its object's regions (R374): what it maps once they are done. -/
structure Share where
  obj : Nat
  ctx : Nat
  va : Nat
  rights : Nat
  hdr : MbxHdr
  deriving DecidableEq, Repr

/-- An entry of the host translation cache (R337, R340): the rights that ATS reported with it stand beside the span. -/
structure HostPage where
  pasid : Nat
  va : Nat
  hpa : Nat
  log2 : Nat
  read : Bool
  write : Bool
  slice : Nat
  deriving DecidableEq, Repr

/-- The descriptor gate (chapter 11). `tops` holds each context's top table by VA[43:32], `maps` its second-level tables by VA[43:26]
(R336). `destroying` holds queues whose destruction waits for their sealed pieces (R360),
`invalidations` the ATS invalidations (PASID, address, size) whose completion is withheld (R322). -/
structure Gate where
  queues : Table Queue
  descs : Table Desc
  nextDid : Nat
  seals : Table LiveSeal
  sealCount : Nat
  wrapCount : BitVec 32
  order : Table (List Nat)
  lostSeals : List (Nat × Nat)
  /-- Dispatched pieces that a teardown cut, whose executor may still report them (R369, R376): serial, context and generation. -/
  cutSeals : List (Nat × Nat × Nat)
  hostList : Table HostEntry
  pasidEpoch : Table Nat
  tops : Table (Table Mapping)
  maps : Table (Table Mapping)
  tokenSlots : Table (Table Nat)
  objs : Table MemObj
  evts : Table EvtObj
  pages : Table PageOwner
  scrubs : Table Scrub
  groups : Table (List (Nat × Nat × Bool))
  ready : Bool
  devCache : List (Nat × Nat × Nat)
  hostCache : List HostPage
  failFlag : Bool
  failCount : Nat
  lastPort : Nat
  dropUnbound : BitVec 16
  reseal : BitVec 16
  sealLevel : Table Nat
  piecesSealed : Nat
  splits : Nat
  faultsHeld : Nat
  checkFail : Nat
  pageRequests : Nat
  allocs : Nat
  allocTurn : Nat
  destroying : List (Nat × MbxHdr)
  invalidations : List (Nat × Nat × Nat)
  sharing : List Share
  deriving DecidableEq, Repr

/-- States of a context id (R366). -/
inductive CtxMode where
  | free | live | frozen | ending
  deriving DecidableEq, Repr

/-- A context id's entry (R366 to R368). -/
structure Context where
  mode : CtxMode
  gen : Nat
  retired : Bool
  slice : Nat
  debuggable : Bool
  deriving DecidableEq, Repr

/-- A slice (R363 to R365, R388). STATE as SLICE_STATUS. -/
structure Slice where
  state : Nat
  pasid : Option Nat
  deriving DecidableEq, Repr

/-- A pending piece of a frozen slice (R378). -/
structure PendPiece where
  slice : Nat
  ctx : Nat
  queue : Nat
  cp : Nat
  elem : Nat
  raw : Bytes
  deriving DecidableEq, Repr

/-- An open offer (R380). The keys are the initiator's ephemeral private parts. -/
structure Offer where
  slice : Nat
  body : Bytes
  nonce : BitVec 256
  ecPriv : BitVec 384
  kemPriv : BitVec 512
  madeAt : Nat
  lifetime : Nat
  deriving DecidableEq, Repr

/-- Contexts and slices (chapter 12). `freezing` lists the slices whose SLICE_FREEZE is not answered yet. -/
structure Contexts where
  table : Table Context
  slices : Table Slice
  usage : Table Nat
  sliceUsage : Table Nat
  pend : List PendPiece
  offers : Table Offer
  freezing : List (Nat × MbxHdr)
  genDiscards : Nat
  kills : Nat
  imagesSaved : Nat
  imagesRestored : Nat
  idsRetired : Nat
  deriving DecidableEq, Repr

end Sys2Proof.Machine
end

