-- ==== Sys2Proof/Machine/PartsKeys.lean ====
section
/-!
DEFINITION. PartsKeys.lean: the parts of the state that hold keys: vault, cipher service, public-key engine,
life cycle and the domain (chapters 3 to 6).
-/
namespace Sys2Proof.Machine

/-- A key as two shares, each with its complement (R34, R50). -/
structure Shares where
  masked : BitVec 512
  maskedInv : BitVec 512
  mask : BitVec 512
  maskInv : BitVec 512
  deriving DecidableEq, Repr

/-- A key-holding slot (R97, R99, R101, R103): the key's shares, the CMAC subkeys of a parent (R96, K1 then K2), the usage
counters, and the derivation path. `width` is the key's width in bits; `share` names whose part of partition 3 it takes, 32
being the system. -/
structure KeySlot where
  path : KeyPath
  slot : Nat
  part : Nat
  share : Nat
  key : Shares
  sub : Option Shares
  width : Nat
  attr : BitVec 16
  items : Kept 64
  bytes : Kept 64
  notice : Bool
  limit : Bool
  label : Bytes
  parent : Option KeyPath
  context : Bytes
  deriving DecidableEq, Repr

/-- A key register pair of the engines that hold a key (R25, R34, R35, R112): the active and the shadow register, the allowance
that is left and what was counted since the last report, each with its complement (R50), and the path by which the key can be
recomputed. `engine` is the number of the USE bit, and `leaves` the trust network's leaves that the key was delivered to. -/
structure KeyReg where
  path : KeyPath
  engine : Nat
  leaves : List Nat
  active : Shares
  shadow : Option Shares
  leftItems : Kept 72
  leftBytes : Kept 72
  items : Kept 72
  bytes : Kept 72
  parent : Option KeyPath
  label : Bytes
  context : Bytes
  deriving DecidableEq, Repr

/-- A REPLACE past its switch command (R107, R108): the staging slot and the requests that wait behind it. -/
structure Replacing where
  path : KeyPath
  key : Shares
  sub : Option Shares
  items : Nat
  attr : BitVec 16
  label : Bytes
  parent : Option KeyPath
  context : Bytes
  queued : List (ReplaceSrc × BitVec 32)
  deriving DecidableEq, Repr

/-- A copy of the helper record (R89), field by field. -/
structure Helper where
  format : Nat
  reserved : Nat
  bits : BitVec 5355
  top : Nat
  reserved2 : Nat
  kcv : BitVec 32
  kcvInv : BitVec 32
  deriving DecidableEq, Repr

/-- A key that was destroyed (R109): its path, partition and slot. -/
structure Gone where
  path : KeyPath
  part : Nat
  slot : Nat
  deriving DecidableEq, Repr

/-- The key vault (chapter 3), with the two copies of the helper record and the engines' key registers. `queue` holds derivation
requests that wait for their slice's budget (R102); `blocked` the labels of R98 that no key is derived from, 0 slice memory,
1 digest, 2 page; `result` is the code that the last request completed with, as the TCU receives it. -/
structure Vault where
  slots : List KeySlot
  regs : List KeyReg
  destroyed : List Gone
  queue : List DeriveReq
  blocked : List Nat
  maskSeed : BitVec 256
  annealPeriod : Nat
  rootState : Nat
  lcClass : Nat
  debugMark : Bool
  entropyOk : Bool
  pufTries : Nat
  rawFlips : Nat
  bchFixed : Nat
  highWater : Table Nat
  annealMissed : Nat
  lastCycleMs : Nat
  cycles : BitVec 16
  mismatch : Bool
  mismatchCount : Nat
  lastWhere : Nat
  helperA : Option Helper
  helperB : Option Helper
  seeded : Bool
  requests : Nat
  reseedAt : Nat
  annealAt : Nat
  derivations : Nat
  sliceGen : Table (Kept 32)
  digestGen : Table (Kept 32)
  pageGen : Table (Kept 32)
  replacing : List Replacing
  missedCycles : Nat
  result : Code
  deriving DecidableEq, Repr

/-- The chaining state of an open message (R123): mode, chaining register or J0, GHASH or MAC accumulator, AAD and text
lengths, and a partial or held-back block. -/
structure ChanState where
  mode : Nat
  reg : BitVec 128
  y : BitVec 128
  aad : Nat
  text : Nat
  part : Bytes
  deriving DecidableEq, Repr

/-- What a queued operation does (R139 OP). -/
inductive CipherOp where
  | job
  | save
  | exportTo (record : Option Nat)
  | restoreRecord (record : Nat)
  | restoreBlob (b : ChanBlob)
  | attach (slot : Nat) (label : BitVec 256)
  | detach
  deriving DecidableEq, Repr

/-- An operation waiting or running on a channel (R129, R132, R139), with the live-seal slot of its piece. -/
structure CipherJob where
  ctx : Nat
  gen : Nat
  op : CipherOp
  body : CipherBody
  slot : Option Nat
  deriving DecidableEq, Repr

/-- A service channel (0 to 63) or privileged page (64 to 67) and its registers (R129, R139). The queue's head is the
operation that executes; `loaded` is the key of a running job (R135), `refusal` why a job at the head is not carried out
(R123, R131), and `left` its blocks that no core has taken yet (R130). -/
structure Channel where
  allocated : Bool
  slice : Nat
  ctx : Nat
  gen : Nat
  key : Option KeyPath
  loaded : Option Shares
  refusal : Option (Code × Nat)
  left : Nat
  code : Code
  queue : List CipherJob
  done : BitVec 16
  message : Option ChanState
  ctrl : BitVec 32
  iv : BitVec 128
  src : Nat
  dst : Nat
  len : Nat
  aadLen : Nat
  tag : BitVec 128
  jobId : Nat
  keyRef : Nat
  deriving DecidableEq, Repr

/-- A record of the internal channel-state store (R132, R134). -/
structure SavedState where
  ctx : Nat
  gen : Nat
  slice : Nat
  key : Option KeyPath
  kcv : BitVec 32
  used : Nat
  message : Option ChanState
  deriving DecidableEq, Repr

/-- What a request asks of the public-key engine (R141). -/
inductive PkJob where
  | sign (msg : Bytes) (corrupted : Bool)
  | verify (keyLen sigLen : Nat) (key : HybKey) (msg : Bytes) (sig : HybSig)
  | agree (step : KaStep) (dest : KeyPath)
  deriving DecidableEq, Repr

/-- The identity private keys in the engine's protected memory (R149): the ECDSA scalar and the ML-DSA seed. -/
structure IdentKeys where
  scalar : BitVec 384
  seed : BitVec 256
  deriving DecidableEq, Repr

/-- The cipher service and public-key engine (chapter 4). `pkQueue` holds each slice's requests that wait (R150), and `ofbIvs` the
OFB IVs used, each with the digest of its key, so that a key that comes again is known again (R123). DESIGN CHOICE (log 89). -/
structure Cipher where
  channels : Table Channel
  store : Table SavedState
  nextRecord : Nat
  violations : Nat
  bucket : Table Nat
  ofbIvs : List (Dig384 × BitVec 128)
  identReady : Bool
  ident : Option IdentKeys
  selfFail : Bool
  pkQueue : Table (List PkJob)
  pkDone : BitVec 16
  signed : List (Nat × HybSig)
  agreed : List (KeyPath × BitVec 384 × BitVec 512)
  deriving DecidableEq, Repr

/-- A copy of the life-cycle record (R152). The pairs carry their complements. -/
structure LcCopy where
  format : Nat
  state : BitVec 16
  stateInv : BitVec 16
  flags : BitVec 8
  flagsInv : BitVec 8
  seq : BitVec 32
  seqInv : BitVec 32
  operBinding : BitVec 256
  debugOpens : Nat
  operGen : Nat
  reserved : BitVec 80
  deriving DecidableEq, Repr

/-- Life cycle, debug and presence (chapter 5). -/
structure LifeCycle where
  primary : LcCopy
  mirror : LcCopy
  code : BitVec 16
  copies : Nat
  failCount : Nat
  lockout : Bool
  nonce : Option (BitVec 256 × Nat)
  result : Nat
  busy : Bool
  tokensUsed : List Nat
  scope : BitVec 16
  byGrant : Bool
  challenge : Option (BitVec 16 × BitVec 256 × Nat)
  challengeBytes : Bytes
  scrubPending : Bool
  pendingScope : Option (BitVec 16 × Bool)
  viol : Bool
  violCount : Nat
  violMaster : Nat
  violRange : Nat
  deriving DecidableEq, Repr

/-- A join in progress at the joiner (R187). Step 0 is idle, 1 awaits JOIN_CHALLENGE, 2 awaits JOIN_ADMIT. `hash` holds
the body of JOIN_HELLO. JK is in the vault. -/
structure JoinState where
  step : Nat
  domainId : Nat
  anchor : Nat
  owner : BitVec 256
  nonce : BitVec 256
  hash : Bytes
  policyDigest : BitVec 256
  tries : Nat
  startedAt : Nat
  lastAt : Nat
  txn : Nat
  ecPriv : BitVec 384
  kemPriv : BitVec 512
  deriving DecidableEq, Repr

/-- A join in progress at the anchor (R187, R188): the transcript hash, the hallmark of evidence that passed, and what JOIN_ADMIT
granted, with the KCVs of the keys it carried. JK is in the vault. `startedAt` is when the anchor's last message left. -/
structure Admission where
  unit : Nat
  txn : Nat
  nonce : BitVec 256
  hash : Dig384
  startedAt : Nat
  admitted : Bool
  role : Nat
  hall : Option Hallmark
  grant : RoleGrant
  kcvs : List (BitVec 32)
  deriving DecidableEq, Repr

/-- A member's progress in an epoch change (R193, R195). -/
structure EpochPart where
  shared : Bool
  acked : Bool
  deriving DecidableEq, Repr

/-- A role whose state this unit hands on (R200): the step of the snapshot, and what its transfer has written since, the queue that
writes it, the data bytes and the windows. -/
structure Handoff where
  role : Nat
  joiner : Nat
  step : Nat
  queue : Option (Nat × Nat)
  bytes : Nat
  windows : List Nat
  deriving DecidableEq, Repr

/-- The confidential domain (chapter 6). Role: 0 none, 1 anchor, 2 deputy, 3 member, 4 joining. -/
structure Domain where
  domainId : Nat
  epoch : Nat
  term : Nat
  role : Nat
  anchor : Nat
  deputies : List Nat
  members : List Member
  hosts : List HostRec
  policy : Option Policy
  policyDigest : BitVec 256
  endorsement : Option Endorsement
  join : JoinState
  admissions : Table Admission
  changing : Bool
  nextEpoch : Nat
  parts : Table EpochPart
  triggers : List Nat
  coalesceAt : Option Nat
  switchAt : Option Nat
  committed : Bool
  prepareAt : Option Nat
  heldPrepare : Option (DomHdr × Nat)
  epochAt : Nat
  beatAt : Nat
  beatSentAt : Nat
  probes : List Nat
  claimAt : Option Nat
  roleGrant : Option RoleGrant
  manifest : Option (Nat × Nat × Nat × Nat)
  hallmark : Option Hallmark
  hallmarkNonce : Option (BitVec 256)
  discarded : Nat
  grace : Option Nat
  txn : Nat
  evidence : Table Hallmark
  pending : Option (Nat × Option Nat)
  down : List Nat
  handoff : Option Handoff
  deriving DecidableEq, Repr

end Sys2Proof.Machine
end

