-- ==== Sys2Proof/Machine/PartsLink.lean ====
section
/-!
DEFINITION. PartsLink.lean: the parts of the state of link sealing, the alloys and memory sealing (chapters 7 to 9).
-/
namespace Sys2Proof.Machine

/-- An outstanding frame of a flow (R217, R218). -/
structure Sent where
  frame : Frame
  issuer : SealReq
  wire : Nat
  port : Nat
  firstAt : Option Nat
  lastAt : Nat
  sends : Nat
  waitUs : Nat
  deriving DecidableEq, Repr

/-- A flow (R204). `sendSeq` and `ackSeq` are the next SEQ of its data and acknowledgement spaces, `frames` and `bytes` the usage
count, each with its complement (R50). Entries of the receive window (R214) that do not read 1 are listed under SEQ modulo 4,096. `flowEpoch`
is the epoch it seals under, `recvEpoch` the one in force for receiving, `prevEpoch` an epoch not yet retired (R222), `old`
the expiring domain epoch with its flow epochs (R223). `floor` is h of a window that is not active (R215); `held` keeps its
frames until the key switch (R204, R220), and `awaitKey` keeps them until the next flow key, which was not there at the switch point (R113, R231). -/
structure Flow where
  sendSeq : Kept 48
  ackSeq : Kept 48
  flowEpoch : Nat
  domainEpoch : Nat
  outstanding : Table Sent
  frames : Kept 64
  bytes : Kept 64
  high : Nat
  window : Table Nat
  pendingAcks : List (Nat × Code)
  ackAt : Nat
  recvEpoch : Nat
  prevEpoch : Option Nat
  old : Option (Nat × Nat × Option Nat)
  nextKey : Bool
  rolloverAt : Option Nat
  rolloverSeq : Nat
  held : Bool
  awaitKey : Bool
  floor : Option Nat
  lastUse : Nat
  control : Bytes
  deriving DecidableEq, Repr

/-- A fence (R224, R225): the frames still awaited by node and SEQ, covered work that waits to be sealed, the destinations given up, by node
with their units, and the address its report goes to, as it stood when the fence was issued. -/
structure FenceRec where
  ctx : Nat
  gen : Nat
  queue : Nat
  slot : Nat
  report : Nat
  waits : List (Nat × Nat)
  unsent : List Nat
  fail : Code
  startedAt : Nat
  timeoutMs : Nat
  lost : Table Nat
  reportTo : Option Nat
  deriving DecidableEq, Repr

/-- A key miss of an owner's part of the key cache (R406), the inbound frames held for it, and the outbound requests that the
miss buffer holds, by their number and wire length (R219). -/
structure MissEntry where
  who : Nat
  peer : Nat
  domEpoch : Nat
  flowEpoch : Nat
  inbound : List Frame
  outbound : List (Nat × Nat)
  startedAt : Nat
  deriving DecidableEq, Repr

/-- One port's brass engine (R233). The key cache lists owner (R406), unit, domain epoch and flow epoch, the
least recently used first; `egress` lists the sealed frames that wait to leave, by node and SEQ, and `pass` the pass-path frames,
with the port each came in by (R229); `clear` the cleartext frames of joins (R207, R208). -/
structure BrassPort where
  up : Bool
  activeLanes : Nat
  spareState : Nat
  spareFor : Nat
  tagFail : BitVec 16
  drops : BitVec 16
  keyCache : List (Nat × Nat × Nat × Nat)
  misses : List MissEntry
  egress : List (Nat × Nat)
  pass : List (Nat × Frame)
  clear : List Frame
  bucket : Table Nat
  deriving DecidableEq, Repr

/-- A remote operation on tier B in work (R209): its granules still to finish. -/
structure RemoteOp where
  node : Nat
  seq : Nat
  op : Nat
  tagId : Nat
  obj : Nat
  slice : Nat
  ctx : Nat
  offset : Nat
  bytes : Nat
  left : List Nat
  data : Table Bytes
  code : Code
  deriving DecidableEq, Repr

/-- Link sealing (chapter 7). Flows are keyed by the peer's fabric node index. `waiting` holds outbound work that waits at
its issuing engine, numbered; `inbound` the remote operations in work by their request number. -/
structure Link where
  waiting : List (Nat × SealReq)
  nextReq : Nat
  inbound : Table RemoteOp
  flows : Table Flow
  nodes : Table (Nat × Nat)
  ports : Table BrassPort
  fences : List FenceRec
  fenceWaits : List (Nat × Nat × Nat × Nat)
  queueFail : Table Code
  tagFail : Nat
  replayDrop : Nat
  otherDrop : Nat
  keyMiss : Nat
  retx : Nat
  fenceIndet : Nat
  rollovers : Nat
  winCompress : Nat
  winFull : Bool
  deriving DecidableEq, Repr

/-- A chunk that a step has taken and not folded yet (R242): its input peer, its frame, and its cleartext. -/
structure TakenChunk where
  peer : Nat
  node : Nat
  seq : Nat
  payload : Bytes
  deriving DecidableEq, Repr

/-- A step of an alloy (R237, R254). States: 1 STAGED, 2 RUNNING, 3 FAILED. `slot` is its live-seal slot; `taken` lists the
chunks taken from input peer 0 and 1, `acc` the partial accumulators by chunk, `owed` the frames whose status is not known yet
(R243), by chunk. `outQueued` lists output chunks ready for a peer, by chunk and peer, `outData` their payloads, `emitted` how
many a SEND has emitted, `outSent` the frames not retired, `outDone` those retired, `aborts` the peers still owed an ABORT. `input` is
the step's part of the input buffer (R242), `fetched` the local operand read ahead, its elements and scales by chunk (R244). -/
structure StepRec where
  slot : Nat
  ctx : Nat
  gen : Nat
  slice : Nat
  queue : Nat
  body : Bytes
  localA : Nat
  destA : Nat
  state : Nat
  code : Code
  timeoutMs : Nat
  taken : Table (List Nat)
  acc : Table (List (BitVec 32))
  input : List TakenChunk
  fetched : Table (Bytes × Bytes)
  owed : Table (List (Nat × Nat))
  outQueued : List (Nat × Nat)
  outData : Table Bytes
  emitted : Nat
  outSent : List (Nat × Nat)
  outDone : Nat
  aborts : List Nat
  progressAt : Nat
  failAt : Nat
  deriving DecidableEq, Repr

/-- One alloy unit (chapter 8): its step slots, the lanes mapped out, the chunk counts of the stochastic stream by context and
generation, and the slot that each slice's round robin served last. -/
structure Alloy where
  steps : Table StepRec
  ready : Bool
  lanesGood : Nat
  lanesOut : List Nat
  nanOut : BitVec 16
  satOut : BitVec 16
  unmatched : BitVec 16
  busyDrop : BitVec 16
  lastFail : Code × Nat × Nat
  stream : Table Nat
  served : Table Nat
  deriving DecidableEq, Repr

/-- A region's entry in the region table (R264, R265). STATE 0 FREE, 1 LIVE, 2 ROTATING. -/
structure Region where
  state : Nat
  ownerKind : Nat
  lost : Bool
  slice : Nat
  ctx : Nat
  gen : Nat
  keyGen : Nat
  startIdx : Nat
  sweep : Nat
  rotSlot : Nat
  withheld : Bool
  key : Bool
  newKey : Bool
  writes : Nat
  newOwner : Nat
  deriving DecidableEq, Repr

/-- A tree node held in a port's node cache (R270, R274). -/
structure TreeNode where
  region : Nat
  level : Nat
  index : Nat
  major : Nat
  minors : Table Nat
  poison : List Nat
  dirty : Bool
  deriving DecidableEq, Repr

/-- What a request in a pewter engine does (R278 to R282, R291): a read, a full or a partial write, one granule of a sweep,
the poisoning of an indeterminate granule, or only the fetch of a node's parents. -/
inductive PewOp where
  | read
  | full (data : BitVec 2048)
  | part (mask : BitVec 256) (data : BitVec 2048)
  | sweep
  | mark
  | touch
  deriving DecidableEq, Repr

/-- Who waits for a request's outcome: an issuing engine, a remote operation, or nobody. -/
inductive PewSrc where
  | engine
  | remote (n : Nat)
  | system
  deriving DecidableEq, Repr

/-- A request in progress or waiting (R279), with the granule slot that its pool read brought: status, and bytes. -/
structure PewJob where
  r : PewReq
  op : PewOp
  src : PewSrc
  slot : Option (Nat × Bytes)
  deriving DecidableEq, Repr

/-- What an outstanding pool read is for (R275, R276). -/
inductive PoolWhy where
  | granule (job : Nat)
  | node (region level index : Nat)
  | respan (region level index child : Nat)
  deriving DecidableEq, Repr

/-- An outstanding pool read (R276 to R278). One whose counter an overflow has changed is stale: its data is not used (R275). -/
structure PoolReq where
  tag : Nat
  offset : Nat
  bytes : Nat
  sent : Nat
  retried : Bool
  stale : Bool
  why : PoolWhy
  deriving DecidableEq, Repr

/-- An entry of the write buffer awaiting POOL_WACK (R277): a granule of a region, or a node. One of a tree that was discarded is dead
(R286): the pool still counts it, and nothing else comes of it. -/
structure PoolWrite where
  offset : Nat
  tag : Nat
  dead : Bool
  data : Bytes
  region : Nat
  granule : Option Nat
  node : Option TreeNode
  sent : Nat
  deriving DecidableEq, Repr

/-- A node whose MAJOR has advanced (R275): the node as it was, and the children not yet brought to MINOR 1. -/
structure Respan where
  region : Nat
  level : Nat
  index : Nat
  old : TreeNode
  left : List Nat
  deriving DecidableEq, Repr

/-- One pool port's pewter engine (chapter 9). `jobs` are numbered in arrival order, `cache` has the least recently used node
first, `rotating` the oldest rotation first; `turn` is the owner whose queue is taken from first (R279). `again` holds the reads to be
repeated after a parity error (R280), `returned` the nodes whose write was not acknowledged, to be cached again (R278), and `closing`
a reset that waits for its write-backs to be counted (R300): since when, and what it assays. -/
structure Pewter where
  ready : Bool
  cache : List TreeNode
  reads : List PoolReq
  again : List PoolReq
  writes : List PoolWrite
  returned : List TreeNode
  closing : Option (Nat × List (Nat × List Nat))
  respans : List Respan
  nextTag : Nat
  jobs : Table PewJob
  nextJob : Nat
  turn : Nat
  rotating : List Nat
  assayed : List Nat
  rotQueue : List Nat
  ueGranule : BitVec 16
  ueNode : Nat
  crossResets : Nat
  bucket : Table Nat
  deriving DecidableEq, Repr

/-- A stack's tier-A checker (R295, R301), with its replica of the page-owner table and of the share groups (R40). -/
structure Checker where
  pages : Table PageOwner
  groups : Table (List (Nat × Nat × Bool))
  ready : Bool
  denied : Nat
  scrubbing : Bool
  down : Bool
  deriving DecidableEq, Repr

/-- Memory sealing (chapter 9). Roots carry their complement (R272). -/
structure MemSeal where
  regions : Table Region
  roots : Table (BitVec 62 × BitVec 62)
  ports : Table Pewter
  checkers : Table Checker
  rootCorrected : Nat
  rootLast : Nat
  ueGranule : Nat
  lostRegions : Nat
  rotations : Nat
  nodeMiss : Nat
  tierADenied : Nat
  deriving DecidableEq, Repr

end Sys2Proof.Machine
end

