-- ==== Sys2Proof/Machine/PartsTime.lean ====
section
/-!
DEFINITION. PartsTime.lean: the parts of the state of the arbiter, the time base, casts, start-up and health
(chapters 13, 14, 16 and 17).
-/
namespace Sys2Proof.Machine

/-- The kinds of span of the schedule in force (R390). -/
inductive Span where
  | none
  | radio
  | guard
  | slack
  | quantum (k owner : Nat)
  deriving DecidableEq, Repr

/-- The arbiter (chapter 13). Times are domain time in ns. `resident` is the context that holds the array, `runSlot` the
piece it runs, `pieceTiles` the
tiles that each started piece has done, `cutRest` the pieces cut with a remainder, `ownTiles` the tiles of each slice's last own spans, `cutAt`
the session time of an ARR_CUT whose ARRAY_CLEAN is awaited, `schedNext` a captured schedule. -/
structure Arbiter where
  span : Span
  spanStart : Nat
  spanEnd : Nat
  quantumK : Nat
  resident : Option (Nat × Nat)
  runSlot : Option Nat
  lastCtx : Table Nat
  cutRest : List Nat
  spilled : Option Nat
  cutAt : Option Nat
  lateClean : Bool
  cutSlot : Option Nat
  tiles : Nat
  pieceTiles : Table Nat
  ownTiles : Table (List Nat)
  throttle : Nat
  throttleCause : Nat
  throttlePrev : Nat
  /-- Domain time of the millisecond from which the present level is in force (R407). -/
  levelAt : Nat
  capacityPending : List Nat
  overruns : BitVec 16
  spills : BitVec 16
  deferred : BitVec 16
  refused : BitVec 16
  radioOverruns : Nat
  guardSpills : Nat
  deferrals : Nat
  refusals : Nat
  rotBase : Nat
  schedNext : Option (Nat × Table Nat)
  paused : Bool
  resumeAt : Nat
  ready : Bool
  deriving DecidableEq, Repr

/-- The time base (R415 to R420). `now` is session time in units of 2^-32 ns; `state` is 0 NO_REF, 1 FREE, 2 ACQUIRING,
3 LOCKED, 4 HOLDOVER (R436). Rates are in units of 2^-32; `phase` is in ps. -/
structure Time where
  now : Nat
  state : Nat
  virtual : Bool
  trefLocked : Bool
  badEdges : BitVec 16
  phase : Int
  rate : Int
  fCorr : Int
  pCorr : Int
  grid0 : Option Nat
  lastEdge : Option Nat
  goodRun : Nat
  badRun : Nat
  badEdge : Option Nat
  firstErr : Int
  lostAt : Nat
  virtualEdge : Nat
  doff : Int
  latchHi : BitVec 32
  latchFrac : BitVec 32
  edgesBad : Nat
  holdovers : Nat
  steps : Nat
  castFails : Nat
  lateStamps : Nat
  deriving DecidableEq, Repr

/-- An armed cast (R422, R424). -/
structure Cast where
  owner : Nat
  kind : Nat
  param : Nat
  flags : Nat
  fire : Nat
  fireInv : Nat
  seq : Nat
  targets : List Nat
  acked : List Nat
  ctx : Option (Nat × Nat)
  captured : List (Nat × Nat)
  resting : Bool
  outcome : Code
  deriving DecidableEq, Repr

/-- Casts and clock domains (chapter 14). -/
structure Casts where
  table : Table Cast
  nextSeq : BitVec 16
  failed : BitVec 16
  stopped : Table (Nat × Nat)
  stops : Table (BitVec 16)
  lastAdvance : Table Nat
  summary : Table (Nat × Nat × Nat)
  deriving DecidableEq, Repr

/-- A copy of the start record (R467), sealed under its storage key. -/
structure StartRec where
  seq : Nat
  sessionId : BitVec 64
  fwDigest : Dig384
  mapGen : Nat
  pools : List (Nat × List Nat)
  mapRole : Nat
  inService : Nat
  map : Table Nat
  training : List (BitVec 32)
  iv : BitVec 96
  body : Bytes
  tag : Tag
  deriving DecidableEq, Repr

/-- Start-up, firmware and the unit map (chapter 16). -/
structure Boot where
  phase : Nat
  path : Nat
  coldReason : Nat
  starts : BitVec 8
  readyMs : Nat
  t0 : Nat
  areaValid : Bool
  pending : Bool
  reason : Nat
  area : Option Image
  running : Option Image
  loader : Bool
  versionA : BitVec 32
  versionAInv : BitVec 32
  versionB : BitVec 32
  versionBInv : BitVec 32
  startRecs : Table StartRec
  afwSrc : Nat
  afwBusy : Bool
  afwResult : Nat
  afwFailed : Nat
  afwDigest : Dig384
  afwVersion : Nat
  afwLocked : List Nat
  chunkBuf : Bytes
  mapGen : BitVec 32
  mapRole : BitVec 32
  mapEntries : Table Nat
  vacant : List Nat
  spares : List Nat
  failedCores : List Nat
  stagedFill : Option (Nat × Nat)
  /-- The digest of the staged map (R476). -/
  stagedDigest : Option Dig384
  stagedRole : Option Nat
  fillArmed : Option Nat
  testing : Option (Nat × Nat × Nat)
  trainCmd : Nat
  trainReady : Bool
  trainCursor : Nat
  trainWords : List (BitVec 32)
  retrain : BitVec 32
  retrainReq : Bool
  accelMs : Nat
  causeUnit : Option Nat
  fwResult : Nat
  wasReset : Bool
  deriving DecidableEq, Repr

/-- A gauge's last reading (R484, R499). -/
structure Gauge where
  cyclePs : Nat
  creep : Nat
  temp : Nat
  excluded : Bool
  deriving DecidableEq, Repr

/-- The frozen counter set that a save captures (R493, R495). -/
structure IngotSet where
  set : Table Nat
  seq : BitVec 32
  time : BitVec 64
  start : Nat
  session : BitVec 64
  deriving DecidableEq, Repr

/-- An ingot slot (R494, R495). `valid` says that its header is whole; `body` and `tag` are the sealed sections; the fields from
`records` on are what they hold, where a section that was not captured is none. -/
structure Ingot where
  seq : BitVec 32
  seqInv : BitVec 32
  mode : Nat
  valid : Bool
  consumed : Bool
  partialSave : Bool
  debug : Bool
  sessionId : BitVec 64
  saveTime : Nat
  domainId : Nat
  epoch : Nat
  vholdStart : Nat
  iv : BitVec 96
  bodyLen : Nat
  body : Bytes
  tag : Tag
  records : Option (List LbxRec)
  counters : Option IngotSet
  banks : Option Bytes
  taps : Option (Table Nat)
  rate : Option Int
  deriving DecidableEq, Repr

/-- Health, margins, hold-up and optics (chapter 17). -/
structure Health where
  gauges : Table Gauge
  taps : Table Nat
  above : Table Nat
  loweredAt : Table Nat
  plans : Nat
  throttleReq : Nat
  throttleWhy : Nat
  hot : Bool
  life : Bool
  opticsStale : Bool
  over520 : Bool
  worst : Nat
  vmargin : Nat
  tmargin : Nat
  armed : Bool
  modeAvail : Nat
  vholdMv : Nat
  lastMode : Nat
  lastResult : Nat
  lastDuration : Nat
  lastEndMv : Nat
  optics : Table (BitVec 32)
  opticsAt : Table Nat
  opticsRec : Table Nat
  ingots : Table Ingot
  ingotSeq : Nat
  vreqIod : Nat
  vreqCdie : Nat
  maxCreep : Nat
  maxTemp : Nat
  saves : Nat
  saveAborts : Nat
  creepAt : Nat
  coldTaps : Table Nat
  raiseOnly : Bool
  lifeNoted : Bool
  unsaved : Option Nat
  ingotLast : Bytes
  deriving DecidableEq, Repr

end Sys2Proof.Machine
end

