-- ==== Sys2Proof/Machine/State.lean ====
section
/-!
DEFINITION. State.lean: the whole state of the VTC as plain data, the ways a step can stop, and the state after reset.
Reset is the unit before its first session: no power, factory NVM, and every register at its stated reset value; where
the manual gives none the value is 0 or empty (log 2).
-/
namespace Sys2Proof.Machine

/-- No command of the VTC stops the model with a fault: every error is an effect on the state (log 11). -/
inductive Fault where
  deriving DecidableEq, Repr

/-- Reasons a command is refused by the model. -/
inductive Refusal where
  /-- A command that has no meaning yet; raised by `exec` only. Safe: nothing is claimed about it. -/
  | notModelled (mnemonic : String)
  deriving DecidableEq, Repr

/-- The state of the VTC. -/
structure State where
  pending : List Instr
  free : Nat
  out : List Output
  pow : Power
  pins : Pins
  cross : Crossings
  pools : Table Pool
  net : Table NetLink
  err : Errors
  lbx : Leadbox
  cnt : Counters
  watch : Watches
  dict : Dict
  mbx : Table MbxPage
  host : HostSeal
  gate : Gate
  ctxs : Contexts
  vault : Vault
  cipher : Cipher
  lc : LifeCycle
  dom : Domain
  link : Link
  alloys : Table Alloy
  mem : MemSeal
  tierA : List Host.Cell
  arb : Arbiter
  time : Time
  casts : Casts
  boot : Boot
  health : Health
  deriving DecidableEq, Repr

/-- The eighteen ports, one after another. -/
def perPort {α : Type} (n : Nat) (a : α) : Table α := (List.range n).map fun i => (i, a)

def Power.reset : Power :=
  { sessionOpen := false, sessionId := 0, iod := false, cdieA := false, cdieB := false, startIndex := 0, ready := false,
    readmitted := false, heldInReset := false, quenched := false, rootFail := false, saving := false,
    pendingChip := none, tcuDown := false }

def Pins.reset : Pins :=
  { pfailLow := false, presence := false, asserted := false, presenceAt := none, quenchLow := false, pwrcycLow := false,
    freezeAt := none }

/-- FAB_LANEMAP after reset: lanes 0 to 3 on themselves, the spare on 4 (R69); the layout is the model's. DESIGN CHOICE (log 73). -/
def laneMapReset : BitVec 15 := 0b100011010001000#15

def Crossings.reset : Crossings :=
  { vrst := [], nrst := [], vflush := [], nflush := [], vrstAt := [], resets := [], cc := [], ht := [], bf := [], held := [], laneMap := perPort 18 laneMapReset,
    laneUp := [], arrayClean := false, busOff := false, late := false,
    lateCount := 0, lateIndex := 0, lateGroup := 0 }

def Errors.reset : Errors :=
  { banks := [], corrected := [], informational := [], s3Times := [], partitionTimes := [], tcuTimes := [],
    chipTimes := [], lastAction := 0, hbTcu := 0, hubQueue := 0, hubHeld := 0, hbMgmt := 0, tcuBeatAt := none, mgmtBeatAt := none,
    arm5 := false, arm50 := false, armMgmt := false, ignoredBeats := 0, sentA := false, sentB := false,
    startAt := 0, startBeat := false, readyAt := 0, noticeSeq := 0, lastNotice := [], noticeRepeats := 0,
    noticeAt := 0, noticePending := [], quenchCause := none, quenchMore := 0, chipResets := 0, tcuRestarts := 0,
    partitionResets := 0, engineResets := 0, quenches := 0, limits := [], coldForced := false, requested := [],
    arbResetAt := none }

def Leadbox.reset : Leadbox :=
  { slots := [], next := 0, nextInv := BitVec.allOnes 64, ready := false, queue := [], seqOf := [], nextRid := 0,
    dropFlag := false, dropped := 0, dropCounts := [], dropFirst := 0, dropLast := 0, folds := [], cursor := 0,
    cursorLo := 0, nextHi := 0, auto := false, verifyResult := 0, verifyState := 0, verifySeq := 0,
    dictCursor := 0 }

def Counters.reset : Counters :=
  { live := [], snapshot := [], snapSource := 0, freezeSeq := 0, freezeTime := 0, freezeHi := 0, snapStart := 0,
    snapSession := 0, ignored := 0, latchHi := 0, stat := [] }

def Watches.reset : Watches :=
  { table := [], digestLevel := [], rotateWaiting := [], closed := 0, dumps := 0 }

def Dict.reset : Dict :=
  { force := [], shadow := [], boot := [], copies := [], transfers := [], statusSeq := 0,
    busOffCount := 0, abandoned := 0, configState := 0, capacityLast := 0,
    answering := [], noticeInBusOff := false }

def MbxPage.reset : MbxPage :=
  { busy := false, respReady := false, evtOvf := false, lastCode := 0, evtProd := 0, unread := 0, ring := [],
    nextSeq := 1, command := [], response := [], held := none }

def HostSeal.reset : HostSeal :=
  { session := 0, negotiated := 0, caps := 0, requester := 0, transcript := [],
    genIn := 0, genOut := 0, updIn := false, marksIn := none, sealedOut := [], marksOut := none, updateIn := 0, updateOut := 0,
    period := 0, rekeyPosted := false, work := [], windows := [], masked := List.range 2048,
    msixPending := [], msixSent := 0, bucketBytes := [], bucketRecords := [], tagFail := 0,
    otherFail := 0, lastReason := 0, lastSlice := 0, lastCtx := 0, recIn := 0, recOut := 0, rejectTag := 0,
    rejectOther := 0, keyUpdates := 0 }

def Gate.reset : Gate :=
  { queues := [], descs := [], nextDid := 0, seals := [], sealCount := 1, wrapCount := 0, order := [],
    lostSeals := [], cutSeals := [], hostList := [], pasidEpoch := [], tops := [], maps := [], tokenSlots := [], objs := [],
    evts := [], pages := [], scrubs := [], groups := [], ready := false,
    devCache := [], hostCache := [], failFlag := false, failCount := 0, lastPort := 0, dropUnbound := 0,
    reseal := 0, sealLevel := [], piecesSealed := 0, splits := 0, faultsHeld := 0, checkFail := 0,
    pageRequests := 0, allocs := 0, allocTurn := 31, destroying := [], invalidations := [], sharing := [] }

def Contexts.reset : Contexts :=
  { table := [], slices := [], usage := [], sliceUsage := [], pend := [], offers := [], freezing := [], genDiscards := 0,
    kills := 0, imagesSaved := 0, imagesRestored := 0, idsRetired := 0 }

def Vault.reset : Vault :=
  { slots := [], regs := [], destroyed := [], queue := [], blocked := [], maskSeed := 0, annealPeriod := 1000, rootState := 0, lcClass := 0, debugMark := false, entropyOk := false, pufTries := 0,
    rawFlips := 0, bchFixed := 0, highWater := [], annealMissed := 0, lastCycleMs := 0,
    cycles := 0, mismatch := false, mismatchCount := 0, lastWhere := 0, helperA := none, helperB := none,
    seeded := false, requests := 0, reseedAt := 0, annealAt := 0, derivations := 0, sliceGen := [],
    digestGen := [], pageGen := [], replacing := [], missedCycles := 0, result := 0 }

def Cipher.reset : Cipher :=
  { channels := [], store := [], nextRecord := 0, violations := 0, bucket := [], ofbIvs := [], identReady := false,
    ident := none, selfFail := false, pkQueue := [],
    pkDone := 0, signed := [], agreed := [] }

/-- A life-cycle record copy as written at wafer sort: state BLANK (log 12). -/
def LcCopy.reset : LcCopy :=
  { format := 0x0010, state := 0x96A5, stateInv := ~~~0x96A5#16, flags := 0, flagsInv := BitVec.allOnes 8, seq := 0,
    seqInv := BitVec.allOnes 32, operBinding := 0, debugOpens := 0, operGen := 0, reserved := 0 }

def LifeCycle.reset : LifeCycle :=
  { primary := LcCopy.reset, mirror := LcCopy.reset, code := 0, copies := 0, failCount := 0, lockout := false,
    nonce := none, result := 0, busy := false, tokensUsed := [], scope := 0, byGrant := false, challenge := none, challengeBytes := [],
    scrubPending := false, pendingScope := none, viol := false, violCount := 0,
    violMaster := 0, violRange := 0 }

def JoinState.reset : JoinState :=
  { step := 0, domainId := 0, anchor := 0, owner := 0, nonce := 0, hash := [], policyDigest := 0,
    tries := 0, startedAt := 0, lastAt := 0, txn := 0, ecPriv := 0, kemPriv := 0 }

def Domain.reset : Domain :=
  { domainId := 0, epoch := 0, term := 0, role := 0, anchor := 0, deputies := [], members := [], hosts := [],
    policy := none, policyDigest := 0, endorsement := none, join := JoinState.reset, admissions := [],
    changing := false, nextEpoch := 0, parts := [], triggers := [], coalesceAt := none, switchAt := none,
    committed := false, prepareAt := none, heldPrepare := none, epochAt := 0, beatAt := 0, beatSentAt := 0,
    probes := [], claimAt := none, roleGrant := none, manifest := none,
    hallmark := none, hallmarkNonce := none, discarded := 0, grace := none, txn := 0,
    evidence := [], pending := none, down := [], handoff := none }

/-- BRASS_PSTATUS after reset: UP 0, no active lane, SPARE_FOR 7 (R233). -/
def BrassPort.reset : BrassPort :=
  { up := false, activeLanes := 0, spareState := 0, spareFor := 7, tagFail := 0, drops := 0, keyCache := [], misses := [], egress := [], pass := [], clear := [], bucket := [] }

def Link.reset : Link :=
  { waiting := [], nextReq := 0, inbound := [], flows := [], nodes := [], ports := perPort 18 BrassPort.reset, fences := [], fenceWaits := [],
    queueFail := [], tagFail := 0, replayDrop := 0, otherDrop := 0, keyMiss := 0, retx := 0, fenceIndet := 0,
    rollovers := 0, winCompress := 0, winFull := false }

def Alloy.reset : Alloy :=
  { steps := [], ready := false, lanesGood := 0, lanesOut := [], nanOut := 0, satOut := 0, unmatched := 0, busyDrop := 0,
    lastFail := (0, 0, 0), stream := [], served := [] }

def Pewter.reset : Pewter :=
  { ready := false, cache := [], reads := [], again := [], writes := [], returned := [], closing := none, respans := [], nextTag := 0,
    jobs := [], nextJob := 0, turn := 0, rotating := [], assayed := [], rotQueue := [], ueGranule := 0, ueNode := 0, crossResets := 0,
    bucket := [] }

def Checker.reset : Checker := { pages := [], groups := [], ready := false, denied := 0, scrubbing := false, down := false }

def MemSeal.reset : MemSeal :=
  { regions := [], roots := [], ports := perPort 4 Pewter.reset, checkers := perPort 16 Checker.reset,
    rootCorrected := 0, rootLast := 0, ueGranule := 0, lostRegions := 0, rotations := 0, nodeMiss := 0,
    tierADenied := 0 }

def Arbiter.reset : Arbiter :=
  { span := .none, spanStart := 0, spanEnd := 0, quantumK := 0, resident := none, runSlot := none, lastCtx := [],
    cutRest := [], spilled := none, cutAt := none, lateClean := false, cutSlot := none, tiles := 0, pieceTiles := [], ownTiles := [], throttle := 0,
    throttleCause := 0, throttlePrev := 0, levelAt := 0, capacityPending := [], overruns := 0, spills := 0, deferred := 0,
    refused := 0, radioOverruns := 0, guardSpills := 0, deferrals := 0, refusals := 0, rotBase := 0,
    schedNext := none, paused := false, resumeAt := 0, ready := false }

/-- Before TREF locks the clock runs virtual (R436). -/
def Time.reset : Time :=
  { now := 0, state := 0, virtual := true, trefLocked := false, badEdges := 0, phase := 0, rate := 0, fCorr := 0,
    pCorr := 0, grid0 := none, lastEdge := none, goodRun := 0, badRun := 0, badEdge := none, firstErr := 0,
    lostAt := 0, virtualEdge := 0, doff := 0, latchHi := 0, latchFrac := 0, edgesBad := 0, holdovers := 0, steps := 0,
    castFails := 0, lateStamps := 0 }

def Casts.reset : Casts :=
  { table := [], nextSeq := 1, failed := 0, stopped := [], stops := [], lastAdvance := [], summary := [] }

def Boot.reset : Boot :=
  { phase := 0, path := 0, coldReason := 0, starts := 0, readyMs := 0, t0 := 0, areaValid := false,
    pending := false, reason := 0, area := none, running := none, loader := false, versionA := 0,
    versionAInv := BitVec.allOnes 32, versionB := 0, versionBInv := BitVec.allOnes 32, startRecs := [],
    afwSrc := 0, afwBusy := false, afwResult := 0, afwFailed := 0, afwDigest := 0, afwVersion := 0,
    afwLocked := [], chunkBuf := [], mapGen := 0, mapRole := BitVec.allOnes 32, mapEntries := [], vacant := [],
    spares := [], failedCores := [], stagedFill := none, stagedDigest := none, stagedRole := none, fillArmed := none, testing := none,
    trainCmd := 0, trainReady := false, trainCursor := 0, trainWords := [], retrain := 0, retrainReq := false, accelMs := 0,
    causeUnit := none, fwResult := 0, wasReset := false }

def Health.reset : Health :=
  { gauges := [], taps := [], above := [], loweredAt := [], plans := 0, throttleReq := 0, throttleWhy := 0, hot := false,
    life := false, opticsStale := false, over520 := false, worst := 0, vmargin := 0, tmargin := 0,
    armed := false, modeAvail := 0, vholdMv := 0, lastMode := 0, lastResult := 0, lastDuration := 0,
    lastEndMv := 0, optics := perPort 18 0x3FFFFFFF#32, opticsAt := [], opticsRec := [], ingots := [],
    ingotSeq := 0, vreqIod := 0, vreqCdie := 0, maxCreep := 0, maxTemp := 0, saves := 0, saveAborts := 0,
    creepAt := 0, coldTaps := [], raiseOnly := false, lifeNoted := false, unsaved := none, ingotLast := [] }

/-- The machine right after reset: unpowered, before its first session (log 2, log 12). -/
def State.reset : State :=
  { pending := [], free := 0, out := [], pow := Power.reset, pins := Pins.reset, cross := Crossings.reset, pools := [],
    net := [], err := Errors.reset, lbx := Leadbox.reset, cnt := Counters.reset, watch := Watches.reset,
    dict := Dict.reset, mbx := [], host := HostSeal.reset, gate := Gate.reset, ctxs := Contexts.reset,
    vault := Vault.reset, cipher := Cipher.reset, lc := LifeCycle.reset, dom := Domain.reset,
    link := Link.reset, alloys := perPort 18 Alloy.reset, mem := MemSeal.reset, tierA := [],
    arb := Arbiter.reset, time := Time.reset, casts := Casts.reset, boot := Boot.reset,
    health := Health.reset }

end Sys2Proof.Machine
end

