-- ==== Sys2Proof/Machine/Entries.lean ====
section
/-!
DEFINITION. Entries.lean: the entries of the Mukor dictionary as the chapters list them: index, first and last sub,
type, access, change class, default, and the least and greatest value a write may have.
-/
namespace Sys2Proof.Machine

/-- Types of entries (R537). -/
inductive EType where
  | u8 | u16 | u32 | u64 | i32 | bool | time64 | octets | string | record
  deriving DecidableEq, Repr

/-- Access codes of entries (R538). -/
inductive EAccess where
  | ro | wo | rw | rwp | rws | rwps
  deriving DecidableEq, Repr

/-- Change classes (R540). -/
inductive EChange where
  | live | commit | quiesce | boot
  deriving DecidableEq, Repr

/-- A row of an entry table, for subs `sub` to `last`. -/
structure Entry where
  index : Nat
  sub : Nat
  last : Nat
  type : EType
  access : EAccess
  change : EChange
  dflt : Nat
  lo : Nat
  hi : Nat
  deriving DecidableEq, Repr

def entries0 : List Entry :=
  [
    ⟨0x1000, 0x01, 0x01, .u64, .ro, .live, 0, 0, 18446744073709551615⟩, -- UNIT_ID
    ⟨0x1000, 0x02, 0x02, .string, .ro, .live, 0, 0, 0⟩, -- HW_MODEL
    ⟨0x1000, 0x03, 0x03, .string, .ro, .live, 0, 0, 0⟩, -- HW_STEPPING
    ⟨0x1000, 0x04, 0x04, .octets, .ro, .live, 0, 0, 0⟩, -- IDENTITY_KEY
    ⟨0x1001, 0x01, 0x01, .u32, .ro, .live, 0, 0, 4294967295⟩, -- FW_VERSION
    ⟨0x1001, 0x02, 0x02, .u64, .ro, .live, 0, 0, 18446744073709551615⟩, -- FW_BUILD
    ⟨0x1001, 0x03, 0x03, .u32, .ro, .live, 0, 0, 4294967295⟩, -- FW_VERSION_MIN
    ⟨0x1001, 0x04, 0x04, .octets, .ro, .live, 0, 0, 0⟩, -- AFW_DIGEST
    ⟨0x1100, 0x01, 0x01, .u8, .rw, .live, 63, 1, 63⟩, -- NODE_ADDR
    ⟨0x1100, 0x02, 0x02, .u8, .rw, .boot, 5, 1, 5⟩, -- DATA_RATE
    ⟨0x1100, 0x03, 0x03, .u32, .ro, .live, 0, 0, 4294967295⟩, -- BUS_OFF_COUNT
    ⟨0x1100, 0x04, 0x04, .u32, .ro, .live, 0, 0, 4294967295⟩, -- ABANDONED
    ⟨0x1100, 0x05, 0x05, .u8, .ro, .live, 0, 0, 255⟩, -- CONFIG_STATE
    ⟨0x2000, 0x01, 0x01, .u8, .ro, .live, 0, 0, 255⟩, -- LC_STATE
    ⟨0x2000, 0x02, 0x02, .u16, .ro, .live, 0, 0, 65535⟩, -- LC_CODE
    ⟨0x2000, 0x03, 0x03, .octets, .ro, .live, 0, 0, 0⟩, -- LC_NONCE
    ⟨0x2000, 0x04, 0x04, .octets, .rwps, .boot, 0, 0, 0⟩, -- LC_REQUEST
    ⟨0x2000, 0x05, 0x05, .octets, .rwp, .boot, 0, 0, 0⟩, -- LC_TOKEN
    ⟨0x2000, 0x06, 0x06, .u8, .ro, .live, 0, 0, 255⟩, -- LC_RESULT
    ⟨0x2000, 0x07, 0x07, .u32, .ro, .live, 0xFFFFFFFF, 0, 4294967295⟩, -- PRESENCE_AGE
    ⟨0x2000, 0x08, 0x08, .octets, .ro, .live, 0, 0, 0⟩, -- OPER_BINDING
    ⟨0x2000, 0x09, 0x09, .u16, .ro, .live, 0, 0, 65535⟩, -- DEBUG_OPENS
    ⟨0x2001, 0x01, 0x01, .octets, .rwps, .live, 0, 0, 0⟩, -- DEBUG_REQUEST
    ⟨0x2001, 0x02, 0x02, .octets, .ro, .live, 0, 0, 0⟩, -- DEBUG_CHALLENGE
    ⟨0x2001, 0x03, 0x03, .octets, .rwps, .live, 0, 0, 0⟩ -- DEBUG_GRANT
  ]

def entries1 : List Entry :=
  [
    ⟨0x2001, 0x04, 0x04, .u16, .ro, .live, 0, 0, 65535⟩, -- DEBUG_SCOPE
    ⟨0x2001, 0x05, 0x05, .u16, .ro, .live, 0, 0, 65535⟩, -- PROTECT_VIOL
    ⟨0x2010, 0x01, 0x01, .octets, .rw, .boot, 0, 0, 0⟩, -- FW_IMAGE
    ⟨0x2010, 0x02, 0x02, .u8, .ro, .live, 0, 0, 255⟩, -- FW_RESULT
    ⟨0x2010, 0x03, 0x03, .bool, .rwp, .boot, 0, 0, 1⟩, -- FORCE_COLD
    ⟨0x2010, 0x04, 0x04, .u32, .rws, .live, 0, 0, 4294967295⟩, -- AFW_MIN_VERSION
    ⟨0x2100, 0x01, 0x01, .u8, .ro, .live, 0, 0, 255⟩, -- ROOT_STATE
    ⟨0x2100, 0x02, 0x02, .u32, .rws, .live, 1000, 100, 10000⟩, -- ANNEAL_PERIOD
    ⟨0x2100, 0x03, 0x03, .u8, .ro, .live, 0, 0, 255⟩, -- ANNEAL_MISSED
    ⟨0x2101, 0x01, 0x04, .u16, .ro, .live, 0, 0, 65535⟩, -- PART_IN_USE
    ⟨0x2102, 0x01, 0x01, .u16, .ro, .live, 0, 0, 65535⟩, -- MISMATCH_COUNT
    ⟨0x2102, 0x02, 0x02, .u64, .ro, .live, 0, 0, 18446744073709551615⟩, -- DERIVATIONS
    ⟨0x2103, 0x01, 0x01, .u32, .ro, .live, 0, 0, 4294967295⟩, -- IDENTITY_KCV
    ⟨0x2200, 0x01, 0x01, .u64, .ro, .live, 0, 0, 18446744073709551615⟩, -- DOMAIN_ID
    ⟨0x2200, 0x02, 0x02, .u32, .ro, .live, 0, 0, 4294967295⟩, -- DOMAIN_EPOCH
    ⟨0x2200, 0x03, 0x03, .u8, .ro, .live, 0, 0, 255⟩, -- DOMAIN_ROLE
    ⟨0x2200, 0x04, 0x04, .u32, .ro, .live, 0, 0, 4294967295⟩, -- ANCHOR_TERM
    ⟨0x2200, 0x05, 0x05, .u16, .ro, .live, 0, 0, 65535⟩, -- MEMBER_COUNT
    ⟨0x2200, 0x06, 0x06, .octets, .ro, .live, 0, 0, 0⟩, -- POLICY_DIGEST
    ⟨0x2201, 0x01, 0x01, .octets, .rws, .quiesce, 0, 0, 0⟩, -- DOMAIN_CREATE
    ⟨0x2201, 0x02, 0x02, .octets, .rw, .quiesce, 0, 0, 0⟩, -- DOMAIN_JOIN
    ⟨0x2201, 0x03, 0x03, .u8, .rw, .quiesce, 0, 1, 1⟩, -- DOMAIN_LEAVE
    ⟨0x2201, 0x04, 0x04, .octets, .rw, .live, 0, 0, 0⟩, -- POLICY_UPDATE
    ⟨0x2201, 0x05, 0x05, .octets, .rw, .live, 0, 0, 0⟩, -- HOST_MEMBER
    ⟨0x2201, 0x06, 0x06, .u32, .rw, .live, 100, 10, 1000⟩ -- EPOCH_COALESCE
  ]

def entries2 : List Entry :=
  [
    ⟨0x2202, 0x01, 0x01, .octets, .rw, .live, 0, 0, 0⟩, -- IDENTITY_ENDORSEMENT
    ⟨0x2202, 0x02, 0x02, .octets, .wo, .live, 0, 0, 0⟩, -- HALLMARK_NONCE
    ⟨0x2202, 0x03, 0x03, .octets, .ro, .live, 0, 0, 0⟩, -- HALLMARK
    ⟨0x3000, 0x01, 0x01, .u64, .ro, .live, 0, 0, 18446744073709551615⟩, -- SESSION_ID
    ⟨0x3000, 0x02, 0x02, .time64, .ro, .live, 0, 0, 18446744073709551615⟩, -- SESSION_TIME
    ⟨0x3000, 0x03, 0x03, .u64, .ro, .live, 0, 0, 18446744073709551615⟩, -- DOMAIN_OFFSET
    ⟨0x3001, 0x01, 0x01, .u8, .ro, .live, 0, 0, 255⟩, -- TIME_STATE
    ⟨0x3001, 0x02, 0x02, .i32, .ro, .live, 0, 0, 4294967295⟩, -- PHASE_ERR
    ⟨0x3001, 0x03, 0x03, .i32, .ro, .live, 0, 0, 4294967295⟩, -- RATE_ADJ
    ⟨0x3001, 0x04, 0x04, .u32, .ro, .live, 0, 0, 4294967295⟩, -- EDGES_BAD
    ⟨0x3001, 0x05, 0x05, .u32, .ro, .live, 0, 0, 4294967295⟩, -- HOLDOVERS
    ⟨0x3001, 0x06, 0x06, .u32, .ro, .live, 0, 0, 4294967295⟩, -- TPULSE_STEPS
    ⟨0x3002, 0x01, 0x01, .time64, .rw, .live, 0, 0, 18446744073709551615⟩, -- COMMIT_AT
    ⟨0x3002, 0x02, 0x02, .time64, .rw, .live, 0, 0, 18446744073709551615⟩, -- FREEZE_AT
    ⟨0x3002, 0x03, 0x03, .u16, .ro, .live, 0, 0, 65535⟩, -- CASTS_ARMED
    ⟨0x3002, 0x04, 0x04, .u32, .ro, .live, 0, 0, 4294967295⟩, -- CAST_FAILS
    ⟨0x3003, 0x01, 0x01, .u64, .ro, .live, 0, 0, 18446744073709551615⟩, -- CLKD_STOPPED
    ⟨0x3003, 0x02, 0x02, .u64, .ro, .live, 0, 0, 18446744073709551615⟩, -- LATE_STAMPS
    ⟨0x4000, 0x01, 0x01, .u8, .rw, .quiesce, 16, 1, 16⟩, -- TENANT_SLICES
    ⟨0x4001, 0x01, 0x10, .u32, .rw, .quiesce, 0, 0, 4294967295⟩, -- SLICE_OWNER
    ⟨0x4002, 0x01, 0x01, .u32, .rw, .live, 600, 10, 3600⟩, -- OFFER_LIFETIME
    ⟨0x4003, 0x01, 0x01, .u16, .ro, .live, 0, 0, 65535⟩, -- CONTEXTS_LIVE
    ⟨0x4003, 0x02, 0x02, .u64, .ro, .live, 0, 0, 18446744073709551615⟩, -- GEN_DISCARDS
    ⟨0x4003, 0x03, 0x03, .u32, .ro, .live, 0, 0, 4294967295⟩, -- KILLS
    ⟨0x4003, 0x04, 0x04, .u32, .ro, .live, 0, 0, 4294967295⟩ -- IMAGES_SAVED
  ]

def entries3 : List Entry :=
  [
    ⟨0x4003, 0x05, 0x05, .u32, .ro, .live, 0, 0, 4294967295⟩, -- IMAGES_RESTORED
    ⟨0x4003, 0x06, 0x06, .u16, .ro, .live, 0, 0, 65535⟩, -- IDS_RETIRED
    ⟨0x4010, 0x01, 0x01, .u8, .rw, .quiesce, 0, 0, 1⟩, -- SHARE_MODE
    ⟨0x4011, 0x01, 0x01, .u16, .rw, .commit, 500, 125, 1000⟩, -- RADIO_SLOT
    ⟨0x4011, 0x02, 0x02, .u8, .rw, .commit, 2, 1, 16⟩, -- SCHED_SLOTS
    ⟨0x4011, 0x03, 0x03, .u16, .rw, .commit, 50, 10, 500⟩, -- GUARD
    ⟨0x4011, 0x04, 0x04, .u16, .rw, .commit, 250, 50, 1000⟩, -- QUANTUM
    ⟨0x4012, 0x01, 0x01, .u32, .rw, .commit, 200, 0, 4294967295⟩, -- RADIO_WINDOW
    ⟨0x4012, 0x02, 0x02, .u32, .rw, .commit, 0x1F400C8, 0, 4294967295⟩, -- RADIO_WINDOW
    ⟨0x4012, 0x03, 0x10, .u32, .rw, .commit, 0, 0, 4294967295⟩, -- RADIO_WINDOW
    ⟨0x4013, 0x01, 0x01, .u32, .rw, .live, 1000, 10, 10000⟩, -- ADMIT_HORIZON
    ⟨0x4013, 0x02, 0x02, .u32, .rw, .live, 100, 1, 10000⟩, -- DEFER_LIMIT
    ⟨0x4013, 0x03, 0x03, .u16, .rw, .live, 1024, 16, 8192⟩, -- DEFER_DEPTH
    ⟨0x4013, 0x04, 0x04, .u32, .rw, .live, 64, 0, 4294967295⟩, -- TILE_RATE_INIT
    ⟨0x4014, 0x01, 0x01, .u16, .rw, .commit, 64, 16, 128⟩, -- GATE_RADIO
    ⟨0x4014, 0x02, 0x02, .u16, .rw, .commit, 16, 4, 32⟩, -- GATE_OPER
    ⟨0x4014, 0x03, 0x03, .u8, .rw, .live, 0, 0, 12⟩, -- THROTTLE_FLOOR
    ⟨0x4015, 0x01, 0x01, .u32, .ro, .live, 0, 0, 4294967295⟩, -- RADIO_OVERRUNS
    ⟨0x4015, 0x02, 0x02, .u32, .ro, .live, 0, 0, 4294967295⟩, -- GUARD_SPILLS
    ⟨0x4015, 0x03, 0x03, .u64, .ro, .live, 0, 0, 18446744073709551615⟩, -- DEFERRALS
    ⟨0x4015, 0x04, 0x04, .u64, .ro, .live, 0, 0, 18446744073709551615⟩, -- REFUSALS
    ⟨0x4015, 0x05, 0x05, .u8, .ro, .live, 0, 0, 255⟩, -- THROTTLE_NOW
    ⟨0x4020, 0x01, 0x01, .u32, .ro, .live, 0, 0, 4294967295⟩, -- MAP_GEN
    ⟨0x4020, 0x02, 0x02, .u16, .ro, .live, 0, 0, 65535⟩, -- CORES_IN_SERVICE
    ⟨0x4020, 0x03, 0x03, .octets, .rw, .live, 0, 0, 0⟩ -- MAP_FILL
  ]

def entries4 : List Entry :=
  [
    ⟨0x4020, 0x04, 0x04, .octets, .ro, .live, 0, 0, 0⟩, -- MAP_DIGEST
    ⟨0x4040, 0x01, 0x01, .u8, .ro, .live, 0, 0, 255⟩, -- SLICE
    ⟨0x4040, 0x02, 0x02, .u8, .ro, .live, 0, 0, 255⟩, -- N
    ⟨0x4040, 0x03, 0x03, .u8, .ro, .live, 0, 0, 255⟩, -- MODE
    ⟨0x4040, 0x04, 0x04, .u32, .ro, .live, 0, 0, 4294967295⟩, -- PERIOD_US
    ⟨0x4040, 0x05, 0x05, .u16, .ro, .live, 0, 0, 65535⟩, -- QUANTUM_US
    ⟨0x4040, 0x06, 0x06, .time64, .ro, .live, 0, 0, 18446744073709551615⟩, -- NEXT_QUANTUM
    ⟨0x4040, 0x07, 0x07, .record, .ro, .live, 0, 0, 0⟩, -- SHARES
    ⟨0x4040, 0x08, 0x08, .record, .ro, .live, 0, 0, 0⟩, -- QUOTAS
    ⟨0x4040, 0x09, 0x09, .record, .ro, .live, 0, 0, 0⟩, -- ADMISSION
    ⟨0x4040, 0x0A, 0x0A, .u8, .ro, .live, 0, 0, 255⟩, -- THROTTLE
    ⟨0x4040, 0x0B, 0x0B, .u32, .ro, .live, 0, 0, 4294967295⟩, -- CAPACITY_LAST
    ⟨0x5000, 0x01, 0x01, .u32, .rw, .live, 10, 1, 1000⟩, -- FENCE_TIMEOUT
    ⟨0x5000, 0x02, 0x02, .u32, .rw, .live, 50, 10, 1000⟩, -- RETX_INITIAL
    ⟨0x5000, 0x03, 0x03, .u32, .rw, .commit, 400, 0, 800⟩, -- TRANSIT_RESERVE
    ⟨0x5000, 0x04, 0x04, .u32, .rw, .commit, 320, 0, 800⟩, -- RADIO_FABRIC
    ⟨0x5000, 0x05, 0x05, .u32, .rw, .commit, 32, 0, 64⟩, -- OPER_FABRIC
    ⟨0x5001, 0x01, 0x01, .u64, .ro, .live, 0, 0, 18446744073709551615⟩, -- TAG_FAIL
    ⟨0x5001, 0x02, 0x02, .u64, .ro, .live, 0, 0, 18446744073709551615⟩, -- REPLAY_DROP
    ⟨0x5001, 0x03, 0x03, .u64, .ro, .live, 0, 0, 18446744073709551615⟩, -- OTHER_DROP
    ⟨0x5001, 0x04, 0x04, .u64, .ro, .live, 0, 0, 18446744073709551615⟩, -- KEY_MISS
    ⟨0x5001, 0x05, 0x05, .u64, .ro, .live, 0, 0, 18446744073709551615⟩, -- RETX
    ⟨0x5001, 0x06, 0x06, .u32, .ro, .live, 0, 0, 4294967295⟩, -- FENCE_INDET
    ⟨0x5001, 0x07, 0x07, .u32, .ro, .live, 0, 0, 4294967295⟩, -- ROLLOVERS
    ⟨0x5001, 0x08, 0x08, .u32, .ro, .live, 0, 0, 4294967295⟩ -- WIN_COMPRESS
  ]

def entries5 : List Entry :=
  [
    ⟨0x5002, 0x01, 0x12, .u8, .ro, .live, 0, 0, 255⟩, -- PORT_LANES
    ⟨0x5010, 0x01, 0x01, .u32, .rw, .live, 20, 1, 1000⟩, -- STEP_TIMEOUT
    ⟨0x5011, 0x01, 0x01, .u64, .ro, .live, 0, 0, 18446744073709551615⟩, -- STEPS_DONE
    ⟨0x5011, 0x02, 0x02, .u32, .ro, .live, 0, 0, 4294967295⟩, -- STEPS_FAILED
    ⟨0x5011, 0x03, 0x03, .u64, .ro, .live, 0, 0, 18446744073709551615⟩, -- NAN_OUT
    ⟨0x5011, 0x04, 0x04, .u64, .ro, .live, 0, 0, 18446744073709551615⟩, -- SAT_OUT
    ⟨0x5011, 0x05, 0x05, .u64, .ro, .live, 0, 0, 18446744073709551615⟩, -- UNMATCHED
    ⟨0x5011, 0x06, 0x06, .u64, .ro, .live, 0, 0, 18446744073709551615⟩, -- BUSY_DROP
    ⟨0x5012, 0x01, 0x12, .u16, .ro, .live, 0, 0, 65535⟩, -- ALLOY_LANES
    ⟨0x5100, 0x01, 0x04, .u16, .rw, .boot, 8192, 0, 8192⟩, -- POOL_REGIONS
    ⟨0x5100, 0x05, 0x05, .u32, .rw, .live, 1000, 100, 100000⟩, -- POOL_TIMEOUT
    ⟨0x5101, 0x01, 0x01, .u32, .rw, .commit, 64, 16, 400⟩, -- POOL_SYSTEM
    ⟨0x5101, 0x02, 0x02, .u32, .rw, .commit, 320, 0, 800⟩, -- POOL_RADIO
    ⟨0x5101, 0x03, 0x03, .u32, .rw, .commit, 32, 0, 64⟩, -- POOL_OPER
    ⟨0x5102, 0x01, 0x01, .u16, .wo, .live, 0, 0, 65535⟩, -- REGION_ROTATE
    ⟨0x5103, 0x01, 0x01, .u64, .ro, .live, 0, 0, 18446744073709551615⟩, -- UE_GRANULE
    ⟨0x5103, 0x02, 0x02, .u32, .ro, .live, 0, 0, 4294967295⟩, -- LOST_REGIONS
    ⟨0x5103, 0x03, 0x03, .u32, .ro, .live, 0, 0, 4294967295⟩, -- ROTATIONS
    ⟨0x5103, 0x04, 0x04, .u64, .ro, .live, 0, 0, 18446744073709551615⟩, -- NODE_MISS
    ⟨0x5103, 0x05, 0x05, .u64, .ro, .live, 0, 0, 18446744073709551615⟩, -- TIER_A_DENIED
    ⟨0x5200, 0x01, 0x01, .u32, .rw, .live, 10000, 1000, 30000⟩, -- HOST_REKEY_PERIOD
    ⟨0x5200, 0x02, 0x02, .u32, .rw, .commit, 192, 0, 800⟩, -- HOST_RADIO
    ⟨0x5200, 0x03, 0x03, .u32, .rw, .commit, 32, 0, 64⟩, -- HOST_OPER
    ⟨0x5200, 0x04, 0x04, .u8, .ro, .live, 0, 0, 255⟩, -- SESSION_STATE
    ⟨0x5201, 0x01, 0x01, .u64, .ro, .live, 0, 0, 18446744073709551615⟩ -- REC_IN
  ]

def entries6 : List Entry :=
  [
    ⟨0x5201, 0x02, 0x02, .u64, .ro, .live, 0, 0, 18446744073709551615⟩, -- REC_OUT
    ⟨0x5201, 0x03, 0x03, .u64, .ro, .live, 0, 0, 18446744073709551615⟩, -- REJECT_TAG
    ⟨0x5201, 0x04, 0x04, .u64, .ro, .live, 0, 0, 18446744073709551615⟩, -- REJECT_OTHER
    ⟨0x5201, 0x05, 0x05, .u32, .ro, .live, 0, 0, 4294967295⟩, -- KEY_UPDATES
    ⟨0x5300, 0x01, 0x01, .u32, .rw, .live, 1000, 10, 60000⟩, -- FAULT_HOLD_LIMIT
    ⟨0x5300, 0x02, 0x02, .u16, .rw, .boot, 128, 64, 1024⟩, -- TIERA_SYSTEM
    ⟨0x5300, 0x03, 0x03, .u16, .rw, .quiesce, 2048, 0, 65535⟩, -- TIERA_RADIO
    ⟨0x5300, 0x04, 0x04, .u16, .rw, .quiesce, 64, 0, 65535⟩, -- TIERA_OPER
    ⟨0x5300, 0x05, 0x05, .u16, .rw, .quiesce, 2048, 0, 65535⟩, -- TIERB_RADIO
    ⟨0x5300, 0x06, 0x06, .u16, .rw, .quiesce, 512, 0, 65535⟩, -- TIERB_OPER
    ⟨0x5301, 0x01, 0x01, .u64, .ro, .live, 0, 0, 18446744073709551615⟩, -- PIECES_SEALED
    ⟨0x5301, 0x02, 0x02, .u64, .ro, .live, 0, 0, 18446744073709551615⟩, -- SPLITS
    ⟨0x5301, 0x03, 0x03, .u64, .ro, .live, 0, 0, 18446744073709551615⟩, -- FAULTS_HELD
    ⟨0x5301, 0x04, 0x04, .u32, .ro, .live, 0, 0, 4294967295⟩, -- CHECK_FAIL
    ⟨0x5301, 0x05, 0x05, .u64, .ro, .live, 0, 0, 18446744073709551615⟩, -- PAGE_REQUESTS
    ⟨0x5301, 0x06, 0x06, .u64, .ro, .live, 0, 0, 18446744073709551615⟩, -- ALLOCS
    ⟨0x6000, 0x01, 0x01, .u8, .rws, .live, 8, 5, 20⟩, -- GUARD_PCT
    ⟨0x6000, 0x02, 0x02, .u8, .rws, .live, 98, 85, 100⟩, -- TJ_THROTTLE
    ⟨0x6000, 0x03, 0x03, .u8, .rw, .live, 20, 5, 63⟩, -- OPTICS_WARN
    ⟨0x6000, 0x04, 0x04, .u8, .rw, .live, 10, 3, 63⟩, -- OPTICS_RETRAIN
    ⟨0x6001, 0x01, 0x01, .u8, .ro, .live, 0, 0, 255⟩, -- THROTTLE_REQ
    ⟨0x6001, 0x02, 0x02, .u16, .ro, .live, 0, 0, 65535⟩, -- VREQ_IOD
    ⟨0x6001, 0x03, 0x03, .u16, .ro, .live, 0, 0, 65535⟩, -- VREQ_CDIE
    ⟨0x6001, 0x04, 0x04, .u16, .ro, .live, 0, 0, 65535⟩, -- MAX_CREEP
    ⟨0x6001, 0x05, 0x05, .i32, .ro, .live, 0, 0, 4294967295⟩ -- MAX_TEMP
  ]

def entries7 : List Entry :=
  [
    ⟨0x6001, 0x06, 0x06, .octets, .ro, .live, 0, 0, 0⟩, -- GAUGES
    ⟨0x6002, 0x01, 0x01, .bool, .ro, .live, 0, 0, 1⟩, -- HOLDUP_ARMED
    ⟨0x6002, 0x02, 0x02, .u16, .ro, .live, 0, 0, 65535⟩, -- VHOLD_MV
    ⟨0x6002, 0x03, 0x03, .u32, .ro, .live, 0, 0, 4294967295⟩, -- SAVES
    ⟨0x6002, 0x04, 0x04, .u32, .ro, .live, 0, 0, 4294967295⟩, -- SAVE_ABORTS
    ⟨0x6003, 0x01, 0x01, .octets, .ro, .live, 0, 0, 0⟩, -- INGOT_LAST
    ⟨0x6010, 0x01, 0x01, .u32, .rw, .live, 0, 0, 4294967295⟩, -- RETRAIN
    ⟨0x6010, 0x02, 0x02, .u8, .ro, .live, 0, 0, 255⟩, -- START_PATH
    ⟨0x6010, 0x03, 0x03, .u32, .ro, .live, 0, 0, 4294967295⟩, -- VTC_READY_MS
    ⟨0x6010, 0x04, 0x04, .u32, .ro, .live, 0, 0, 4294967295⟩, -- ACCEL_READY_MS
    ⟨0x7000, 0x01, 0x01, .u64, .ro, .live, 0, 0, 18446744073709551615⟩, -- LBX_NEXT
    ⟨0x7000, 0x02, 0x02, .u64, .rw, .live, 0, 0, 18446744073709551615⟩, -- LBX_CURSOR
    ⟨0x7000, 0x03, 0x03, .octets, .ro, .live, 0, 0, 0⟩, -- LBX_RECORD
    ⟨0x7000, 0x04, 0x04, .u64, .ro, .live, 0, 0, 18446744073709551615⟩, -- LBX_DROPPED
    ⟨0x7100, 0x01, 0x01, .u32, .ro, .live, 0, 0, 4294967295⟩, -- FREEZE_SEQ
    ⟨0x7100, 0x02, 0x02, .octets, .ro, .live, 0, 0, 0⟩, -- FREEZE_SET
    ⟨0x7100, 0x03, 0x03, .u32, .ro, .live, 0, 0, 4294967295⟩, -- FREEZE_IGNORED
    ⟨0x7200, 0x01, 0x01, .u32, .rw, .live, 100, 1, 10000⟩, -- WATCH_TIMEOUT
    ⟨0x7200, 0x02, 0x02, .bool, .rws, .live, 0, 0, 1⟩, -- DUMP_ENABLE
    ⟨0x7201, 0x01, 0x01, .u64, .ro, .live, 0, 0, 18446744073709551615⟩, -- WATCHES
    ⟨0x7201, 0x02, 0x02, .u32, .ro, .live, 0, 0, 4294967295⟩, -- DUMPS
    ⟨0x7F00, 0x01, 0x01, .u8, .ro, .live, 0, 0, 255⟩, -- QUENCH_STATE
    ⟨0x7F00, 0x02, 0x02, .octets, .ro, .live, 0, 0, 0⟩, -- QUENCH_CAUSE
    ⟨0x7F00, 0x03, 0x03, .octets, .rws, .live, 0, 0, 0⟩, -- QUENCH_RELEASE
    ⟨0x7F00, 0x04, 0x04, .u32, .ro, .live, 0, 0, 4294967295⟩ -- QUENCHES
  ]

def entries8 : List Entry :=
  [
    ⟨0x7F01, 0x01, 0x01, .u16, .rws, .live, 0, 0, 65535⟩, -- RESET_REQUEST
    ⟨0x7F01, 0x02, 0x02, .u32, .rws, .boot, 50, 20, 1000⟩, -- MGMT_HB_LIMIT
    ⟨0x7F02, 0x01, 0x01, .u32, .ro, .live, 0, 0, 4294967295⟩, -- CHIP_RESETS
    ⟨0x7F02, 0x02, 0x02, .u32, .ro, .live, 0, 0, 4294967295⟩, -- TCU_RESTARTS
    ⟨0x7F02, 0x03, 0x03, .u32, .ro, .live, 0, 0, 4294967295⟩, -- PARTITION_RESETS
    ⟨0x7F02, 0x04, 0x04, .u32, .ro, .live, 0, 0, 4294967295⟩, -- ENGINE_RESETS
    ⟨0x7F02, 0x05, 0x05, .u8, .ro, .live, 0, 0, 255⟩, -- SENTINEL_STATE
    ⟨0x7F02, 0x06, 0x06, .octets, .ro, .live, 0, 0, 0⟩ -- LAST_NOTICE
  ]

/-- Every entry of the dictionary. -/
def entries : List Entry :=
  entries0 ++ entries1 ++ entries2 ++ entries3 ++ entries4 ++ entries5 ++ entries6 ++ entries7 ++ entries8

/-- The entry that an index and sub name. -/
def entryAt (index sub : Nat) : Option Entry :=
  entries.find? fun e => e.index == index && decide (e.sub ≤ sub) && decide (sub ≤ e.last)

/-- The key under which a setting is held. -/
def ekey (index sub : Nat) : Nat := index * 256 + sub

/-- A setting in force: what was written to it, else its default. -/
def setting (s : State) (index sub : Nat) : Nat :=
  tgetD s.dict.force (ekey index sub) (((entryAt index sub).map (·.dflt)).getD 0)

end Sys2Proof.Machine
end

