-- ==== Sys2Proof/Machine/Ops.lean ====
section
/-!
DEFINITION. Ops.lean: the operations that every family shares: time, free values, outputs, keys, limits, records of the
leadbox, counters, the service gates and tier-A memory.
-/
namespace Sys2Proof.Machine

/-- Session time in whole nanoseconds (R8). -/
def State.ns (s : State) : Nat := s.time.now / 2 ^ 32

/-- Session time in whole milliseconds. -/
def State.ms (s : State) : Nat := s.ns / 1000000

/-- Domain time: session time plus the offset agreed at joining (R5, R421). -/
def State.domNs (s : State) : Nat := ((s.ns : Int) + s.time.doff).toNat

/-- Words pass through a bisynchronous FIFO (R56): both pointers move on, and it is empty again. -/
def Crossings.pass (c : Crossings) (key words : Nat) : Crossings :=
  let f := tgetD c.bf key ⟨0, 0⟩
  { c with bf := tset c.bf key ⟨f.wr + BitVec.ofNat 6 words, f.rd + BitVec.ofNat 6 words⟩ }

/-- Values pass over a held-value crossing (R56, R57), one after another: TAKE toggles, the receiver captures, and ACK follows. -/
def Crossings.hold (c : Crossings) (key values : Nat) : Crossings :=
  let h := tgetD c.ht key ⟨false, false⟩
  let t := if values % 2 = 1 then !h.take else h.take
  { c with ht := tset c.ht key ⟨t, t⟩ }

/-- The crossing that an output takes (R69 to R78), and how many words or values it is. Outward crossings are keyed 32 × group +
index; a FAB word has 32 bytes, a POOL word 32 and a TLP word 128. Log 63. -/
def Crossings.driven (c : Crossings) (o : Output) : Crossings :=
  let words (n w : Nat) : Nat := (n + w - 1) / w
  match o with
  | .frame p f => c.pass (32 + p) (words (40 + f.payload.length) 32)
  | .passFrame _ p f => c.pass (32 + p) (words (40 + f.payload.length) 32)
  | .poolRead q _ _ _ => c.pass (64 + q) 1
  | .poolWrite q _ _ d => c.pass (64 + q) (words d.length 32)
  | .verdict k _ => c.pass (96 + k) 1
  | .scrub k _ => c.pass (96 + k) 1
  | .hostWrite _ d => c.pass 128 (words d.length 128)
  | .hostRecord _ r => c.pass 128 (words (48 + r.payload.length) 128)
  | .hostRead p => c.pass 128 p.length
  | .completion _ _ _ => c.pass 128 1
  | .sealedEntry cp _ _ _ _ _ => c.pass (160 + cp) 1
  | .atsRequest _ _ => c.hold 128 1
  | .atsInvalidateDone _ _ _ => c.hold 128 1
  | .pageRequest _ _ => c.hold 129 1
  | .spdm _ b => c.hold 130 (words b.length 4)
  | .msix _ => c.hold 131 1
  | .arrSwitch _ _ _ => c.hold 192 1
  | .arrCut => c.hold 193 1
  | .can _ _ => c.hold 225 1
  | .mukor _ _ _ _ _ _ _ _ _ _ => c.hold 225 1
  | _ => c

/-- The reset-notice level of the group that an output crosses (R60, R69 to R78). -/
def Output.level : Output → Option Nat
  | .frame p _ => some (32 + p)
  | .passFrame _ p _ => some (32 + p)
  | .poolRead q _ _ _ => some (64 + q)
  | .poolWrite q _ _ _ => some (64 + q)
  | .verdict k _ => some (96 + k)
  | .scrub k _ => some (96 + k)
  | .hostWrite _ _ => some 128
  | .hostRecord _ _ => some 128
  | .hostRead _ => some 128
  | .completion _ _ _ => some 128
  | .atsRequest _ _ => some 128
  | .atsInvalidateDone _ _ _ => some 128
  | .pageRequest _ _ => some 128
  | .spdm _ _ => some 128
  | .msix _ => some 128
  | .sealedEntry cp _ _ _ _ _ => some (160 + cp)
  | .arrSwitch _ _ _ => some 192
  | .arrCut => some 192
  | .can _ _ => some 224
  | .mukor _ _ _ _ _ _ _ _ _ _ => some 224
  | _ => none

/-- A crossing is open: no RST level of either side is asserted (R60). -/
def State.crossOpen (s : State) (level : Nat) : Bool := !s.cross.vrst.contains level && !s.cross.nrst.contains level

/-- Drive something outside (log 7), over its crossing (R56). While an RST level of its group is asserted nothing is presented, and the
item waits (R57, R60); after a quench nothing crosses but to the management network (R63, R447). -/
def State.emit (s : State) (o : Output) : State :=
  match o.level with
  | none => { s with out := s.out ++ [o] }
  | some n =>
    if s.pow.quenched && n != 224 then s
    else if s.crossOpen n then { s with out := s.out ++ [o], cross := s.cross.driven o }
    else { s with cross.held := s.cross.held ++ [o] }

/-- Present what waited for a crossing that is open again (R60 step 5), in order. -/
def presentHeld (s : State) : State := s.cross.held.foldl State.emit { s with cross.held := [] }

/-- Take words from outside over a FIFO of a group (R56). -/
def State.intake (s : State) (level words : Nat) : State := { s with cross := s.cross.pass (1000 + level) words }

/-- Take a held value from outside (R56). -/
def State.heldIn (s : State) (level : Nat) : State := { s with cross := s.cross.hold (1000 + level) 1 }

/-- Assert VRST levels (R60 step 1); one that is asserted stays as it is (R62). -/
def assertVrst (s : State) (levels : List Nat) : State :=
  levels.foldl (fun s n =>
    if s.cross.vrst.contains n then s
    else { s with cross.vrst := insertN s.cross.vrst n, cross.vrstAt := tset s.cross.vrstAt n s.ns }) s

/-- The clock domains behind an RST level's group (R430). -/
def clocksOf (level : Nat) : List Nat :=
  if level < 64 then [level - 32]
  else if level < 96 then [18 + (level - 64)]
  else if level < 128 then [22 + (level - 96)]
  else if level < 160 then [38]
  else if level < 192 then [39 + (level - 160)]
  else if level < 224 then [47, 48]
  else [49]

/-- When the heartbeat of a STOPPED clock domain of a group last advanced (R432). -/
def lastBeat (s : State) (level : Nat) : Option Nat := (clocksOf level).findSome? fun i => (tget s.casts.stopped i).map (·.1)

/-- Events at a counter crossing, and how many the receiver counts (R58): the difference of two samples modulo 2^16. While the
source is in reset its counter is frozen, so no event is counted (R64). Events of a clock domain that was STOPPED are stamped LATE, and
counted so (R431). -/
def ccEvents (s : State) (key level count : Nat) : State × Nat :=
  if s.cross.nrst.contains level then (s, 0)
  else
    let c := tgetD s.cross.cc key ⟨0, 0⟩
    let now := c.source + BitVec.ofNat 16 count
    let late := (lastBeat s level).isSome && now != c.sample
    ({ s with cross.cc := tset s.cross.cc key ⟨now, now⟩, time.lateStamps := s.time.lateStamps + (if late then 1 else 0) },
      (now - c.sample).toNat)

/-- The failed members of a unit's pool (R46, R47). -/
def poolOut (s : State) (unit pool : Nat) : List Nat := ((tget s.pools (unit * 32 + pool)).map (·.out)).getD []

/-- The leaves of the internal trust network (chapter 1): brass, pewter, the host seal engine and the checkers. -/
def isLeaf (unit : Nat) : Bool :=
  decide (unit < 18) || (decide (0x20 ≤ unit) && decide (unit < 0x24)) || unit == uHse ||
    (decide (0x40 ≤ unit) && decide (unit < 0x50))

def netLink (s : State) (leaf : Nat) : NetLink := tgetD s.net leaf ⟨⟨0, [], 0⟩, ⟨0, [], 0⟩, false, false⟩

/-- The receiver of a message (R38): it takes the number that it expects next, and discards a duplicate. -/
def NetDir.take (d : NetDir) (seq : BitVec 16) : NetDir := if seq = d.got then { d with got := d.got + 1 } else d

/-- Send a message in one direction (R38): the next sequence number and at most 64 bytes of payload; it waits for its acknowledgement. A
message is sent again once 2 µs have passed; one that was not by the time another leaves 4 µs after it is taken as acknowledged. DESIGN
CHOICE (log 86). -/
def NetDir.send (d : NetDir) (now : Nat) (kind : NetKind) (source dest : Nat) (payload : Bytes) : NetDir :=
  let p := payload.take 64
  let m : NetMsg :=
    { kind := kind, source := source, dest := dest, seq := d.seq, length := p.length, payload := p, sentAt := now, tries := 0 }
  NetDir.take { d with seq := d.seq + 1, sent := (d.sent.filter fun x => decide (now < x.sentAt + 4000)) ++ [m] } d.seq

/-- Send a message from the hub to a leaf (R38). A failed link carries none (R39). -/
def netSend (s : State) (source leaf : Nat) (kind : NetKind) (payload : Bytes) : State :=
  let l := netLink s leaf
  if !isLeaf leaf || l.failed then s
  else
    { (s.emit (.networkMessage leaf l.down.seq.toNat)) with
      net := tset s.net leaf { l with down := l.down.send s.ns kind source leaf payload } }

/-- A leaf sends a status message to the TCU (R38, R444): the engine and the class of its error. -/
def netReport (s : State) (leaf : Nat) (payload : Bytes) : State :=
  let l := netLink s leaf
  if !isLeaf leaf || l.failed then s
  else { s with net := tset s.net leaf { l with up := l.up.send s.ns .status leaf uTcu payload } }

/-- A leaf acknowledges a message (R38): a link delivers in order, so all that went before have arrived too. -/
def netAck (s : State) (leaf : Nat) (kind : NetKind) (payload : Bytes) : State :=
  { s with net := tmod s.net leaf fun l => { l with
      down := { l.down with sent := (l.down.sent.dropWhile fun m => m.kind != kind || m.payload != payload).drop 1 } } }

/-- Stage a cast's action at a target (R36): over the network where the target is a leaf. -/
def castStageAt (s : State) (number target : Nat) : State :=
  netSend (s.emit (.castStage number target)) uTcu target .stage (le 2 number)

/-- A cast number rests until every target has acknowledged its fire, or the discard of what was staged there (R37). -/
def castRest (s : State) (n : Nat) (c : Cast) : State :=
  if c.targets = [] then { s with casts.table := tdel s.casts.table n }
  else
    let s1 : State := { s with casts.table := tset s.casts.table n { c with resting := true, acked := [] } }
    if c.outcome = cOk then s1 else c.targets.foldl (fun s t => netSend s uTcu t .discard (le 2 n)) s1

/-- Write a page's entry in the gate's table and in every checker's replica that a message reaches (R40, R295). -/
def setPage (s : State) (p : Nat) (o : PageOwner) : State :=
  let s0 : State := { s with gate.pages := tset s.gate.pages p o }
  (List.range 16).foldl (fun s k =>
    if (netLink s (0x40 + k)).failed then s
    else
      let c := tgetD s.mem.checkers k Checker.reset
      netSend { s with mem.checkers := tset s.mem.checkers k { c with pages := tset c.pages p o } } uGate (0x40 + k) .page
        (le 4 p ++ le 1 o.kind ++ le 1 o.flags ++ le 1 o.slice ++ le 2 o.owner ++ le 2 o.gen)) s0

/-- Write a share group's members in the gate and in every checker's replica that a message reaches (R295): one message for each member. -/
def setGroup (s : State) (g : Nat) (members : List (Nat × Nat × Bool)) : State :=
  let put (t : Table (List (Nat × Nat × Bool))) := if members = [] then tdel t g else tset t g members
  let s0 : State := { s with gate.groups := put s.gate.groups }
  (List.range 16).foldl (fun s k =>
    if (netLink s (0x40 + k)).failed then s
    else
      let c := tgetD s.mem.checkers k Checker.reset
      members.foldl (fun s m => netSend s uGate (0x40 + k) .page (le 2 g ++ le 2 m.1 ++ le 2 m.2.1 ++ le 1 (b2n m.2.2)))
        { s with mem.checkers := tset s.mem.checkers k { c with groups := put c.groups } }) s0

/-- SCRUBBING of every checker (R301): a scrub runs while a page waits for its engines. -/
def scrubLevels (s : State) : State :=
  let on := s.gate.scrubs.any fun x => !x.2.withheld
  { s with mem.checkers := (List.range 16).map fun k => (k, { tgetD s.mem.checkers k Checker.reset with scrubbing := on }) }

/-- The checkers whose replica holds an entry (R40). -/
def pageAcks (s : State) (p : Nat) (o : PageOwner) : List Nat :=
  (List.range 16).filter fun k => tget (tgetD s.mem.checkers k Checker.reset).pages p == some o

/-- The next free value (log 4): a random draw, or a value the manual leaves open. -/
def State.drawn (w : Nat) (s : State) : BitVec w := Config.freeBits w s.free

/-- A code that the manual leaves open where something fails: any of those whose meaning in the tables fits (R20). -/
def State.freeCode (s : State) (codes : List Code) : Code :=
  codes.getD ((s.drawn 8 : BitVec 8).toNat % codes.length) cFaultPermission

/-- The state after a free value was taken. -/
def State.spend (s : State) : State := { s with free := s.free + 1 }

/-- The state after a draw from the DRBG, which counts a generate request (R87). -/
def State.drew (s : State) : State := { s with free := s.free + 1, vault.requests := s.vault.requests + 1 }

/-- Tenant slices N in force (R389). -/
def State.tenants (s : State) : Nat := setting s 0x4000 1

/-- The slices that exist (R363). -/
def sliceExists (s : State) (n : Nat) : Bool := n == 0 || n == 31 || (decide (0 < n) && decide (n ≤ s.tenants))

/-- The PASID bound to a slice (R364). -/
def slicePasid (s : State) (n : Nat) : Option Nat := (tget s.ctxs.slices n).bind (·.pasid)

/-- Slices in service (R363). -/
def sliceInService (s : State) (n : Nat) : Bool :=
  n == 0 || n == 31 || (decide (0 < n) && decide (n ≤ s.tenants) && (slicePasid s n).isSome)

/-- The slices in service, in rising order. -/
def servingSlices (s : State) : List Nat := (List.range 32).filter (sliceInService s)

/-- The VTC is in service: rails up, ready, not quenched, not saving and not held in reset (R54, R447). -/
def State.up (s : State) : Bool :=
  s.pow.sessionOpen && s.pow.iod && s.pow.cdieA && s.pow.cdieB && s.pow.ready && !s.pow.quenched && !s.pow.saving && !s.pow.heldInReset

/-- The part of the VTC that keeps working while a chip warm reset is due (R445): its decision stops admission. -/
def State.serving (s : State) : Bool := s.up && s.pow.pendingChip.isNone

/-- The always-on island has power: a session is open (R7, R54). -/
def State.aon (s : State) : Bool := s.pow.sessionOpen

/-- Run an effect only while the VTC is in service; otherwise nothing is taken (R54, log 13). -/
def whenUp (s : State) (f : State → State) : State := if s.up then f s else s

/-- Take a held value of the PCIe controller (R73) while its group is open and the VTC is in service. -/
def fromHost (s : State) (line : Nat) (f : State → State) : State :=
  whenUp s fun s => if s.crossOpen 128 then f (s.heldIn line) else s

/-- Run an effect only while a session is open. -/
def whenAon (s : State) (f : State → State) : State := if s.aon then f s else s

/-- A meaning's only outcome: the next state. -/
def done (s : State) : Host.Outcome State Fault Refusal := .next s

/-- A value with its complement (R50). -/
def Kept.of {w : Nat} (v : BitVec w) : Kept w := ⟨v, ~~~v⟩

/-- Whether a value and its complement agree (R50). -/
def Kept.sound {w : Nat} (k : Kept w) : Bool := k.inv == ~~~k.value

/-- A value as two shares under a fresh mask, with their complements (R34, R50). -/
def Shares.of (v mask : BitVec 512) : Shares := ⟨v ^^^ mask, ~~~(v ^^^ mask), mask, ~~~mask⟩

/-- The value that two shares represent (R34). -/
def Shares.value (k : Shares) : BitVec 512 := k.masked ^^^ k.mask

/-- Whether both shares agree with their complements (R50). -/
def Shares.sound (k : Shares) : Bool := k.maskedInv == ~~~k.masked && k.maskInv == ~~~k.mask

/-- A read of a share pair gives a value only where both complements agree (R50, R114). -/
def Shares.read (k : Shares) : Option (BitVec 512) := if k.sound then some k.value else none

/-- A share refresh (R110, R111): both shares XORed with one fresh value, complements written again. -/
def Shares.refresh (k : Shares) (r : BitVec 512) : Shares :=
  ⟨k.masked ^^^ r, ~~~(k.masked ^^^ r), k.mask ^^^ r, ~~~(k.mask ^^^ r)⟩

/-- The slot that holds a key (R97). -/
def findKey (s : State) (p : KeyPath) : Option KeySlot := s.vault.slots.find? fun k => k.path == p

/-- The key value that a slot's shares represent (R34). -/
def KeySlot.value (k : KeySlot) : BitVec 512 := k.key.value

/-- Set a key's usage with its complements (R50, R99). -/
def KeySlot.used (k : KeySlot) (items bytes : Nat) : KeySlot :=
  { k with items := Kept.of (BitVec.ofNat 64 items), bytes := Kept.of (BitVec.ofNat 64 bytes) }

/-- A key's value as the vault reads it. -/
def keyWide (s : State) (p : KeyPath) : Option (BitVec 512) := (findKey s p).bind fun k => k.key.read

/-- A key's value as the vault reads it, as 256 bits. -/
def key256 (s : State) (p : KeyPath) : Option Key := (keyWide s p).map fun v => v.setWidth 256

/-- The key registers of the engines that hold a key (R25). -/
def findReg (s : State) (p : KeyPath) : Option KeyReg := s.vault.regs.find? fun r => r.path == p

/-- A key's value as the engine reads it from its active register. -/
def engKey (s : State) (p : KeyPath) : Option Key := ((findReg s p).bind fun r => r.active.read).map fun v => v.setWidth 256

/-- Change a key's slot. -/
def modKey (s : State) (p : KeyPath) (f : KeySlot → KeySlot) : State :=
  { s with vault.slots := s.vault.slots.map fun k => if k.path == p then f k else k }

/-- Change the registers of a key. -/
def modReg (s : State) (p : KeyPath) (f : KeyReg → KeyReg) : State :=
  { s with vault.regs := s.vault.regs.map fun r => if r.path == p then f r else r }

/-- Zeroise keys in the vault, in its staging slots and in every engine register, and abandon the key agreements that would have
given them (R109, R146). -/
def dropKeys (s : State) (sel : KeyPath → Bool) : State :=
  { s with
    vault.slots := s.vault.slots.filter fun k => !sel k.path
    vault.regs := s.vault.regs.filter fun r => !sel r.path
    vault.replacing := s.vault.replacing.filter fun r => !sel r.path
    cipher.agreed := s.cipher.agreed.filter fun a => !sel a.1 }

/-- Notice and limit of a key's class (R112), in items and in bytes or blocks; none where the class has no limit. -/
def keyLimits (p : KeyPath) : Option (Nat × Nat × Nat × Nat) :=
  match p with
  | .flow _ _ _ => some (2 ^ 35, 2 ^ 36, 2 ^ 47, 2 ^ 48)
  | .region _ _ => some (2 ^ 43, 2 ^ 44, 2 ^ 64, 2 ^ 64)
  | .bounce _ _ _ => some (2 ^ 31, 2 ^ 32, 2 ^ 64, 2 ^ 64)
  | .chan _ _ => some (2 ^ 31, 2 ^ 32, 2 ^ 47, 2 ^ 48)
  | .page _ => some (2 ^ 31, 2 ^ 32, 2 ^ 47, 2 ^ 48)
  | .wrap => some (2 ^ 31, 2 ^ 32, 2 ^ 64, 2 ^ 64)
  | .store _ => some (2 ^ 31, 2 ^ 32, 2 ^ 64, 2 ^ 64)
  | .oper => some (2 ^ 31, 2 ^ 32, 2 ^ 64, 2 ^ 64)
  | _ => none

/-- The limits of a key's class (R112), in items and in bytes or blocks, 0 where it has none. -/
def limitOf (p : KeyPath) : Nat × Nat := ((keyLimits p).map fun l => (l.2.1, l.2.2.2)).getD (0, 0)

/-- A counter as it is read, checked against its complement (R50); one that fails the check is taken as the limit (R114). -/
def Kept.count {w : Nat} (k : Kept w) (limit : Nat) : Nat := if k.sound then k.value.toNat else limit

/-- A key's usage counts as the vault reads them (R50, R112, R114). -/
def KeySlot.usedItems (k : KeySlot) : Nat := k.items.count (limitOf k.path).1
def KeySlot.usedBytes (k : KeySlot) : Nat := k.bytes.count (limitOf k.path).2

/-- What an engine has left of a key's allowance (R50, R112); where a complement disagrees the key counts as used up (R114). -/
def KeyReg.left (r : KeyReg) : Nat × Nat := (r.leftItems.count 0, r.leftBytes.count 0)

/-- What an engine counted of a key since its last report (R50, R112, R114). -/
def KeyReg.counted (r : KeyReg) : Nat × Nat := (r.items.count (limitOf r.path).1, r.bytes.count (limitOf r.path).2)

/-- Set an engine's allowance of a key, with its complements (R50). -/
def KeyReg.setLeft (r : KeyReg) (n : Nat × Nat) : KeyReg :=
  { r with leftItems := Kept.of (BitVec.ofNat 72 n.1), leftBytes := Kept.of (BitVec.ofNat 72 n.2) }

/-- Set an engine's count of a key, with its complements (R50). -/
def KeyReg.setCounted (r : KeyReg) (n : Nat × Nat) : KeyReg :=
  { r with items := Kept.of (BitVec.ofNat 72 n.1), bytes := Kept.of (BitVec.ofNat 72 n.2) }

/-- The allowance of a key whose usage is known (R112): the limit minus the count. -/
def allowance (p : KeyPath) (items bytes : Nat) : Nat × Nat :=
  match keyLimits p with
  | some (_, li, _, lb) => (li - items, lb - bytes)
  | none => (2 ^ 64, 2 ^ 64)

/-- Whether a key's remaining allowance covers an item (R112): as its engine holds it, or the vault for a key of its own. -/
def keyAllows (s : State) (p : KeyPath) (items bytes : Nat) : Bool :=
  match keyLimits p, findReg s p, findKey s p with
  | none, _, _ => true
  | some _, some r, _ => decide (items ≤ r.left.1) && decide (bytes ≤ r.left.2)
  | some (_, li, _, lb), none, some k => decide (k.usedItems + items ≤ li) && decide (k.usedBytes + bytes ≤ lb)
  | some _, none, none => false

/-- An engine reports what it counted of a key since its last report (R112). -/
def reportKey (s : State) (p : KeyPath) : State :=
  match findReg s p with
  | some r =>
    modReg (modKey s p fun k => k.used (k.usedItems + r.counted.1) (k.usedBytes + r.counted.2)) p fun r =>
      r.setCounted (0, 0)
  | none => s

/-- Count items against a key (R112, R131): its engine takes them from the allowance and reports every 2^16 items; the vault counts
the wraps of its own keys. -/
def spendKey (s : State) (p : KeyPath) (items bytes : Nat) : State :=
  match findReg s p with
  | some r =>
    let s1 := modReg s p fun r =>
      (r.setLeft (r.left.1 - items, r.left.2 - bytes)).setCounted (r.counted.1 + items, r.counted.2 + bytes)
    if 2 ^ 16 ≤ r.counted.1 + items then reportKey s1 p else s1
  | none => modKey s p fun k => k.used (k.usedItems + items) (k.usedBytes + bytes)

/-- A key's use so far, reported or not (R112). -/
def usedSoFar (s : State) (p : KeyPath) : Nat × Nat :=
  match findReg s p, findKey s p with
  | some r, some k => (k.usedItems + r.counted.1, k.usedBytes + r.counted.2)
  | none, some k => (k.usedItems, k.usedBytes)
  | _, none => (0, 0)

/-- A generation of the always-on island in force (R98); none is listed at 0. -/
def genAt (t : Table (Kept 32)) (i : Nat) : BitVec 32 := (tgetD t i (Kept.of 0)).value

/-- Advance every generation of n by 1, as a chip warm reset does (R98, R445). -/
def genNextAll (t : Table (Kept 32)) (n : Nat) : Table (Kept 32) :=
  (List.range n).map fun i => (i, Kept.of (genAt t i + 1))

/-- Advance a generation by 1, with its complement (R98). -/
def genNext (t : Table (Kept 32)) (i : Nat) : Table (Kept 32) := tset t i (Kept.of (genAt t i + 1))

/-- Answer a dictionary request (R533); an action's answer goes to the oldest write that its entry's command answers. -/
def answer (s : State) (op index sub result : Nat) (code : Code) (detail : Nat) (data : Bytes) : State :=
  match s.dict.answering.find? fun w => w.index == index && w.sub == sub with
  | some w =>
    { (s.emit (.mukor (0x280 + w.node) w.requester w.txn op index sub result code detail data)) with
      dict.answering := s.dict.answering.erase w }
  | none => s.emit (.mukor (0x280 + setting s 0x1100 1) 0 0 op index sub result code detail data)

/-- How the dictionary is served (R529, R543): 0 not at all, 1 the reduced set of the recovery loader and of the quenched state,
2 in full. -/
def dictMode (s : State) : Nat :=
  if !s.aon || !s.pow.iod || s.pow.saving || s.pow.heldInReset || s.pow.tcuDown then 0
  else if s.boot.loader || s.pow.quenched then 1
  else if s.up then 2 else 0

/-- Entries of the reduced set (R543). -/
def reducedEntry (index sub : Nat) : Bool :=
  ([0x1000, 0x1001, 0x1100, 0x2000, 0x2010, 0x7000, 0x7F00] : List Nat).contains index ||
    (index == 0x6010 && decide (2 ≤ sub) && decide (sub ≤ 4))

/-- A quench ends the transfers of entries that are not served in the quenched state (R543), those that wait for an answer too. -/
def endUnserved (s : State) : State :=
  let gone := s.dict.transfers.filter fun t => !reducedEntry t.index t.sub
  let ends (s : State) (t : Transfer) : State :=
    s.emit (.mukor (0x280 + t.node) t.requester t.txn (if t.write then 0x82 else 0x81) t.index t.sub 0xB cOk 0 [])
  let late (s : State) (w : Asker) : State :=
    s.emit (.mukor (0x280 + w.node) w.requester w.txn 0x82 w.index w.sub 0xB cOk 0 [])
  { ((s.dict.answering.filter fun w => !reducedEntry w.index w.sub).foldl late (gone.foldl ends s)) with
    dict.transfers := s.dict.transfers.filter fun t => reducedEntry t.index t.sub
    dict.answering := s.dict.answering.filter fun w => reducedEntry w.index w.sub }

/-- Answer a write: RESULT, and CODE where the entry's own rule refused (R536). -/
def answerWrite (s : State) (index sub : Nat) (code : Code) : State :=
  answer s 0x82 index sub (if code = cOk then 0 else 8) code 0 []

/-- The length in nanoseconds of a limit's fixed window (R547). -/
def LimKey.window : LimKey → Nat
  | .dropRecord _ _ => 1000000
  | .hostReject _ _ => 1000000
  | .genDiscard _ => 1000000
  | _ => 1000000000

/-- The events a limit has counted in the window that is open now (R547). -/
def limCount (s : State) (k : LimKey) : Nat :=
  match s.err.limits.find? fun l => l.key == k with
  | some l => if l.window = s.ns / k.window then l.count else 0
  | none => 0

/-- The limits whose counts become a record when their window ends (R213, R314, R369). -/
def LimKey.recorded : LimKey → Bool
  | .dropRecord _ _ => true
  | .hostReject _ _ => true
  | .genDiscard _ => true
  | _ => false

/-- Count one event of a limit in the window that is open now (R547). -/
def limHit (s : State) (k : LimKey) : State :=
  let l : Limit := ⟨k, s.ns / k.window, limCount s k + 1⟩
  { s with err.limits := l :: s.err.limits.filter fun m => m.key != k || (k.recorded && m.window != l.window) }

/-- Add to a live counter (R511). -/
def bump (s : State) (i n : Nat) : State := { s with cnt.live := tbump s.cnt.live i n }

/-- Add to counter i of a unit's block (R511). -/
def bumpUnit (s : State) (u i n : Nat) : State := bump s (32 + 16 * unitPlace u + i) n

/-- Add to counter i of a slice's block (R511). -/
def bumpSlice (s : State) (sl i n : Nat) : State := bump s (752 + 16 * (if sl = 31 then 17 else sl) + i) n

/-- Add to a dictionary counter kept under its entry's key. -/
def bumpStat (s : State) (index sub n : Nat) : State :=
  { s with cnt.stat := tbump s.cnt.stat (ekey index sub) n }

/-- The 80-bit stamp of now (R433): no crossing delay, UNLOCKED while the time base is not LOCKED. -/
def stampNow (s : State) : Nat := s.ns % 2 ^ 64 + (if s.time.state = 3 then 0 else 4) * 2 ^ 64

/-- The stamp of an event of a neighbour's clock domain (R431, R433): within 40 ns while the domain runs; an event shown by a sample after
a stop is LATE, with DELAY_BOUND in 4 ns units from the last advance. -/
def eventStamp (s : State) (level : Nat) : Nat :=
  match lastBeat s level with
  | none => stampNow s + 10 * 2 ^ 72
  | some last => stampNow s + 2 ^ 64 + min 255 ((s.ns - last + 24) / 4) * 2 ^ 72

/-- A record raised now, with nothing named but its kind, CLASS byte, SOURCE and DETAIL (R502). -/
def mkRec (s : State) (kind cls source : Nat) (detail : Bytes) : LbxRec :=
  { rid := s.lbx.nextRid, kind := kind, cls := cls, source := source, slice := none, count := 0,
    session := s.pow.sessionId, stamp := stampNow s, ctx := none, code := cOk, detail := detail, names := none }

/-- Kinds that the last 32 queue entries are kept for, with class S2 and higher (R507). -/
def LbxRec.kept (r : LbxRec) : Bool :=
  (decide (2 ≤ r.cls % 8) && decide (r.cls % 8 ≤ 5)) || r.kind == 0x20 || r.kind == 0x22 || r.kind == 0x31

/-- Count a dropped record under its class (R507). -/
def dropRec (s : State) (r : LbxRec) : State :=
  { s with
    lbx.dropFlag := true
    lbx.dropped := s.lbx.dropped + 1
    lbx.dropFirst := if s.lbx.dropCounts = [] then s.ns else s.lbx.dropFirst
    lbx.dropLast := s.ns
    lbx.dropCounts := tbump s.lbx.dropCounts (min (r.cls % 8) 6) 1 }

/-- Fold an S0 record beyond 100 of its source and kind in this second (R507, R547). -/
def foldRec (s : State) (r : LbxRec) : State :=
  let same (f : Fold) : Bool :=
    f.source == r.source && f.kind == r.kind && f.first / 1000000000 == s.ns / 1000000000
  match s.lbx.folds.find? same with
  | some f =>
    { s with lbx.folds := ⟨f.source, f.kind, f.count + 1, f.first, s.ns⟩ ::
        s.lbx.folds.filter fun g => !same g }
  | none => { s with lbx.folds := ⟨r.source, r.kind, 1, s.ns, s.ns⟩ :: s.lbx.folds }

/-- Whether the queue has room for a record (R507). -/
def recRoom (s : State) (r : LbxRec) : Bool :=
  if r.kept then decide (s.lbx.queue.length < 256) else decide (s.lbx.queue.length < 224)

/-- Raise a record into the leadbox queue, folding and dropping as R507 limits. -/
def putRec (s : State) (r : LbxRec) : State :=
  let s1 : State := { s with lbx.nextRid := s.lbx.nextRid + 1 }
  if r.cls % 8 = 0 then
    let s2 := limHit s1 (.s0Record r.source r.kind)
    if 100 < limCount s2 (.s0Record r.source r.kind) then foldRec s2 r
    else if recRoom s2 r then { s2 with lbx.queue := s2.lbx.queue ++ [r] } else dropRec s2 r
  else if recRoom s1 r then { s1 with lbx.queue := s1.lbx.queue ++ [r] } else dropRec s1 r

/-- Raise a record that names nothing but its kind, class, source and detail. -/
def record (s : State) (kind cls source : Nat) (detail : Bytes) : State := putRec s (mkRec s kind cls source detail)

/-- DETAIL of an ERROR_OPEN record (R506): CAUSE, UNIT, WHERE, AUX. -/
def errDetail (cause unit whereAt : Nat) (aux : Bytes) : Bytes :=
  le 2 cause ++ le 1 unit ++ le 1 0 ++ le 8 whereAt ++ aux

/-- An error as a unit detects it. `kind` and `detail` are those of its own record kind where R506 gives one. -/
structure ErrIn where
  unit : Nat
  cls : Nat
  cause : Nat
  whereAt : Nat := 0
  scope : ErrScope := .unit
  kind : Nat := 0x0001
  detail : Option Bytes := none
  aux : Bytes := []
  source : Option Nat := none
  slice : Option Nat := none
  ctx : Option (Nat × Nat) := none
  code : Code := cOk
  /-- The stamp of the neighbour's event that the record names (R433). -/
  stamp : Option Nat := none

/-- The opening record of an error (R17, R506). -/
def ErrIn.opening (s : State) (e : ErrIn) : LbxRec :=
  { mkRec s e.kind e.cls (e.source.getD e.unit) (e.detail.getD (errDetail e.cause e.unit e.whereAt e.aux)) with
    slice := e.slice, ctx := e.ctx, code := e.code, stamp := e.stamp.getD (stampNow s) }

/-- Close a unit's open error (R17, R18): a closing record where overflow was counted, or on pre-emption. -/
def closeBank (s : State) (unit action : Nat) (preempted : Bool) : State :=
  match tget s.err.banks unit with
  | none => s
  | some o =>
    let s1 : State := { s with err.banks := tdel s.err.banks unit }
    if preempted || decide (0 < o.overflow) then
      putRec s1 { mkRec s1 0x0002 (o.cls + 8 * b2n preempted + 16) unit (le 8 (2 ^ 64 - 1) ++ le 1 action) with
        count := o.overflow, names := some (0, o.rid) }
    else s1

/-- An error taken by its unit's bank (R17, R18): it is counted; a second of equal or lower severity is overflow, and a higher one closes
the open one as pre-empted. The answer says whether the error opens. -/
def bankTake (s : State) (e : ErrIn) : State × Bool :=
  let s := bumpUnit s e.unit (4 + e.cls) 1
  let s : State :=
    if e.cls = 1 then { s with err.corrected := tbump s.err.corrected e.unit 1 }
    else if e.cls = 0 then { s with err.informational := tbump s.err.informational e.unit 1 } else s
  match tget s.err.banks e.unit with
  | none => (s, true)
  | some o =>
    if e.cls ≤ o.cls then
      (bumpUnit { s with err.banks := tset s.err.banks e.unit { o with overflow := sat 16 (o.overflow + 1) } }
        e.unit 10 1, false)
    else (closeBank s e.unit 0 true, true)

/-- The bank of an error that opens, with the name of its record (R17, R439). -/
def openBank (s : State) (e : ErrIn) (rid : Nat) : State :=
  { s with err.banks := tset s.err.banks e.unit ⟨e.cls, e.cause, e.whereAt, e.scope, s.ns, some rid, 0, 0⟩ }

/-- An engine's status message to the TCU (R38): while the TCU restarts it waits in the hub's queue of 4,096, or at its engine beyond
that (R444). -/
def hubNote (s : State) (unit : Nat) : State :=
  if !isLeaf unit then s
  else if !s.pow.tcuDown then netReport s unit (le 1 unit)
  else if s.err.hubQueue < 4096 then netReport { s with err.hubQueue := s.err.hubQueue + 1 } unit (le 1 unit)
  else { s with err.hubHeld := s.err.hubHeld + 1 }

/-- Latch an error in its unit's bank (R17, R18): an error that opens writes its record. The handling of its class is `raise`. -/
def latch (s : State) (e : ErrIn) : State :=
  let r := bankTake (hubNote s e.unit) e
  if r.2 then openBank (putRec r.1 (e.opening r.1)) e r.1.lbx.nextRid else r.1

/-- Whether one of two errors latched in the same handshake cycle opens before the other (R18): by severity, then by the rule that
classes it, then by its WHERE value. -/
def ErrIn.before (a b : ErrIn) : Bool :=
  decide (b.cls < a.cls) || (a.cls == b.cls && (decide (a.cause < b.cause) || (a.cause == b.cause && decide (a.whereAt ≤ b.whereAt))))

/-- Errors of one handshake cycle in the order in which they are taken (R18). -/
def inOrder : List ErrIn → List ErrIn
  | [] => []
  | e :: r => (inOrder r).takeWhile (fun x => !e.before x) ++ e :: (inOrder r).dropWhile (fun x => !e.before x)

/-- Latch an S0 or S1 error of a unit, which needs no handling but its record and its closing (R439). -/
def notice (s : State) (cls cause unit whereAt : Nat) : State :=
  latch s { unit := unit, cls := cls, cause := cause, whereAt := whereAt }

/-- A byte of tier-A memory; a byte that nothing has written since the scrub of start-up reads 0 (R297, log 15). -/
def tierARead (s : State) (a : Nat) : Byte := tgetD s.tierA a 0

/-- Bytes of tier A from an address on. -/
def tierABytes (s : State) : Nat → Nat → Bytes
  | _, 0 => []
  | a, n + 1 => tierARead s a :: tierABytes s (a + 1) n

/-- Write one byte, keeping the list canonical: rising addresses, no entry equal to 0. -/
def cellSet (m : List Host.Cell) (a : Nat) (b : Byte) : List Host.Cell :=
  if b = 0 then tdel m a else tset m a b

/-- Write bytes to tier A from an address on. -/
def cellsSet : List Host.Cell → Nat → Bytes → List Host.Cell
  | m, _, [] => m
  | m, a, b :: r => cellsSet (cellSet m a b) (a + 1) r

/-- Write bytes to tier A from a physical address on. -/
def tierAWrite (s : State) (a : Nat) (b : Bytes) : State := { s with tierA := cellsSet s.tierA a b }

/-- Scrub the bytes of a 64 MiB page (R297). -/
def tierAScrub (s : State) (page : Nat) : State :=
  { s with tierA := s.tierA.filter fun c => c.1 / 2 ^ 26 != page }

/-- The canonical form of tier A: addresses strictly rising, no entry equal to what an unlisted byte reads as. -/
def Memory.wf (m : List Host.Cell) : Bool := rising m && m.all fun c => c.2 != 0

/-- Send a vector once, or leave it pending while it is masked or the PCIe controller is in reset (R319, R66). -/
def msix (s : State) (v : Nat) : State :=
  if s.host.masked.contains v || !s.crossOpen 128 then { s with host.msixPending := insertN s.host.msixPending v }
  else { (s.emit (.msix v)) with host.msixSent := s.host.msixSent + 1 }

/-- The mailbox page's registers. -/
def mbxPage (s : State) (p : Nat) : MbxPage := tgetD s.mbx p MbxPage.reset

/-- Post an event on a page (R318): the ring's next entry, the overwrite flag, and the page's vector. Whether the host has read the entry that the
new one overwrites no command says: unless fewer than 64 were posted since it last cleared EVT_OVF, the flag is free
(log 16). -/
def postEvent (s0 : State) (page type data : Nat) : State :=
  let m := mbxPage s0 page
  let full := decide (64 ≤ m.unread)
  let s := if full then s0.spend else s0
  let m' := { m with
    evtOvf := m.evtOvf || (full && s0.drawn 1 == 1#1)
    evtProd := m.evtProd + 1
    unread := min (m.unread + 1) 64
    ring := tset m.ring (m.evtProd.toNat % 64) (type, data, s.ns) }
  msix (({ s with mbx := tset s.mbx page m' }).emit (.mbxEvent page type data s.ns)) page

/-- The pages in service: the driver page and every slice page of a slice in service (R315). -/
def servingPages (s : State) : List Nat := 0 :: (servingSlices s).map (· + 1)

/-- Post an event on every page in service (R318). -/
def postAll (s : State) (type data : Nat) : State :=
  (servingPages s).foldl (fun s p => postEvent s p type data) s

/-- Event types of the mailbox (R318, R375, R455). -/
abbrev evRekeyDue : Nat := 1
abbrev evCapacity : Nat := 2
abbrev evThrottle : Nat := 3
abbrev evSessionEnded : Nat := 4
abbrev evKilled : Nat := 5
abbrev evCastResult : Nat := 6
abbrev evDeviceDown : Nat := 7

/-- A change of the device that a capacity-change event will report at the next whole millisecond (R409). -/
def capacity (s : State) (cause unit value : Nat) : State :=
  { s with arb.capacityPending := s.arb.capacityPending ++ [cause * 2 ^ 24 + unit * 2 ^ 16 + value] }

/-- A context's entry; an id not listed is FREE at generation 0 (R366, R367). -/
def ctxAt (s : State) (c : Nat) : Context := tgetD s.ctxs.table c ⟨.free, 0, false, 0, false⟩

/-- A context generation is current: the context is LIVE or FROZEN at that generation (R369). -/
def ctxCurrent (s : State) (c g : Nat) : Bool :=
  ((ctxAt s c).mode == .live || (ctxAt s c).mode == .frozen) && (ctxAt s c).gen == g

/-- Count an S0 event whose record is written at the end of its window (R511, R547). -/
def quietS0 (s : State) (unit : Nat) : State :=
  let s1 := bumpUnit (bumpUnit s unit 4 1) unit 14 1
  { s1 with err.informational := tbump s1.err.informational unit 1 }

/-- Counters of R377 by number: 14 per context and per slice. -/
def useCtx (s : State) (c i n : Nat) : State :=
  { s with
    ctxs.usage := tbump s.ctxs.usage (c * 16 + i) n
    ctxs.sliceUsage := tbump s.ctxs.sliceUsage ((ctxAt s c).slice * 16 + i) n }

/-- Count a late result of an ended generation; one S0 record per context in each 1 ms follows (R369). -/
def genDiscard (s : State) (c : Nat) : State :=
  let s1 := limHit { (useCtx s c 8 1) with ctxs.genDiscards := s.ctxs.genDiscards + 1 } (.genDiscard c)
  quietS0 (bumpSlice s1 (ctxAt s c).slice 13 1) uGate

end Sys2Proof.Machine
end

