-- ==== Sys2Proof/Machine/Leadbox.lean ====
section
/-!
DEFINITION. Leadbox.lean: the write path of the leadbox and the registers and dictionary entries that read it (chapter 18).
-/
namespace Sys2Proof.Machine

/-- The slot of record n (R501). -/
def lbxSlotOf (n : Nat) : Nat := if n < 4096 then n else 4096 + (n - 4096) % 28672

/-- The lap of record n (R501). -/
def lbxLapOf (n : Nat) : Nat := if n < 4096 then 0 else (n - 4096) / 28672

/-- DETAIL with the SEQ that it names filled in (R506): all ones where that record has none. -/
def recDetail (s : State) (r : LbxRec) : Bytes :=
  match r.names with
  | none => fit 64 r.detail
  | some (off, rid) =>
    let seq := ((rid.bind fun i => tget s.lbx.seqOf i)).getD (2 ^ 64 - 1)
    fit 64 (r.detail.take off ++ le 8 seq ++ r.detail.drop (off + 8))

/-- Bytes 16 to 111 of a record (R502). -/
def recMiddle (s : State) (r : LbxRec) (tagkind : Nat) : Bytes :=
  le 2 r.kind ++ le 1 r.cls ++ le 1 r.source ++
    le 1 (match r.slice with | some n => 128 + n | none => 0) ++ le 1 tagkind ++ le 2 r.count ++
    le 8 r.session.toNat ++ le 10 r.stamp ++
    (match r.ctx with | some (c, g) => le 2 (32768 + c) ++ le 2 g | none => le 4 0) ++ [r.code] ++ le 1 0 ++
    recDetail s r

/-- The key that tags a record, with its TAGKIND (R503): page 3 on the sentinel path, else the integrity key. -/
def recKey (s : State) (sentinel : Bool) : Nat × Option Key :=
  if sentinel then
    match engKey s (.page 3) with
    | some k => (2, some k)
    | none => (0, none)
  else
    match key256 s (.store 3) with
    | some k => (1, some k)
    | none => (0, none)

/-- The complete record n as it stands in NVM: SEQ, its complement, and bytes 16 to 127 (R502, R504). -/
def recSlot (s : State) (r : LbxRec) (sentinel : Bool) : LbxSlot :=
  let k := recKey s sentinel
  let head := le 8 s.lbx.next.toNat ++ le 8 (~~~s.lbx.next).toNat
  let mid := recMiddle s r k.1
  let tag : Bytes := match k.2 with
    | some key => be 16 (cmac key (head ++ mid)).toNat
    | none => le 16 0
  { seq := s.lbx.next, seqInv := ~~~s.lbx.next, body := mid ++ tag }

/-- NEXT and its complement agree (R50, R505). -/
def nextOk (s : State) : Bool := s.lbx.nextInv == ~~~s.lbx.next

/-- Write one record under the next sequence number (R501, R504). -/
def writeRec (s : State) (r : LbxRec) (sentinel : Bool) : State :=
  { s with
    lbx.slots := tset s.lbx.slots (lbxSlotOf s.lbx.next.toNat) (recSlot s r sentinel)
    lbx.seqOf := tset s.lbx.seqOf r.rid s.lbx.next.toNat
    lbx.next := s.lbx.next + 1
    lbx.nextInv := ~~~(s.lbx.next + 1) }

/-- A record as a sentinel writes it: directly, past the queue (R451, R504). -/
def sentinelPut (s : State) (r : LbxRec) : State :=
  let s1 : State := { s with lbx.nextRid := s.lbx.nextRid + 1 }
  if nextOk s1 && s1.lbx.ready then writeRec s1 r true else putRec s r

/-- A sentinel's own record of a kind (R451). -/
def sentinelRec (s : State) (kind cls source : Nat) (detail : Bytes) : State := sentinelPut s (mkRec s kind cls source detail)

/-- An error for the TCU that a sentinel opens (R18, R450): in the TCU's bank as any other, its record written by the sentinel itself
(R451, R506). -/
def sentinelError (s : State) (cls cause : Nat) : State :=
  let e : ErrIn :=
    { unit := uTcu, cls := cls, cause := cause, whereAt := 0, source := some (if s.err.sentA then srcSentA else srcSentB) }
  let r := bankTake s e
  if r.2 then openBank (sentinelPut r.1 (e.opening r.1)) e r.1.lbx.nextRid else r.1

/-- The DROP record that follows dropped records when the queue has room (R507). -/
def dropRecord (s : State) : State :=
  if s.lbx.dropCounts = [] then s
  else
    let c (i : Nat) := le 4 (tcount s.lbx.dropCounts i)
    let detail := c 0 ++ c 1 ++ c 2 ++ c 3 ++ c 4 ++ c 5 ++ c 6 ++ le 8 s.lbx.dropFirst ++ le 8 s.lbx.dropLast
    let n := (s.lbx.dropCounts.map (·.2)).foldl (· + ·) 0
    let r := { mkRec s 0x0004 7 srcLbx detail with count := min n 65535 }
    if recRoom s r then
      putRec { s with lbx.dropCounts := [] } r
    else s

/-- The scan that rebuilds NEXT (R505): one more than the highest complete record of the tail, or the number of
complete head records when the tail is empty. -/
def scanNext (s : State) : Nat :=
  let good := s.lbx.slots.filter fun p => p.2.seqInv == ~~~p.2.seq
  let tail := good.filter fun p => decide (4096 ≤ p.1)
  match tail with
  | [] => (good.filter fun p => decide (p.1 < 4096)).length
  | _ => (tail.foldl (fun m p => max m p.2.seq.toNat) 0) + 1

/-- Rebuild NEXT by the scan (R505). -/
def runScan (s : State) : State :=
  let n : BitVec 64 := BitVec.ofNat 64 (scanNext s)
  { s with lbx.next := n, lbx.nextInv := ~~~n, lbx.ready := true }

/-- LEADBOX_RECORD (R504): the write path takes the oldest queued record, assigns its number and writes it. -/
def execLeadboxRecord (s : State) : Host.Outcome State Fault Refusal :=
  done <| whenAon s fun s =>
    match s.lbx.queue with
    | [] => s
    | r :: rest =>
      if nextOk s && s.lbx.ready then dropRecord (writeRec { s with lbx.queue := rest } r false) else s

/-- NEXT_COMPLEMENT_MISMATCH (R505): S1, and the scan starts again. The held value that failed is open: NEXT is what
the scan finds. -/
def execNextComplementMismatch (s : State) : Host.Outcome State Fault Refusal :=
  done <| whenAon s fun s =>
    runScan (latch s { unit := uTcu, cls := 1, cause := 505, source := some srcLbx })

/-- One fold as its SUMMARY record (R506, R507). -/
def foldRecord (s : State) (f : Fold) : State :=
  putRec s { mkRec s 0x0003 7 srcLbx (le 2 f.kind ++ le 1 f.source ++ le 1 0 ++ le 8 f.first ++ le 8 f.last) with
    count := min f.count 65535 }

/-- One owner's CAST_SUMMARY record of a second (R425, R506): the owner, the fires, the first and the last fire time. -/
def summaryRecord (s : State) (p : Nat × Nat × Nat × Nat) : State :=
  record s 0x0041 7 srcTime (le 1 p.1 ++ le 4 p.2.1 ++ le 8 p.2.2.1 ++ le 8 p.2.2.2)

/-- CONTEXT_SWITCH and STEP_START fires of a second that has ended, one CAST_SUMMARY record per owner (R425). -/
def castSummaries (s : State) : State :=
  let past (f : Nat × Nat × Nat) : Bool := decide (f.2.1 / 1000000000 < s.ns / 1000000000)
  let due := s.casts.summary.filter fun p => past p.2
  due.foldl summaryRecord
    { s with casts.summary := s.casts.summary.filter fun p => !past p.2 }

/-- SUMMARY_FOLD (R507, R425): at the end of a second the folds become one SUMMARY record each, and each owner's fires of
CONTEXT_SWITCH and STEP_START casts one CAST_SUMMARY record. -/
def execSummaryFold (s : State) : Host.Outcome State Fault Refusal :=
  done <| whenAon s fun s =>
    let due := s.lbx.folds.filter fun f => decide (f.first / 1000000000 < s.ns / 1000000000)
    let rest := s.lbx.folds.filter fun f => !(decide (f.first / 1000000000 < s.ns / 1000000000))
    castSummaries (due.foldl foldRecord { s with lbx.folds := rest })

/-- LBX_CURSOR_HI (R510): a write of HI applies both halves, with the LO half written before it. -/
def execLbxCursorHi (hi : BitVec 32) (s : State) : Host.Outcome State Fault Refusal :=
  done <| if s.pow.iod then { s with lbx.cursor := hi ++ s.lbx.cursorLo } else s

/-- LBX_WINDOW_AUTO (R510): with AUTO set, a read of the last window word advances the cursor by 1. -/
def execLbxWindowAuto (s : State) : Host.Outcome State Fault Refusal :=
  done <| if s.pow.iod && s.lbx.auto then { s with lbx.cursor := s.lbx.cursor + 1 } else s

/-- The slot under a cursor: what NVM holds, or an empty slot. -/
def slotUnder (s : State) (n : Nat) : LbxSlot := tgetD s.lbx.slots (lbxSlotOf n) ⟨0, 0, []⟩

/-- STATE of record n (R508, R509): 0 whole, 1 in progress, 2 not yet written, 3 lost. -/
def recState (s : State) (n : Nat) : Nat :=
  let a := slotUnder s n
  if s.lbx.next.toNat ≤ n then 2
  else if 4096 ≤ n && decide (n + 28672 < s.lbx.next.toNat) then 3
  else if a.seq.toNat = n && a.seqInv = ~~~a.seq then 0
  else if a.seq.toNat = n && a.seqInv = a.seq then 1
  else 3

/-- The tag check of a slot (R508): 0 verified, 1 untagged, 2 unverifiable, 3 failed. -/
def recVerify (s : State) (n : Nat) : Nat :=
  let a := slotUnder s n
  let kind := fld a.body 5 1
  let all := le 8 a.seq.toNat ++ le 8 a.seqInv.toNat ++ a.body.take 96
  let good (k : Option Key) : Bool := match k with
    | some key => (a.body.drop 96).take 16 == be 16 (cmac key all).toNat
    | none => false
  if kind = 0 then 1
  else if kind = 2 then
    if fld a.body 8 8 ≠ s.pow.sessionId.toNat || (engKey s (.page 3)).isNone then 2
    else if good (engKey s (.page 3)) then 0 else 3
  else if (key256 s (.store 3)).isNone then 2
  else if good (key256 s (.store 3)) then 0 else 3

/-- LBX_VERIFY (R508): a read checks the slot under the cursor; a failed tag is S1. -/
def execLbxVerify (s : State) : Host.Outcome State Fault Refusal :=
  done <| if s.pow.iod then
    let n := s.lbx.cursor.toNat
    let r := recVerify s n
    let s1 : State := { s with
      lbx.verifyResult := r, lbx.verifyState := recState s n
      lbx.verifySeq := (slotUnder s n).seq.toNat % 65536 }
    if r = 3 then latch s1 { unit := uTcu, cls := 1, cause := 508, whereAt := n, source := some srcLbx } else s1
  else s

/-- LBX_NEXT_LO (R510): a read of the low half latches the high half. -/
def execLbxNextLo (s : State) : Host.Outcome State Fault Refusal :=
  done <| if s.pow.iod then { s with lbx.nextHi := BitVec.ofNat 32 (s.lbx.next.toNat / 2 ^ 32) } else s

/-- The 130 bytes of an LBX_RECORD read (R509): the record, RESULT and STATE. -/
def lbxRecordBytes (s : State) : Bytes :=
  let n := s.lbx.dictCursor.toNat
  let a := slotUnder s n
  fit 128 (le 8 a.seq.toNat ++ le 8 a.seqInv.toNat ++ a.body) ++ le 1 (recVerify s n) ++ le 1 (recState s n)

/-- A read of LBX_RECORD (R508, R509): the record under the dictionary's cursor, which then advances by 1; a failed tag is S1. -/
def lbxRead (s : State) : State × Bytes :=
  let n := s.lbx.dictCursor.toNat
  let s1 := if recVerify s n = 3 then
      latch s { unit := uTcu, cls := 1, cause := 508, whereAt := n, source := some srcLbx }
    else s
  ({ s1 with lbx.dictCursor := s.lbx.dictCursor + 1 }, lbxRecordBytes s)

/-- LBX_RECORD (R509): the dictionary returns the record at its cursor. -/
def execLbxRecord (s : State) : Host.Outcome State Fault Refusal :=
  done <| if dictMode s = 0 then s else
    (let r := lbxRead s
     answer r.1 0x81 0x7000 3 0 cOk 0 r.2)

/-- LBX_CURSOR (R509): a dictionary write sets the dictionary's cursor, wherever the dictionary is served (R543). -/
def execLbxCursor (n : Nat) (s : State) : Host.Outcome State Fault Refusal :=
  done <| if dictMode s = 0 then s else answerWrite { s with lbx.dictCursor := BitVec.ofNat 64 n } 0x7000 2 cOk

end Sys2Proof.Machine
end

