-- ==== Sys2Proof/Machine/Operands.lean ====
section
/-!
DEFINITION. Operands.lean: the fields of a raw descriptor (R331, R334, R354, R237), its address words (R332) and
ranges (R333), and what a context's tables say of an address (R336, R339).
-/
namespace Sys2Proof.Machine

/-- Header fields of a descriptor (R331). -/
def dClass (raw : Bytes) : Nat := fld raw 0 1
def dFlags (raw : Bytes) : Nat := fld raw 1 1
def dUserTag (raw : Bytes) : Nat := fld raw 4 4
def dWait (raw : Bytes) : Nat := fld raw 8 4
def dSignal (raw : Bytes) : Nat := fld raw 12 4
def dDeadline (raw : Bytes) : Nat := fld raw 16 8
def dIrq (raw : Bytes) : Bool := bit (dFlags raw) 0
def dHold (raw : Bytes) : Bool := bit (dFlags raw) 1
def dQuiet (raw : Bytes) : Bool := bit (dFlags raw) 2

/-- A field of the class body (R334). -/
def dBody (raw : Bytes) (off n : Nat) : Nat := fld raw (32 + off) n

/-- Class codes of R333. -/
abbrev kCopy : Nat := 0x01
abbrev kRemoteWrite : Nat := 0x02
abbrev kRemoteRead : Nat := 0x03
abbrev kAtomic : Nat := 0x04
abbrev kFence : Nat := 0x05
abbrev kArray : Nat := 0x08
abbrev kHostDma : Nat := 0x09
abbrev kCipher : Nat := 0x0A
abbrev kStep : Nat := 0x0B
abbrev kAlloc : Nat := 0x10
abbrev kFree : Nat := 0x11
abbrev kEventCreate : Nat := 0x12
abbrev kEventFree : Nat := 0x13

/-- Whether a CLASS is defined (R333). -/
def classDefined (k : Nat) : Bool := [1, 2, 3, 4, 5, 8, 9, 10, 11, 16, 17, 18, 19].contains k

/-- Whether a class may be cut into pieces (R333). -/
def classSplit (k : Nat) : Bool := k == kCopy || k == kRemoteWrite || k == kRemoteRead || k == kArray

/-- The classes that the gate executes itself (R354). -/
def classAllocator (k : Nat) : Bool := k == kAlloc || k == kFree || k == kEventCreate || k == kEventFree

/-- Memory bytes of n elements of a format code of R240. -/
def fmtBytes (fmt n : Nat) : Nat :=
  match fmt with
  | 0 => 4 * n
  | 1 => 2 * n
  | 2 => 2 * n
  | 3 => n
  | 4 => n
  | 5 => 4 * n
  | 8 => n + n / 32
  | 9 => n + n / 32
  | 10 => n * 6 / 8 + n / 32
  | 11 => n * 6 / 8 + n / 32
  | 12 => n / 2 + n / 32
  | 13 => n + n / 32
  | _ => 0

/-- A range that a descriptor names (R333): its address word, bytes per element, what it does, where it may lie. -/
structure Range where
  word : Nat
  size : Nat
  write : Bool
  tierAOnly : Bool
  host : Bool
  deriving DecidableEq, Repr

/-- Elements of a descriptor (R334): bytes of the DMA classes, E of ARRAY; a class that is not split has one. -/
def dElems (raw : Bytes) : Nat :=
  if dClass raw = kArray then dBody raw 4 4
  else if classSplit (dClass raw) then dBody raw 0 4 else 1

/-- Operand i of ARRAY, if it is present (R334). -/
def arrayOp (raw : Bytes) (i : Nat) : Option Range :=
  let z := dBody raw 8 4
  if bit z (12 + i) then
    some ⟨dBody raw (16 + 8 * i) 8, 2 ^ bits z (4 * i + 3) (4 * i), bit z (16 + i), false, false⟩
  else none

/-- The ranges of a descriptor with the translation word each fills (R333). -/
def dRanges (raw : Bytes) : List (Nat × Range) :=
  let k := dClass raw
  if k = kCopy then
    [(0, ⟨dBody raw 8 8, 1, false, false, false⟩), (1, ⟨dBody raw 16 8, 1, true, false, false⟩)]
  else if k = kRemoteWrite then [(0, ⟨dBody raw 8 8, 1, false, false, false⟩)]
  else if k = kRemoteRead then [(0, ⟨dBody raw 8 8, 1, true, false, false⟩)]
  else if k = kAtomic then
    (0, ⟨dBody raw 24 8, 8, true, true, false⟩) ::
      (if dBody raw 1 1 = 0 then
        [(1, ⟨dBody raw 32 8, if [0x10, 0x12, 0x14, 0x16, 0x17].contains (dBody raw 0 1) then 4 else 8,
          true, true, false⟩)] else [])
  else if k = kFence then
    if dBody raw 0 8 = 0 then [] else [(0, ⟨dBody raw 0 8, 4096, true, true, false⟩)]
  else if k = kArray then
    (List.range 3).filterMap fun i => (arrayOp raw i).map fun r => (i, r)
  else if k = kHostDma then
    let inbound := !(bit (dBody raw 0 1) 0)
    [(0, ⟨dBody raw 8 8, 48 + dBody raw 4 4, !inbound, false, true⟩),
     (1, ⟨dBody raw 16 8, dBody raw 4 4, inbound, true, false⟩)]
  else if k = kCipher then
    [(0, ⟨dBody raw 8 8, dBody raw 28 4 + dBody raw 24 4, false, true, false⟩),
     (1, ⟨dBody raw 16 8, dBody raw 24 4, true, true, false⟩)]
  else if k = kStep then
    (if [0, 1, 2, 3].contains (dBody raw 0 1) then
      [(0, ⟨dBody raw 32 8, fmtBytes (bits (dBody raw 3 1) 3 0) (dBody raw 24 4), false, true, false⟩)] else []) ++
    (if [2, 3, 4, 5].contains (dBody raw 0 1) then
      [(1, ⟨dBody raw 40 8, fmtBytes (bits (dBody raw 3 1) 7 4) (dBody raw 24 4), true, true, false⟩)] else [])
  else if k = kAlloc || k = kEventCreate then [(0, ⟨dBody raw 16 8, 16, true, true, false⟩)]
  else []

/-- Fields of a class body that R334 lists, as (offset, bytes); every other byte is reserved. -/
def bodyFields (k : Nat) : List (Nat × Nat) :=
  if k = kCopy then [(0, 4), (8, 16)]
  else if k = kRemoteWrite || k = kRemoteRead then [(0, 6), (8, 8), (24, 4), (32, 8)]
  else if k = kAtomic then [(0, 4), (8, 36), (48, 8)]
  else if k = kFence then [(0, 8)]
  else if k = kArray then [(0, 64)]
  else if k = kHostDma then [(0, 1), (4, 20)]
  else if k = kCipher then [(0, 1), (2, 62)]
  else if k = kStep then [(0, 5), (6, 42)]
  else if k = kAlloc then [(0, 2), (4, 26)]
  else if k = kFree || k = kEventFree then [(0, 4)]
  else if k = kEventCreate then [(16, 8)]
  else []

/-- Whether every reserved byte and bit of a raw descriptor is 0 (R331, R334, R342 check 1). -/
def reservedOk (raw : Bytes) : Bool :=
  dFlags raw < 8 && fld raw 2 2 == 0 && fld raw 24 8 == 0 &&
    (List.range 64).all fun i =>
      (bodyFields (dClass raw)).any (fun f => decide (f.1 ≤ i) && decide (i < f.1 + f.2)) || dBody raw i 1 == 0

/-- Check 1 of R342 on the fields of a class body: values that its table does not allow. -/
def bodyOk (raw : Bytes) : Bool :=
  let k := dClass raw
  if k = kCopy then decide (1 ≤ dBody raw 0 4)
  else if k = kRemoteWrite || k = kRemoteRead then
    decide (1 ≤ dBody raw 0 4) && decide (dBody raw 4 2 < 8192) && decide (dBody raw 32 8 < 2 ^ 48)
  else if k = kAtomic then
    decide (0x10 ≤ dBody raw 0 1) && decide (dBody raw 0 1 ≤ 0x1A) && decide (dBody raw 1 1 ≤ 1) &&
      decide (dBody raw 2 2 < 8192) && decide (dBody raw 48 8 < 2 ^ 48)
  else if k = kArray then
    decide (1 ≤ dBody raw 4 4) && decide (1 ≤ dBody raw 12 4) && decide (dBody raw 12 4 ≤ dBody raw 4 4) &&
      decide (dBody raw 8 4 < 2 ^ 19) && bits (dBody raw 8 4) 15 15 == 0
  else if k = kHostDma then
    decide (dBody raw 0 1 ≤ 1) && decide (1 ≤ dBody raw 4 4) && decide (dBody raw 4 4 ≤ 65536)
  else if k = kCipher then decide (dBody raw 0 1 < 64) || dBody raw 0 1 == 0x80 || dBody raw 0 1 == 0x81
  else if k = kStep then
    decide (dBody raw 1 1 < 64) && decide (dBody raw 1 1 % 8 ≤ 3) && decide (dBody raw 4 1 < 128) && decide (bits (dBody raw 4 1) 4 0 < 18) &&
      decide (dBody raw 6 2 < 512) && [16, 18, 20, 22].all fun i => decide (dBody raw i 2 < 8192)
  else if k = kAlloc then
    decide (1 ≤ dBody raw 0 1) && decide (dBody raw 0 1 ≤ 5) && decide (dBody raw 1 1 < 8)
  else true

/-- A token slot's region object in a context (R339). -/
def tokenObj (s : State) (ctx slot : Nat) : Option MemObj :=
  ((tget s.gate.tokenSlots ctx).bind fun t => tget t slot).bind fun i => tget s.gate.objs i

/-- Whether an address word is well formed for its form (R332), and its form is one that the class allows (R333). -/
def wordOk (s : State) (ctx : Nat) (split : Bool) (r : Range) : Bool :=
  let f := r.word / 2 ^ 62
  if r.host then f == 2 && bits r.word 61 57 == 0
  else if f = 0 then bits r.word 61 44 == 0
  else if f = 1 then
    split && bits r.word 35 20 == 0 &&
      (match tokenObj s ctx (bits r.word 39 36) with
       | some o => decide (bits r.word 19 0 < o.stride)
       | none => true)
  else false

/-- The 64 bits of an entry (R336). -/
def Mapping.word (m : Mapping) : BitVec 64 :=
  BitVec.ofNat 64 (m.kind * 2 ^ 61 + b2n m.freeing * 2 ^ 60 + b2n m.write * 2 ^ 59 + b2n m.read * 2 ^ 58 + m.obj * 2 ^ 38 + m.frame)

/-- The entry that maps one 64 MiB unit of a context's space (R336): its part of a 4 GiB page of the top table, or the entry of the
second-level table that the top entry points to. -/
def unitAt (s : State) (ctx unit : Nat) : Option Mapping :=
  match tget (tgetD s.gate.tops ctx []) (unit / 64) with
  | none => none
  | some m =>
    if m.kind = 1 then some { m with frame := m.frame + unit % 64 }
    else tget (tgetD s.gate.maps ctx []) unit

/-- Every mapped unit of a context, by number (R336). -/
def ctxUnits (s : State) (ctx : Nat) : List (Nat × Mapping) :=
  ((tgetD s.gate.tops ctx []).filter fun m => m.2.kind == 1).flatMap (fun m =>
    (List.range 64).map fun k => (m.1 * 64 + k, { m.2 with frame := m.2.frame + k })) ++ tgetD s.gate.maps ctx []

/-- The linear byte address inside the range's own space: a device VA, or a place in a token region (R339). -/
def linear (s : State) (ctx : Nat) (r : Range) : Nat :=
  if r.word / 2 ^ 62 = 1 then
    bits r.word 61 40 * ((tokenObj s ctx (bits r.word 39 36)).map (·.stride)).getD 0 + bits r.word 19 0
  else r.word % 2 ^ 62

/-- What the tables say of one byte (R336, R342 check 6). -/
inductive Lookup where
  | at (tierB : Bool) (phys : Nat) (obj : Nat)
  | unmapped
  | noRight
  | stale
  deriving DecidableEq, Repr

/-- Look up the byte at an offset of a range (R336, R339, R342). -/
def lookup (s : State) (ctx : Nat) (r : Range) (off : Nat) : Lookup :=
  let a := linear s ctx r + off
  if r.word / 2 ^ 62 = 1 then
    match (tget s.gate.tokenSlots ctx).bind fun t => tget t (bits r.word 39 36) with
    | none => .unmapped
    | some i =>
      match tget s.gate.objs i with
      | none => .unmapped
      | some o =>
        if o.state ≠ 1 || !o.holders.contains ctx then .stale
        else if o.size ≤ a then .unmapped
        else
          match tget o.blocks (a / 2 ^ 26) with
          | none => .unmapped
          | some m =>
            if !(bit o.rights (if r.write then 1 else 0)) || !(if r.write then m.write else m.read) then .noRight
            else if r.tierAOnly && m.kind == 2 then .noRight
            else .at (m.kind == 2) (m.frame * 2 ^ 26 + a % 2 ^ 26) i
  else
    match unitAt s ctx (a / 2 ^ 26) with
    | none => .unmapped
    | some m =>
      if m.freeing then .stale
      else if !(if r.write then m.write else m.read) then .noRight
      else if r.tierAOnly && m.kind == 2 then .noRight
      else .at (m.kind == 2) (m.frame * 2 ^ 26 + a % 2 ^ 26) m.obj

/-- Bytes from an offset of a range up to where physical contiguity ends, at most `left` (R336, R343). The fuel is
the number of page units that may follow. -/
def spanFrom (s : State) (ctx : Nat) (r : Range) : Nat → Nat → Nat → Nat
  | 0, _, left => left
  | fuel + 1, off, left =>
    let here := 2 ^ 26 - (linear s ctx r + off) % 2 ^ 26
    if left ≤ here then left
    else
      match lookup s ctx r off, lookup s ctx r (off + here) with
      | .at b p _, .at b' p' _ =>
        if b = b' && p' = p + here then here + spanFrom s ctx r fuel (off + here) (left - here) else here
      | _, _ => here

/-- A translation word (R335). -/
def trWord : Lookup → Nat
  | .at false p _ => 2 ^ 60 + p
  | .at true p _ => 2 * 2 ^ 60 + p
  | _ => 0

/-- Pages or token blocks that a range spans (R342 check 4). -/
def pagesSpanned (s : State) (ctx n : Nat) (r : Range) : Nat :=
  if r.host || n * r.size = 0 then 0
  else (linear s ctx r + n * r.size - 1) / 2 ^ 26 - linear s ctx r / 2 ^ 26 + 1

/-- Alignments that the bodies ask for (R334, R342 check 4). -/
def alignedOk (s : State) (ctx : Nat) (raw : Bytes) : Bool :=
  let k := dClass raw
  if k = kArray then
    (dRanges raw).all fun p => linear s ctx p.2 % p.2.size == 0
  else if k = kAtomic then
    let z := if [0x10, 0x12, 0x14, 0x16, 0x17].contains (dBody raw 0 1) then 4 else 8
    if dBody raw 1 1 = 0 then dBody raw 32 8 % z == 0 else dBody raw 48 8 % z == 0
  else if k = kAlloc then
    if dBody raw 0 1 = 4 then true
    else if dBody raw 0 1 = 5 then
      (tokenObj s ctx (bits (dBody raw 8 8) 39 36)).isNone || linear s ctx ⟨dBody raw 8 8, 1, false, false, false⟩ % 2 ^ 26 == 0
    else dBody raw 8 8 % (if dBody raw 0 1 = 2 then 2 ^ 32 else 2 ^ 26) == 0
  else true

/-- An event handle's index and generation (R353). -/
def evtIndex (h : Nat) : Nat := h % 65536
def evtGen (h : Nat) : Nat := h / 65536

/-- A memory handle's index and generation (R350). -/
def objIndex (h : Nat) : Nat := h / 4096
def objGen (h : Nat) : Nat := h % 4096

/-- Check an event handle for a context (R342 check 3, R353, R373); handle 0 names nothing. -/
def evtCheck (s : State) (ctx slice h : Nat) : Option Code :=
  if h = 0 then none
  else
    match tget s.gate.evts (evtIndex h) with
    | none => some cStaleHandle
    | some e =>
      if e.state = 0 || e.gen ≠ evtGen h then some cStaleHandle
      else if e.slice ≠ slice then some cFaultPermission
      else if !e.holders.contains ctx then some cFaultPermission else none

/-- Check a memory handle for a context (R342 check 3, R351). -/
def objCheck (s : State) (ctx slice h : Nat) : Option Code :=
  match tget s.gate.objs (objIndex h) with
  | none => some cStaleHandle
  | some o =>
    if o.state ≠ 1 || o.gen ≠ objGen h then some cStaleHandle
    else if o.slice ≠ slice then some cFaultPermission
    else if !o.holders.contains ctx then some cStaleHandle else none

end Sys2Proof.Machine
end

