-- ==== Sys2Proof/Machine/Sched.lean ====
section
/-!
DEFINITION. Sched.lean: the schedule of the array (R390 to R392) and the rates of the shared resources (R130, R229, R293,
R320, R406).
-/
namespace Sys2Proof.Machine

/-- A schedule as its entries hold it (R390), times in µs; windows as (start, length). -/
structure Sched where
  slot : Nat
  slots : Nat
  guard : Nat
  quantum : Nat
  windows : List (Nat × Nat)
  deriving DecidableEq, Repr

/-- The schedule that a reading of the entries gives (R414). -/
def schedOf (get : Nat → Nat → Nat) : Sched :=
  { slot := get 0x4011 1, slots := get 0x4011 2, guard := get 0x4011 3, quantum := get 0x4011 4,
    windows := (List.range 16).filterMap fun i =>
      let v := get 0x4012 (i + 1)
      if v % 65536 = 0 then none else some (v / 65536, v % 65536) }

/-- The schedule in force. -/
def schedNow (s : State) : Sched := schedOf (setting s)

/-- The period in µs (R390). -/
def Sched.period (c : Sched) : Nat := c.slot * c.slots

/-- The intervals from a guard end to the next window start, the last wrapping; with no window, the period (R390). -/
def Sched.intervals (c : Sched) : List (Nat × Nat) :=
  match c.windows with
  | [] => [(0, c.period)]
  | (s0, _) :: rest =>
    List.zipWith (fun w n => (w.1 + w.2 + c.guard, n)) c.windows (rest.map (·.1) ++ [s0 + c.period])

/-- Span kinds as ARB_STATUS.SPAN has them (R413): 0 quantum, 1 radio window, 2 guard band, 3 slack. -/
structure SpanEnt where
  off : Nat
  len : Nat
  kind : Nat
  deriving DecidableEq, Repr

/-- Quanta and slack of one interval (R390). -/
def Sched.inInterval (c : Sched) (i : Nat × Nat) : List SpanEnt :=
  let m := (i.2 - i.1) / max 1 c.quantum
  (List.range m).map (fun j => ⟨i.1 + j * c.quantum, c.quantum, 0⟩) ++
    (if i.1 + m * c.quantum < i.2 then [⟨i.1 + m * c.quantum, i.2 - i.1 - m * c.quantum, 3⟩] else [])

/-- Insert a span in order of its offset. -/
def insertSpan (e : SpanEnt) : List SpanEnt → List SpanEnt
  | [] => [e]
  | f :: r => if e.off ≤ f.off then e :: f :: r else f :: insertSpan e r

/-- The spans of one period in the order in which they start in it (R390, R392). -/
def Sched.spans (c : Sched) : List SpanEnt :=
  let all := c.windows.flatMap (fun w => [⟨w.1, w.2, 1⟩, ⟨w.1 + w.2, c.guard, 2⟩]) ++ c.intervals.flatMap c.inInterval
  (all.map fun e => { e with off := e.off % max 1 c.period }).foldr insertSpan []

/-- Spans of some kinds. -/
def Sched.kinds (c : Sched) (l : List Nat) : List SpanEnt := c.spans.filter fun e => l.contains e.kind

/-- QPP, the quanta per period (R392). -/
def Sched.qpp (c : Sched) : Nat := (c.kinds [0]).length

/-- Windows are long enough, in order, and clear of each other with their guards (R391). -/
def Sched.windowsOk (c : Sched) : Bool :=
  c.windows.all (fun w => decide (10 ≤ w.2) && decide (w.1 < c.period)) &&
    c.intervals.all fun i => decide (i.1 ≤ i.2)

/-- A valid schedule (R391). -/
def Sched.valid (c : Sched) : Bool :=
  [125, 250, 500, 1000].contains c.slot && decide (1 ≤ c.slots) && decide (c.slots ≤ 16) &&
    decide (10 ≤ c.guard) && decide (c.guard ≤ 500) && decide (50 ≤ c.quantum) && decide (c.quantum ≤ 1000) &&
    c.windowsOk && decide (1 ≤ c.qpp) && decide (c.qpp ≤ 320)

/-- A span as it stands in domain time, in ns; `k` is a quantum's number. -/
structure SpanAt where
  start : Nat
  stop : Nat
  kind : Nat
  k : Nat
  deriving DecidableEq, Repr

/-- The last span at or before an offset in ns, with the quanta before it. -/
def lastSpan : List SpanEnt → Nat → Nat → Option (SpanEnt × Nat) → Option (SpanEnt × Nat)
  | [], _, _, best => best
  | e :: r, o, j, best =>
    if e.off * 1000 ≤ o then lastSpan r o (if e.kind = 0 then j + 1 else j) (some (e, j)) else best

/-- The span that holds a domain time (R390, R392). -/
def Sched.at (c : Sched) (t : Nat) : SpanAt :=
  let p := max 1 (c.period * 1000)
  match lastSpan c.spans (t % p) 0 none with
  | some (e, j) =>
    let b := t / p * p + e.off * 1000
    ⟨b, b + e.len * 1000, e.kind, t / p * c.qpp + j⟩
  | none =>
    match c.spans.getLast? with
    | some e =>
      if t < p then ⟨0, t % p + 1, 3, 0⟩
      else
        let b := t / p * p - p + e.off * 1000
        ⟨b, b + e.len * 1000, e.kind, (t / p - 1) * c.qpp + (c.qpp - 1)⟩
    | none => ⟨t / p * p, t / p * p + p, 3, 0⟩

/-- The owner of quantum k (R392). -/
def quantumOwner (s : State) (k : Nat) : Nat := 1 + (k + s.arb.rotBase) % max 1 s.tenants

/-- Start of the g-th span of a list that repeats every period, in domain ns. -/
def nthStart (c : Sched) (l : List SpanEnt) (g : Nat) : Nat :=
  g / max 1 l.length * (c.period * 1000) + ((l[g % max 1 l.length]?).map fun e => e.off * 1000).getD 0

/-- The number of the first span of a list that ends after `now`, or that starts at or after it. -/
def firstSpan (c : Sched) (l : List SpanEnt) (now : Nat) (starts : Bool) : Nat :=
  let base := (now / max 1 (c.period * 1000) - 1) * l.length
  let hit (i : Nat) : Bool :=
    let b := nthStart c l (base + i)
    if starts then decide (now ≤ b)
    else decide (now < b + ((l[(base + i) % max 1 l.length]?).map fun e => e.len * 1000).getD 0)
  base + ((List.range (3 * l.length + 1)).find? hit).getD 0

/-- own_span_start(q) of a tenant or of slice 31 (R403): domain ns, or none where the schedule gives it no span. For
slice 31 the own spans are guard bands and slack. -/
def ownSpan (s : State) (slice q : Nat) (starts : Bool) : Option Nat :=
  let c := schedNow s
  let l := if slice = 31 then c.kinds [2, 3] else c.kinds [0]
  if l = [] then none
  else
    let g := firstSpan c l s.domNs starts
    let n := max 1 s.tenants
    let g' := if slice = 31 then g + q else g + (slice - 1 + n - (g + s.arb.rotBase) % n) % n + q * n
    some (nthStart c l g')

/-- Bytes per second of a rate in Gbit/s. -/
def gbit (n : Nat) : Nat := n * 125000000

/-- Shares are named by slice, with 32 for the system and 33 for the transit reserve. -/
abbrev whoSystem : Nat := 32
abbrev whoTransit : Nat := 33

/-- The rate of the cipher service (R130), bytes per second. -/
def cipherRate (s : State) (who : Nat) : Nat :=
  if who = 32 ∨ who = 31 then gbit 16 else if who = 0 then gbit 48 else gbit 320 / max 1 s.tenants

/-- The rate of one fabric port of four lanes (R229). -/
def fabricRate (s : State) (who : Nat) : Nat :=
  let t := setting s 0x5000 3
  let r := setting s 0x5000 4
  let o := setting s 0x5000 5
  if who = 32 then gbit 48 else if who = 33 then gbit t else if who = 0 then gbit r else if who = 31 then gbit o
  else gbit (1600 - 48 - t - r - o) / max 1 s.tenants

/-- The rate of one pool port (R293). -/
def poolRate (s : State) (who : Nat) : Nat :=
  let y := setting s 0x5101 1
  let r := setting s 0x5101 2
  let o := setting s 0x5101 3
  if who = 32 then gbit y else if who = 0 then gbit r else if who = 31 then gbit o
  else gbit (1600 - y - r - o) / max 1 s.tenants

/-- The byte rate of one direction of the host link (R320). -/
def hostRate (s : State) (who : Nat) : Nat :=
  let r := setting s 0x5200 2
  let o := setting s 0x5200 3
  if who = 0 then gbit r else if who = 31 then gbit o else gbit (1888 - r - o) / max 1 s.tenants

/-- The record rate of one direction of the host link (R320), per second. -/
def hostRecRate (s : State) (who : Nat) : Nat :=
  if who = 0 then 4000000 else if who = 31 then 1000000 else 35000000 / max 1 s.tenants

/-- The gate's sealing rate (R406), pieces per second. -/
def gateRate (s : State) (who : Nat) : Nat :=
  if who = 32 then 16000000 else if who = 0 then setting s 0x4014 1 * 1000000
  else if who = 31 then setting s 0x4014 2 * 1000000 else 304000000 / max 1 s.tenants

/-- A rate scaled by the throttle level (R407): those of radio, the system and the transit reserve are never throttled. -/
def scaled (s : State) (who rate : Nat) : Nat :=
  if who = 0 ∨ who = 32 ∨ who = 33 then rate else rate * (16 - s.arb.throttle) / 16

/-- Fabric ports that are UP (R233). -/
def portsUp (s : State) : Nat := (s.link.ports.filter fun p => p.2.up).length

/-- One refill of a bucket (R230): 1 µs of its share, held to the larger of 10 µs of it and the largest item. -/
def refill (rate largest held : Nat) : Nat := min (held + rate / 1000000) (max (rate / 100000) largest)

end Sys2Proof.Machine
end

