-- ==== Sys2Proof/Machine/Arb.lean ====
section
/-!
DEFINITION. Arb.lean: admission (R402, R403) and what the arbiter runs on the array (R395 to R400).
-/
namespace Sys2Proof.Machine

/-- The class groups that keep a backlog (R403): 1 array, 2 fabric, 3 pool, 4 host, 5 cipher, 0 none. -/
def chargeGroup (s : State) (ctx : Nat) (raw : Bytes) : Nat :=
  let k := dClass raw
  if k = kArray then 1
  else if k = kRemoteWrite || k = kRemoteRead || k = kAtomic || k = kStep then 2
  else if k = kHostDma then 4
  else if k = kCipher then 5
  else if k = kCopy && (dRanges raw).any (fun p => match lookup s ctx p.2 0 with
    | .at true _ _ => true
    | _ => false) then 3
  else 0

/-- The charge of a whole descriptor (R403): tiles, or wire bytes. ATOMIC counts its operand of 8 bytes and STEP the
memory bytes of its elements, which the manual does not state. -/
def chargeOf (raw : Bytes) (group : Nat) : Nat :=
  let n := if dClass raw = kAtomic then 8
    else if dClass raw = kStep then fmtBytes (bits (dBody raw 3 1) 3 0) (dBody raw 24 4) else dBody raw 0 4
  if group = 1 then (dBody raw 4 4 + dBody raw 12 4 - 1) / max 1 (dBody raw 12 4)
  else if group = 2 then n + 56 * ((n + 1023) / 1024)
  else if group = 3 then 272 * ((dBody raw 0 4 + 255) / 256)
  else if group = 4 then 48 + dBody raw 4 4
  else if group = 5 then dBody raw 24 4
  else 0

/-- A slice's backlog in a group (R403): the charges of its admitted descriptors that have not completed. -/
def backlog (s : State) (slice group : Nat) : Nat :=
  ((s.gate.descs.filter fun d => d.2.slice == slice && d.2.admitted &&
    chargeGroup s d.2.ctx d.2.raw == group).map fun d => d.2.charge).foldl (· + ·) 0

/-- Deferred pieces that a slice holds (R402). -/
def deferredCount (s : State) (slice : Nat) : Nat :=
  (s.gate.seals.filter fun p => p.2.slice == slice && p.2.deferUntil.any fun t => decide (s.ns < t)).length

/-- Own spans that pass before a slice's backlog of tiles is done (R403): the whole part of the backlog over the tile rate, which is the
mean of its last 16 own spans, at least 1, and TILE_RATE_INIT without history. -/
def spansBefore (s : State) (slice : Nat) : Nat :=
  match tgetD s.arb.ownTiles slice [] with
  | [] => backlog s slice 1 / max 1 (setting s 0x4013 4)
  | l => backlog s slice 1 * l.length / max l.length l.sum

/-- The rate of a transfer group (R403), scaled by the throttle. -/
def groupRate (s : State) (slice group : Nat) : Nat :=
  scaled s slice (if group = 2 then fabricRate s slice * portsUp s else if group = 3 then poolRate s slice
    else if group = 4 then hostRate s slice else cipherRate s slice)

/-- Admission of a tenant's or the operator's descriptor (R402, R403): its outcome and its deferral in ns. -/
def admitTenant (s : State) (slice group deadline : Nat) : Code × Nat :=
  let now := s.domNs
  let limit := setting s 0x4013 2 * 1000000
  let rate := groupRate s slice group
  let q := spansBefore s slice
  let start := if group = 1 then (ownSpan s slice q false).map (max now)
    else if rate = 0 then none else some (now + backlog s slice group * 1000000000 / rate)
  match start with
  | none => (cRefusedShare, 0)
  | some start =>
    let served := if group = 1 then q == 0 else decide (start - now ≤ setting s 0x4013 1 * 1000)
    if deadline ≠ 0 ∧ deadline < start then (cRefusedDeadline, 0)
    else if served then (cOk, 0)
    else if limit < start - now then (cRefusedShare, 0)
    else if setting s 0x4013 3 ≤ deferredCount s slice then (cRefusedQueue, 0)
    else (cDeferred, start - now)

/-- Gate check 7 (R342, R399, R402): the system and radio are always OK, and a class without a charge too. -/
def admitPiece (s : State) (slice ctx : Nat) (raw : Bytes) : Code × Nat :=
  let g := chargeGroup s ctx raw
  if slice = 0 || ctx = 0 || g = 0 then (cOk, 0) else admitTenant s slice g (dDeadline raw)

/-- Count an outcome of admission (R413, R414). -/
def countAdmit (s : State) (c : Code) : State :=
  if c = cDeferred then
    { s with arb.deferred := s.arb.deferred + 1, arb.deferrals := s.arb.deferrals + 1 }
  else if c = cOk then s
  else { s with arb.refused := s.arb.refused + 1, arb.refusals := s.arb.refusals + 1 }

/-- The end of the usable part of the current span (R407), domain ns; after a change of the level within it, of the part that follows
the change. -/
def usableEnd (s : State) : Nat :=
  let start := max s.arb.spanStart s.arb.levelAt
  start + (s.arb.spanEnd - start) * (16 - s.arb.throttle) / 16

/-- Tenant slices of the same nonzero owner value, in slice order after `own` (R397). -/
def poolMates (s : State) (own : Nat) : List Nat :=
  let v := setting s 0x4001 own
  if setting s 0x4010 1 ≠ 1 ∨ v = 0 then []
  else ((List.range s.tenants).map fun i => 1 + (own + i) % s.tenants).filter fun t =>
    t != own && setting s 0x4001 t == v

/-- The slices that the current span lets run, in order (R390, R397, R398, R407). -/
def spanSlices (s : State) : List Nat :=
  let open_ := decide (s.domNs < usableEnd s)
  match s.arb.span with
  | .none => []
  | .radio => [0]
  | .guard => 0 :: (if open_ then [31] else [])
  | .slack => 0 :: (if open_ then [31] else [])
  | .quantum _ own =>
    if !open_ then []
    else if sliceInService s own then own :: poolMates s own else [31]

/-- An array piece that is ready to run (R396): checked and dispatched, its context LIVE at its generation. -/
def arrayReady (s : State) (l : LiveSeal) : Bool :=
  l.cls == kArray && l.dispatched && (ctxAt s l.ctx).mode == .live && (ctxAt s l.ctx).gen == l.gen

/-- The ready piece of least value of a function, the first among equals. -/
def leastBy (f : Nat × LiveSeal → Nat) : List (Nat × LiveSeal) → Option (Nat × LiveSeal)
  | [] => none
  | p :: r =>
    match leastBy f r with
    | none => some p
    | some q => if f p ≤ f q then some p else some q

/-- Radio order (R399, R400): a spilled remainder first, then the earliest deadline, DEADLINE 0 last. -/
def radioKey (s : State) (p : Nat × LiveSeal) : Nat :=
  (if s.arb.spilled = some p.1 then 0 else match p.2.deadline with
    | some d => d + 1
    | none => 2 ^ 64) * 2 ^ 64 + p.2.serial.toNat

/-- Round-robin order of contexts after the one that ran last, the holder of the array first (R396). -/
def sliceKey (s : State) (slice : Nat) (p : Nat × LiveSeal) : Nat :=
  let turn := if s.arb.resident = some (p.2.ctx, p.2.gen) then 0
    else match tget s.arb.lastCtx slice with
      | some c => (p.2.ctx + 4096 - c - 1) % 4096 + 1
      | none => p.2.ctx + 1
  turn * 2 ^ 64 + p.2.serial.toNat

/-- The next piece of a slice. -/
def nextOf (s : State) (slice : Nat) : Option (Nat × LiveSeal) :=
  let l := s.gate.seals.filter fun p => p.2.slice == slice && arrayReady s p.2
  if slice = 0 then leastBy (radioKey s) l else leastBy (sliceKey s slice) l

/-- The next piece that the current span lets run. -/
def nextPiece (s : State) : Option (Nat × LiveSeal) := (spanSlices s).findSome? (nextOf s)

/-- The array holds nothing any more, and the running piece keeps its unfinished tiles as a remainder (R395). The time of a cut that the
array has not answered runs on (R77). -/
def arrayLeaves (s : State) : State :=
  { s with
    arb.cutRest := match s.arb.runSlot with
      | some k => insertN s.arb.cutRest k
      | none => s.arb.cutRest
    arb.runSlot := none, arb.resident := none
    arb.cutAt := if s.cross.arrayClean then none else some (s.arb.cutAt.getD s.ns)
    arb.cutSlot := if s.cross.arrayClean then none else s.arb.runSlot.or s.arb.cutSlot
    arb.lateClean := !s.cross.arrayClean && s.arb.cutAt.isSome && s.arb.lateClean }

/-- ARR_CUT (R395). -/
def arrayCut (s : State) : State := arrayLeaves (s.emit .arrCut)

/-- A record of a step of the array's recovery (R441), with the step in WHERE, naming the array's clock domains 47 and 48. -/
def arrayNote (s : State) (step : Nat) : State := record s 1 7 uArb (errDetail 441 uArb step [47, 48])

/-- A context that takes the array in a quantum is granted it (R377). -/
def quantumUse (s : State) (c : Nat) : State :=
  match s.arb.span with
  | .quantum _ _ => { s with ctxs.usage := tbump s.ctxs.usage (c * 16) 1 }
  | _ => s

/-- Start the next ready piece where the array is free for it (R395, R396, R77): a piece of the context that holds the
array starts at once; any other context passes through ARR_CUT and ARRAY_CLEAN. -/
def arbWake (s : State) : State :=
  if !s.arb.ready || s.arb.paused || s.arb.runSlot.isSome || s.pow.quenched then s
  else
    match nextPiece s with
    | none => s
    | some (k, l) =>
      let run (s : State) : State := { s with
        arb.runSlot := some k, arb.cutRest := eraseN s.arb.cutRest k
        arb.spilled := if s.arb.spilled = some k then none else s.arb.spilled
        arb.lastCtx := tset s.arb.lastCtx l.slice l.ctx }
      if s.arb.resident = some (l.ctx, l.gen) then run s
      else if s.arb.resident.isSome then arrayCut s
      else if s.cross.arrayClean && s.arb.cutAt.isNone && s.crossOpen 192 then
        run { ((quantumUse s l.ctx).emit (.arrSwitch l.ctx l.gen l.slice)) with
          arb.resident := some (l.ctx, l.gen), cross.arrayClean := false }
      else s

/-- Cut the array where a piece of a set runs, or where the set's context holds it (R376 step 2, R412). -/
def cutArray (s : State) (sel : LiveSeal → Bool) : State :=
  match s.arb.runSlot.bind fun k => tget s.gate.seals k with
  | some l => if sel l then arrayCut s else s
  | none => s

end Sys2Proof.Machine
end

