-- ==== Sys2Proof/Machine/Mailbox.lean ====
section
/-!
DEFINITION. Mailbox.lean: how a mailbox command is taken, refused and answered (R315, R316).
-/
namespace Sys2Proof.Machine

/-- LENGTH of a mailbox message (R316): header, body and, where it carries one, its tag. -/
def mbxLen (body : Bytes) (tagged : Bool) : Nat := 16 + body.length + (if tagged then 16 else 0)

/-- A mailbox message without its tag: header and body (R316). -/
def mbxMessage (opcode length seq ctx : Nat) (status : Code) (reserved : Nat) (body : Bytes) : Bytes :=
  le 2 opcode ++ le 2 length ++ le 4 seq ++ le 2 ctx ++ [status] ++ le 5 reserved ++ body

/-- The IV of a slice page's tag (R316): 0xF000 + slice, 16 zero bits, SEQ, big-endian. -/
def mbxIv (slice seq : Nat) : BitVec 96 := BitVec.ofNat 96 ((0xF000 + slice) * 2 ^ 80 + seq)

/-- AES-256-GMAC over a message (SP 800-38D). -/
def gmac (k : Key) (iv : BitVec 96) (aad : Bytes) : Tag := gcmTag k iv aad []

/-- The slice's current bounce key of a direction, 0 inbound and 1 outbound (R303). -/
def bounceNow (s : State) (slice dir : Nat) : KeyPath :=
  .bounce slice dir (if dir = 0 then s.host.genIn else s.host.genOut)

/-- The tag a slice-page command must carry (R316). -/
def mbxTag (s : State) (slice opcode : Nat) (h : MbxHdr) (body : Bytes) : Option Tag :=
  (engKey s (bounceNow s slice 0)).map fun k =>
    gmac k (mbxIv slice h.seq) (mbxMessage opcode h.length h.seq h.ctxId h.status h.reserved body)

/-- The bytes of a tag that a message carries. -/
def tagBytes (tag : Option Tag) : Bytes := tag.elim [] fun t => be 16 t.toNat

/-- Put a response on its page (R316): its area with the tag it carries, RESP_READY, LAST_CODE, and the page's vector. -/
def mbxPut (s : State) (page opcode seq ctx : Nat) (code : Code) (body : Bytes) (tag : Option Tag) : State :=
  let m := mbxPage s page
  let m' := { m with busy := false, respReady := true, lastCode := code, held := none,
                     response := mbxMessage opcode (mbxLen body tag.isSome) seq ctx code 0 body ++ tagBytes tag }
  msix (({ s with mbx := tset s.mbx page m' }).emit (.mbxResponse page opcode seq code body tag)) page

/-- Post a response (R316). While the TCU restarts the page stays busy and its response waits (R444; log 70). -/
def mbxPost (s : State) (page opcode seq ctx : Nat) (code : Code) (body : Bytes) (tag : Option Tag) : State :=
  if s.pow.tcuDown && s.serving && s.pow.readmitted then
    let m : MbxPage := { mbxPage s page with busy := true, held := some ⟨opcode, seq, ctx, code, body, tag⟩ }
    { s with mbx := tset s.mbx page m }
  else mbxPut s page opcode seq ctx code body tag

/-- Post the responses that waited for the TCU's return (R444). -/
def mbxResume (s : State) : State :=
  s.mbx.foldl (fun s p => match p.2.held with
    | some r => mbxPut s p.1 r.opcode r.seq r.ctx r.code r.body r.tag
    | none => s) s

/-- Refuse a command: an untagged response, and nothing else changes (R316). -/
def mbxRefuse (s : State) (h : MbxHdr) (opcode : Nat) (code : Code) (body : Bytes) : State :=
  mbxPost s h.page opcode h.seq h.ctxId code body none

/-- Answer a command that was performed, with the tag that a slice page carries (R316). -/
def mbxAnswer (s : State) (h : MbxHdr) (opcode : Nat) (code : Code) (body : Bytes) : State :=
  if h.page = 0 then mbxPost s 0 opcode h.seq h.ctxId code body none
  else
    let p := bounceNow s (h.page - 1) 1
    match engKey s p with
    | some k =>
      if !keyAllows s p 1 0 then mbxPost s h.page opcode h.seq h.ctxId cKeyLimit [] none
      else mbxPost (spendKey s p 1 0) h.page opcode h.seq h.ctxId code body
        (some (gmac k (mbxIv (h.page - 1) h.seq) (mbxMessage opcode (mbxLen body true) h.seq h.ctxId code 0 body)))
    | none => mbxPost s h.page opcode h.seq h.ctxId code body none

/-- Reason bytes of a HOST_RECORD_REJECTED response (R312, R316). -/
def reason (n : Nat) : Bytes := le 4 n

/-- A header that is not one (R13, R316): a nonzero reserved field or STATUS, or a LENGTH that is not the message's or exceeds 1,024. -/
def hdrBad (h : MbxHdr) (body : Bytes) : Bool :=
  h.reserved != 0 || decide (4096 ≤ h.ctxId) || h.status != 0 || h.length != mbxLen body (h.page != 0) || decide (1024 < h.length)

/-- Why a command is refused before it is performed, if it is (R316, R445, R447): the code and its detail. -/
def mbxCheck (s : State) (h : MbxHdr) (opcode : Nat) (driver : Bool) (body : Bytes) : Option (Code × Bytes) :=
  if !s.serving || !s.pow.readmitted || s.boot.loader then some (cDeviceDown, [])
  else if h.page = 0 then
    if !driver || hdrBad h body then some (cHostRecordRejected, reason 1) else none
  else if s.host.session ≠ 2 then some (cKeyDestroyed, [])
  else if h.seq ≠ (mbxPage s h.page).nextSeq then some (cHostRecordRejected, reason 4)
  else if !keyAllows s (bounceNow s (h.page - 1) 0) 1 0 then some (cKeyLimit, [])
  else if mbxTag s (h.page - 1) opcode h body ≠ some h.tag then some (cHostRecordRejected, reason 5)
  else if driver || hdrBad h body then some (cHostRecordRejected, reason 1)
  else none

/-- Note that a command was taken: its page's next SEQ, and the tag's count against the inbound key (R316). -/
def mbxTaken (s : State) (h : MbxHdr) : State :=
  let m := mbxPage s h.page
  let s1 : State := { s with mbx := tset s.mbx h.page { m with nextSeq := m.nextSeq + 1, respReady := false } }
  if h.page = 0 then s1 else spendKey s1 (bounceNow s1 (h.page - 1) 0) 1 0

/-- The page of a command answers: the IOD rails are up, and a slice page's slice is in service (R315). -/
def mbxPresent (s : State) (h : MbxHdr) : Bool :=
  s.pow.sessionOpen && s.pow.iod && (h.page == 0 || sliceInService s (h.page - 1)) && !(mbxPage s h.page).busy

/-- Take one mailbox command whose answer may come later (R360, R378): the page stays busy until it is posted. -/
def mailboxLater (s : State) (h : MbxHdr) (opcode : Nat) (driver : Bool) (body : Bytes)
    (run : State → State × Option (Code × Bytes)) : State :=
  if mbxPresent s h then
    match mbxCheck s h opcode driver body with
    | some (c, d) => mbxRefuse s h opcode c d
    | none =>
      let r := run (mbxTaken s h)
      match r.2 with
      | some a => mbxAnswer r.1 h opcode a.1 a.2
      | none => { r.1 with mbx := tset r.1.mbx h.page { mbxPage r.1 h.page with busy := true } }
  else s

/-- Take one mailbox command (R316): ignored on a page that is absent or busy, refused, or performed and answered
with the code and body that `run` gives. -/
def mailbox (s : State) (h : MbxHdr) (opcode : Nat) (driver : Bool) (body : Bytes)
    (run : State → State × Code × Bytes) : State :=
  if mbxPresent s h then
    match mbxCheck s h opcode driver body with
    | some (c, d) => mbxRefuse s h opcode c d
    | none =>
      let r := run (mbxTaken s h)
      mbxAnswer r.1 h opcode r.2.1 r.2.2
  else s

/-- A command that only fails: its code, with nothing changed. -/
def fail (s : State) (c : Code) : State × Code × Bytes := (s, c, [])

/-- The slice of a slice page's command. -/
def hslice (h : MbxHdr) : Nat := h.page - 1

end Sys2Proof.Machine
end

