-- ==== Sys2Proof/Machine/GateOps.lean ====
section
/-!
DEFINITION. GateOps.lean: live seals, completions, events and references: what happens to a piece and its descriptor
(R329, R335, R346 to R349, R371, R372).
-/
namespace Sys2Proof.Machine

/-- The least number from n on that a table with rising keys does not list. -/
def leastFree {α : Type} : Table α → Nat → Nat
  | [], n => n
  | (a, _) :: r, n => if a < n then leastFree r n else if a = n then leastFree r (n + 1) else n

/-- A queue's number in the tables: context and queue as QUEUE_ID has them (R327). -/
def qid (ctx q : Nat) : Nat := ctx * 64 + q

/-- A slice's part of the live-seal table (R347). -/
def sealPart (s : State) (slice : Nat) : Nat :=
  if slice = 0 then 32768 else if slice = 31 then 8192 else 217088 / s.tenants

/-- Descriptors of a slice for whose first piece check 5 of R342 keeps room. -/
def reservedFor (s : State) (slice : Nat) : Nat := (s.gate.descs.filter fun d => d.2.slice == slice && d.2.reserved).length
def hostReserved (s : State) (slice : Nat) : Nat :=
  (s.gate.descs.filter fun d => d.2.slice == slice && d.2.reserved && dClass d.2.raw == kHostDma).length

/-- Live-seal slots a slice has in use or kept for it (R342, R347). -/
def sealsUsed (s : State) (slice : Nat) : Nat :=
  (s.gate.seals.filter fun p => p.2.slice == slice).length + reservedFor s slice

/-- A slice's part of the host list (R341). -/
def hostPart (s : State) (slice : Nat) : Nat :=
  if slice = 0 then 1024 else if slice = 31 then 256 else 6912 / s.tenants

/-- Host-list entries a slice has in use or kept for it (R341, R342). -/
def hostUsed (s : State) (slice : Nat) : Nat :=
  (s.gate.hostList.filter fun p => p.2.slice == slice).length + hostReserved s slice

/-- The first 48 bytes of the seal block (R335). -/
def sealBlock (l : LiveSeal) : Bytes :=
  le 8 l.serial.toNat ++ le 2 l.ctx ++ le 2 l.gen ++ le 1 l.slice ++ le 1 l.queue ++ le 2 l.pieceWord ++
    le 4 l.start ++ le 4 l.len ++ le 8 (l.trs.getD 0 0) ++ le 8 (l.trs.getD 1 0) ++ le 8 (l.trs.getD 2 0)

/-- The tag of a sealed descriptor (R346). -/
def sealTag (s : State) (aad : Bytes) (wrap : BitVec 32) (serial : BitVec 64) : Tag :=
  match engKey s .gate with
  | some k => gmac k (BitVec.ofNat 96 (wrap.toNat * 2 ^ 64 + serial.toNat)) aad
  | none => 0

/-- The 160 bytes of a sealed descriptor (R331, R335). -/
def sealedBytes (l : LiveSeal) : Bytes := fit 96 l.raw ++ sealBlock l ++ be 16 l.tag.toNat

/-- The 16-byte completion fields that R329 fixes, as a whole entry. -/
def entryBytes (raw : Bytes) (code : Code) (held irq : Bool) (gen queue detail addr deferral : Nat) : Bytes :=
  le 4 (dUserTag raw) ++ [code] ++ le 1 (b2n held + 2 * b2n irq) ++ le 2 gen ++ le 4 detail ++ le 1 queue ++
    le 3 0 ++ le 8 addr ++ le 8 deferral

/-- Write a completion entry to a queue's ring, with the queue's vector where the descriptor asks (R329, R331). -/
def postEntry (s : State) (ctx gen queue : Nat) (raw : Bytes) (code : Code) (held : Bool)
    (detail addr deferral : Nat) : State :=
  match tget s.gate.queues (qid ctx queue) with
  | none => s
  | some q =>
    let irq := dIrq raw && decide (0 < q.vector)
    let q' : Queue := { q with ctail := (q.ctail + 1) % max 1 q.cringSize }
    let s1 : State := { s with gate.queues := tset s.gate.queues (qid ctx queue) q' }
    let s2 := s1.emit (.completion ctx queue (entryBytes raw code held irq gen queue detail addr deferral))
    if irq then msix s2 q.vector else s2

/-- Signal an event with a code (R371): only an UNSIGNALLED event changes. -/
def signal (s : State) (h : Nat) (code : Code) : State :=
  if h = 0 then s
  else
    match tget s.gate.evts (evtIndex h) with
    | none => s
    | some e =>
      if e.state = 1 && e.gen = evtGen h then
        let e' : EvtObj := { e with state := if code = cAbandoned then 3 else 2, code := code }
        { s with gate.evts := tset s.gate.evts (evtIndex h) e' }
      else s

/-- Complete a raw descriptor (R329, R371): its entry, but none for a quiet OK, then its SIGNAL_EVENT. In the quenched
state no completion is written (R446). -/
def completeRaw (s : State) (ctx gen queue : Nat) (raw : Bytes) (code : Code) (detail addr deferral : Nat) :
    State :=
  if s.pow.quenched then s
  else
    let s1 := if dQuiet raw && code = cOk then s
      else postEntry s ctx gen queue raw code false detail addr deferral
    signal s1 (dSignal raw) code

/-- Complete a descriptor of which no piece was sealed (R22, R327): its REFUSED entry on the port that brought it, then its completion. -/
def refuseRaw (s : State) (cp ctx gen queue : Nat) (raw : Bytes) (code : Code) (detail addr : Nat) : State :=
  if s.pow.quenched then s
  else
    completeRaw ((bumpUnit s uGate 14 1).emit (.sealedEntry cp 0x11 code (qid ctx queue) detail (fit 32 raw)))
      ctx gen queue raw code detail addr 0

/-- A CHECK_FAIL entry (R327, R348). -/
def checkFail (s : State) (cp queueId : Nat) (code : Code) (detail : Nat) (desc : Bytes) : State :=
  s.emit (.sealedEntry cp 0x13 code queueId detail (desc.take 32))

/-- The CHECK of a piece that the gate holds fails with a code (R327, R372); one that is not held has no entry. -/
def failHeld (s : State) (l : LiveSeal) (code : Code) : State :=
  match l.port with
  | some cp => if l.dispatched || s.pow.quenched then s else checkFail s cp (qid l.ctx l.queue) code 0 (sealedBytes l)
  | none => s

/-- Drop one reference of an event (R353). -/
def evtUnref (s : State) (i : Nat) : State :=
  { s with gate.evts := tmod s.gate.evts i fun e => { e with qrefs := e.qrefs - 1 } }

/-- Drop one reference of an object (R350). -/
def objUnref (s : State) (i : Nat) : State :=
  { s with gate.objs := tmod s.gate.objs i fun o => { o with qrefs := o.qrefs - 1 } }

/-- Take one reference of an event. -/
def evtRef (s : State) (i : Nat) : State :=
  { s with gate.evts := tmod s.gate.evts i fun e => { e with qrefs := e.qrefs + 1 } }

/-- Take one reference of an object. -/
def objRef (s : State) (i : Nat) : State :=
  { s with gate.objs := tmod s.gate.objs i fun o => { o with qrefs := o.qrefs + 1 } }

/-- Release a live-seal slot, its host-list entry and its piece's references (R349). -/
def releaseSlot (s : State) (slot : Nat) : State :=
  match tget s.gate.seals slot with
  | none => s
  | some l =>
    let s1 : State := { s with
      gate.seals := tdel s.gate.seals slot
      gate.hostList := match l.hostEntry with
        | some h => tdel s.gate.hostList h
        | none => s.gate.hostList
      arb.runSlot := if s.arb.runSlot = some slot then none else s.arb.runSlot
      arb.cutRest := eraseN s.arb.cutRest slot
      arb.pieceTiles := tdel s.arb.pieceTiles slot
      arb.spilled := if s.arb.spilled = some slot then none else s.arb.spilled
      host.work := s.host.work.filter fun w => w.slot != slot }
    l.evts.foldl evtUnref (l.objs.foldl objUnref s1)

/-- Complete a descriptor whose pieces have all retired and that has no remainder (R343): OK, or DEFERRED with its deferral for one that
was deferred (R329), or the first other code of a piece. -/
def finishDesc (s : State) (did : Nat) : State :=
  match tget s.gate.descs did with
  | none => s
  | some d =>
    if d.live = 0 && d.total ≤ d.nextElem then
      let s1 : State := { s with gate.descs := tdel s.gate.descs did }
      if d.code = cOk && d.outcome = cDeferred then completeRaw s1 d.ctx d.gen d.queue d.raw cDeferred 0 0 d.deferral
      else completeRaw s1 d.ctx d.gen d.queue d.raw d.code d.detail d.faultAddr 0
    else s

/-- Retire one piece with a code (R343, R349): the first non-OK code stays the descriptor's. -/
def retirePiece (s : State) (slot : Nat) (code : Code) (detail : Nat) : State :=
  match tget s.gate.seals slot with
  | none => s
  | some l =>
    let s1 := releaseSlot s slot
    let s2 : State := { s1 with gate.descs := tmod s1.gate.descs l.did fun d =>
      { d with live := d.live - 1
               code := if d.code = cOk then code else d.code
               detail := if d.code = cOk then detail else d.detail } }
    finishDesc s2 l.did

/-- Stop sealing a descriptor: its remainder completes with a code once its live pieces retire (R344). -/
def endDesc (s : State) (did : Nat) (code : Code) (detail addr : Nat) : State :=
  let s1 : State := { s with gate.descs := tmod s.gate.descs did fun d =>
    { d with nextElem := d.total, hold := .none
             code := if d.code = cOk then code else d.code
             detail := if d.code = cOk then detail else d.detail
             faultAddr := if d.code = cOk then addr else d.faultAddr } }
  finishDesc s1 did

/-- EXEC code that suits a descriptor (R327, R333). -/
def execOf (raw : Bytes) : Nat :=
  let k := dClass raw
  if k = kArray then 1 else if k = kCipher then 2 else if k = kHostDma then 3 else if k = kFence then 4
  else if classAllocator k then 5 else if k = kStep then 0x10 + bits (dBody raw 4 1) 4 0 else 0

/-- The checked work item of an executor at a leaf goes over the internal trust network (R328): 64 bytes, the class body. -/
def sendWork (s : State) (exec : Nat) (raw : Bytes) : State :=
  if exec = 3 then netSend s uGate uHse .work (fit 64 (raw.drop 32))
  else if 0x10 ≤ exec then netSend s uGate (exec - 0x10) .work (fit 64 (raw.drop 32))
  else s

/-- Dispatch a checked piece (R328, R348): DISPATCHED, and PASS; a piece that the port runs takes its place in the
port's order (R349). -/
def dispatch (s : State) (slot cp : Nat) : State :=
  match tget s.gate.seals slot with
  | none => s
  | some l =>
    let s1 : State := { s with
      gate.seals := tset s.gate.seals slot { l with dispatched := true, waiting := false, port := some cp }
      gate.order := if execOf l.raw ≤ 1 then
          tset s.gate.order cp (tgetD s.gate.order cp [] ++ [l.serial.toNat])
        else s.gate.order }
    let s2 := s1.emit (.sealedEntry cp 0x12 cOk (qid l.ctx l.queue) 0 (sealedBytes l))
    if execOf l.raw ≤ 1 then s2 else sendWork (s2.emit (.workItem (execOf l.raw) slot)) (execOf l.raw) l.raw

/-- Whether some sealed piece, accepted descriptor or pending piece of a frozen slice still signals an event (R371, R378). -/
def hasSignaller (s : State) (h : Nat) : Bool :=
  s.gate.seals.any (fun p => dSignal p.2.raw == h) || s.gate.descs.any (fun p => dSignal p.2.raw == h) ||
    s.ctxs.pend.any fun p => dSignal p.raw == h

/-- Whether an earlier descriptor of the same queue waits on its event: the hold blocks the later ones of its queue (R372). -/
def heldBehind (s : State) (l : LiveSeal) : Bool :=
  s.gate.seals.any fun x => x.2.waiting && x.2.ctx == l.ctx && x.2.queue == l.queue && decide (x.2.did < l.did)

/-- What a held piece's event lets it do (R372): dispatch, abandon, or wait; the pieces behind it in its queue wait with it. -/
def waitVerdict (s : State) (l : LiveSeal) : Option Bool :=
  if heldBehind s l then none
  else if dWait l.raw = 0 then some true
  else
    match tget s.gate.evts (evtIndex (dWait l.raw)) with
    | none => some false
    | some e =>
      if e.state = 2 then some true
      else if e.state = 3 then some false
      else if e.state = 1 && e.holders = [] && !hasSignaller s (dWait l.raw) then some false else none

/-- Release the pieces held on events, one at a time, until none can be released (R372). -/
def settleWaits : Nat → State → State
  | 0, s => s
  | fuel + 1, s =>
    match s.gate.seals.find? fun p => p.2.waiting && (waitVerdict s p.2).isSome with
    | none => s
    | some (slot, l) =>
      match waitVerdict s l with
      | some true => settleWaits fuel (dispatch s slot (l.port.getD 0))
      | _ => settleWaits fuel (retirePiece (failHeld (signal s (dWait l.raw) cAbandoned) l cAbandoned) slot cAbandoned 0)

/-- Answer every QUEUE_DESTROY whose queue has nothing left in the gate, and unbind the queue (R360). -/
def answerDestroyed (s : State) : State :=
  let busy (q : Nat) : Bool := s.gate.descs.any fun d => qid d.2.ctx d.2.queue == q
  (s.gate.destroying.filter fun d => !busy d.1).foldl
    (fun s d => mbxAnswer { s with gate.queues := tdel s.gate.queues d.1 } d.2 0x0302 cOk [])
    { s with gate.destroying := s.gate.destroying.filter fun d => busy d.1 }

/-- Whether a started bounce record reads or writes a host range under a PASID (R322). -/
def hostBusy (s : State) (pasid addr size : Nat) : Bool :=
  s.host.work.any fun w => match tget s.gate.seals w.slot with
    | some l =>
      let va := dBody l.raw 8 8 % 2 ^ 57
      slicePasid s l.slice == some pasid && decide (va < addr + size) && decide (addr < va + 48 + dBody l.raw 4 4)
    | none => false

/-- Send the Invalidate Completions whose accesses in progress have ended (R322). -/
def answerInvalidates (s : State) : State :=
  (s.gate.invalidations.filter fun v => !hostBusy s v.1 v.2.1 v.2.2).foldl
    (fun s v => s.emit (.atsInvalidateDone v.1 v.2.1 v.2.2))
    { s with gate.invalidations := s.gate.invalidations.filter fun v => hostBusy s v.1 v.2.1 v.2.2 }

/-- The keys of the SPDM session (R103, R303). -/
def isSessionKey : KeyPath → Bool
  | .bounce _ _ _ => true
  | .appSecret _ => true
  | .spdmHandshake => true
  | .spdmMaster => true
  | _ => false

/-- Clear the SPDM session and its keys; generations restart at 0 with the next one (R322). -/
def spdmClear (s : State) : State :=
  { (dropKeys s isSessionKey) with
    host.session := 0, host.genIn := 0, host.genOut := 0
    host.updIn := false, host.marksIn := none, host.sealedOut := [], host.marksOut := none, host.negotiated := 0
    host.transcript := [], host.rekeyPosted := false }

/-- A session that is ending ends with its last record in progress (R322): SESSION_ENDED is posted on every page. -/
def finishSpdm (s : State) : State :=
  if s.host.session = 3 && s.host.work == [] then postAll (spdmClear s) evSessionEnded 0 else s

/-- None of these descriptors is still to complete. -/
def allCompleted (s : State) (dids : List Nat) : Bool := dids.all fun d => (tget s.gate.descs d).isNone

/-- The old outbound generation retires when the descriptor of the last record sealed under it has completed (R305). -/
def retireOutbound (s : State) : State :=
  if s.host.marksOut.any (allCompleted s) then
    let old := s.host.genOut - 1
    { (dropKeys s fun p => match p with
        | .bounce _ 1 g => g == old
        | _ => false) with host.marksOut := none }
  else s

/-- The old inbound generation retires with the last descriptor that VerifyNewKey marked (R305). -/
def retireInbound (s : State) : State :=
  if s.host.updIn && s.host.marksIn.any (allCompleted s) then
    let old := s.host.genIn - 1
    { (dropKeys s fun p => match p with
        | .bounce _ 0 g => g == old
        | _ => false) with host.updIn := false, host.marksIn := none }
  else s

/-- Write an entry of a context's top table (R336). -/
def setTop (s : State) (ctx g : Nat) (m : Mapping) : State :=
  { s with gate.tops := tset s.gate.tops ctx (tset (tgetD s.gate.tops ctx []) g m) }

/-- The second-level table behind a top entry (R336): a new one lies where the gate's system pages have room, which the spec leaves open, so
its FRAME is free (log 101). -/
def needLevel (s : State) (ctx g : Nat) : State :=
  if (tget (tgetD s.gate.tops ctx []) g).isSome then s
  else setTop s.spend ctx g ⟨3, false, false, false, 0, (s.drawn 24).toNat⟩

/-- Map the units of an object from a unit on (R336): as 4 GiB pages of the top table, or one by one. -/
def mapUnits (s : State) (ctx unit obj kind rights : Nat) (big : Bool) (frames : List Nat) : State :=
  let entry (f : Nat) : Mapping := ⟨kind, false, bit rights 1, bit rights 0, obj, f⟩
  if big then
    (List.range (frames.length / 64)).foldl (fun s k => setTop s ctx (unit / 64 + k) (entry (frames.getD (64 * k) 0))) s
  else
    let s1 := (List.range ((unit + frames.length + 63) / 64 - unit / 64)).foldl (fun s k => needLevel s ctx (unit / 64 + k)) s
    let t := (frames.zipIdx).foldl (fun t f => tset t (unit + f.2) (entry f.1)) (tgetD s1.gate.maps ctx [])
    { s1 with gate.maps := tset s1.gate.maps ctx t }

/-- An object is mapped as 4 GiB pages wherever it is mapped (R336, R374). -/
def bigObj (s : State) (obj : Nat) : Bool := s.gate.tops.any fun t => t.2.any fun m => m.2.kind == 1 && m.2.obj == obj

/-- Objects' regions are all LIVE under the slice memory key (R374, R291). -/
def shareReady (s : State) (i : Nat) : Bool :=
  match tget s.gate.objs i with
  | some o => !o.tierB || o.frames.all fun r => match tget s.mem.regions r with
    | some g => g.state != 2 && g.ownerKind == 1
    | none => true
  | none => true

/-- Map a shared object into the other context, and answer (R374). -/
def shareEnd (s : State) (x : Share) : State :=
  match tget s.gate.objs x.obj with
  | some o =>
    if o.state = 1 && (ctxAt s x.ctx).mode == .live && o.holders.contains x.ctx then
      let s1 := if o.kind = 3 then
          let slot := bits x.va 39 36
          { s with gate.tokenSlots := tset s.gate.tokenSlots x.ctx (tset (tgetD s.gate.tokenSlots x.ctx []) slot x.obj) }
        else mapUnits s x.ctx (x.va / 2 ^ 26) x.obj (if o.tierB then 2 else 1) x.rights
            (bigObj s x.obj && x.va % 2 ^ 32 == 0) o.frames
      mbxAnswer s1 x.hdr 0x0405 cOk []
    else mbxAnswer s x.hdr 0x0405 cStaleHandle []
  | none => mbxAnswer s x.hdr 0x0405 cStaleHandle []

/-- Answer the shares whose rotations have ended (R374). -/
def finishShares (s : State) : State :=
  (s.gate.sharing.filter fun x => shareReady s x.obj).foldl shareEnd
    { s with gate.sharing := s.gate.sharing.filter fun x => !shareReady s x.obj }

/-- A freezing slice has nothing left at work: no piece in the live-seal table, no outbound frame unsent or unacknowledged
(R378). -/
def sliceQuiet (s : State) (n : Nat) : Bool :=
  !s.gate.seals.any (fun l => l.2.slice == n) && !s.link.waiting.any (fun r => r.2.slice == n) &&
    !s.link.flows.any fun f => f.2.outstanding.any fun o => o.2.issuer.slice == n

/-- A slice is frozen or on its way (R378, R388). -/
def sliceFrozen (s : State) (n : Nat) : Bool := decide (2 ≤ ((tget s.ctxs.slices n).map (·.state)).getD 0)

/-- Complete every freeze whose work has settled (R378). -/
def finishFreezes (s : State) : State :=
  (s.ctxs.freezing.filter fun f => sliceQuiet s f.1).foldl
    (fun s f => mbxAnswer { s with ctxs.slices := tmod s.ctxs.slices f.1 fun x => { x with state := 3 } } f.2 0x0408 cOk [])
    { s with ctxs.freezing := s.ctxs.freezing.filter fun f => !sliceQuiet s f.1 }

/-- Modes of a watch (R515), in the order in which the rule names them (log 28). -/
def Watch.stats? (w : Watch) : Bool := bit w.body.modes 0
def Watch.digest? (w : Watch) : Bool := bit w.body.modes 1
def Watch.dump? (w : Watch) : Bool := bit w.body.modes 2

/-- Advance a slice's digest generation with the destruction of its key (R98, R109, R518). -/
def rotateDigest (s : State) (n : Nat) : State :=
  let s1 := dropKeys s fun q => q == .digest n
  { s1 with vault.digestGen := genNext s1.vault.digestGen n }

/-- A digest watch of a slice is open (R522). -/
def digestOpen (s : State) (slice : Nat) : Bool :=
  s.watch.table.any fun w => w.2.slice == slice && w.2.digest? && w.2.openAt.isSome

/-- Rotate a slice's digest key and answer its DIGEST_ROTATE (R518). -/
def rotateNow (s : State) (h : MbxHdr) : State :=
  let s1 := rotateDigest s (hslice h)
  mbxAnswer s1 h 0x0703 cOk (le 4 (genAt s1.vault.digestGen (hslice h)).toNat)

/-- The rotations that waited for a watch to close (R522). -/
def rotateWaiters (s : State) : State :=
  let go := s.watch.rotateWaiting.filter fun h => !digestOpen s (hslice h)
  go.foldl rotateNow { s with watch.rotateWaiting := s.watch.rotateWaiting.filter fun h => digestOpen s (hslice h) }

/-- Release every piece that an event now lets go; the array then takes its next ready piece, and destroyed queues that are
empty are answered, host keys whose last user has gone retire, and shares, freezes and rotations that are done are answered. -/
def settle (s : State) : State :=
  rotateWaiters (finishFreezes (finishShares (finishSpdm (retireOutbound (retireInbound (answerInvalidates (answerDestroyed
    (arbWake (settleWaits s.gate.seals.length s)))))))))

/-- A piece that CHECK has passed (R372, R402): it is held until its deferral has elapsed, then until its WAIT_EVENT lets
it go, and is then dispatched. -/
def passCheck (s : State) (slot cp : Nat) : State :=
  match tget s.gate.seals slot with
  | none => s
  | some l =>
    let l' := { l with port := some cp }
    if l.deferUntil.any fun t => decide (s.ns < t) then { s with gate.seals := tset s.gate.seals slot l' }
    else if dWait l.raw = 0 ∧ heldBehind s l = false then arbWake (dispatch s slot cp)
    else settle { s with gate.seals := tset s.gate.seals slot { l' with waiting := true } }

/-- A piece retires at its executor (R349), and the waits that this ends are released. -/
def retire (s : State) (slot : Nat) (code : Code) (detail : Nat) : State :=
  settle (retirePiece s slot code detail)

/-- Seal one piece of a descriptor (R335, R346, R347): a slot, the next SERIAL, references, and the SEALED entry. -/
def sealPiece (s : State) (did : Nat) (d : Desc) (start len : Nat) (trs : List Nat) (last : Bool)
    (objs : List Nat) (hostEntry : Option Nat) : State :=
  let slot := leastFree s.gate.seals 0
  let serial : BitVec 64 := BitVec.ofNat 64 (s.gate.sealCount * 2 ^ 18 + slot)
  let evts := ((if dWait d.raw = 0 then [] else [evtIndex (dWait d.raw)]) ++
    (if dSignal d.raw = 0 then [] else [evtIndex (dSignal d.raw)]))
  let l0 : LiveSeal :=
    { serial := serial, wrap := s.gate.wrapCount, dispatched := false, did := did, ctx := d.ctx, gen := d.gen,
      slice := d.slice, queue := d.queue, cls := dClass d.raw, raw := d.raw,
      pieceWord := d.piece % 32768 + (if last then 32768 else 0), start := start, len := len, trs := trs,
      tag := 0, objs := objs, evts := evts, hostEntry := hostEntry, port := none, waiting := false,
      deferUntil := if d.outcome = cDeferred then some (d.admittedAt + d.deferral) else none,
      deadline := if dDeadline d.raw = 0 then none else some (dDeadline d.raw) }
  let l := { l0 with tag := sealTag s (fit 96 d.raw ++ sealBlock l0) s.gate.wrapCount serial }
  let wrapped := s.gate.sealCount + 1 = 2 ^ 46
  let s1 : State := { s with
    gate.seals := tset s.gate.seals slot l
    gate.sealCount := if wrapped then 1 else s.gate.sealCount + 1
    gate.wrapCount := if wrapped then s.gate.wrapCount + 1 else s.gate.wrapCount
    gate.piecesSealed := s.gate.piecesSealed + 1
    gate.splits := if d.piece = 1 then s.gate.splits + 1 else s.gate.splits
    gate.descs := tset s.gate.descs did
      { d with nextElem := start + len, piece := d.piece + 1, live := d.live + 1, hold := .none, reserved := false } }
  let s2 := evts.foldl evtRef (objs.foldl objRef s1)
  let s3 := useCtx (bumpSlice (bumpUnit s2 uGate 0 1) d.slice 2 1) d.ctx 1 1
  s3.emit (.sealedEntry d.cp 0x10 d.outcome (qid d.ctx d.queue) (if d.outcome = cDeferred then d.deferral else 0)
    (sealedBytes l))

/-- A page or channel that nothing has allocated; page p is number 64 + p (R139). The system channels and the pages of the TCU and the
sentinels are no slice's (R126, R136): 32 stands for the system. -/
def chanBlank (n : Nat) : Channel :=
  { allocated := false, slice := if n = 65 then 31 else if n < 4 ∨ n = 66 ∨ n = 67 then 32 else 0, ctx := 0, gen := 0, key := none
    loaded := none, refusal := none, left := 0, code := cOk,
    queue := [], done := 0, message := none, ctrl := 0xF00000, iv := 0, src := 0, dst := 0, len := 0, aadLen := 0,
    tag := 0, jobId := 0, keyRef := 0 }

/-- A channel's registers. -/
def chanAt (s : State) (n : Nat) : Channel := tgetD s.cipher.channels n (chanBlank n)

def setChan (s : State) (n : Nat) (c : Channel) : State :=
  { s with cipher.channels := tset s.cipher.channels n c }

/-- Complete an operation (R139): CODE and DONE, its result, and its piece if a descriptor brought it. -/
def chanComplete (s : State) (n : Nat) (j : CipherJob) (code : Code) (data : Bytes) (tag : BitVec 128) : State :=
  let c := chanAt s n
  let s1 := setChan s n { c with code := code, done := c.done + 1 }
  let s2 := bumpUnit (s1.emit (.cipherResult n j.body.jobId code j.body.dst data tag)) uCipher 0 1
  match j.slot with
  | some k => retire s2 k code 0
  | none => s2

end Sys2Proof.Machine
end

