-- ==== Sys2Proof/Machine/Teardown.lean ====
section
/-!
DEFINITION. Teardown.lean: revoking pages, releasing objects and regions, and the teardown of a context (R351, R368,
R376).
-/
namespace Sys2Proof.Machine

/-- Revoke a tier-A page in every replica, collect the acknowledgements and start its scrub (R40, R297): SCRUB is set, and the page is nobody's
until all 16 engines are done. -/
def revokePage (s : State) (p : Nat) : State :=
  let o := tgetD s.gate.pages p ⟨0, 0, 0, 0, 0⟩
  let o' := { o with flags := 4 + (if bit o.flags 3 then 8 else 0) }
  let s0 := setPage s p o'
  let s1 : State := { s0 with gate.scrubs := tset s0.gate.scrubs p ⟨pageAcks s0 p o', List.range 16, [], false⟩ }
  (List.range 16).foldl (fun s k => s.emit (.scrub k p)) (scrubLevels s1)

/-- What a region's release leaves (R298): its nodes are discarded, its root is 0, its record FREE, its key destroyed. -/
def eraseRegion (s : State) (r : Nat) : State :=
  let s1 : State := { s with
    mem.regions := tmod s.mem.regions r fun g =>
      { g with state := 0, key := false, newKey := false, lost := false, writes := 0 }
    mem.roots := tdel s.mem.roots r
    mem.ports := s.mem.ports.map fun p =>
      (p.1, { p.2 with cache := p.2.cache.filter fun n => n.region != r
                       respans := p.2.respans.filter fun n => n.region != r
                       returned := p.2.returned.filter fun n => n.region != r
                       writes := p.2.writes.map fun w => if w.region = r then { w with dead := true } else w
                       assayed := eraseN p.2.assayed r
                       rotating := eraseN p.2.rotating r
                       rotQueue := eraseN p.2.rotQueue r }) }
  dropKeys s1 fun k => match k with
    | .region r' _ => r' == r
    | _ => false

/-- Requests to a region in its port's engine. -/
def regionJobs (s : State) (r : Nat) : Table PewJob :=
  (tgetD s.mem.ports (r % 4) Pewter.reset).jobs.filter fun j => j.2.r.region == r

/-- The end of a request to tier B: the issuing engine has its outcome, or the remote operation takes it. -/
def pewAnswer (s : State) (j : PewJob) (code : Code) (data : Bytes) : State :=
  match j.src with
  | .engine => s.emit (.pewter j.r.reqId code data)
  | .remote n =>
    let upd (o : RemoteOp) : RemoteOp :=
      { o with left := eraseN o.left j.r.granule, code := if o.code = cOk then code else o.code,
               data := tset o.data j.r.granule data }
    { s with link.inbound := tmod s.link.inbound n upd }
  | .system => s

/-- Crypto-erase a region with its owner's memory key (R298): requests in flight complete KEY_DESTROYED. -/
def cryptoErase (s : State) (r : Nat) : State :=
  let mine := regionJobs s r
  let q := r % 4
  let p := tgetD s.mem.ports q Pewter.reset
  let p' := { p with jobs := p.jobs.filter fun j => j.2.r.region != r }
  let s1 : State := { s with mem.ports := tset s.mem.ports q p' }
  eraseRegion (mine.foldl (fun s j => pewAnswer s j.2 cKeyDestroyed []) s1) r

/-- Release a tier-B region (R292, R298): requests accepted before the release finish first; a rotating region's keys are destroyed at
once. -/
def releaseRegion (s : State) (r : Nat) : State :=
  if (tget s.mem.regions r).any fun g => g.state == 2 then cryptoErase s r
  else if regionJobs s r = [] then eraseRegion s r
  else { s with mem.regions := tmod s.mem.regions r fun g => { g with state := 3 } }

/-- The frames that back an object: tier-A pages and tier-B regions (R350, R339). -/
def objPages (o : MemObj) : List Nat :=
  (if o.tierB then [] else o.frames) ++ (o.blocks.filter fun b => b.2.kind != 2).map fun b => b.2.frame
def objRegions (o : MemObj) : List Nat :=
  (if o.tierB then o.frames else []) ++ (o.blocks.filter fun b => b.2.kind == 2).map fun b => b.2.frame

/-- Release an object (R351): clear its page-table entries, revoke and scrub its pages, release its regions, return
its peer set, and advance its generation. -/
def releaseObj (s : State) (i : Nat) : State :=
  match tget s.gate.objs i with
  | none => s
  | some o =>
    let s0 := match o.group with
      | some g => setGroup s g []
      | none => s
    let s1 : State := { s0 with
      gate.tops := s.gate.tops.map fun t => (t.1, t.2.filter fun m => m.2.kind == 3 || m.2.obj != i)
      gate.maps := s.gate.maps.map fun t => (t.1, t.2.filter fun m => m.2.obj != i)
      gate.tokenSlots := s.gate.tokenSlots.map fun t => (t.1, t.2.filter fun m => m.2 != i)
      gate.objs := tset s.gate.objs i
        { state := 0, kind := 0, slice := 0, rights := 0, gen := (o.gen + 1) % 4096, owner := 0, holders := [],
          qrefs := 0, size := 0, peers := none, frames := [], tierB := false, group := none, tokens := 0,
          stride := 0, blocks := [] } }
    (objRegions o).foldl releaseRegion ((objPages o).foldl revokePage s1)

/-- Release an event (R353): its generation advances and the index is free. -/
def releaseEvt (s : State) (i : Nat) : State :=
  { s with gate.evts := tmod s.gate.evts i fun e =>
      { state := 0, code := cOk, slice := 0, creator := 0, gen := (e.gen + 1) % 65536, holders := [], qrefs := 0 } }

/-- Whether an unsealed remainder names an object through a range (R345, R350). -/
def descNames (s : State) (d : Desc) (i : Nat) : Bool :=
  decide (d.nextElem < d.total) && (dRanges d.raw).any fun r =>
    if r.2.host then false
    else if r.2.word / 2 ^ 62 = 1 then
      ((tget s.gate.tokenSlots d.ctx).bind fun t => tget t (bits r.2.word 39 36)) == some i
    else
      let a := linear s d.ctx r.2
      (List.range (pagesSpanned s d.ctx d.total r.2)).any fun k =>
        (unitAt s d.ctx (a / 2 ^ 26 + k)).map (·.obj) == some i

/-- QREFS of an object (R350): live-seal slots and held remainders that name it. -/
def objRefs (s : State) (i : Nat) (o : MemObj) : Nat :=
  o.qrefs + (s.gate.descs.filter fun d => descNames s d.2 i).length

/-- An object that nothing holds and nothing names (R351). -/
def objIdle (s : State) (i : Nat) (o : MemObj) : Bool := o.state != 0 && o.holders == [] && objRefs s i o == 0

/-- An event that nothing holds and nothing names (R353). -/
def evtIdle (s : State) (i : Nat) (e : EvtObj) : Bool :=
  e.state != 0 && e.holders == [] && e.qrefs == 0 && !s.gate.descs.any fun d =>
    decide (d.2.nextElem < d.2.total) &&
      ((dWait d.2.raw != 0 && evtIndex (dWait d.2.raw) == i) || (dSignal d.2.raw != 0 && evtIndex (dSignal d.2.raw) == i))

/-- Release every object and event left with no holder and no reference (R376 step 6). -/
def releaseIdle (s : State) : State :=
  let s1 := (s.gate.objs.filter fun o => objIdle s o.1 o.2).foldl (fun s o => releaseObj s o.1) s
  (s1.gate.evts.filter fun e => evtIdle s1 e.1 e.2).foldl (fun s e => releaseEvt s e.1) s1

/-- Drop a context's hold on an object (R351): its entries for it go, and it leaves the share group. -/
def dropHold (s : State) (ctx i : Nat) : State :=
  let s1 := match (tget s.gate.objs i).bind (·.group) with
    | some g => setGroup s g ((tgetD s.gate.groups g []).filter fun m => m.1 != ctx)
    | none => s
  { s1 with
    gate.objs := tmod s.gate.objs i fun o =>
      { o with holders := eraseN o.holders ctx
               state := if eraseN o.holders ctx = [] then 2 else o.state } }

/-- Raw descriptors between a queue's head and tail (R330). -/
def ringCount (q : Queue) : Nat := (q.tail + q.ringSize - q.head) % max 1 q.ringSize

/-- Drain a queue's ring ABANDONED through the gate (R327, R360, R376 step 5): the raw descriptors as the ring holds them; those that the
command does not bring, and the port on which each REFUSED entry leaves, are free (log 18). -/
def drainRing : Nat → List Bytes → State → Nat → Nat → State
  | 0, _, s, _, _ => s
  | n + 1, given, s, ctx, queue =>
    let raw := match given with
      | r :: _ => r
      | [] => le 96 (s.drawn 768).toNat
    let s1 := match given with
      | _ :: _ => s
      | [] => s.spend
    let gen := ((tget s.gate.queues (qid ctx queue)).map (·.gen)).getD 0
    drainRing n given.tail (refuseRaw s1.spend (s1.drawn 3).toNat ctx gen queue raw cAbandoned 0 0) ctx queue

/-- Drain and unbind a queue (R376 step 5). -/
def unbindQueue (s : State) (ctx queue : Nat) (given : List Bytes) : State :=
  match tget s.gate.queues (qid ctx queue) with
  | none => s
  | some q =>
    let s1 := drainRing (ringCount q) given s ctx queue
    { s1 with gate.queues := tdel s1.gate.queues (qid ctx queue) }

/-- A dispatched piece whose channel job waits in its channel's queue, not the one that executes (R135). -/
def chanQueued (s : State) (slot : Nat) : Bool :=
  s.cipher.channels.any fun c => (c.2.queue.drop (if c.2.loaded.isSome then 1 else 0)).any fun j => j.slot == some slot

/-- Cut the pieces of a set of descriptors (R376 steps 2 and 3, R443): each descriptor with a piece not yet
dispatched, a channel job that waits (R135), a host record not started (R322), a remainder or a wait completes with the code; one all of whose pieces ran is cut with no completion,
unless `all` asks that every one completes. A CHECK that the gate holds fails, and a descriptor with no piece sealed has a REFUSED entry
(R327). -/
def cutDescs (s : State) (sel : Desc → Bool) (code : Code) (all : Bool) : State :=
  (s.gate.descs.filter fun d => sel d.2).foldl (fun s p =>
    let mine := s.gate.seals.filter fun l => l.2.did == p.1
    let staged (slot : Nat) : Bool := s.alloys.any fun a => a.2.steps.any fun t => t.2.slot == slot && t.2.state == 1
    let owed := all || decide (p.2.nextElem < p.2.total) ||
      mine.any fun l => !l.2.dispatched || l.2.cls == kFence || staged l.1 || chanQueued s l.1 ||
        (l.2.cls == kHostDma && !s.host.work.any fun w => w.slot == l.1)
    let cut := (mine.filter fun l => l.2.dispatched).map fun l => (l.2.serial.toNat, l.2.ctx, l.2.gen)
    let s1 := mine.foldl (fun s l => releaseSlot (failHeld s l.2 code) l.1) { s with gate.cutSeals := s.gate.cutSeals ++ cut }
    let s2 : State := { s1 with gate.descs := tdel s1.gate.descs p.1 }
    if !owed then s2
    else if p.2.piece = 0 then refuseRaw s2 p.2.cp p.2.ctx p.2.gen p.2.queue p.2.raw code 0 0
    else completeRaw s2 p.2.ctx p.2.gen p.2.queue p.2.raw code 0 0 0) s

/-- Abandon the outstanding frames that a set of work issued (R376 step 3): later ACKs for them are ignored. -/
def abandonFrames (s : State) (sel : SealReq → Bool) : State :=
  { s with
    link.flows := s.link.flows.map fun f =>
      (f.1, { f.2 with outstanding := f.2.outstanding.filter fun o => !sel o.2.issuer })
    link.waiting := s.link.waiting.filter fun r => !sel r.2 }

/-- Cancel watches with no RESULT (R522); their events become ABANDONED. -/
def cancelWatches (s : State) (sel : Watch → Bool) (code : Code) : State :=
  (s.watch.table.filter fun w => sel w.2).foldl (fun s w =>
    signal { s with watch.table := tdel s.watch.table w.1, watch.closed := s.watch.closed + 1 } w.2.body.event code) s

/-- A running job that is cut (R135): the manual leaves its destination undefined, and what stands there is free (log 84). -/
def cutJob (s : State) (c : Channel) : State :=
  match c.queue with
  | j :: _ =>
    let m := bits j.body.ctrl.toNat 27 24
    if j.op == .job && c.loaded.isSome && c.refusal.isNone && !(m == 6 || m == 7 || decide (11 ≤ m)) then
      tierAWrite s.spend j.body.dst (le j.body.len (s.drawn (8 * j.body.len)).toNat)
    else s
  | [] => s

/-- Free a channel (R129, R135): the running job is cut, and the queue and the open message are discarded. -/
def freeChannels (s : State) (sel : Channel → Bool) : State :=
  let s := ((s.cipher.channels.filter fun c => c.2.allocated && sel c.2).map (·.2)).foldl cutJob s
  { s with cipher.channels := s.cipher.channels.filter fun c => !(c.2.allocated && sel c.2) }

/-- Output peers of a step body (R237), and the kinds that send (R236). -/
def stepOuts (body : Bytes) : List Nat :=
  if [0, 1, 3, 4].contains (fld body 0 1) then
    fld body 20 2 :: (if bit (fld body 4 1) 6 then [fld body 22 2] else [])
  else []

/-- A step enters FAILED (R254): its buffers are zeroised and each output peer is owed one ABORT chunk. -/
def StepRec.failed (t : StepRec) (now : Nat) (code : Code) : StepRec :=
  { t with state := 3, code := code, failAt := now, acc := [], input := [], fetched := [], outQueued := [], outData := [], outSent := [],
           owed := [], aborts := stepOuts t.body }

/-- Record a frame's delivery status (R214, R216): its window entry, and the ACK entry that is owed. -/
def settleFrame (s : State) (node seq : Nat) (code : Code) : State :=
  match tget s.link.flows node with
  | none => s
  | some f =>
    let f' : Flow := { f with
      window := if code = cOk then tdel f.window (seq % 4096) else tset f.window (seq % 4096) 2
      ackAt := if f.pendingAcks = [] then s.ns else f.ackAt
      pendingAcks := f.pendingAcks ++ [(seq, code)] }
    { s with link.flows := tset s.link.flows node f' }

/-- A step fails with a code (R254): the chunks whose status it still owes are acknowledged STEP_PEER_ABORT, or TARGET_RESET
where its partition is reset (R65). -/
def stepFails (s : State) (port k : Nat) (code : Code) : State :=
  match (tget s.alloys port).bind fun a => tget a.steps k with
  | none => s
  | some t =>
    let s1 := (t.owed.flatMap (·.2)).foldl (fun s o => settleFrame s o.1 o.2
      (if code = cAbortedReset then cTargetReset else cStepPeerAbort)) s
    let s2 := if t.state = 1 || code ≠ cAbandoned then bumpStat s1 0x5011 2 1 else s1
    let upd (a : Alloy) : Alloy :=
      { a with steps := tset a.steps k (t.failed s2.ns code), lastFail := (code, t.slice, t.ctx) }
    { s2 with alloys := tmod s2.alloys port upd }

/-- The steps that a selection names, by port and step slot. -/
def stepsWhere (s : State) (sel : StepRec → Bool) : List (Nat × Nat) :=
  s.alloys.flatMap fun a => (a.2.steps.filter fun t => sel t.2).map fun t => (a.1, t.1)

/-- The teardown of a context (R376), all of its steps: `given` holds, per queue, what its ring held. -/
def teardown (s : State) (c : Nat) (given : Nat → List Bytes) : State :=
  let x := ctxAt s c
  let mine (d : Desc) : Bool := d.ctx == c && d.gen == x.gen
  let queues := (s.gate.queues.filter fun q => q.1 / 64 == c).map fun q => q.1 % 64
  let s1 : State := { s with ctxs.table := tset s.ctxs.table c { x with mode := .ending, gen := x.gen + 1 } }
  let s2 := cutArray s1 fun l => l.ctx == c && l.gen == x.gen
  let s3 := cutDescs s2 mine cAbandoned false
  let s3a := (stepsWhere s3 fun t => t.ctx == c && t.gen == x.gen && t.state != 3).foldl
    (fun s k => stepFails s k.1 k.2 cAbandoned) s3
  let s4 := abandonFrames s3a fun r => r.ctx == c
  let s5 : State := { s4 with
    link.fences := s4.link.fences.filter fun f => f.ctx != c
    link.fenceWaits := s4.link.fenceWaits.filter fun f => f.1 != c
    link.queueFail := s4.link.queueFail.filter fun f => f.1 / 64 != c
    ctxs.pend := s4.ctxs.pend.filter fun p => p.ctx != c }
  let s6 := (s4.ctxs.pend.filter fun p => p.ctx == c).foldl
    (fun s p => if p.elem = 0 then refuseRaw s p.cp c x.gen p.queue p.raw cAbandoned 0 0
      else completeRaw s c x.gen p.queue p.raw cAbandoned 0 0 0) s5
  let s7 := settle (cancelWatches s6 (fun w => w.ctx == c) cAbandoned)
  let s8 := settle (queues.foldl (fun s q => unbindQueue s c q (given q)) s7)
  let s9 := freeChannels s8 fun h => h.ctx == c && h.gen == x.gen
  let s10 : State := { s9 with
    cipher.store := s9.cipher.store.filter fun r => r.2.ctx != c
    gate.evts := s9.gate.evts.map fun e => (e.1, { e.2 with holders := eraseN e.2.holders c }) }
  let s11 := (s10.gate.objs.filter fun o => o.2.holders.contains c).foldl (fun s o => dropHold s c o.1) s10
  let own := (s11.mem.regions.filter fun r => r.2.state != 0 && r.2.ownerKind == 0 && r.2.ctx == c).map (·.1)
  let s12 := own.foldl cryptoErase s11
  let s12 := (s12.casts.table.filter fun k => k.2.ctx == some (c, x.gen) && !k.2.resting).foldl
    (fun s k => castRest s k.1 { k.2 with outcome := cCastCancelled }) s12
  let s13 := settle (releaseIdle { s12 with
    gate.tops := tdel s12.gate.tops c
    gate.maps := tdel s12.gate.maps c
    gate.tokenSlots := tdel s12.gate.tokenSlots c
    gate.devCache := s12.gate.devCache.filter fun e => e.1 != c
    host.windows := tdel s12.host.windows c
    ctxs.usage := s12.ctxs.usage.filter fun u => u.1 / 16 != c })
  let s14 := dropKeys s13 fun k => match k with
    | .ctxmem c' _ => c' == c
    | .ctxaux c' _ => c' == c
    | _ => false
  let wrap := decide (0xFFFF < x.gen + 1)
  { s14 with
    ctxs.table := tset s14.ctxs.table c ⟨.free, if wrap then 0xFFFF else x.gen + 1, x.retired || wrap, 0, false⟩
    ctxs.idsRetired := s14.ctxs.idsRetired + b2n wrap }

/-- A context that a teardown can end (R375). -/
def ctxExists (s : State) (c : Nat) : Bool :=
  (ctxAt s c).mode == .live || (ctxAt s c).mode == .frozen

/-- The kill of a context by an S2 error (R15, R375): the teardown, and CONTEXT_KILLED on the driver page and the
slice's page. -/
def kill (s : State) (c cause : Nat) : State :=
  if ctxExists s c then
    let slice := (ctxAt s c).slice
    let s1 := teardown s c fun _ => []
    let s2 : State := { s1 with ctxs.kills := s1.ctxs.kills + 1, err.lastAction := 1 }
    let data := c + cause * 2 ^ 24
    postEvent (postEvent (bumpSlice s2 slice 11 1) 0 evKilled data) (slice + 1) evKilled data
  else s

end Sys2Proof.Machine
end

