-- ==== Sys2Proof/Machine/Raise.lean ====
section
/-!
DEFINITION. Raise.lean: what an error leads to by its class (R15, R439, R440): the kill of a context, the pending
resets, quench (R446), and the member-down notice (R452, R453).
-/
namespace Sys2Proof.Machine

/-- Bytes 0 to 47 of a notice (R453). -/
def noticeHead (s : State) (source cause flags seq unit : Nat) : Bytes :=
  le 1 6 ++ le 1 source ++ le 1 cause ++ le 1 flags ++ le 4 seq ++ le 8 unit ++ le 8 s.pow.sessionId.toNat ++
    le 8 s.dom.domainId ++ le 4 s.dom.epoch ++ le 4 0 ++ le 8 s.ns

/-- The IV of a notice's tag (R453): "DOWN", 32 zero bits, NOTICE_SEQ big-endian. -/
def noticeIv (seq : Nat) : BitVec 96 := BitVec.ofNat 96 (0x444F574E * 2 ^ 64 + seq)

/-- The 64 bytes of a notice: tagged under the page 3 key while it exists, else UNTAGGED (R453). -/
def noticeBytes (s : State) (source cause flags seq unit : Nat) : Bytes :=
  match engKey s (.page 3) with
  | some k =>
    let h := noticeHead s source cause flags seq unit
    h ++ be 16 (gmac k (noticeIv seq) h).toNat
  | none => noticeHead s source cause (flags + 1) seq unit ++ le 16 0

/-- The unit is a member of a domain (R452): anchor, deputy or member. -/
def isMember (s : State) : Bool := s.dom.role == 1 || s.dom.role == 2 || s.dom.role == 3

/-- Put one notice on the management bus (R453); in bus-off the sending is lost and noted (R531). -/
def canNotice (s : State) (b : Bytes) : State :=
  if s.cross.busOff then { s with dict.noticeInBusOff := true }
  else s.emit (.can (0x040 + setting s 0x1100 1) b)

/-- Send a member-down notice about a unit (R453): now, and twice more 10 ms apart with REPEAT set. -/
def sendNotice (s : State) (source cause unit : Nat) : State :=
  let seq := s.err.noticeSeq.toNat + 1
  let b := noticeBytes s source cause 0 seq unit
  let again := noticeBytes s source cause 2 seq unit
  let s1 := canNotice s b
  record { s1 with
    err.noticeSeq := s.err.noticeSeq + 1
    err.lastNotice := b
    err.noticeAt := s.ns
    err.noticeRepeats := 2
    err.noticePending := [again, again] } 0x0031 7 (if source = 2 then srcSentA else if source = 3 then srcSentB
      else uTcu) b

/-- The notice of R452, which only a domain member sends: by TCU firmware while it is alive, else by sentinel A, or
by sentinel B where A is silent. -/
def memberDown (s : State) (cause : Nat) (bySentinel : Bool) : State :=
  if isMember s then
    sendNotice s (if !bySentinel then 1 else if s.err.sentA then 2 else 3) cause Config.unitSerial.toNat
  else s

/-- Every engine key register, slot, staging copy and DRBG state is zeroised (R41, R117, R446). -/
def zeroiseKeys (s : State) : State :=
  { s with
    vault.slots := []
    vault.regs := []
    vault.replacing := []
    vault.queue := []
    vault.maskSeed := 0
    vault.seeded := false
    vault.rootState := 0
    cipher.channels := []
    cipher.store := []
    cipher.signed := []
    cipher.agreed := []
    cipher.identReady := false
    cipher.ident := none
    cipher.pkQueue := []
    ctxs.offers := []
    host.session := 0
    dom.join := JoinState.reset
    dom.admissions := []
    mem.regions := s.mem.regions.map fun r => (r.1, { r.2 with key := false, newKey := false })
    link.ports := s.link.ports.map fun p => (p.1, { p.2 with keyCache := [], misses := [] }) }

/-- The unit falls out of everything a quench or a chip warm reset ends: contexts, work, flows and membership (R448,
R445). A chip warm reset also advances every context generation by 1. -/
def dropWork (s : State) (adv : Nat) : State :=
  { s with
    gate.descs := [], gate.seals := [], gate.order := [], gate.hostList := [], gate.devCache := [],
    gate.hostCache := [], gate.queues := [], gate.objs := [], gate.evts := [], gate.tops := [], gate.maps := [],
    gate.destroying := [], gate.invalidations := [], gate.sharing := [], ctxs.freezing := [], gate.tokenSlots := [], gate.groups := [], gate.pages := [],
    gate.scrubs := s.gate.scrubs.filter fun x => x.2.withheld,
    mem.checkers := s.mem.checkers.map fun c => (c.1, { c.2 with pages := [], groups := [], scrubbing := false }),
    ctxs.table := s.ctxs.table.map fun c =>
      (c.1, { c.2 with mode := .free, gen := min (c.2.gen + adv) 0xFFFF,
                       retired := c.2.retired || decide (0xFFFF < c.2.gen + adv), debuggable := false }),
    ctxs.usage := [], ctxs.sliceUsage := [], ctxs.pend := [], ctxs.offers := [],
    ctxs.slices := [], host.windows := [], host.work := [], host.session := 0, host.marksIn := none,
    host.updIn := false, host.sealedOut := [], host.marksOut := none,
    link.flows := [], link.nodes := [], link.waiting := [], link.inbound := [], link.fences := [], link.fenceWaits := [], link.queueFail := [],
    alloys := s.alloys.map fun a => (a.1, { a.2 with steps := [], stream := [], served := [] }),
    watch.table := [], watch.rotateWaiting := [],
    arb.runSlot := none, arb.resident := none, arb.cutRest := [], arb.pieceTiles := [], arb.spilled := none,
    dom.role := 0, dom.domainId := 0, dom.epoch := 0, dom.term := 0, dom.members := [], dom.hosts := [],
    dom.deputies := [], dom.policy := none, dom.policyDigest := 0, dom.join := JoinState.reset,
    dom.admissions := [], dom.changing := false, dom.parts := [], dom.triggers := [], dom.coalesceAt := none,
    dom.switchAt := none, dom.claimAt := none, dom.probes := [], dom.grace := none, time.doff := 0 }

/-- The 18 bytes of QUENCH_CAUSE (R457). -/
def quenchBytes (check unit whereAt time : Nat) : Bytes := le 1 check ++ le 1 unit ++ le 8 whereAt ++ le 8 time

/-- Quench (R446), all of its steps, with the end of an open SPDM session (R322): nothing in it needs the TCU or the network. What the sequence itself sends crosses; after it nothing does
(R63). A further S5 is only counted. -/
def quench (s : State) (unit check whereAt : Nat) : State :=
  if s.pow.quenched then { s with err.quenchMore := s.err.quenchMore + 1 }
  else
    let s1 : State := { s with
      pins.quenchLow := true, err.lastAction := 6, err.quenches := s.err.quenches + 1,
      err.quenchMore := 0, err.quenchCause := some (check, unit, whereAt, s.ns) }
    let pages := servingPages s
    let s2 := zeroiseKeys (s1.emit .arrCut)
    let s3 := dropWork { s2 with
      vault.rootState := 5
      casts.table := []
      health.ingots := s2.health.ingots.map fun i => (i.1, { i.2 with valid := false }) } 0
    let s4 := bump (sentinelRec s3 0x0022 5 srcSentA (quenchBytes check unit whereAt s.ns ++ le 4 0)) 17 1
    let s5 := sendNoticeIf s s4
    let ended := if 2 ≤ s.host.session then pages.foldl (fun s p => postEvent s p evSessionEnded 0) s5 else s5
    let s6 := endUnserved (pages.foldl (fun s p => postEvent s p evDeviceDown 5) ended)
    { s6 with
      pow.quenched := true, cross.held := []
      err.banks := tdel s6.err.banks unit
      tierA := []
      mem.checkers := s6.mem.checkers.map fun c => (c.1, { c.2 with down := true }) }
where
  /-- The notice names the membership that the unit had when it quenched. -/
  sendNoticeIf (before after : State) : State :=
    if isMember before then
      let named : State := { after with dom.domainId := before.dom.domainId, dom.epoch := before.dom.epoch }
      let t := sendNotice named (if before.err.sentA then 2 else 3) 1 Config.unitSerial.toNat
      { t with dom.domainId := 0, dom.epoch := 0 }
    else after

/-- Errors of a kind in the last 60 s of session time (R440). -/
def recent (s : State) (l : List (Nat × Nat)) (u : Nat) : Nat :=
  (l.filter fun t => t.1 == u && decide (s.ns < t.2 + 60000000000)).length

/-- S3 errors that recur within 60 s become S4 (R440): a third of one engine, or a third partition reset. -/
def escalate (s : State) (e : ErrIn) : State × ErrIn :=
  if e.cls ≠ 3 || e.unit = uTcu then (s, e)
  else
    match e.scope with
    | .partition sl =>
      let s1 : State := { s with err.partitionTimes := (sl, s.ns) :: s.err.partitionTimes }
      (s1, if 3 ≤ recent s1 s1.err.partitionTimes sl then { e with cls := 4 } else e)
    | _ =>
      let s1 : State := { s with err.s3Times := (e.unit, s.ns) :: s.err.s3Times }
      (s1, if 3 ≤ recent s1 s1.err.s3Times e.unit then { e with cls := 4 } else e)

/-- Error-caused chip warm resets that began in the last 10 minutes (R450). -/
def chipWindow (s : State) : Nat := (s.err.chipTimes.filter fun t => decide (s.ns < t + 600000000000)).length

/-- Casts armed when a chip warm reset, a save or a power-cycle request comes are discarded with no result (R429). -/
def dropCasts (s : State) : State := { s with casts.table := [] }

/-- The power-cycle request (R450): TRAY_PWRCYC_N is asserted in place of the reset, and the chip is held in reset until VAON
falls. -/
def powerCycle (s : State) : State :=
  let s1 := memberDown s 4 true
  let s2 := if s1.pow.tcuDown then s1 else postAll s1 evDeviceDown 6
  let s3 := dropWork (zeroiseKeys (dropCasts s2)) 1
  { s3 with
    pow.heldInReset := true, pow.ready := false, pow.readmitted := false, pow.pendingChip := none, pins.pwrcycLow := true
    err.lastAction := 7 }

/-- An error-caused chip warm reset is due (R445, R450): a third within 10 minutes is a power-cycle request instead. -/
def chipDue (s : State) (cause : Nat) : State :=
  if s.pow.heldInReset then s
  else if 2 ≤ chipWindow s then powerCycle s
  else { s with pow.pendingChip := some cause }

/-- An error and its immediate consequence (R15, R439): S2 kills its context, or is taken as S3 of the slice when no
context can be named (R443); S3 waits for its engine or partition reset; S4 makes a chip warm reset due; S5 quenches. -/
def raise (s : State) (e : ErrIn) (killCause check : Nat) : State :=
  let e := match e.cls, e.scope with
    | 2, .partition sl => { e with cls := 3, scope := .partition sl }
    | _, _ => e
  let (s, e) :=
    if (tget s.err.banks e.unit).any fun o => decide (e.cls ≤ o.cls) then (s, e) else escalate s e
  let s1 := latch s e
  match e.cls, e.scope with
  | 2, .context c => kill s1 c killCause
  | 4, _ => chipDue s1 e.unit
  | 5, _ => quench s1 e.unit check e.whereAt
  | _, _ => s1

/-- An S3 error of an engine. -/
def raiseS3 (s : State) (unit cause whereAt : Nat) : State :=
  raise s { unit := unit, cls := 3, cause := cause, whereAt := whereAt } 0 0

/-- Errors that arise together (R18): taken in order of severity, then by the fixed priority of the unit. -/
def raiseAll (s : State) (es : List ErrIn) : State := (inOrder es).foldl (fun s e => raise s e 0 0) s

/-- An S2 error of a context, whose cause code CONTEXT_KILLED carries (R375). -/
def raiseS2 (s : State) (unit cause whereAt ctx killCause : Nat) : State :=
  raise s { unit := unit, cls := 2, cause := cause, whereAt := whereAt, scope := .context ctx,
            ctx := some (ctx, (ctxAt s ctx).gen), slice := some (ctxAt s ctx).slice } killCause 0

/-- An S4 error. -/
def raiseS4 (s : State) (unit cause whereAt : Nat) : State :=
  raise s { unit := unit, cls := 4, cause := cause, whereAt := whereAt } 0 0

/-- A parity error (R49) with the class of where it falls; more than 16 in one unit within 1 s are S3. -/
def parityError (s : State) (unit cls cause whereAt killCause : Nat) (scope : ErrScope) : State :=
  let s1 := limHit (bumpUnit s unit 11 1) (.parity unit)
  if 16 < limCount s1 (.parity unit) then raiseS3 s1 unit 49 whereAt
  else raise s1 { unit := unit, cls := cls, cause := cause, whereAt := whereAt, scope := scope } killCause 0

end Sys2Proof.Machine
end

