-- ==== Sys2Proof/Machine/Admission.lean ====
section
/-!
DEFINITION. Admission.lean: the arbiter's span boundaries and the meanings of the admission and array commands (chapter 13,
R441).
-/
namespace Sys2Proof.Machine

/-- The slice whose tiles the current span counts as its own (R403). -/
def spanOwner (s : State) : Option Nat :=
  match s.arb.span with
  | .quantum _ o => some o
  | .guard => some 31
  | .slack => some 31
  | _ => none

/-- Close the current span's tile count into its owner's last 16 (R403). -/
def closeTiles (s : State) : State :=
  match spanOwner s with
  | some o => { s with
      arb.ownTiles := tset s.arb.ownTiles o ((s.arb.tiles :: tgetD s.arb.ownTiles o []).take 16), arb.tiles := 0 }
  | none => { s with arb.tiles := 0 }

/-- ROT_BASE after a committed schedule change (R392): the next quantum goes to the slice after the last owner. -/
def rotAfter (s : State) (c : Sched) : Nat :=
  let n := max 1 s.tenants
  let k := firstSpan c (c.kinds [0]) s.domNs true
  (quantumOwner s s.arb.quantumK + n - k % n) % n

/-- A committed schedule takes effect at a boundary of both periods (R393), with its capacity-change event. -/
def applySchedule (s : State) : State :=
  match s.arb.schedNext with
  | none => s
  | some (t, vals) =>
    if s.domNs < t then s
    else
      let force := vals.foldl (fun f v => tset f v.1 v.2) s.dict.force
      let s1 : State := { s with dict.force := force, arb.schedNext := none }
      capacity { s1 with arb.rotBase := rotAfter { s1 with arb.rotBase := s.arb.rotBase } (schedNow s1) } 8 255 0

/-- A quantum granted to a slice is counted whole (R377, R511). -/
def quantumGranted (s : State) (o : Nat) : State :=
  { (bumpSlice s o 0 1) with ctxs.sliceUsage := tbump s.ctxs.sliceUsage (o * 16) 1 }

/-- The span at this moment of domain time (R390, R392). -/
def enterSpan (s : State) : State :=
  let p := (schedNow s).at s.domNs
  let sp : Span := if p.kind = 1 then .radio else if p.kind = 2 then .guard else if p.kind = 3 then .slack
    else .quantum p.k (quantumOwner s p.k)
  let s := if p.kind = 0 then quantumGranted s (quantumOwner s p.k) else s
  { s with
    arb.span := sp, arb.spanStart := p.start, arb.spanEnd := p.stop
    arb.quantumK := if p.kind = 0 then p.k else s.arb.quantumK
    arb.paused := s.arb.paused && !(decide (0 < s.arb.resumeAt) && decide (s.arb.resumeAt ≤ s.domNs)) }

/-- A radio piece that meets the end of its window or its guard band (R400): an overrun continues; a spill is recorded
and cut. Any other boundary cuts the array (R395). -/
def boundaryCut (s : State) (prev : Span) : State :=
  let radio := (s.arb.runSlot.bind fun k => (tget s.gate.seals k).map fun l => (k, l)).filter fun p => p.2.slice == 0
  match radio, prev with
  | some (_, l), .radio =>
    if s.arb.span = .guard then
      latch { (bump s 13 1) with arb.overruns := s.arb.overruns + 1, arb.radioOverruns := s.arb.radioOverruns + 1 }
        { unit := uArb, cls := 0, cause := 400, ctx := some (l.ctx, l.gen), slice := some 0 }
    else arrayCut s
  | some (k, l), .guard =>
    arrayCut (latch { (bump s 14 1) with
        arb.spills := s.arb.spills + 1, arb.guardSpills := s.arb.guardSpills + 1, arb.spilled := some k }
      { unit := uArb, cls := 1, cause := 400, ctx := some (l.ctx, l.gen), slice := some 0,
        aux := le 8 (l.deadline.getD 0) })
  | _, _ => arrayCut s

/-- A span boundary (R395): the array is cut, and the next span's first context follows when the array is clean. -/
def spanBoundary (s : State) : State :=
  let s1 := enterSpan (applySchedule (closeTiles s))
  arbWake (boundaryCut s1 s.arb.span)

/-- The next boundary of the schedule's period in domain time (R412, R441). -/
def nextPeriod (s : State) : Nat :=
  let p := max 1 ((schedNow s).period * 1000)
  (s.domNs / p + 1) * p

/-- ARRAY_CLEAN (R77, R395, R412): the level rises. Later than 1.5 µs after ARR_CUT is S1 for the array, in the arbiter's bank (log 73); spans paused by a
recovery resume at the next period boundary. -/
def execArrayClean (s : State) : Host.Outcome State Fault Refusal :=
  done <| whenUp s fun s =>
    if s.cross.arrayClean || !s.crossOpen 192 then s
    else
      let late := s.arb.cutAt.any fun t => decide (t + 1500 < s.ns)
      let said := s.arb.lateClean
      let s1 : State := { s with
        cross.arrayClean := true, arb.cutAt := none, arb.cutSlot := none, arb.lateClean := late
        arb.resumeAt := if s.arb.paused then nextPeriod s else s.arb.resumeAt }
      let s2 := if s.arb.paused then arrayNote s1 4 else s1
      arbWake (if late && !said then notice s2 1 77 uArb 0 else s2)

/-- ARR_TILEEVT (R76, R403): tile completions since the last sample, counted for the span's own slice. -/
def execArrTileevt (count : Nat) (s : State) : Host.Outcome State Fault Refusal :=
  done <| whenUp s fun s =>
    let r := ccEvents s 192 192 count
    let s := r.1
    let count := r.2
    match s.arb.runSlot with
    | some k =>
      let s1 : State := { s with arb.pieceTiles := tbump s.arb.pieceTiles k count }
      if ((tget s.gate.seals k).map (·.slice)) = spanOwner s then { s1 with arb.tiles := s.arb.tiles + count } else s1
    | none => s

/-- ARRAY_CLEAN_TIMEOUT (R441): 1 ms after an ARR_CUT without ARRAY_CLEAN is S3 for the arbiter; the record names clock
domains 47 and 48. -/
def execArrayCleanTimeout (s : State) : Host.Outcome State Fault Refusal :=
  done <| whenUp s fun s =>
    if !s.cross.arrayClean && s.arb.cutAt.any fun t => decide (t + 1000000 ≤ s.ns) then
      raise (if s.arb.lateClean then s else notice { s with arb.lateClean := true } 1 77 uArb 0)
        { unit := uArb, cls := 3, cause := 441, aux := [47, 48] } 0 0
    else s

/-- ARRAY_RECOVERY_TIMEOUT (R441): 10 ms after the arbiter reset without ARRAY_CLEAN is S4. -/
def execArrayRecoveryTimeout (s : State) : Host.Outcome State Fault Refusal :=
  done <| whenUp s fun s =>
    if !s.cross.arrayClean && s.err.arbResetAt.any fun t => decide (t + 10000000 ≤ s.ns) then
      raise { s with err.arbResetAt := none } { unit := uArb, cls := 4, cause := 441, aux := [47, 48] } 0 0
    else s

/-- DEFERRAL_EXPIRE (R402, R404): a deferral that has elapsed lets the piece's CHECK go on. -/
def execDeferralExpire (slot : Nat) (s : State) : Host.Outcome State Fault Refusal :=
  done <| whenUp s fun s =>
    match tget s.gate.seals slot with
    | none => s
    | some l =>
      if l.deferUntil.any fun t => decide (t ≤ s.ns) then
        let s1 : State := { s with gate.seals := tset s.gate.seals slot { l with deferUntil := none } }
        match l.port with
        | some cp => if l.dispatched || l.waiting then s1 else passCheck s1 slot cp
        | none => s1
      else s

/-- Whether a piece has started: an array piece when the array takes it, a host piece when its record is in work, any other
when it is dispatched (R404). -/
def started (s : State) (slot : Nat) (l : LiveSeal) : Bool :=
  if l.cls = kArray then s.arb.runSlot == some slot || s.arb.cutRest.contains slot
  else if l.cls = kHostDma then s.host.work.any fun w => w.slot == slot
  else l.dispatched

/-- DEADLINE_WITHDRAW (R404): a tenant's or the operator's piece not started by its DEADLINE completes REFUSED_DEADLINE. -/
def execDeadlineWithdraw (slot : Nat) (s : State) : Host.Outcome State Fault Refusal :=
  done <| whenUp s fun s =>
    match tget s.gate.seals slot with
    | none => s
    | some l =>
      if l.slice != 0 && !started s slot l && l.deadline.any fun d => decide (d < s.domNs) then
        retire (failHeld s l cRefusedDeadline) slot cRefusedDeadline 0
      else s

/-- The causes of a throttle level (R408). -/
def throttleCause (s : State) (t : Nat) : Nat :=
  if t = 0 then 0
  else (if s.health.throttleReq = t then s.health.throttleWhy else 0) +
    (if setting s 0x4014 3 = t then 8 else 0)

/-- THROTTLE_WINDOW (R407, R408): at a whole millisecond a report of the window that ends is posted if its level differs
from the one before, and the next window's level is the highest request. A span that is under way uses a new level from the
millisecond on. -/
def execThrottleWindow (s : State) : Host.Outcome State Fault Refusal :=
  done <| whenUp s fun s =>
    let a := s.arb
    let s := bump s a.throttle 1
    let s1 := if a.throttle = a.throttlePrev then s
      else postAll s evThrottle
        ((s.domNs / 1000000 - 1) % 65536 * 65536 + a.throttle * 4096 + a.throttleCause)
    let t := min 12 (max s.health.throttleReq (setting s 0x4014 3))
    let s2 : State := { s1 with
      arb.levelAt := if t = a.throttle then a.levelAt else s.domNs / 1000000 * 1000000
      arb.throttlePrev := a.throttle, arb.throttle := t, arb.throttleCause := throttleCause s t }
    if s2.domNs < usableEnd s2 then arbWake s2
    else cutArray s2 fun l => l.slice != 0

/-- CAPACITY_CHANGE (R409): every change of the last millisecond, one event each in order on every page, with its record. -/
def execCapacityChange (s : State) : Host.Outcome State Fault Refusal :=
  done <| whenUp s fun s =>
    s.arb.capacityPending.foldl (fun s w =>
      record { (bump (postAll s evCapacity w) 16 1) with dict.capacityLast := w } 0x0062 7 srcDevice (le 4 w))
      { s with arb.capacityPending := [] }

end Sys2Proof.Machine
end

