-- ==== Sys2Proof/Machine/Cbor.lean ====
section
/-!
DEFINITION. Cbor.lean: the CBOR and COSE_Sign1 encodings that hallmarks, policies and endorsements use (R177, R178, R180, R181):
the shortest form of each item, as RFC 8949 and RFC 9052 give it (log 6).
-/
namespace Sys2Proof.Machine

/-- The head of an item: its major type and argument. -/
def cHead (major n : Nat) : Bytes :=
  if n < 24 then [BitVec.ofNat 8 (32 * major + n)]
  else if n < 2 ^ 8 then BitVec.ofNat 8 (32 * major + 24) :: be 1 n
  else if n < 2 ^ 16 then BitVec.ofNat 8 (32 * major + 25) :: be 2 n
  else if n < 2 ^ 32 then BitVec.ofNat 8 (32 * major + 26) :: be 4 n
  else BitVec.ofNat 8 (32 * major + 27) :: be 8 n

def cUint (n : Nat) : Bytes := cHead 0 n
/-- The negative number −n. -/
def cNeg (n : Nat) : Bytes := cHead 1 (n - 1)
def cBytes (b : Bytes) : Bytes := cHead 2 b.length ++ b
def cText (b : Bytes) : Bytes := cHead 3 b.length ++ b
def cArr (l : List Bytes) : Bytes := cHead 4 l.length ++ l.flatten
def cMap (l : List (Bytes × Bytes)) : Bytes := cHead 5 l.length ++ l.flatMap fun p => p.1 ++ p.2
def cNull : Bytes := cHead 7 22

/-- The Sig_structure of a COSE_Sign1 object (R180): no external AAD. -/
def sigStruct (prot payload : Bytes) : Bytes := cArr [cText (ascii "Signature1"), cBytes prot, cBytes [], cBytes payload]

/-- The bytes of a hybrid signature (R143). -/
def sigBytes (g : HybSig) : Bytes := be 96 g.ecdsa.toNat ++ be 4627 g.mldsa.toNat

/-- A tagged COSE_Sign1 object (R180): tag 18, an empty unprotected header. -/
def coseSign1 (prot payload : Bytes) (g : HybSig) : Bytes :=
  cHead 6 18 ++ cArr [cBytes prot, cMap [], cBytes payload, cBytes (sigBytes g)]

/-- One item of an encoding, an array or map by its head alone; the content of a string. -/
structure CTok where
  major : Nat
  arg : Nat
  data : Bytes
  deriving DecidableEq, Repr

/-- The argument that the low five bits of a head announce, and the bytes after it. -/
def cArg (info : Nat) (b : Bytes) : Option (Nat × Bytes) :=
  let long (n : Nat) : Option (Nat × Bytes) := if b.length < n then none else some (leNat (b.take n).reverse, b.drop n)
  if info < 24 then some (info, b)
  else if info = 24 then long 1
  else if info = 25 then long 2
  else if info = 26 then long 4
  else if info = 27 then long 8
  else none

/-- The first item of an encoding. -/
def cTok : Bytes → Option (CTok × Bytes)
  | [] => none
  | h :: r =>
    let major := h.toNat / 32
    (cArg (h.toNat % 32) r).bind fun a =>
      if major = 2 ∨ major = 3 then
        if a.2.length < a.1 then none else some (⟨major, a.1, a.2.take a.1⟩, a.2.drop a.1)
      else some (⟨major, a.1, []⟩, a.2)

/-- The items of an encoding in order; the fuel is its length. -/
def cToks : Nat → Bytes → Option (List CTok)
  | _, [] => some []
  | 0, _ => none
  | n + 1, b => (cTok b).bind fun t => (cToks n t.2).map (t.1 :: ·)

/-- The number that a big-endian byte string spells. -/
def beNat (b : Bytes) : Nat := leNat b.reverse

/-- A hybrid signature of 4,723 bytes (R143). -/
def sigOf (b : Bytes) : Option HybSig :=
  if b.length = 4723 then some ⟨BitVec.ofNat 768 (beNat (b.take 96)), BitVec.ofNat 37016 (beNat (b.drop 96))⟩ else none

/-- A COSE_Sign1 object as its bytes spell it, tagged or not: the protected header, the one byte string of the unprotected
header if it has any, the payload and the signature. -/
structure Cose where
  prot : Bytes
  unprot : Option Bytes
  payload : Bytes
  signature : HybSig
  deriving DecidableEq, Repr

/-- The items of an object after its tag and array head. -/
def coseBody : List CTok → Option Cose
  | [⟨2, _, p⟩, ⟨5, 0, _⟩, ⟨2, _, b⟩, ⟨2, _, g⟩] => (sigOf g).map fun g => ⟨p, none, b, g⟩
  | [⟨2, _, p⟩, ⟨5, 1, _⟩, _, ⟨2, _, u⟩, ⟨2, _, b⟩, ⟨2, _, g⟩] => (sigOf g).map fun g => ⟨p, some u, b, g⟩
  | _ => none

/-- Read a COSE_Sign1 object. -/
def coseOf (b : Bytes) : Option Cose :=
  match cToks b.length b with
  | some (⟨6, 18, _⟩ :: ⟨4, 4, _⟩ :: r) => coseBody r
  | some (⟨4, 4, _⟩ :: r) => coseBody r
  | _ => none

/-- The entries of a map with unsigned keys, each with its value's item and, for an array, the items in it. -/
def cEntries : Nat → List CTok → Option (List (Nat × CTok × List CTok))
  | 0, [] => some []
  | 0, _ => none
  | n + 1, ⟨0, k, _⟩ :: v :: r =>
    let len := if v.major = 4 then v.arg else 0
    if r.length < len then none else (cEntries n (r.drop len)).map ((k, v, r.take len) :: ·)
  | _, _ => none

/-- The map that a payload encodes; no key comes twice. -/
def cMapOf (b : Bytes) : Option (List (Nat × CTok × List CTok)) :=
  match cToks b.length b with
  | some (⟨5, n, _⟩ :: r) =>
    (cEntries n r).bind fun l => if (l.map (·.1)).eraseDups.length = l.length then some l else none
  | _ => none

end Sys2Proof.Machine
end

