-- ==== Sys2Proof/Machine/Crypto.lean ====
section
/-!
DEFINITION. Crypto.lean: what the manual builds from the standard primitives: the derivation function (R94, R95), the key
check value (R106), GCM sealing and opening (SP 800-38D), and hybrid signatures (R143, R144).
-/
namespace Sys2Proof.Machine

/-- The CMAC input of block i of a derivation (R94): COUNTER, LABEL, SEPARATOR, CONTEXT, LENGTH, big-endian. -/
def kdfInput (i : Nat) (label ctx : Bytes) (bits : Nat) : Bytes :=
  be 4 i ++ fit 12 label ++ le 1 0 ++ ctx ++ be 4 bits

/-- The KDF in counter mode with AES-256-CMAC (R94, R96), from a parent with its CMAC subkeys: the leftmost L bits of the
concatenated blocks, for L = 256 or 448. -/
def kdfSub (parent : Key) (sub : BitVec 128 × BitVec 128) (label ctx : Bytes) (bits : Nat) : BitVec 512 :=
  let c (i : Nat) : BitVec 128 := cmacSub parent sub (kdfInput i label ctx bits)
  if bits = 448 then ((c 1 ++ c 2 ++ c 3 ++ c 4 : BitVec 512) >>> 64) else (c 1 ++ c 2 : BitVec 256).setWidth 512

/-- The KDF where the parent's subkeys are computed beside it. -/
def kdf (parent : Key) (label ctx : Bytes) (bits : Nat) : BitVec 512 := kdfSub parent (subkeys parent) label ctx bits

/-- The key check value (R106). -/
def kcv (k : Key) : BitVec 32 := (cmac k (ascii "VTC.KCV" ++ List.replicate 9 0)).extractLsb' 96 32

/-- XOR of two byte strings. -/
def xorBytes (a b : Bytes) : Bytes := List.zipWith (· ^^^ ·) a b

/-- GCM sealing: ciphertext and tag. -/
def gcmSeal (k : Key) (iv : BitVec 96) (aad pt : Bytes) : Bytes × Tag :=
  let ct := xorBytes pt (ctrStream k iv pt.length)
  (ct, gcmTag k iv aad ct)

/-- GCM opening: the plaintext only when the tag verifies (R28). -/
def gcmOpen (k : Key) (iv : BitVec 96) (aad ct : Bytes) (tag : Tag) : Option Bytes :=
  if gcmTag k iv aad ct = tag then some (xorBytes ct (ctrStream k iv ct.length)) else none

/-- M′ of R143. -/
def hybMsg (m : Bytes) : Bytes := ascii "VTC.HYBSIG" ++ le 1 1 ++ be 48 (Config.sha384 m).toNat

/-- ECDSA verification of M′ (R144, log 5): the s part must be the one that r calls for. -/
def ecdsaOk (k : HybKey) (m : Bytes) (sig : BitVec 768) : Bool :=
  sig.setWidth 384 == Config.ecdsaS k (hybMsg m) (sig.extractLsb' 384 384) || Config.ecdsaOther k (hybMsg m) sig

/-- The context string of the ML-DSA part (R143). -/
def hybCtx : Bytes := ascii "VTC.HYBSIG"

/-- ML-DSA-87 verification of M′ under the context string (R143, R144, log 5). -/
def mldsaOk (k : HybKey) (m : Bytes) (sig : BitVec 37016) : Bool :=
  sig.setWidth 36504 == Config.mldsaZ k hybCtx (hybMsg m) (sig.extractLsb' 36504 512) ||
    Config.mldsaOther k hybCtx (hybMsg m) sig

/-- The point checks of R147. -/
def pointValid (q : Point) : Bool := Config.onCurve q

/-- The modulus check of R147 on an ML-KEM-1024 encapsulation key. -/
def kemKeyValid (ek : KemBlob) : Bool := Config.kemModulus ek

/-- The P-384 point in a hybrid public key (R143). -/
def hybPoint (k : HybKey) : Point := k.extractLsb' 20736 776

/-- Hybrid verification checks the key's point (R147), evaluates both parts, and needs all (R144). -/
def hybOk (k : HybKey) (m : Bytes) (sig : HybSig) : Bool :=
  pointValid (hybPoint k) && ecdsaOk k m sig.ecdsa && mldsaOk k m sig.mldsa

/-- A hybrid signature by the holder of a key (R143): the ECDSA part with a per-signature secret, the ML-DSA part hedged with 32
random bytes. -/
def hybSign (k : HybKey) (m : Bytes) (secret : BitVec 384) (hedge : BitVec 256) : HybSig :=
  let r := Config.ecdsaR secret
  let c := Config.mldsaC k hybCtx (hybMsg m) hedge
  ⟨r ++ Config.ecdsaS k (hybMsg m) r, c ++ Config.mldsaZ k hybCtx (hybMsg m) c⟩

/-- The order of the group of P-384. -/
def p384n : Nat :=
  0xFFFFFFFFFFFFFFFFFFFFFFFFFFFFFFFFFFFFFFFFFFFFFFFFC7634D81F4372DDF581A0DB248B0A77AECEC196ACCC52973

/-- The P-384 shared x-coordinate of a private key and a peer's point (R146). -/
def ecdh (priv : BitVec 384) (q : Point) : BitVec 384 :=
  let own := Config.ecPoint priv
  if own.toNat ≤ q.toNat then Config.ecShared own q else Config.ecShared q own

/-- ML-KEM-1024 encapsulation: the ciphertext and the shared key (R146). -/
def kemEncaps (ek : KemBlob) (m : BitVec 256) : KemBlob × BitVec 256 :=
  (Config.kemCt ek m, Config.kemShared ek (Config.kemCt ek m))

/-- ML-KEM-1024 decapsulation (R146). -/
def kemDecaps (dk : BitVec 512) (ct : KemBlob) : BitVec 256 := Config.kemShared (Config.kemKey dk) ct

/-- The ECDSA private key of an identity seed of 448 bits: key generation with extra random bits of FIPS 186-5 (R97). -/
def ecdsaScalar (seed : BitVec 448) : BitVec 384 := BitVec.ofNat 384 (seed.toNat % (p384n - 1) + 1)

/-- The SHA-384 digest of a hybrid public key. -/
def keyDigest (k : HybKey) : Dig384 := Config.sha384 (be 2689 k.toNat)

/-- The leftmost 256 bits of a digest. -/
def left256 (d : Dig384) : BitVec 256 := d.extractLsb' 128 256

/-- AAD of a granule (R268): CTR_EPOCH, region, granule. -/
def granuleAad (ce region g : Nat) : Bytes := le 8 ce ++ le 4 region ++ le 4 g

/-- IV of a granule (R268). -/
def granuleIv (g ctr : Nat) : BitVec 96 := BitVec.ofNat 96 (g * 2 ^ 64 + ctr)

/-- The 272 bytes of a sealed granule (R267, R268). -/
def sealGranule (k : Key) (region g gen ctr : Nat) (data : Bytes) : Bytes :=
  let ce := ctr + gen % 4 * 2 ^ 62
  let r := gcmSeal k (granuleIv g ctr) (granuleAad ce region g) data
  r.1 ++ le 8 ce ++ (be 16 r.2.toNat).take 8

end Sys2Proof.Machine
end

