-- ==== Sys2Proof/Machine/VaultOps.lean ====
section
/-!
DEFINITION. VaultOps.lean: how the vault derives, holds, wraps, opens and destroys keys, and regenerates the device
secret (R89 to R109).
-/
namespace Sys2Proof.Machine

/-- This unit's identifier (R176). -/
def unitId : Nat := Config.unitSerial.toNat

/-- The class byte that a life-cycle code selects (R93): 0 where no root exists. -/
def lcClassOf (code : BitVec 16) : Nat :=
  if code = 0x6C3A then 1 else if code = 0x39C6 ∨ code = 0xC35A then 2 else if code = 0x5F05 then 3 else 0

/-- The life-cycle record in force: the primary copy after settling (R153). -/
def lcRecord (s : State) : LcCopy := s.lc.primary

/-- One row of the derivation tree (R97): label, parent, context, length, slot, USE bits. The partition is 4 for the
root and class slots. -/
structure TreeRow where
  label : Bytes
  parent : Option KeyPath
  ctx : Bytes
  len : Nat
  part : Nat
  slot : Nat
  use : Nat

/-- KEY_GEN of a region: start index and key count (R265). -/
def regionGen (g : Region) : Nat := g.startIdx * 2 ^ 20 + g.keyGen

/-- The key of a region in force. -/
def regionKey (r : Nat) (g : Region) : KeyPath := .region r (regionGen g)

/-- Keys of a label whose generation failed its complement check are not derived until the chip warm reset (R98). -/
def labelBlocked (s : State) (p : KeyPath) : Bool :=
  let bad (t : Table (Kept 32)) (i : Nat) : Bool := !(tgetD t i (Kept.of 0)).sound
  match p with
  | .slcmem n => s.vault.blocked.contains 0 || bad s.vault.sliceGen n
  | .digest n => s.vault.blocked.contains 1 || bad s.vault.digestGen n
  | .page n => s.vault.blocked.contains 2 || bad s.vault.pageGen n
  | _ => false

/-- The row of a key that has a derivation path (R97), with the generations in force (R98). -/
def treeRow (s : State) (p : KeyPath) : Option TreeRow :=
  let gen (t : Table (Kept 32)) (i : Nat) : Nat := (genAt t i).toNat
  match p with
  | .lcroot => some ⟨ascii "VTC.LCROOT", none, le 1 (lcClassOf s.lc.code), 256, 4, 0, 0x80⟩
  | .idEcc => some ⟨ascii "VTC.IDECC", some .lcroot, [], 448, 4, 2, 0x40⟩
  | .idMldsa => some ⟨ascii "VTC.IDMLDSA", some .lcroot, [], 256, 4, 3, 0x40⟩
  | .store a => if 1 ≤ a ∧ a ≤ 4 then some ⟨ascii "VTC.STORE", some .lcroot, be 1 a, 256, 4, 3 + a, 0⟩ else none
  | .oper => some ⟨ascii "VTC.OPER", some .lcroot, be 32 (lcRecord s).operBinding.toNat ++ be 4 (lcRecord s).operGen,
      256, 4, 8, 0⟩
  | .session => some ⟨ascii "VTC.SESSION", some .lcroot, be 8 s.pow.sessionId.toNat ++ be 1 (b2n s.vault.debugMark),
      256, 4, 1, 0x80⟩
  | .gate => some ⟨ascii "VTC.GATE", some .session, [], 256, 4, 9, 0x08⟩
  | .tree q => if q < 4 then some ⟨ascii "VTC.TREE", some .session, be 1 q, 256, 4, 10 + q, 0x02⟩ else none
  | .wrap => some ⟨ascii "VTC.WRAP", some .session, [], 256, 4, 14, 0⟩
  | .slcmem n => if n < 32 then
      some ⟨ascii "VTC.SLCMEM", some .session, be 1 n ++ be 4 (gen s.vault.sliceGen n), 256, 4, 32 + n, 0x80⟩ else none
  | .slcsvc n => if n < 32 then some ⟨ascii "VTC.SLCSVC", some .session, be 1 n, 256, 4, 64 + n, 0x80⟩ else none
  | .digest n => if n < 32 then
      some ⟨ascii "VTC.DIGEST", some .session, be 1 n ++ be 4 (gen s.vault.digestGen n), 256, 4, 96 + n, 0x10⟩ else none
  | .page n => if n < 4 then
      some ⟨ascii "VTC.PAGE", some .session, be 1 n ++ be 4 (gen s.vault.pageGen n), 256, 4, 128 + n, 0x20⟩ else none
  | .ctxmem c g => some ⟨ascii "VTC.CTXMEM", some .session, be 2 c ++ be 2 g, 256, 2, 0, 0x80⟩
  | .ctxaux c g => some ⟨ascii "VTC.CTXAUX", some .session, be 2 c ++ be 2 g, 256, 2, 0, 0x01⟩
  | .region r k =>
    (tget s.mem.regions r).map fun g =>
      ⟨ascii "VTC.REGION", some (if (if k = regionGen g then g.ownerKind else g.newOwner) = 0 then .ctxmem g.ctx g.gen
          else .slcmem g.slice),
        be 2 r ++ be 4 k, 256, 1, 0, 0x02⟩
  | .flow peer de fe =>
    let row (q : KeyPath) : TreeRow :=
      ⟨ascii "VTC.FLOW", some q, be 8 (min unitId peer) ++ be 8 (max unitId peer) ++ be 4 fe, 256, 0, 0, 0x01⟩
    if de = s.dom.epoch then some (row .domainKey)
    else if s.dom.changing && de = s.dom.nextEpoch then some (row .nextDomainKey) else none
  | _ => none

/-- A key lies below the life-cycle root (R97): its parents lead there, and not to a domain key. -/
def belowRoot (parent : KeyPath) : Bool := parent != .domainKey && parent != .nextDomainKey

/-- The attribute word that a derivation sets (R101): NX and the class's USE; TEST_CLEAR below the test root. -/
def attrOf (s : State) (parent : KeyPath) (use : Nat) : BitVec 16 :=
  BitVec.ofNat 16 (0x8000 + (if s.vault.lcClass = 1 && belowRoot parent then 0x1000 else 0) + use)

/-- Slots in use in a partition (R118). -/
def partUse (s : State) (part : Nat) : Nat := (s.vault.slots.filter fun k => k.part == part).length

/-- The working slots of a partition (R99). -/
def partSize (part : Nat) : Nat :=
  if part = 0 then 16384 else if part = 1 then 33792 else if part = 2 then 8192 else if part = 3 then 7168 else 256

/-- A requester's share of partition 3 (R99): 32 names the system. -/
def serviceShare (s : State) (who : Nat) : Nat :=
  if who = 32 ∨ who = 0 ∨ who = 31 then 512 else 5632 / s.tenants

/-- Service slots a requester holds. -/
def serviceUse (s : State) (who : Nat) : Nat :=
  (s.vault.slots.filter fun k => k.part == 3 && k.share == who).length

/-- A slot can be had for a key (R99, R100): its own, or one that its partition, and in partition 3 its share, still has. -/
def slotRoom (s : State) (p : KeyPath) (part share : Nat) : Bool :=
  (findKey s p).isSome || (decide (partUse s part < partSize part) &&
    (part != 3 || decide (serviceUse s share < serviceShare s share)))

/-- The service slot whose key an engine register holds, which a key that a vault reset cleared comes back to (R115). -/
def loadedSlot (r : KeyReg) : Option Nat :=
  match r.path with
  | .chan _ slot => some slot
  | _ => none

/-- The least free slot number of a partition, found within the number of slots it holds. -/
def freeSlotIn (s : State) (part : Nat) : Nat :=
  let used := (s.vault.slots.filter fun k => k.part == part).map (·.slot) ++
    if part = 3 then s.vault.regs.filterMap loadedSlot else []
  ((List.range (used.length + 1)).find? fun i => !used.contains i).getD 0

/-- The engine that takes a key (R101): the lowest USE bit among brass, pewter, host seal, gate, service channel and page. -/
def engineOf (attr : BitVec 16) : Option Nat := (List.range 6).find? fun i => bit attr.toNat i

/-- The leaf whose engine holds a key (R25): the pewter engine, the host seal engine, or the brass engine of the peer's port. -/
def keyLeaf (s : State) (p : KeyPath) : Option Nat :=
  match p with
  | .tree q => some (0x20 + q % 4)
  | .region r _ => some (0x20 + r % 4)
  | .bounce _ _ _ => some uHse
  | .flow peer _ _ => (s.link.nodes.find? fun n => n.2.1 == peer).map (·.2.2)
  | _ => none

/-- Send a key to leaves as two complemented shares, one message each (R25 step 3, R34, R38). -/
def keySend (s : State) (leaves : List Nat) (v : Shares) : State :=
  let part (a b : BitVec 512) : Bytes := be 32 (a.toNat % 2 ^ 256) ++ be 32 (b.toNat % 2 ^ 256)
  leaves.foldl (fun s leaf =>
    netSend (netSend s uVault leaf .key (part v.masked v.maskedInv)) uVault leaf .key (part v.mask v.maskInv)) s

/-- Deliver a key to one more engine that needs it (R25): another port's brass engine, or an alloy. -/
def deliverTo (s : State) (p : KeyPath) (leaf : Nat) : State :=
  match findReg s p with
  | some r =>
    if r.leaves.contains leaf then s
    else keySend (modReg s p fun r => { r with leaves := insertN r.leaves leaf }) [leaf] r.active
  | none => s

/-- Deliver a key to its engine's registers as two fresh shares (R25, R34, R112): a register that held the key before reports its
count first and keeps what is left of its allowance (R115). -/
def loadReg (s : State) (p : KeyPath) (value : BitVec 512) (attr : BitVec 16) (parent : Option KeyPath) (label ctx : Bytes) :
    State :=
  match engineOf attr with
  | none => s
  | some e =>
    let used := usedSoFar s p
    let left := allowance p used.1 used.2
    let r : KeyReg :=
      match findReg s p with
      | some r =>
        { r with engine := e, leaves := (keyLeaf s p).toList.foldl insertN r.leaves, active := Shares.of value (s.drawn 512)
                 parent := parent, label := label, context := ctx }
      | none =>
        { path := p, engine := e, leaves := (keyLeaf s p).toList, active := Shares.of value (s.drawn 512), shadow := none
          leftItems := Kept.of (BitVec.ofNat 72 left.1), leftBytes := Kept.of (BitVec.ofNat 72 left.2), items := Kept.of 0
          bytes := Kept.of 0, parent := parent, label := label, context := ctx }
    keySend { s.drew with vault.regs := r :: s.vault.regs.filter fun r => r.path != p } r.leaves r.active

/-- An item of a key is in an engine (R35): a channel's job runs, or a granule of a region is on its way from the pool, or is here. -/
def itemOpen (s : State) (p : KeyPath) : Bool :=
  (s.cipher.channels.any fun c => c.2.key == some p && c.2.loaded.isSome) ||
    match p with
    | .region r _ => s.mem.ports.any fun q => q.2.jobs.any fun j => j.2.r.region == r &&
        (j.2.slot.isSome || q.2.reads.any fun x => x.why == .granule j.1)
    | _ => false

/-- The engines switch to the shadow register at their next item boundary (R35, R107 step 4): the old key's count is reported, and the
new one starts with its own allowance. -/
def switchReg (s : State) (p : KeyPath) : State :=
  match findReg s p, s.vault.replacing.find? fun r => r.path == p with
  | some r, some n =>
    match r.shadow with
    | none => s
    | some v =>
      if itemOpen s p then s
      else
        let left := allowance p n.items 0
        modReg (reportKey s p) p fun r =>
          { (r.setLeft left).setCounted (0, 0) with
            active := v, shadow := none, parent := n.parent, label := n.label, context := n.context }
  | _, _ => s

/-- What the vault counts of a key that it computes again (R112, R115): the limit minus the allowance that the engine still has. -/
def usedAgain (s : State) (p : KeyPath) : Nat × Nat :=
  match findReg s p, keyLimits p with
  | some r, some (_, li, _, lb) => (li - r.left.1, lb - r.left.2)
  | _, _ => (0, 0)

/-- The CMAC subkeys of a key as one value (R96): K1, then K2. -/
def subValue (v : BitVec 512) : BitVec 512 :=
  let k := subkeys (v.setWidth 256)
  (k.1 ++ k.2 : BitVec 256).setWidth 512

/-- Put a key into a slot as two fresh shares with their complements (R34, R96, R99), with the subkeys of a parent, and deliver it to
its engine. Without a random source (R88), or without room (R100), no slot changes. -/
def putKey (s : State) (p : KeyPath) (value : BitVec 512) (width part slot share : Nat) (attr : BitVec 16)
    (label : Bytes) (parent : Option KeyPath) (ctx : Bytes) : State :=
  if !s.vault.entropyOk || !slotRoom s p part share then s
  else
    let used := usedAgain s p
    let isParent := bit attr.toNat 7
    let k0 : KeySlot :=
      { path := p, slot := slot, part := part, share := share, key := Shares.of value (s.drawn 512),
        sub := if isParent then some (Shares.of (subValue value) (s.drew.drawn 512)) else none, width := width, attr := attr,
        items := Kept.of 0, bytes := Kept.of 0, notice := false, limit := false, label := label, parent := parent,
        context := ctx }
    let k := k0.used used.1 used.2
    let s0 := if isParent then s.drew.drew else s.drew
    let s1 : State := { s0 with vault.slots := k :: s.vault.slots.filter fun k => k.path != p }
    let s2 := modReg s1 p fun r => r.setCounted (0, 0)
    loadReg { s2 with vault.highWater := tset s2.vault.highWater part (max (tcount s2.vault.highWater part) (partUse s2 part)) }
      p value attr parent label ctx

/-- Whether a path may still be derived: its context generation is current, its region exists, its label is not blocked, and it was not
destroyed (R97, R98, R109); a flow's peer is in the membership list (R191). -/
def pathLive (s : State) (p : KeyPath) : Bool :=
  !labelBlocked s p && !(s.vault.destroyed.any fun g => g.path == p) &&
  match p with
  | .ctxmem c g => c == 0 || ctxCurrent s c g
  | .ctxaux c g => c == 0 || ctxCurrent s c g
  | .region r _ => (tget s.mem.regions r).any fun g => g.state != 0
  | .flow u _ _ => s.dom.members.any fun m => m.unit == u
  | .lcroot => false
  | _ => true

/-- A parent as a derivation reads it (R96): the key and its subkeys, all complements agreeing. -/
def parentKey (s : State) (q : KeyPath) : Option (Key × BitVec 128 × BitVec 128) :=
  (findKey s q).bind fun k =>
    match k.key.read, k.sub.bind Shares.read with
    | some v, some u => some (v.setWidth 256, u.extractLsb' 128 128, u.extractLsb' 0 128)
    | _, _ => none

/-- The output of a derivation from a parent that the vault holds (R94, R96). -/
def deriveFrom (s : State) (q : KeyPath) (label ctx : Bytes) (len : Nat) : Option (BitVec 512) :=
  (parentKey s q).map fun k => kdfSub k.1 k.2 label ctx len

/-- A peer's flow keys take at most two slots (R220): a third waits until one goes. -/
def flowRoom (s : State) (p : KeyPath) : Bool :=
  match p with
  | .flow u _ _ => decide ((s.vault.slots.filter fun k => match k.path with
      | .flow v _ _ => v == u
      | _ => false).length < 2)
  | _ => true

/-- Derive a key from a parent that the vault holds (R94, R97); a parent that a vault reset cleared is derived first
(R115). The fuel is the depth of the tree. -/
def derive : Nat → State → KeyPath → State
  | 0, s, _ => s
  | fuel + 1, s, p =>
    if (findKey s p).isSome || !pathLive s p || !flowRoom s p then s
    else
      match treeRow s p with
      | none => s
      | some row =>
        match row.parent with
        | none => s
        | some q =>
          let s1 := if (findKey s q).isSome then s else derive fuel s q
          match deriveFrom s1 q row.label row.ctx row.len with
          | none => s1
          | some v =>
            let slot := if row.part = 4 then row.slot else freeSlotIn s1 row.part
            let s2 := putKey s1 p v row.len row.part slot 32 (attrOf s1 q row.use) row.label (some q) row.ctx
            { (bumpUnit s2 uVault 0 1) with vault.derivations := s2.vault.derivations + 1 }

/-- The tenant slice on whose behalf a key is derived (R102), if it is one. -/
def pathTenant (s : State) (p : KeyPath) : Option Nat :=
  let slice := match p with
    | .ctxmem c _ => (ctxAt s c).slice
    | .ctxaux c _ => (ctxAt s c).slice
    | .region r _ => ((tget s.mem.regions r).map (·.slice)).getD 0
    | .slcmem n => n
    | .slcsvc n => n
    | .digest n => n
    | .chan n _ => n
    | _ => 0
  if 1 ≤ slice ∧ slice ≤ 16 then some slice else none

/-- A derivation made for a tenant slice takes one of its part of the second's 200,000 (R102). -/
def chargeDerive (s : State) (p : KeyPath) : State :=
  match pathTenant s p with
  | some n => if (findKey s p).isSome || !pathLive s p then s else limHit s (.other (4096 + n))
  | none => s

/-- The key of a path, derived when it is not held, as a command asks for it, and charged to its tenant slice (R102). A command is one
step, in which its key comes at once: a wait for the queue or for the slice's budget is not shown (log 90). -/
def needKey (s : State) (p : KeyPath) : State := derive 4 (chargeDerive s p) p

/-- A derived channel key in a service slot (R97, R128): the slice service key is its parent; 32 names a system channel, whose
parent is the service key of slice 0. -/
def putChan (s : State) (share slot : Nat) (ctx : Bytes) : State :=
  let q := KeyPath.slcsvc (if share = 32 then 0 else share)
  let s1 := derive 4 s q
  match deriveFrom s1 q (ascii "VTC.CHAN") ctx 256 with
  | none => s1
  | some v =>
    let s2 := putKey s1 (.chan share slot) v 256 3 slot share (attrOf s1 q 0x10) (ascii "VTC.CHAN") (some q) ctx
    { (bumpUnit s2 uVault 0 1) with vault.derivations := s2.vault.derivations + 1 }

/-- The derived channel key of an owner label and a context (R97, R98, R128). -/
def deriveChan (s : State) (share slot ctx : Nat) (label : BitVec 256) : State :=
  putChan (chargeDerive s (.chan share slot)) share slot (be 32 label.toNat ++ be 2 ctx)

/-- A channel key that a vault reset cleared is computed again with the same value from the path its register carries (R115). -/
def needChan (s : State) (p : KeyPath) : State :=
  match p, findReg s p with
  | .chan share slot, some r =>
    if (findKey s p).isNone && r.parent.isSome && pathLive s p then
      putChan (chargeDerive s p) share slot r.context else s
  | _, _ => s

/-- Import a key with no derivation path into a partition or a fixed slot (R103). -/
def importKey (s : State) (p : KeyPath) (value : BitVec 512) (width part slot share use : Nat) : State :=
  putKey s p value width part slot share (BitVec.ofNat 16 (0x8000 + use)) [] none []

/-- Region keys below a destroyed parent (R109): that of the generation in force, or that of the next one's new owner. -/
def belowKey (s : State) (p q : KeyPath) : Bool :=
  match q with
  | .region r k =>
    (tget s.mem.regions r).any fun g =>
      let kind := if k = regionGen g then g.ownerKind else g.newOwner
      match p with
      | .ctxmem c n => kind == 0 && g.ctx == c && g.gen == n
      | .slcmem n => kind == 1 && g.slice == n
      | _ => false
  | _ => false

/-- A region whose keys are destroyed (R292, R298): its rotation ends, and the requests in flight complete KEY_DESTROYED. -/
def endRegionKeys (s : State) (r : Nat) : State :=
  let p := tgetD s.mem.ports (r % 4) Pewter.reset
  (p.jobs.filter fun j => j.2.r.region == r).foldl (fun s j => pewAnswer s j.2 cKeyDestroyed []) { s with
    mem.regions := tmod s.mem.regions r fun g =>
      { g with key := false, newKey := false, state := if g.state = 2 then 1 else g.state }
    mem.ports := tset s.mem.ports (r % 4) { p with
      jobs := p.jobs.filter fun j => j.2.r.region != r, rotating := eraseN p.rotating r, rotQueue := eraseN p.rotQueue r } }

/-- The keys of the regions in use, and of those that rotate the next ones too (R265, R291). -/
def regionKeys (s : State) : List KeyPath :=
  (s.mem.regions.filter fun g => g.2.state != 0).flatMap fun g =>
    regionKey g.1 g.2 :: if g.2.state = 2 || g.2.newKey then [.region g.1 (regionGen g.2 + 1)] else []

/-- A key that the vault can give though it stands in no slot: an engine has it, or a vault reset cleared it and it may be derived
again (R109, R115). -/
def obtainable (s : State) (p : KeyPath) : Bool := (findReg s p).isSome || ((treeRow s p).isSome && pathLive s p)

/-- Where a key stands, or would stand (R97, R109). -/
def placeOf (s : State) (p : KeyPath) : Gone :=
  match findKey s p, p with
  | some k, _ => ⟨p, k.part, k.slot⟩
  | none, .chan _ slot => ⟨p, 3, slot⟩
  | none, _ => ((treeRow s p).map fun r => (⟨p, r.part, r.slot⟩ : Gone)).getD ⟨p, 0, 0⟩

/-- The keys that a DESTROY takes (R109): the named one, and every region key below it, held or to be had again. -/
def destroyedBy (s : State) (p : KeyPath) : List KeyPath :=
  let held := (s.vault.slots.map (·.path)).filter fun q => q == p || belowKey s p q
  held ++ (p :: (regionKeys s).filter (belowKey s p)).filter fun q => !held.contains q && obtainable s q

/-- DESTROY (R109): the key and every region key below it go, in the vault and in the engines, and their paths are not derived
again. -/
def destroyKey (s : State) (p : KeyPath) : State :=
  let gone := destroyedBy s p
  let regions := gone.filterMap fun q => match q with
    | .region r _ => some r
    | _ => none
  let s1 := regions.foldl endRegionKeys (dropKeys s fun q => q == p || belowKey s p q)
  { s1 with
    vault.destroyed := gone.map (placeOf s) ++ s1.vault.destroyed
    link.ports := s1.link.ports.map fun q =>
      (q.1, { q.2 with keyCache := match p with
        | .flow peer de fe => q.2.keyCache.filter fun e => e.2 != (peer, de, fe)
        | _ => q.2.keyCache }) }

/-- A key that comes into being anew under a path (R109): an earlier destruction says nothing of it. -/
def reborn (s : State) (p : KeyPath) : State :=
  { s with vault.destroyed := s.vault.destroyed.filter fun g => g.path != p }

/-- Advance a slice's memory generation with the destruction of its key (R98): the path then names the next generation, which is
derived like any other. -/
def destroySliceMem (s : State) (n : Nat) : State :=
  let s1 := reborn (destroyKey s (.slcmem n)) (.slcmem n)
  { s1 with vault.sliceGen := genNext s1.vault.sliceGen n }

/-- The slot numbers of the keys that may wrap (R104, R105). -/
def wrapperPath (slot : Nat) : Option KeyPath :=
  if slot = 14 then some .wrap
  else if 4 ≤ slot ∧ slot ≤ 7 then some (.store (slot - 3))
  else if slot = 8 then some .oper else none

/-- The authenticated data of a blob: bytes 0 to 19, then 60 to 63 (R104). -/
def blobAad (b : WrappedBlob) : Bytes :=
  le 1 b.format ++ le 1 b.cls ++ le 2 b.attr.toNat ++ le 2 b.wrapper ++ le 2 b.reserved ++ be 12 b.iv.toNat ++
    le 4 b.kcv.toNat

/-- The USE bits that a blob's CLASS lets its ATTR name (R101, R105): those of the keys that the partition or the root and class
slots hold (R97, R99). DESIGN CHOICE (log 52). -/
def useOf (cls : Nat) : Nat :=
  if cls = 0 then 0x01 else if cls = 1 then 0x02 else if cls = 2 then 0x81 else if cls = 3 then 0x34 else 0xFF

/-- ATTR does not widen what the wrapping path allows (R101, R105): no NX, the wrapper's own WRAP bit, TEST_CLEAR only in TEST,
reserved bits 0, and no USE beyond the class's. DESIGN CHOICE (log 52). -/
def attrAllowed (s : State) (b : WrappedBlob) : Bool :=
  let a := b.attr.toNat
  !bit a 15 && (if b.wrapper = 14 then bit a 14 else bit a 13) && (!bit a 12 || s.vault.lcClass == 1) && bits a 11 8 == 0 &&
    (BitVec.ofNat 8 a &&& ~~~BitVec.ofNat 8 (useOf b.cls)) == 0#8

/-- The CLASS byte of a slot (R104). -/
def classOf (part slot : Nat) : Nat := if part < 4 then part else 0x10 + slot / 16

/-- The key and the usage count that a blob of a class opens to (R105), or none where any check fails. -/
def unwrap (s : State) (cls : Nat) (b : WrappedBlob) : Option (Key × Nat) :=
  match (wrapperPath b.wrapper).bind fun p => key256 s p with
  | none => none
  | some w =>
    match gcmOpen w b.iv (blobAad b) b.body b.tag with
    | none => none
    | some pt =>
      let k : Key := BitVec.ofNat 256 (beNat (pt.drop 8))
      if b.format = 1 ∧ b.reserved = 0 ∧ b.cls = cls ∧ pt.length = 40 ∧ attrAllowed s b ∧ kcv k = b.kcv then
        some (k, fld pt 0 8) else none

/-- A wrapped blob of a slot's key, as read (R50), under a wrapping key (R104), with a fresh IV. The KEY field holds the key's bytes first byte first, the
first being the most significant of its value. DESIGN CHOICE (log 53). -/
def wrapBlob (s : State) (k : KeySlot) (v : Key) (wrapper : Nat) (w : Key) : WrappedBlob :=
  let b0 : WrappedBlob :=
    { format := 1, cls := classOf k.part k.slot, attr := k.attr, wrapper := wrapper,
      reserved := 0, iv := s.drawn 96, body := [], kcv := kcv v, tag := 0 }
  let r := gcmSeal w b0.iv (blobAad b0) (le 8 k.usedItems ++ be 32 v.toNat)
  { b0 with body := r.1, tag := r.2 }

/-- Why a wrap under a key cannot be made (R88, R112), if it cannot. The manual gives no code for a wrap that has no random IV because the
random source has failed: KEY_EXPORT, KEY_IMPORT, REPLACE and the other commands that need one complete EXECUTOR_RESET. DESIGN CHOICE
(log 60). -/
def wrapRefused (s : State) (w : KeyPath) : Option Code :=
  if (key256 s w).isNone then some cKeyDestroyed
  else if !s.vault.entropyOk then some cExecutorReset
  else if !keyAllows s w 1 0 then some cKeyLimit else none

/-- The majority of one group of 7 cells, and the cells that disagree with it (the chapter's pseudocode). -/
def majority (noisy : BitVec 5355) (g : Nat) : Bool × Nat :=
  let ones := ((List.range 7).filter fun i => noisy.getLsbD (g * 7 + i)).length
  (decide (4 ≤ ones), if 4 ≤ ones then 7 - ones else ones)

/-- Codeword k after the majority vote, bit j from group k·255 + j. -/
def majorityWord (noisy : BitVec 5355) (k : Nat) : BitVec 255 :=
  BitVec.ofNat 255 (packBits ((List.range 255).map fun j => (majority noisy (k * 255 + j)).1))

/-- Cells that disagreed with their group's majority (R118). -/
def rawFlips (noisy : BitVec 5355) : Nat := ((List.range 765).map fun g => (majority noisy g).2).foldl (· + ·) 0

/-- The device secret of three decoded words (the chapter's pseudocode). The 7 bits of pad_to_50_bytes stand after the secret and are
0. DESIGN CHOICE (log 54). -/
def deviceSecret (a b c : BitVec 131) : Key :=
  left256 (Config.sha384 (ascii "VTC.PUF" ++ be 50 ((a ++ b ++ c : BitVec 393).toNat * 2 ^ 7)))

/-- The secret of three decodes, where every word decodes (R90). -/
def secretOf (d : List (Option (BitVec 131 × Nat))) : Option Key :=
  match d with
  | [some (a, _), some (b, _), some (c, _)] => some (deviceSecret a b c)
  | _ => none

/-- A helper record passes its checks (R13, R89, R90): FORMAT, the reserved fields and the complement. -/
def Helper.sound (h : Helper) : Bool :=
  h.format == 1 && h.reserved == 0 && h.top == 0 && h.reserved2 == 0 && h.kcvInv == ~~~h.kcv

/-- The 684 bytes of a helper record (R89). -/
def helperBytes (h : Helper) : Bytes :=
  le 2 h.format ++ le 2 h.reserved ++ le 670 (h.bits.toNat + h.top * 2 ^ 5355) ++ le 2 h.reserved2 ++ le 4 h.kcv.toNat ++
    le 4 h.kcvInv.toNat

/-- The helper copy that a try uses: the primary, or the mirror if the primary fails its complement check (R90). -/
def helperCopy (s : State) : Option Helper :=
  match s.vault.helperA.filter Helper.sound with
  | some h => some h
  | none => s.vault.helperB.filter Helper.sound

/-- Count a mismatch found in the vault (R118): where it fell, and the window of R114. -/
def countMismatch (s : State) (place : Nat) : State :=
  limHit { s with
    vault.mismatch := true
    vault.mismatchCount := sat 15 (s.vault.mismatchCount + 1)
    vault.lastWhere := place } .vaultMismatch

/-- Steps 1 to 3 of one try of a regeneration with one read of the array (R90, R118): RAW_FLIPS, BCH_FIXED and PUF_TRIES follow
every try, and a primary helper copy that fails its check is a mismatch of the helper record. -/
def tryPuf (s : State) (read : BitVec 5355) : State × Option Key :=
  let s0 := if s.vault.helperA.any fun h => !h.sound then countMismatch s 4 else s
  let s1 : State := { s0 with vault.pufTries := s0.vault.pufTries + 1 }
  match helperCopy s with
  | none => (s1, none)
  | some h =>
    let noisy := read ^^^ h.bits
    let d := (List.range 3).map fun k => Config.bchDecode (majorityWord noisy k)
    ({ s1 with
        vault.rawFlips := rawFlips noisy
        vault.bchFixed := (d.map fun x => (x.map (·.2)).getD 0).foldl (· + ·) 0 },
      (secretOf d).filter fun ds => kcv ds = h.kcv)

/-- Up to three tries with fresh reads of the array (R90). The fuel is the tries that are left. -/
def pufLoop : Nat → State → List (BitVec 5355) → State × Option Key
  | 0, s, _ => (s, none)
  | _, s, [] => (s, none)
  | n + 1, s, r :: rest =>
    match tryPuf s r with
    | (s1, some ds) => (s1, some ds)
    | (s1, none) => pufLoop n s1 rest

/-- PUF regeneration (R90 to R93): the life-cycle root, or ROOT_FAIL with its record. The device secret itself is
kept nowhere (R92). BLANK and SCRAP have no root; a unit with no valid life-cycle record behaves as under ROOT_FAIL (R153). -/
def regenerate (s : State) (reads : List (BitVec 5355)) : State :=
  let cls := lcClassOf s.lc.code
  if cls = 0 then
    if s.lc.code = 0 then { s with vault.rootState := 3, vault.lcClass := 0, pow.rootFail := true }
    else { s with vault.rootState := 4, vault.lcClass := 0 }
  else
    match pufLoop 3 { s with vault.rootState := 1, vault.lcClass := cls, vault.pufTries := 0 } reads with
    | (s1, none) => notice { s1 with vault.rootState := 3, pow.rootFail := true } 1 91 uVault 0
    | (s1, some ds) =>
      let s2 := putKey s1 .lcroot (kdf ds (ascii "VTC.LCROOT") (le 1 cls) 256) 256 4 0 32 0x8080 (ascii "VTC.LCROOT") none
        (le 1 cls)
      { s2 with vault.rootState := 2, pow.rootFail := false }

/-- Enrolment (R89): a fresh 393-bit secret is encoded, and the helper record is written twice. -/
def enrol (s : State) : State :=
  let sec := s.drawn 393
  let a : BitVec 131 := sec.extractLsb' 262 131
  let b : BitVec 131 := sec.extractLsb' 131 131
  let c : BitVec 131 := sec.extractLsb' 0 131
  let word (k : Nat) : BitVec 255 := Config.bchEncode (if k = 0 then a else if k = 1 then b else c)
  let code := BitVec.ofNat 5355
    (packBits ((List.range 5355).map fun i => (word (i / 7 / 255)).getLsbD (i / 7 % 255)))
  let v := kcv (deviceSecret a b c)
  let h : Helper := ⟨1, 0, Config.pufCells 0 ^^^ code, 0, 0, v, ~~~v⟩
  { s.drew with vault.helperA := some h, vault.helperB := some h }

end Sys2Proof.Machine
end

