-- ==== Sys2Proof/Machine/Translate.lean ====
section
/-!
DEFINITION. Translate.lean: from a raw descriptor to its sealed pieces (R337 to R344): caches, walks, host translation, the
checks at submission and the queue order.
-/
namespace Sys2Proof.Machine

/-- Entries of the device translation cache of a slice (R337). -/
def devPart (s : State) (slice : Nat) : Nat :=
  if slice = 0 then 2048 else if slice = 31 then 512 else 13824 / max 1 s.tenants

/-- Walks and ATS requests outstanding that a slice may have (R406), and page requests (R340). -/
def walkPart (s : State) (slice : Nat) : Nat :=
  if slice = 0 then 32 else if slice = 31 then 8 else 216 / max 1 s.tenants
def atsPart (s : State) (slice : Nat) : Nat :=
  if slice = 0 then 64 else if slice = 31 then 16 else 432 / max 1 s.tenants
def priPart (s : State) (slice : Nat) : Nat :=
  if slice = 0 then 128 else if slice = 31 then 32 else 864 / max 1 s.tenants

/-- Descriptors of a slice that wait in a given way. -/
def holding (s : State) (slice : Nat) (f : Hold → Bool) : Nat :=
  (s.gate.descs.filter fun d => d.2.slice == slice && f d.2.hold).length

/-- Walks outstanding (GATE_STATUS.WALKS). -/
def Hold.isWalk : Hold → Bool
  | .walk => true
  | _ => false
def Hold.isAts : Hold → Bool
  | .ats _ _ => true
  | _ => false
def Hold.isPrg : Hold → Bool
  | .prg _ => true
  | _ => false
def Hold.isFault : Hold → Bool
  | .fault _ _ _ => true
  | _ => false

/-- The cache keys of the units that a range touches from an element on, with each unit's first offset. -/
def rangeUnits (s : State) (d : Desc) (r : Range) : List (Nat × Nat) :=
  let a := linear s d.ctx r + d.nextElem * r.size
  let last := linear s d.ctx r + d.total * r.size - 1
  let base := if r.word / 2 ^ 62 = 1 then 2 ^ 18 + bits r.word 39 36 * 2 ^ 16 else 0
  (List.range (min 65 (last / 2 ^ 26 + 1 - a / 2 ^ 26))).map fun k =>
    (base + a / 2 ^ 26 + k, max a ((a / 2 ^ 26 + k) * 2 ^ 26) - linear s d.ctx r)

/-- The device ranges of a descriptor that hold bytes, with their TR slots. -/
def devRanges (raw : Bytes) : List (Nat × Range) :=
  (dRanges raw).filter fun r => !r.2.host && decide (0 < r.2.size)

/-- Whether a unit's entry is in the cache (R337). -/
def isCached (s : State) (ctx key : Nat) : Bool := s.gate.devCache.any fun e => e.1 == ctx && e.2.1 == key

/-- A descriptor misses in the cache (R338). -/
def devMiss (s : State) (d : Desc) : Bool :=
  (devRanges d.raw).any fun r => (rangeUnits s d r.2).any fun u => !isCached s d.ctx u.1

/-- Fill one entry, evicting the oldest of the same slice's partition (R337). -/
def cacheAdd (s : State) (ctx slice key : Nat) : State :=
  if isCached s ctx key then s
  else
    let mine := (s.gate.devCache.filter fun e => e.2.2 == slice).length
    let trimmed := if mine < devPart s slice then s.gate.devCache
      else match s.gate.devCache.find? fun e => e.2.2 == slice with
        | some old => s.gate.devCache.erase old
        | none => s.gate.devCache
    { s with gate.devCache := trimmed ++ [(ctx, key, slice)] }

/-- The walk's reads fill the cache with every unit that is mapped (R338). -/
def walkFill (s : State) (d : Desc) : State :=
  (devRanges d.raw).foldl (fun s r => (rangeUnits s d r.2).foldl (fun s u =>
    match lookup s d.ctx r.2 u.2 with
    | .unmapped => s
    | _ => cacheAdd s d.ctx d.slice u.1) s) s

/-- The address word of the byte at an offset of a range (R329, R332). -/
def faultWord (s : State) (ctx : Nat) (r : Range) (off : Nat) : Nat :=
  let a := linear s ctx r + off
  if r.word / 2 ^ 62 = 1 then
    let stride := max 1 ((tokenObj s ctx (bits r.word 39 36)).map (·.stride) |>.getD 1)
    2 ^ 62 + a / stride * 2 ^ 40 + bits r.word 39 36 * 2 ^ 36 + a % stride
  else a

/-- The fault of a byte, if it has one (R342 check 6). -/
def byteFault (s : State) (ctx : Nat) (r : Range) (off : Nat) : Option (Code × Nat) :=
  match lookup s ctx r off with
  | .at _ _ _ => none
  | .unmapped => some (cFaultUnmapped, faultWord s ctx r off)
  | .noRight => some (cFaultPermission, faultWord s ctx r off)
  | .stale => some (cStaleHandle, faultWord s ctx r off)

/-- The first fault of a descriptor's next element, in TR order. -/
def nextFault (s : State) (d : Desc) : Option (Code × Nat) :=
  (devRanges d.raw).findSome? fun r => byteFault s d.ctx r.2 (d.nextElem * r.2.size)

/-- Elements from the next one up to where a range stops being contiguous (R343). -/
def pieceLen (s : State) (d : Desc) : Nat :=
  (devRanges d.raw).foldl (fun n r =>
    min n (spanFrom s d.ctx r.2 66 (d.nextElem * r.2.size) ((d.total - d.nextElem) * r.2.size) / r.2.size))
    (d.total - d.nextElem)

/-- The first break of a class that is not split (R333, R342): the fault behind it, or RANGE_NOT_CONTIGUOUS. -/
def wholeFault (s : State) (d : Desc) : Option (Code × Nat) :=
  (devRanges d.raw).findSome? fun r =>
    let n := spanFrom s d.ctx r.2 66 0 r.2.size
    if r.2.size ≤ n then none
    else some ((byteFault s d.ctx r.2 n).getD (cRangeNotContiguous, faultWord s d.ctx r.2 n))

/-- The translation words at the next element (R335). -/
def pieceTrs (s : State) (d : Desc) (host : Nat) : List Nat :=
  (List.range 3).map fun i =>
    match (dRanges d.raw).find? fun r => r.1 == i with
    | some r => if r.2.host then host else if r.2.size = 0 then 0
        else trWord (lookup s d.ctx r.2 (d.nextElem * r.2.size))
    | none => 0

/-- The objects that a piece names. -/
def pieceObjs (s : State) (d : Desc) : List Nat :=
  ((devRanges d.raw).filterMap fun r =>
    match lookup s d.ctx r.2 (d.nextElem * r.2.size) with
    | .at _ _ i => some i
    | _ => none).eraseDups

/-- Refuse a descriptor whole (R22, R327, R342): a REFUSED entry and its completion. -/
def refuse (s : State) (did : Nat) (code : Code) (detail addr : Nat) : State :=
  match tget s.gate.descs did with
  | none => s
  | some d =>
    refuseRaw { s with gate.descs := tdel s.gate.descs did } d.cp d.ctx d.gen d.queue d.raw code detail addr

/-- Put a descriptor's remainder on hold. -/
def holdDesc (s : State) (did : Nat) (h : Hold) : State :=
  { s with gate.descs := tmod s.gate.descs did fun d => { d with hold := h } }

/-- Hold a fault on an unmapped page (R344): the room kept for it is given back; a FAULT_REPORT, and a completion entry with HELD that names the address. -/
def holdFault (s : State) (did : Nat) (d : Desc) (addr : Nat) : State :=
  let s1 : State := { s with gate.descs := tmod s.gate.descs did fun d =>
    { d with hold := .fault s.ns addr (setting s 0x5300 1), reserved := false, held := true } }
  let s2 : State := { (bumpSlice s1 d.slice 12 1) with gate.faultsHeld := s1.gate.faultsHeld + 1 }
  postEntry (s2.emit (.sealedEntry d.cp 0x14 cFaultUnmapped (qid d.ctx d.queue) 0 (fit 160 d.raw)))
    d.ctx d.gen d.queue d.raw cFaultUnmapped true 0 addr 0

/-- The host range of a HOST_DMA descriptor: its VA and bytes (R333). -/
def hostRange (raw : Bytes) : Nat × Nat := (dBody raw 8 8 % 2 ^ 57, 48 + dBody raw 4 4)

/-- The first host VA of a record that its spans do not yet cover, if any (R341). -/
def hostNext (d : Desc) : Option Nat :=
  let (va, n) := hostRange d.raw
  let v := d.host.foldl (fun v sp => (v / 2 ^ sp.2 + 1) * 2 ^ sp.2) va
  if va + n ≤ v then none else some v

/-- Whether a HOST_DMA descriptor writes its host range: an outbound record (R309, R333). -/
def hostWrites (raw : Bytes) : Bool := bit (dBody raw 0 1) 0

/-- The cached host translation of a VA under a PASID that carries the right an access needs (R337, R340). -/
def hostCached (s : State) (pasid v : Nat) (write : Bool) : Option (Nat × Nat) :=
  (s.gate.hostCache.find? fun e => e.pasid == pasid && decide (e.va ≤ v) && decide (v < e.va + 2 ^ e.log2) &&
    (if write then e.write else e.read)).map fun e => (e.hpa, e.log2)

/-- Fill the host translation cache, evicting the oldest of the same slice (R337); an entry for the same span is replaced. -/
def hostCacheAdd (s : State) (e : HostPage) : State :=
  let others := s.gate.hostCache.filter fun x => !(x.pasid == e.pasid && x.va == e.va && x.log2 == e.log2)
  let trimmed := if (others.filter fun x => x.slice == e.slice).length < hostPart s e.slice then others
    else match others.find? fun x => x.slice == e.slice with
      | some old => others.erase old
      | none => others
  { s with gate.hostCache := trimmed ++ [e] }

/-- Cover a record's host pages from the cache as far as it goes; the fuel is the host list's 32 spans (R341). -/
def hostCover : Nat → State → Nat → Desc → Desc
  | 0, _, _, d => d
  | n + 1, s, pasid, d =>
    match hostNext d with
    | none => d
    | some v =>
      match hostCached s pasid v (hostWrites d.raw) with
      | some sp => hostCover n s pasid { d with host := d.host ++ [sp] }
      | none => d

/-- A new host-list entry for a record (R341). -/
def hostListAdd (s : State) (d : Desc) (pasid : Nat) : State × Nat × Nat :=
  let i := leastFree s.gate.hostList 0
  let ep := tgetD s.gate.pasidEpoch pasid 0
  ({ s with gate.hostList := tset s.gate.hostList i ⟨pasid, BitVec.ofNat 8 ep, d.slice, d.host⟩ }, i,
    3 * 2 ^ 60 + ep % 256 * 2 ^ 52 + i)

/-- The level of a slice's sealing bucket (R406); a bucket that nothing has drained is full. -/
def sealLevel (s : State) (slice : Nat) : Nat :=
  tgetD s.gate.sealLevel slice (max 1 (scaled s slice (gateRate s slice) / 100000))

/-- Seal one piece of an admitted descriptor (R342 check 8). -/
def sealStep (s : State) (did : Nat) (d : Desc) (len : Nat) : State :=
  let lvl := sealLevel s d.slice
  let s0 : State := { s with gate.sealLevel := tset s.gate.sealLevel d.slice (lvl - 1) }
  let last := decide (d.total ≤ d.nextElem + len)
  if dClass d.raw = kHostDma then
    match slicePasid s d.slice with
    | some p =>
      let r := hostListAdd s0 d p
      sealPiece r.1 did d d.nextElem len (pieceTrs s d r.2.2) last (pieceObjs s d) (some r.2.1)
    | none => refuse s did cFaultUnmapped 0 (dBody d.raw 8 8)
  else sealPiece s0 did d d.nextElem len (pieceTrs s d 0) last (pieceObjs s d) none

/-- Host translation of a descriptor (R340): covered, or an ATS request for the first VA that is not. -/
def hostStep (s : State) (did : Nat) (d : Desc) : State × Bool :=
  match slicePasid s d.slice with
  | none => (refuse s did cFaultUnmapped 0 (dBody d.raw 8 8), false)
  | some p =>
    let d1 := hostCover 40 s p d
    let s1 : State := { s with gate.descs := tset s.gate.descs did d1 }
    match hostNext d1 with
    | none => (s1, true)
    | some v =>
      if !s.crossOpen 128 || atsPart s d.slice ≤ holding s d.slice Hold.isAts then (holdDesc s1 did .room, false)
      else (holdDesc (s1.emit (.atsRequest p v)) did (.ats false false), false)

/-- The arbiter's outcome for a descriptor at check 7 (R342): a remainder that was a held fault is not refused any more (log 102). -/
def admitDesc (s : State) (d : Desc) : Code × Nat :=
  let a := admitPiece s d.slice d.ctx d.raw
  if d.held && a.1 ≠ cOk && a.1 ≠ cDeferred then (cOk, 0) else a

/-- Checks 6 to 8 of R342 for the next piece, with every unit looked up: whether the descriptor goes on. Once a chip warm reset is
decided nothing more is admitted (R445). -/
def pieceStep (s : State) (did : Nat) (walked : Bool) : State × Bool :=
  match tget s.gate.descs did with
  | none => (s, false)
  | some d =>
    if d.total ≤ d.nextElem then (finishDesc s did, false)
    else if s.pow.pendingChip.isSome || !s.crossOpen (160 + d.cp) || (!d.reserved && sealPart s d.slice ≤ sealsUsed s d.slice) || sealLevel s d.slice = 0 then
      (holdDesc s did .room, false)
    else if !walked && devMiss s d then
      (holdDesc s did (if walkPart s d.slice ≤ holding s d.slice Hold.isWalk then .room else .walk), false)
    else
      match nextFault s d with
      | some (code, addr) =>
        if code = cFaultUnmapped && dHold d.raw && classSplit (dClass d.raw) then (holdFault s did d addr, false)
        else if d.piece = 0 && d.nextElem = 0 then (refuse s did code 0 addr, false)
        else (endDesc s did code 0 addr, false)
      | none =>
        match (if classSplit (dClass d.raw) then none else wholeFault s d) with
        | some (code, addr) => (refuse s did code 0 addr, false)
        | none =>
          let h := if dClass d.raw = kHostDma then hostStep s did d else (s, true)
          match h, tget h.1.gate.descs did with
          | (s1, true), some d1 =>
            if d1.admitted then (sealStep s1 did d1 (pieceLen s1 d1), true)
            else
              let a := admitDesc s1 d1
              let s2 := countAdmit s1 a.1
              if a.1 = cOk || a.1 = cDeferred then
                let d2 := { d1 with
                  admitted := true, outcome := a.1, deferral := a.2, admittedAt := s.ns
                  charge := chargeOf d1.raw (chargeGroup s1 d1.ctx d1.raw) }
                let s3 := if a.1 = cDeferred then bumpSlice s2 d1.slice 3 1 else s2
                (sealStep { s3 with gate.descs := tset s3.gate.descs did d2 } did d2 (pieceLen s1 d1), true)
              else (refuse (bumpSlice s2 d1.slice 4 1) did a.1 0 0, false)
          | (s1, _), _ => (s1, false)

/-- Seal a descriptor's pieces as far as they go. -/
def advance : Nat → State → Nat → Bool → State
  | 0, s, _, _ => s
  | n + 1, s, did, walked =>
    match pieceStep s did walked with
    | (s1, true) => advance n s1 did walked
    | (s1, false) => s1

/-- Checks 1 to 4 of R342 on a descriptor whose queue is bound: the code and reason of the first that fails. -/
def submitCheck (s : State) (d : Desc) : Option (Code × Nat) :=
  let raw := d.raw
  let k := dClass raw
  let mapAt := dBody raw 8 8
  if !classDefined k || !reservedOk raw || !bodyOk raw then some (cDescriptorInvalid, 1)
  else if !ctxCurrent s d.ctx d.gen then some (cAbandoned, 0)
  else
    let handle := if k = kFree then objCheck s d.ctx d.slice (dBody raw 0 4)
      else if k = kEventFree then
        (if dBody raw 0 4 = 0 then some cStaleHandle else evtCheck s d.ctx d.slice (dBody raw 0 4))
      else none
    let chan := if k = kCipher && ((dBody raw 0 1 == 0x80 && d.slice != 0) || (dBody raw 0 1 == 0x81 && d.slice != 31))
      then some cFaultPermission else none
    match (evtCheck s d.ctx d.slice (dWait raw)).or ((evtCheck s d.ctx d.slice (dSignal raw)).or (handle.or chan)) with
    | some c => some (c, 0)
    | none =>
      if !(dRanges raw).all (fun r => wordOk s d.ctx (classSplit k) r.2) then some (cDescriptorInvalid, 3)
      else if k = kAlloc && dBody raw 0 1 != 4 &&
          (if dBody raw 0 1 = 5 then mapAt / 2 ^ 62 != 1 || !wordOk s d.ctx true ⟨mapAt, 1, false, false, false⟩
           else decide (2 ^ 44 ≤ mapAt)) then
        some (cDescriptorInvalid, 3)
      else if !alignedOk s d.ctx raw then some (cDescriptorInvalid, 2)
      else if (dRanges raw).any (fun r => decide (64 < pagesSpanned s d.ctx d.total r.2)) then
        some (cDescriptorInvalid, 4)
      else none

/-- Take a queue's next raw descriptor through the gate (R342): checks 1 to 5, then its pieces; check 5 keeps the room that it finds for
the first piece. A refusal that would meet radio work at check 5 holds it in its queue instead (R399). -/
def beginDesc (s : State) (did : Nat) : State :=
  match tget s.gate.descs did with
  | none => s
  | some d =>
    match submitCheck s d with
    | some (c, reason) => refuse s did c reason 0
    | none =>
      if sealPart s d.slice ≤ sealsUsed s d.slice ||
          (dClass d.raw == kHostDma && decide (hostPart s d.slice ≤ hostUsed s d.slice)) then
        if d.slice = 0 then s else refuse s did cRefusedQueue 0 0
      else advance 200 { s with gate.descs := tmod s.gate.descs did fun d => { d with hold := .none, reserved := true } } did false

/-- The first descriptor of a queue that still has something to seal. -/
def queueHead (s : State) (ctx queue : Nat) : Option (Nat × Desc) :=
  s.gate.descs.find? fun d => d.2.ctx == ctx && d.2.queue == queue && decide (d.2.nextElem < d.2.total)

/-- Take a queue's descriptors in order until one waits (R342). A FROZEN context's descriptors stay queued (R366). -/
def pump : Nat → State → Nat → Nat → State
  | 0, s, _, _ => s
  | n + 1, s, ctx, queue =>
    match queueHead s ctx queue with
    | none => s
    | some (did, d) =>
      if d.hold = .queued && (ctxAt s ctx).mode != .frozen then
        let s1 := beginDesc s did
        if ((tget s1.gate.descs did).map (·.hold)) = some .queued then s1 else pump n s1 ctx queue
      else s

/-- Let a queue go on after one of its descriptors has moved; waits that this ends are released. -/
def queueOn (s : State) (ctx queue : Nat) : State := settle (pump (s.gate.descs.length + 1) s ctx queue)

/-- Try a waiting remainder again. -/
def resumeDesc (s : State) (did : Nat) (walked : Bool) : State :=
  match tget s.gate.descs did with
  | none => s
  | some d => queueOn (advance 200 (holdDesc s did .none) did walked) d.ctx d.queue

/-- Resume every held remainder of a context whose fault is gone (R344). -/
def resumeHeld (s : State) (ctx : Nat) : State :=
  (s.gate.descs.filter fun d => d.2.ctx == ctx && d.2.hold.isFault).foldl (fun s d =>
    match nextFault s d.2 with
    | some (c, _) => if c = cFaultUnmapped then s else resumeDesc s d.1 false
    | none => resumeDesc s d.1 false) s

end Sys2Proof.Machine
end

