-- ==== Sys2Proof/Machine/MemOps.lean ====
section
/-!
DEFINITION. MemOps.lean: tier-A pages, tier-B regions and the parts of the slices in them (R264 to R266, R295, R296, R355).
-/
namespace Sys2Proof.Machine

/-- POOL_REGIONS of a port (R302). -/
def poolRegions (s : State) (q : Nat) : Nat := setting s 0x5100 (q + 1)

/-- A slice's part of a resource (R355), with 32 for the system. -/
def pagePart (s : State) (who : Nat) : Nat :=
  let y := setting s 0x5300 2
  let r := setting s 0x5300 3
  let o := setting s 0x5300 4
  if who = 32 then y else if who = 0 then r else if who = 31 then o else (12288 - y - r - o) / max 1 s.tenants

def regionPart (s : State) (who : Nat) : Nat :=
  let all := poolRegions s 0 + poolRegions s 1 + poolRegions s 2 + poolRegions s 3
  let r := setting s 0x5300 5
  let o := setting s 0x5300 6
  if who = 32 then 0 else if who = 0 then r else if who = 31 then o else (all - r - o) / max 1 s.tenants

def objPart (s : State) (who : Nat) : Nat :=
  if who = 32 ∨ who = 31 then 16384 else if who = 0 then 65536 else 950271 / max 1 s.tenants

def evtPart (s : State) (who : Nat) : Nat :=
  if who = 32 ∨ who = 31 then 1024 else if who = 0 then 8192 else 55295 / max 1 s.tenants

/-- What a slice has in use of each. A page being scrubbed still counts (R376 step 7). -/
def pagesUsed (s : State) (slice : Nat) : Nat :=
  (s.gate.pages.filter fun p => p.2.kind != 0 && p.2.kind != 3 && p.2.slice == slice).length
def regionsUsed (s : State) (slice : Nat) : Nat :=
  (s.mem.regions.filter fun r => r.2.state != 0 && r.2.slice == slice).length
def objsUsed (s : State) (slice : Nat) : Nat :=
  (s.gate.objs.filter fun o => o.2.state != 0 && o.2.slice == slice).length
def evtsUsed (s : State) (slice : Nat) : Nat :=
  (s.gate.evts.filter fun e => e.2.state != 0 && e.2.slice == slice).length

/-- A page's owner entry; a page that nothing lists is the system's below TIERA_SYSTEM and free above it (R295, R362). -/
def pageOwner (s : State) (p : Nat) : PageOwner :=
  tgetD s.gate.pages p (if p < setting s 0x5300 2 then ⟨3, 3, 0, 0, 0⟩ else ⟨0, 0, 0, 0, 0⟩)

/-- A page that can be granted: free, scrubbed and not withheld (R40, R297). -/
def pageFree (s : State) (p : Nat) : Bool :=
  decide (p < 12288) && (pageOwner s p).kind == 0 && (tget s.gate.scrubs p).isNone

/-- A region that can be allocated (R265, R302). -/
def regionFree (s : State) (r : Nat) : Bool :=
  decide (r / 4 < poolRegions s (r % 4)) &&
    match tget s.mem.regions r with
    | none => true
    | some g => g.state == 0 && !g.withheld

/-- The first `n` numbers of a range that a test accepts. -/
def takeFree (free : Nat → Bool) : Nat → Nat → Nat → List Nat
  | 0, _, _ => []
  | _, _, 0 => []
  | fuel + 1, at_, n + 1 =>
    if free at_ then at_ :: takeFree free fuel (at_ + 1) n else takeFree free fuel (at_ + 1) (n + 1)

/-- The first run of n consecutive numbers that a test accepts, from a start aligned to `step`. -/
def takeRun (free : Nat → Bool) (step n : Nat) : Nat → Nat → Option Nat
  | 0, _ => none
  | fuel + 1, at_ =>
    if (List.range n).all fun i => free (at_ + i) then some at_ else takeRun free step n fuel (at_ + step)

/-- Make a region LIVE for an owner (R264 to R266): its key count advances, its root and its tree start at 0, its key is
derived. OWNER_KIND 1 is the slice. -/
def newRegion (s : State) (r kind slice ctx gen : Nat) : State :=
  let old := (tget s.mem.regions r).map (fun g => if g.startIdx = s.pow.startIndex then g.keyGen else 0) |>.getD 0
  let g : Region :=
    { state := 1, ownerKind := kind, lost := false, slice := slice, ctx := ctx, gen := gen, keyGen := old + 1,
      startIdx := s.pow.startIndex, sweep := 0, rotSlot := 0, withheld := decide (0xFFFFF ≤ old + 1), key := false,
      newKey := false, writes := 0, newOwner := kind }
  let s1 : State := { s with
    mem.regions := tset s.mem.regions r g
    mem.roots := tset s.mem.roots r (0, BitVec.allOnes 62) }
  let s2 := needKey (needKey (reborn s1 (regionKey r g)) (if kind = 0 then .ctxmem ctx gen else .slcmem slice)) (regionKey r g)
  let s3 : State := { s2 with mem.regions := tmod s2.mem.regions r fun g =>
    { g with key := (findKey s2 (regionKey r g)).isSome } }
  if old + 1 = 0xFFFFF then capacity s3 6 (0x20 + r % 4) ((s3.mem.regions.filter fun g => g.2.withheld).length) else s3

/-- Grant a tier-A page (R295, R354): owner, rights, and DEBUGGABLE from its context (R172). -/
def grantPage (s : State) (p rights slice ctx gen : Nat) : State :=
  let o : PageOwner := ⟨1, rights % 4 + (if (ctxAt s ctx).debuggable then 8 else 0), slice, ctx, gen⟩
  setPage s p o

/-- The least free index of a table of objects or events, from 1. -/
def freeIndex {α : Type} (t : Table α) (used : α → Bool) : Nat := leastFree (t.filter fun e => used e.2) 1

/-- A page's entry as a stack's checker holds it (R40, R295). -/
def replicaOwner (s : State) (stack p : Nat) : PageOwner :=
  tgetD (tgetD s.mem.checkers stack Checker.reset).pages p (if p < setting s 0x5300 2 then ⟨3, 3, 0, 0, 0⟩ else ⟨0, 0, 0, 0, 0⟩)

/-- A page's entry at a stack's checker grants a stamped access (R296). Context 0 is the system stamp. -/
def pageGrants (s : State) (stack page : Nat) (isWrite : Bool) (ctx gen : Nat) : Bool :=
  let o := replicaOwner s stack page
  !bit o.flags 2 && bit o.flags (if isWrite then 1 else 0) &&
    (if o.kind = 1 then ctx != 0 && o.owner == ctx && o.gen == gen
     else if o.kind = 2 then
       ctx != 0 && (tgetD (tgetD s.mem.checkers stack Checker.reset).groups o.owner []).any fun m => m.1 == ctx && m.2.1 == gen && (!isWrite || m.2.2)
     else o.kind == 3 && ctx == 0)

/-- A denied request (R72, R296): counted, and S2 for the stamped context. -/
def denyTierA (s : State) (stack page ctx : Nat) : State :=
  let c := tgetD s.mem.checkers stack Checker.reset
  raiseS2 { s with
    mem.tierADenied := s.mem.tierADenied + 1
    mem.checkers := tset s.mem.checkers stack { c with denied := c.denied + 1 } } (uStack stack) 72 page ctx 2

/-- The stack of an address is in reset (R66). -/
def stackInReset (s : State) (a : Nat) : Bool := s.cross.nrst.contains (96 + Config.stackOf a % 16)

/-- A stack's checker grants a stamped access (R31, R296); one that the quench level reached denies every request (R446). -/
def checkerGrants (s : State) (stack page : Nat) (isWrite : Bool) (ctx gen : Nat) : Bool :=
  !(tgetD s.mem.checkers stack Checker.reset).down && pageGrants s stack page isWrite ctx gen

/-- The checker of an address's stack grants a stamped access (R31, R296). -/
def addrGrants (s : State) (a : Nat) (isWrite : Bool) (ctx gen : Nat) : Bool :=
  checkerGrants s (Config.stackOf a % 16) (a / 2 ^ 26) isWrite ctx gen

/-- Where the verdict on a range of bytes is taken: at its ends, and at the start of each page between them. -/
def probes (a n : Nat) : List Nat :=
  a :: ((List.range ((a + n - 1) / 2 ^ 26 - a / 2 ^ 26)).map fun k => (a / 2 ^ 26 + k + 1) * 2 ^ 26) ++ [a + n - 1]

/-- Tier A's verdict on an access to n bytes under a stamp (R31, R66, R72, R296): none where it is granted, else the code and the address. -/
def tierAVerdict (s : State) (ctx gen a n : Nat) (write : Bool) : Option (Code × Nat) :=
  if n = 0 then none
  else
    match (probes a n).find? (stackInReset s) with
    | some x => some (cTargetReset, x)
    | none => ((probes a n).find? fun x => !addrGrants s x write ctx gen).map fun x => (cFaultPermission, x)

/-- The consequence of a verdict (R72): a denial is counted, and S2 for the stamped context. -/
def afterVerdict (s : State) (v : Code × Nat) (ctx : Nat) : State :=
  if v.1 = cFaultPermission then denyTierA s (Config.stackOf v.2 % 16) (v.2 / 2 ^ 26) ctx else s

end Sys2Proof.Machine
end

