-- ==== Sys2Proof/Machine/Alloc.lean ====
section
/-!
DEFINITION. Alloc.lean: the allocator classes that the gate executes itself, and the release of objects and events (R351,
R353 to R355).
-/
namespace Sys2Proof.Machine

/-- The code and detail with which an allocator descriptor ends, and what it writes to RESULT. -/
structure AllocEnd where
  code : Code
  detail : Nat
  handle : Nat
  va : Nat

/-- A refused allocation. -/
def allocFail (s : State) (code : Code) (detail : Nat) : State × AllocEnd := (s, ⟨code, detail, 0, 0⟩)

/-- Put a new object into the table (R350): its index keeps its generation. -/
def newObj (s : State) (o : MemObj) : State × Nat × Nat :=
  let i := freeIndex s.gate.objs fun o => o.state != 0
  let gen := ((tget s.gate.objs i).map (·.gen)).getD 0
  ({ s with gate.objs := tset s.gate.objs i { o with gen := gen } }, i, i * 4096 + gen)

/-- Whether every unit from one on is unmapped (R354). -/
def unitsFree (s : State) (ctx unit n : Nat) : Bool :=
  decide (unit + n ≤ 2 ^ 18) &&
    !(ctxUnits s ctx).any fun m => decide (unit ≤ m.1) && decide (m.1 < unit + n)

/-- An empty object of a kind. -/
def blankObj (l : LiveSeal) (kind rights size : Nat) : MemObj :=
  { state := 1, kind := kind, slice := l.slice, rights := rights % 4, gen := 0, owner := l.ctx, holders := [l.ctx],
    qrefs := 0, size := size, peers := none, frames := [], tierB := false, group := none, tokens := 0, stride := 0,
    blocks := [] }

/-- Tier-A pages for a slice (R355): the pages, or the detail of its refusal. -/
def findPages (s : State) (slice n : Nat) (groups contiguous : Bool) : Except Nat (List Nat) :=
  let count := if groups then 64 * n else n
  if pagePart s slice < pagesUsed s slice + count then .error 1
  else if groups && !contiguous then
    let ok (g : Nat) : Bool := (List.range 64).all fun i => pageFree s (g * 64 + i)
    let gs := takeFree ok 192 0 n
    if gs.length = n then .ok (gs.flatMap fun g => (List.range 64).map fun i => g * 64 + i)
    else if (takeFree (pageFree s) 12288 0 count).length = count then .error 2 else .error 1
  else if contiguous then
    match takeRun (pageFree s) (if groups then 64 else 1) count 12288 0 with
    | some p => .ok ((List.range count).map fun i => p + i)
    | none => if (takeFree (pageFree s) 12288 0 count).length = count then .error 2 else .error 1
  else
    let ps := takeFree (pageFree s) 12288 0 count
    if ps.length = count then .ok ps else .error 1

/-- Tier-B regions for a slice (R355, R265). -/
def findRegions (s : State) (slice n : Nat) (contiguous : Bool) : Except Nat (List Nat) :=
  if regionPart s slice < regionsUsed s slice + n || s.pow.startIndex = 0xFFF then .error 1
  else if contiguous then
    match takeRun (regionFree s) 1 n 32768 0 with
    | some r => .ok ((List.range n).map fun i => r + i)
    | none => if (takeFree (regionFree s) 32768 0 n).length = n then .error 2 else .error 1
  else
    let rs := takeFree (regionFree s) 32768 0 n
    if rs.length = n then .ok rs else .error 1

/-- KINDs 1 to 3 (R354): pages or regions as one object, mapped at MAP_AT. -/
def allocMapped (s : State) (l : LiveSeal) (kind flags count mapAt : Nat) : State × AllocEnd :=
  let units := if kind = 2 then 64 * count else count
  if !unitsFree s l.ctx (mapAt / 2 ^ 26) units then allocFail s cDescriptorInvalid 7
  else if objPart s l.slice ≤ objsUsed s l.slice then allocFail s cObjectTableFull 1
  else
    match (if kind = 3 then findRegions s l.slice count (bit flags 2)
      else findPages s l.slice count (kind == 2) (bit flags 2)) with
    | .error d => allocFail s cMemoryShareFull d
    | .ok frames =>
      let s1 := if kind = 3 then frames.foldl (fun s r => newRegion s r 0 l.slice l.ctx l.gen) s
        else frames.foldl (fun s p => grantPage s p flags l.slice l.ctx l.gen) s
      let o := { blankObj l (if kind = 3 then 2 else 1) flags (units * 2 ^ 26) with
        frames := frames, tierB := decide (kind = 3) }
      let r := newObj s1 o
      (mapUnits r.1 l.ctx (mapAt / 2 ^ 26) r.2.1 (if kind = 3 then 2 else 1) flags (kind == 2) frames,
        ⟨cOk, 0, r.2.2, mapAt⟩)

/-- KIND 4 (R339, R354): a token region bound to a SLOT; its VA is the address of its first token. -/
def allocToken (s : State) (l : LiveSeal) (flags tokens stride slot : Nat) : State × AllocEnd :=
  if tokens = 0 || 4194304 < tokens || !((List.range 13).any fun i => stride == 2 ^ (8 + i)) || 16 ≤ slot then
    allocFail s cDescriptorInvalid 1
  else if (tget (tgetD s.gate.tokenSlots l.ctx []) slot).isSome then allocFail s cDescriptorInvalid 7
  else if objPart s l.slice ≤ objsUsed s l.slice then allocFail s cObjectTableFull 1
  else
    let r := newObj s { blankObj l 3 flags (tokens * stride) with tokens := tokens, stride := stride }
    let t := tset r.1.gate.tokenSlots l.ctx (tset (tgetD r.1.gate.tokenSlots l.ctx []) slot r.2.1)
    ({ r.1 with gate.tokenSlots := t },
      ⟨cOk, 0, r.2.2, 2 ^ 62 + slot * 2 ^ 36⟩)

/-- KIND 5 (R339, R354): backing for token blocks from a block on, with the rights of its FLAGS. -/
def allocBacking (s : State) (l : LiveSeal) (flags count mapAt backing : Nat) : State × AllocEnd :=
  let slot := bits mapAt 39 36
  match (tget (tgetD s.gate.tokenSlots l.ctx []) slot).bind fun i => (tget s.gate.objs i).map fun o => (i, o) with
  | none => allocFail s cFaultUnmapped 0
  | some (i, o) =>
    let a := bits mapAt 61 40 * o.stride + bits mapAt 19 0
    let b := a / 2 ^ 26
    if backing ≠ 1 ∧ backing ≠ 3 then allocFail s cDescriptorInvalid 1
    else if o.state ≠ 1 || !o.holders.contains l.ctx then allocFail s cStaleHandle 0
    else if a % 2 ^ 26 ≠ 0 then allocFail s cDescriptorInvalid 2
    else if o.size < (b + count - 1) * 2 ^ 26 + 1 then allocFail s cFaultUnmapped 0
    else if o.blocks.any fun e => decide (b ≤ e.1) && decide (e.1 < b + count) then allocFail s cDescriptorInvalid 7
    else
      match (if backing = 3 then findRegions s l.slice count (bit flags 2)
        else findPages s l.slice count false (bit flags 2)) with
      | .error d => allocFail s cMemoryShareFull d
      | .ok frames =>
        let s1 := if backing = 3 then
            frames.foldl (fun s r => newRegion s r (if o.group.isSome then 1 else 0) l.slice l.ctx l.gen) s
          else frames.foldl (fun s p =>
            let s' := grantPage s p (Nat.land flags o.rights) l.slice l.ctx l.gen
            match o.group with
            | some g => setPage s' p { pageOwner s' p with kind := 2, owner := g }
            | none => s') s
        let blocks := (frames.zipIdx).foldl (fun t f => 
          tset t (b + f.2) ⟨if backing = 3 then 2 else 1, false, bit flags 1, bit flags 0, i, f.1⟩) o.blocks
        ({ s1 with gate.objs := tmod s1.gate.objs i fun o => { o with blocks := blocks } },
          ⟨cOk, 0, i * 4096 + o.gen, mapAt⟩)

/-- One ALLOC descriptor (R354). -/
def runAlloc (s : State) (l : LiveSeal) : State × AllocEnd :=
  let b := dBody l.raw
  if b 4 4 = 0 then allocFail s cDescriptorInvalid 1
  else if b 0 1 = 4 then allocToken s l (b 1 1) (b 4 4) (b 24 4) (b 28 1)
  else if b 0 1 = 5 then allocBacking s l (b 1 1) (b 4 4) (b 8 8) (b 29 1)
  else allocMapped s l (b 0 1) (b 1 1) (b 4 4) (b 8 8)

/-- Write RESULT, 16 bytes (R354). -/
def writeResult (s : State) (l : LiveSeal) (e : AllocEnd) : State :=
  if e.code = cOk then tierAWrite s (l.trs.getD 0 0 % 2 ^ 40) (le 4 e.handle ++ le 4 0 ++ le 8 e.va) else s

/-- Allocator work that the gate may run (R354). -/
def allocReady (s : State) (l : LiveSeal) : Bool := classAllocator l.cls && l.dispatched && ctxCurrent s l.ctx l.gen

/-- Whose allocator work is next (R354): the slices in turn after the one served last, and each queue in its order. -/
def allocNext (s : State) (l : LiveSeal) : Bool :=
  let turn (n : Nat) : Nat := (n + 31 - s.gate.allocTurn) % 32
  !s.gate.seals.any fun x => allocReady s x.2 &&
    (decide (turn x.2.slice < turn l.slice) || (x.2.ctx == l.ctx && x.2.queue == l.queue && decide (x.2.did < l.did)))

/-- The dispatched piece of an allocator class in a slot, whose context generation is current and whose turn it is. -/
def allocPiece (s : State) (slot cls : Nat) : Option LiveSeal :=
  (tget s.gate.seals slot).filter fun l => l.cls == cls && allocReady s l && allocNext s l

/-- Count an allocator descriptor that completed OK (R362). -/
def countAlloc (s : State) (code : Code) : State :=
  if code = cOk then { s with gate.allocs := s.gate.allocs + 1 } else s

/-- The slice whose allocator work was served last. -/
def allocServed (s : State) (l : LiveSeal) : State := { s with gate.allocTurn := l.slice }

/-- End an allocator descriptor: RESULT under the context's stamp (R31), then the completion and the signal (R354, R371). -/
def endAlloc (r : State × AllocEnd) (slot : Nat) (l : LiveSeal) : State :=
  let s := countAlloc r.1 r.2.code
  match if r.2.code = cOk then tierAVerdict s l.ctx l.gen (l.trs.getD 0 0 % 2 ^ 40) 16 true else none with
  | some v => afterVerdict (retire s slot v.1 0) v l.ctx
  | none => retire (writeResult s l r.2) slot r.2.code r.2.detail

/-- ALLOC (R354, R355): executed, and every held remainder of the context that the mapping frees resumes (R344). -/
def execAlloc (slot : Nat) (s : State) : Host.Outcome State Fault Refusal :=
  done <| whenUp s fun s =>
    match allocPiece s slot kAlloc with
    | none => s
    | some l =>
      let s := allocServed s l
      resumeHeld (endAlloc (runAlloc s l) slot l) l.ctx

/-- The object behind a key of the device translation cache. -/
def keyObj (s : State) (ctx key : Nat) : Option Nat :=
  if key < 2 ^ 18 then (unitAt s ctx key).map (·.obj)
  else (tget s.gate.tokenSlots ctx).bind fun t => tget t ((key - 2 ^ 18) / 2 ^ 16)

/-- FREE (R351): the context's entries are FREEING, the caches drop them, and it holds the object no longer. -/
def execFree (slot : Nat) (s : State) : Host.Outcome State Fault Refusal :=
  done <| whenUp s fun s =>
    match allocPiece s slot kFree with
    | none => s
    | some l =>
      let s := allocServed s l
      let h := dBody l.raw 0 4
      match objCheck s l.ctx l.slice h with
      | some c => retire s slot c 0
      | none =>
        let i := objIndex h
        let s1 := dropHold s l.ctx i
        let freed (t : Table Mapping) : Table Mapping :=
          t.map fun m => if m.2.kind ≠ 3 ∧ m.2.obj = i then (m.1, { m.2 with freeing := true }) else m
        let s2 : State := { s1 with
          gate.tops := tmod s1.gate.tops l.ctx freed
          gate.maps := tmod s1.gate.maps l.ctx freed
          gate.devCache := s1.gate.devCache.filter fun e => !(e.1 == l.ctx && keyObj s1 l.ctx e.2.1 == some i) }
        retire (countAlloc s2 cOk) slot cOk 0

/-- OBJECT_RELEASE (R351, R353): an object or event with no holder and no reference is released. -/
def execObjectRelease (isEvent : Bool) (index : Nat) (s : State) : Host.Outcome State Fault Refusal :=
  done <| whenUp s fun s =>
    if isEvent then
      match tget s.gate.evts index with
      | some e => if evtIdle s index e then releaseEvt s index else s
      | none => s
    else
      match tget s.gate.objs index with
      | some o => if objIdle s index o then releaseObj s index else s
      | none => s

/-- A new event object, UNSIGNALLED and held by its creator (R353, R371, R373). -/
def newEvent (s : State) (slice ctx : Nat) : State × Nat :=
  let i := freeIndex s.gate.evts fun e => e.state != 0
  let gen := ((tget s.gate.evts i).map (·.gen)).getD 0
  let e : EvtObj :=
    { state := 1, code := cOk, slice := slice, creator := ctx, gen := gen, holders := [ctx], qrefs := 0 }
  ({ s with gate.evts := tset s.gate.evts i e }, gen * 65536 + i)

/-- EVENT_CREATE (R353, R355). -/
def execEventCreate (slot : Nat) (s : State) : Host.Outcome State Fault Refusal :=
  done <| whenUp s fun s =>
    match allocPiece s slot kEventCreate with
    | none => s
    | some l =>
      let s := allocServed s l
      if evtPart s l.slice ≤ evtsUsed s l.slice then endAlloc (allocFail s cObjectTableFull 1) slot l
      else
        let r := newEvent s l.slice l.ctx
        endAlloc (r.1, ⟨cOk, 0, r.2, 0⟩) slot l

/-- EVENT_FREE (R353, R373): the context holds the event no longer; the last holder's leaving may abandon its waiters. -/
def execEventFree (slot : Nat) (s : State) : Host.Outcome State Fault Refusal :=
  done <| whenUp s fun s =>
    match allocPiece s slot kEventFree with
    | none => s
    | some l =>
      let s := allocServed s l
      let h := dBody l.raw 0 4
      match evtCheck s l.ctx l.slice h with
      | some c => retire s slot c 0
      | none =>
        let s1 : State := { s with gate.evts := tmod s.gate.evts (evtIndex h) fun e =>
          { e with holders := eraseN e.holders l.ctx } }
        retire (countAlloc s1 cOk) slot cOk 0

end Sys2Proof.Machine
end

