-- ==== Sys2Proof/Machine/Float.lean ====
section
/-!
DEFINITION. Float.lean: the arithmetic of the alloys: the formats of R240, their decoding (R245), the fold (R246, R247), the
conversions (R249 to R251) and the stream of stochastic rounding (R252).
-/
namespace Sys2Proof.Machine

/-- A decoded value: a NaN, an infinity, or (-1)^neg · m · 2^e. -/
inductive Num where
  | nan
  | inf (neg : Bool)
  | fin (neg : Bool) (m : Nat) (e : Int)
  deriving DecidableEq, Repr

/-- The field widths of a floating-point element, and its special codes: 0 infinities and NaNs as IEEE 754 has them, 1 one NaN
and no infinity (E4M3), 2 neither (R240). -/
structure FloatFmt where
  eb : Nat
  mb : Nat
  special : Nat
  deriving DecidableEq, Repr

def fp32 : FloatFmt := ⟨8, 23, 0⟩

/-- The element of a format code (R240), where it is a floating-point number. -/
def fmtOf (code : Nat) : Option FloatFmt :=
  if code = 0 then some fp32
  else if code = 1 then some ⟨8, 7, 0⟩
  else if code = 2 then some ⟨5, 10, 0⟩
  else if code = 3 ∨ code = 8 then some ⟨4, 3, 1⟩
  else if code = 4 ∨ code = 9 then some ⟨5, 2, 0⟩
  else if code = 0xA then some ⟨3, 2, 2⟩
  else if code = 0xB then some ⟨2, 3, 2⟩
  else if code = 0xC then some ⟨2, 1, 2⟩
  else none

/-- Bits of one element of a format code (R240). -/
def fmtWidth (code : Nat) : Nat :=
  if code = 0 ∨ code = 5 then 32 else if code = 1 ∨ code = 2 then 16 else if code = 0xA ∨ code = 0xB then 6
  else if code = 0xC then 4 else 8

/-- A format code that R240 defines, and whether it is an MX format. -/
def fmtDefined (code : Nat) : Bool := decide (code ≤ 5) || (decide (8 ≤ code) && decide (code ≤ 0xD))
def fmtMx (code : Nat) : Bool := decide (8 ≤ code) && decide (code ≤ 0xD)

/-- Elements of a full chunk (R240). -/
def fullChunk (code : Nat) : Nat :=
  if code = 0 ∨ code = 5 then 256 else if code = 1 ∨ code = 2 then 512 else if code = 3 ∨ code = 4 then 1024
  else if code = 0xA ∨ code = 0xB then 1280 else if code = 0xC then 1920 else 992

/-- emax of an MX format (R240). -/
def fmtEmax (code : Nat) : Int :=
  if code = 8 then 8 else if code = 9 then 15 else if code = 0xA then 4 else if code = 0xD then 0 else 2

def FloatFmt.bias (f : FloatFmt) : Int := 2 ^ (f.eb - 1) - 1

/-- The exponent of the smallest normal number. -/
def FloatFmt.emin (f : FloatFmt) : Int := 1 - f.bias

/-- The magnitude bits of the largest finite element. -/
def FloatFmt.maxBits (f : FloatFmt) : Nat :=
  if f.special = 0 then (2 ^ f.eb - 1) * 2 ^ f.mb - 1
  else if f.special = 1 then 2 ^ (f.eb + f.mb) - 2 else 2 ^ (f.eb + f.mb) - 1

/-- Decode an element's bits exactly (R245). -/
def FloatFmt.decode (f : FloatFmt) (b : Nat) : Num :=
  let neg := b / 2 ^ (f.eb + f.mb) % 2 == 1
  let e := b / 2 ^ f.mb % 2 ^ f.eb
  let m := b % 2 ^ f.mb
  if f.special = 0 ∧ e = 2 ^ f.eb - 1 then (if m = 0 then .inf neg else .nan)
  else if f.special = 1 ∧ e = 2 ^ f.eb - 1 ∧ m = 2 ^ f.mb - 1 then .nan
  else if e = 0 then .fin neg m (f.emin - f.mb)
  else .fin neg (2 ^ f.mb + m) (e - f.bias - f.mb)

/-- Units of 2^u in m · 2^e: rounded to nearest, ties to even, or stochastically with a 16-bit draw (R251). -/
def unitsOf (m : Nat) (e u : Int) (draw : Option Nat) : Nat :=
  if u ≤ e then m * 2 ^ (e - u).toNat
  else
    let d := 2 ^ (u - e).toNat
    let q := m / d
    let r := m % d
    let up := match draw with
      | some x => decide (x < r * 65536 / d)
      | none => decide (d < 2 * r) || (decide (2 * r = d) && decide (q % 2 = 1))
    if up then q + 1 else q

/-- The magnitude bits of m · 2^e rounded to a format's grid, its exponent unbounded above. -/
def FloatFmt.round (f : FloatFmt) (m : Nat) (e : Int) (draw : Option Nat) : Nat :=
  if m = 0 then 0
  else
    let u := max ((Nat.log2 m : Int) + e) f.emin - f.mb
    (u - (f.emin - f.mb)).toNat * 2 ^ f.mb + unitsOf m e u draw

/-- FP32 bits of a value: round to nearest even, overflow to infinity, every NaN canonical (R247, R249). -/
def toFp32 (v : Num) : BitVec 32 :=
  match v with
  | .nan => 0x7FC00000
  | .inf neg => BitVec.ofNat 32 (2 ^ 31 * b2n neg + 0x7F800000)
  | .fin neg m e => BitVec.ofNat 32 (2 ^ 31 * b2n neg + min (fp32.round m e none) 0x7F800000)

def ofFp32 (b : BitVec 32) : Num := fp32.decode b.toNat

/-- Binary32 addition (R246, R247). -/
def numAdd : Num → Num → BitVec 32
  | .nan, _ => toFp32 .nan
  | _, .nan => toFp32 .nan
  | .inf x, .inf y => if x = y then toFp32 (.inf x) else toFp32 .nan
  | .inf x, .fin _ _ _ => toFp32 (.inf x)
  | .fin _ _ _, .inf y => toFp32 (.inf y)
  | .fin x m d, .fin y n e =>
    let k := min d e
    let v (neg : Bool) (m : Nat) (d : Int) : Int := (if neg then -1 else 1) * (m * 2 ^ (d - k).toNat : Nat)
    let sum := v x m d + v y n e
    toFp32 (.fin (if sum = 0 then x && y else decide (sum < 0)) sum.natAbs k)

/-- Binary32 addition of two words. -/
def fpAdd (a b : BitVec 32) : BitVec 32 := numAdd (ofFp32 a) (ofFp32 b)

/-- Binary32 multiplication (R246). -/
def numMul : Num → Num → BitVec 32
  | .nan, _ => toFp32 .nan
  | _, .nan => toFp32 .nan
  | .inf x, .inf y => toFp32 (.inf (x != y))
  | .inf x, .fin y n _ => if n = 0 then toFp32 .nan else toFp32 (.inf (x != y))
  | .fin x m _, .inf y => if m = 0 then toFp32 .nan else toFp32 (.inf (x != y))
  | .fin x m d, .fin y n e => toFp32 (.fin (x != y) (m * n) (d + e))

/-- Binary32 multiplication of two words. -/
def fpMul (a b : BitVec 32) : BitVec 32 := numMul (ofFp32 a) (ofFp32 b)

/-- A NaN of FP32. -/
def isNan (b : BitVec 32) : Bool := ofFp32 b == .nan

/-- The place of a number in the order in which -0 is below +0 (R246). -/
def fpKey (b : BitVec 32) : Int :=
  if b.getLsbD 31 then -((b.toNat % 2 ^ 31 : Nat) : Int) - 1 else b.toNat

/-- MAX and MIN of R246. -/
def fpMax (a b : BitVec 32) : BitVec 32 :=
  if isNan a || isNan b then toFp32 .nan else if fpKey a < fpKey b then b else a
def fpMin (a b : BitVec 32) : BitVec 32 :=
  if isNan a || isNan b then toFp32 .nan else if fpKey b < fpKey a then b else a

/-- One fold of an accumulator with an input (R246); `int` selects INT32. OP: 0 SUM, 1 MAX, 2 MIN, 3 SUM_SCALED. -/
def foldOne (int : Bool) (op : Nat) (a b : BitVec 32) : BitVec 32 :=
  if int then
    if op = 1 then (if a.toInt < b.toInt then b else a)
    else if op = 2 then (if b.toInt < a.toInt then b else a)
    else a + b
  else if op = 1 then fpMax a b else if op = 2 then fpMin a b else fpAdd a b

/-- The element of an MX block (R245): its value times 2^(scale - 127). -/
def mxDecode (code elem scale : Nat) : BitVec 32 :=
  if scale = 0xFF then toFp32 .nan
  else
    let shift (v : Num) : Num := match v with
      | .fin neg m e => .fin neg m (e + scale - 127)
      | _ => v
    match fmtOf code with
    | some f => toFp32 (shift (f.decode elem))
    | none =>
      let i := (BitVec.ofNat 8 elem).toInt
      toFp32 (shift (.fin (decide (i < 0)) i.natAbs (-6)))

/-- Element i of packed elements (R241): bits from the least significant of the first byte on. -/
def elemAt (width : Nat) (packed i : Nat) : Nat := packed / 2 ^ (width * i) % 2 ^ width

/-- Decode n elements of a format to FP32 (R245), from their packed bits and, for an MX format, the block scales. INT32
words are left as they are. -/
def decodeElems (code n : Nat) (packed : Nat) (scales : Bytes) : List (BitVec 32) :=
  (List.range n).map fun i =>
    let b := elemAt (fmtWidth code) packed i
    if code = 5 then BitVec.ofNat 32 b
    else if fmtMx code then mxDecode code b (scales.getD (i / 32) 0).toNat
    else match fmtOf code with
      | some f => toFp32 (f.decode b)
      | none => 0

/-- Elements converted for output: element codes in order, block scales, NaNs produced and elements saturated. -/
structure Encoded where
  elems : List Nat
  scales : List Nat
  nans : Nat
  sats : Nat
  deriving DecidableEq, Repr

def Encoded.append (a b : Encoded) : Encoded :=
  ⟨a.elems ++ b.elems, a.scales ++ b.scales, a.nans + b.nans, a.sats + b.sats⟩

/-- The canonical positive NaN of a scalar format (R249). -/
def nanBits (f : FloatFmt) : Nat :=
  if f.special = 1 then 2 ^ (f.eb + f.mb) - 1 else (2 ^ f.eb - 1) * 2 ^ f.mb + 2 ^ (f.mb - 1)

/-- Conversion to a scalar format (R249). -/
def encodeNum (f : FloatFmt) (sat : Bool) (draw : Option Nat) (v : Num) : Encoded :=
  let sign (neg : Bool) : Nat := b2n neg * 2 ^ (f.eb + f.mb)
  let infBits : Nat := (2 ^ f.eb - 1) * 2 ^ f.mb
  match v with
  | .nan => ⟨[nanBits f], [], 1, 0⟩
  | .inf neg => if f.special = 1 then ⟨[nanBits f], [], 1, 0⟩ else ⟨[sign neg + infBits], [], 0, 0⟩
  | .fin neg m e =>
    let b := f.round m e draw
    if b ≤ f.maxBits then ⟨[sign neg + b], [], 0, 0⟩
    else if sat then ⟨[sign neg + f.maxBits], [], 0, 1⟩
    else if f.special = 1 then ⟨[nanBits f], [], 1, 0⟩ else ⟨[sign neg + infBits], [], 0, 0⟩

/-- Conversion of one FP32 result to a scalar format. -/
def encodeScalar (f : FloatFmt) (sat : Bool) (draw : Option Nat) (v : BitVec 32) : Encoded :=
  encodeNum f sat draw (ofFp32 v)

/-- Magnitude of a finite number, as m and e; none for a NaN or an infinity. -/
def numMag : Num → Option (Bool × Nat × Int)
  | .fin neg m e => some (neg, m, e)
  | _ => none

/-- The same of an FP32 word. -/
def finMag (v : BitVec 32) : Option (Bool × Nat × Int) := numMag (ofFp32 v)

/-- One element of an MX block with exponent x (R250): its code, and whether it saturated. -/
def mxElem (code : Nat) (x : Int) (draw : Option Nat) (v : BitVec 32) : Nat × Nat :=
  match finMag v with
  | none => (0, 0)
  | some (neg, m, e) =>
    match fmtOf code with
    | some f =>
      let b := f.round m (e - x) draw
      let c := min b f.maxBits
      (if c = 0 then 0 else b2n neg * 2 ^ (f.eb + f.mb) + c, b2n (decide (f.maxBits < b)))
    | none =>
      let q := unitsOf m (e - x) (-6) draw
      let c := min q 127
      (if neg then (256 - c) % 256 else c, b2n (decide (127 < q)))

/-- floor(log2 |v|) of the largest magnitude of a block, or none where all are zero. -/
def mxTop (l : List (BitVec 32)) : Option Int :=
  l.foldl (fun a v => match finMag v with
    | some (_, m, e) => if m = 0 then a else some (max (a.getD ((Nat.log2 m : Int) + e)) ((Nat.log2 m : Int) + e))
    | none => a) none

/-- One block of 32 results as an MX block (R250). -/
def encodeBlock (code : Nat) (draw : Nat → Option Nat) (l : List (BitVec 32)) : Encoded :=
  if l.any fun v => (finMag v).isNone then ⟨l.map fun _ => 0, [0xFF], 1, 0⟩
  else
    let x : Int := match mxTop l with
      | none => -127
      | some t => max (-127) (min 127 (t - fmtEmax code))
    let r := (List.range l.length).map fun i => mxElem code x (draw i) (l.getD i 0)
    ⟨r.map (·.1), [(x + 127).toNat], 0, (r.map (·.2)).foldl (· + ·) 0⟩

/-- Convert a list of FP32 results to a format (R248 to R251); the fuel is the number of blocks. `draw i` is the value of
stochastic rounding for element i. -/
def encodeElems (code : Nat) (sat : Bool) (draw : Nat → Option Nat) : Nat → Nat → List (BitVec 32) → Encoded
  | 0, _, _ => ⟨[], [], 0, 0⟩
  | n + 1, at_, l =>
    match l with
    | [] => ⟨[], [], 0, 0⟩
    | _ =>
      let here := l.take 32
      let e : Encoded :=
        if code = 5 then ⟨here.map (·.toNat), [], 0, 0⟩
        else if fmtMx code then encodeBlock code (fun i => draw (at_ + i)) here
        else match fmtOf code with
          | some f => (List.range here.length).foldl
              (fun a i => a.append (encodeScalar f sat (draw (at_ + i)) (here.getD i 0))) ⟨[], [], 0, 0⟩
          | none => ⟨[], [], 0, 0⟩
      e.append (encodeElems code sat draw n (at_ + 32) (l.drop 32))

/-- Conversion of a whole chunk. -/
def encodeAll (code : Nat) (sat : Bool) (draw : Nat → Option Nat) (l : List (BitVec 32)) : Encoded :=
  encodeElems code sat draw (l.length / 32 + 1) 0 l

/-- Packed bytes of elements (R241). -/
def packElems (width : Nat) (l : List Nat) : Bytes :=
  le ((l.length * width + 7) / 8) (l.foldr (fun x a => x % 2 ^ width + 2 ^ width * a) 0)

/-- One round of Philox-4×32. -/
def philoxRound (c k : Nat × Nat × Nat × Nat) : Nat × Nat × Nat × Nat :=
  let p0 := 0xD2511F53 * c.1
  let p1 := 0xCD9E8D57 * c.2.2.1
  (((p1 / 2 ^ 32) ^^^ c.2.1 ^^^ k.1) % 2 ^ 32, p1 % 2 ^ 32, ((p0 / 2 ^ 32) ^^^ c.2.2.2 ^^^ k.2.1) % 2 ^ 32, p0 % 2 ^ 32)

/-- Philox-4×32 with n rounds left; the key advances by its Weyl constants. -/
def philox : Nat → Nat × Nat × Nat × Nat → Nat → Nat → Nat × Nat × Nat × Nat
  | 0, c, _, _ => c
  | n + 1, c, k0, k1 =>
    philox n (philoxRound c (k0, k1, 0, 0)) ((k0 + 0x9E3779B9) % 2 ^ 32) ((k1 + 0xBB67AE85) % 2 ^ 32)

/-- The i-th 16-bit value of a chunk's stream (R252). -/
def streamDraw (k0 k1 port count i : Nat) : Nat :=
  let block := port * 2 ^ 123 + count % 2 ^ 59 * 2 ^ 64 + i / 8 % 65536
  let w := philox 10 (block % 2 ^ 32, block / 2 ^ 32 % 2 ^ 32, block / 2 ^ 64 % 2 ^ 32, block / 2 ^ 96 % 2 ^ 32) k0 k1
  let word := if i / 2 % 4 = 0 then w.1 else if i / 2 % 4 = 1 then w.2.1 else if i / 2 % 4 = 2 then w.2.2.1 else w.2.2.2
  if i % 2 = 0 then word % 65536 else word / 65536

end Sys2Proof.Machine
end

