-- ==== Sys2Proof/Machine/WatchOps.lean ====
section
/-!
DEFINITION. WatchOps.lean: what a tensor watch takes from a tap, its statistics, digest and dump, and how it closes (R514 to R522).
-/
namespace Sys2Proof.Machine

/-- The FP64 format, in which sums are kept (R517). -/
def fp64 : FloatFmt := ⟨11, 52, 0⟩

/-- The exact sum of two values. -/
def Num.add : Num → Num → Num
  | .nan, _ => .nan
  | _, .nan => .nan
  | .inf x, .inf y => if x = y then .inf x else .nan
  | .inf x, .fin _ _ _ => .inf x
  | .fin _ _ _, .inf y => .inf y
  | .fin x m d, .fin y n e =>
    let k := min d e
    let v (neg : Bool) (m : Nat) (d : Int) : Int := (if neg then -1 else 1) * (m * 2 ^ (d - k).toNat : Nat)
    let sum := v x m d + v y n e
    .fin (if sum = 0 then x && y else decide (sum < 0)) sum.natAbs k

/-- The exact square of a value. -/
def Num.square : Num → Num
  | .nan => .nan
  | .inf _ => .inf false
  | .fin _ m e => .fin false (m * m) (2 * e)

/-- FP64 bits of a value, round to nearest even (R517). -/
def toFp64 (v : Num) : BitVec 64 :=
  match v with
  | .nan => 0x7FF8000000000000
  | .inf neg => BitVec.ofNat 64 (2 ^ 63 * b2n neg + 0x7FF0000000000000)
  | .fin neg m e => BitVec.ofNat 64 (2 ^ 63 * b2n neg + min (fp64.round m e none) 0x7FF0000000000000)

/-- An FP64 sum takes one value more. -/
def fp64Add (a : BitVec 64) (v : Num) : BitVec 64 := toFp64 ((fp64.decode a.toNat).add v)

/-- Statistics before the first element. -/
def WatchStats.empty : WatchStats :=
  { elements := 0, nans := 0, infs := 0, zeros := 0, subs := 0, minBits := 0, maxBits := 0, sum := 0, sumSq := 0,
    unstated := false }

/-- One element in the statistics (R517): INT32 words as they are, any other element as its FP32 value. -/
def WatchStats.take (int : Bool) (w : WatchStats) (b : BitVec 32) : WatchStats :=
  let first := w.elements == w.nans
  let w1 : WatchStats := { w with elements := w.elements + 1 }
  if int then
    { w1 with
      zeros := w.zeros + b2n (b == 0)
      minBits := if first || b.toInt < w.minBits.toInt then b else w.minBits
      maxBits := if first || w.maxBits.toInt < b.toInt then b else w.maxBits
      sum := w.sum + b.signExtend 64 }
  else
    let v := ofFp32 b
    let s1 : WatchStats := { w1 with sum := fp64Add w.sum v, sumSq := fp64Add w.sumSq v.square }
    if isNan b then { s1 with nans := w.nans + 1 }
    else
      { s1 with
        infs := w.infs + b2n (match v with
          | .inf _ => true
          | _ => false)
        zeros := w.zeros + b2n (b.toNat % 2 ^ 31 == 0)
        subs := w.subs + b2n (decide (0 < b.toNat % 2 ^ 31) && decide (b.toNat % 2 ^ 31 < 2 ^ 23))
        minBits := if first then b else fpMin w.minBits b
        maxBits := if first then b else fpMax w.maxBits b }

/-- The elements of a block in the watch's format (R517), with the block scales that a chunk carries. A block of memory carries
none, so the elements of an MX format are not known from it, nor those of a chunk in another format (log 28). -/
def blockElems (fmt : Nat) (data : Bytes) (chunk : Option (Nat × Nat)) : Option (List (BitVec 32)) :=
  match chunk with
  | none =>
    if fmtMx fmt then none else some (decodeElems fmt (data.length * 8 / max 1 (fmtWidth fmt)) (leNat data) [])
  | some (f, n) =>
    if f = fmt then
      let z := (n * fmtWidth f + 7) / 8
      some (decodeElems f n (leNat (data.take z)) (data.drop z))
    else none

/-- What passes a tap: the block's number, its offset in the range or the step, its bytes, and a chunk's format and elements. -/
structure Passed where
  key : Nat
  off : Nat
  data : Bytes
  chunk : Option (Nat × Nat)
  deriving DecidableEq, Repr

/-- The digest rate of a slice (R519), bytes per second. -/
def digestRate (s : State) (who : Nat) : Nat :=
  scaled s who (if who = 0 then gbit 24 else if who = 31 then gbit 8 else gbit 160 / max 1 s.tenants)

/-- The level of a slice's digest bucket (R230, R519). A bucket that nothing has drained is full. -/
def digestLevel (s : State) (who : Nat) : Nat := tgetD s.watch.digestLevel who (max (digestRate s who / 100000) 64)

/-- The CMAC of a block (R518): its position, then its bytes, a short block zero-padded to 64 bytes. -/
def blockMac (k : Key) (p : Passed) : Nat :=
  leNat (be 16 (cmac k (le 8 p.off ++ le 4 p.data.length ++ le 4 0 ++ fit (roundUp p.data.length 64) p.data)).toNat)

/-- A block in the digest (R518, R519): left out where the slice's bucket does not hold it. -/
def digestBlock (s : State) (w : Watch) (p : Passed) : State × Watch :=
  let n := p.data.length
  match engKey s (.digest w.slice), decide (n ≤ digestLevel s w.slice) with
  | some k, true =>
    ({ s with watch.digestLevel := tset s.watch.digestLevel w.slice (digestLevel s w.slice - n) },
      { w with digest := w.digest + BitVec.ofNat 128 (blockMac k p) })
  | _, _ => (s, { w with partialDigest := true })

/-- Where a device VA of a context lies in tier A, for a write of n bytes. -/
def tierAPlace (s : State) (ctx va n : Nat) : Option Nat :=
  match lookup s ctx ⟨va, n, true, true, false⟩ 0, lookup s ctx ⟨va, n, true, true, false⟩ (n - 1) with
  | .at false a _, .at false _ _ => some a
  | _, _ => none

/-- Write bytes to a device VA of tier A, each where the context's tables place it. -/
def writeVa (s : State) (ctx va : Nat) (data : Bytes) : State :=
  (data.zipIdx).foldl (fun s x =>
    match lookup s ctx ⟨va, data.length, true, true, false⟩ x.2 with
    | .at false a _ => tierAWrite s a [x.1]
    | _ => s) s

/-- The pages under a write of n bytes to a device VA grant it (R296); `debug` asks for the DEBUGGABLE flag too (R520). -/
def pagesGrant (s : State) (ctx gen va n : Nat) (debug : Bool) : Bool :=
  [0, n - 1].all fun i =>
    match lookup s ctx ⟨va, n, true, true, false⟩ i with
    | .at false a _ => addrGrants s a true ctx gen && (!debug || bit (pageOwner s (a / 2 ^ 26)).flags 3)
    | _ => false

/-- A block in the dump (R520): skipped where no DEBUGGABLE page of the context takes it. -/
def dumpBlock (s : State) (w : Watch) (p : Passed) : State × Watch :=
  if p.data != [] && pagesGrant s w.ctx w.gen (w.body.dumpVa + p.off) p.data.length true then
    (writeVa s w.ctx (w.body.dumpVa + p.off) p.data, { w with dumped := w.dumped + p.data.length })
  else (s, { w with truncated := true })

/-- A block is missing, was left out or was skipped (R516, R523). -/
def Watch.incomplete (w : Watch) : Bool :=
  w.total != some w.taken.length || w.partialDigest || w.truncated || w.missed

/-- A value that the manual does not state, in n bytes (log 28). -/
def freeField (s : State) (n : Nat) : State × Bytes := (s.spend, le n (s.drawn (8 * n)).toNat)

/-- A sum as the result shows it: of a NaN the manual gives neither sign nor payload. -/
def sumField (s : State) (int : Bool) (v : BitVec 64) : State × Bytes :=
  if !int && fp64.decode v.toNat == .nan then
    (s.spend, le 8 (v ||| (s.drawn 64 &&& 0x8007FFFFFFFFFFFF)).toNat)
  else (s, le 8 v.toNat)

/-- Bytes 32 to 79 of a result: the statistics (R521). Where they were not asked, or the elements are not known, they are open; so
are the extremes where there is none or a NaN was seen. -/
def statBytes (s : State) (w : Watch) : State × Bytes :=
  if !w.stats? || w.stats.unstated then freeField s 48
  else
    let t := w.stats
    let int := w.body.fmt == 5
    let ends := if t.elements = 0 || 0 < t.nans then freeField s 8 else (s, le 4 t.minBits.toNat ++ le 4 t.maxBits.toNat)
    let sum := sumField ends.1 int t.sum
    let sq := sumField sum.1 int t.sumSq
    (sq.1, le 8 t.elements ++ le 4 t.nans ++ le 4 t.infs ++ le 4 t.zeros ++ le 4 t.subs ++ ends.2 ++ sum.2 ++ sq.2)

/-- The 128 bytes of a result (R521). -/
def resultBytes (s : State) (n : Nat) (w : Watch) : State × Bytes :=
  let total := match w.total with
    | some t => (s, le 4 t)
    | none => freeField s 4
  let st := statBytes total.1 w
  let gen := if w.digest? then (st.1, le 4 w.digestGen) else freeField st.1 4
  let flags := b2n w.incomplete + 2 * b2n w.partialDigest + 4 * b2n w.dump? + 8 * b2n w.truncated
  (gen.1, le 1 7 ++ le 1 flags ++ le 1 w.body.tap ++ le 1 w.body.fmt ++ le 2 n ++ le 2 0 ++ le 8 (w.openAt.getD 0) ++
    le 8 s.ns ++ le 4 w.taken.length ++ total.2 ++ st.2 ++ le 16 w.digest.toNat ++ gen.2 ++ le 28 0)

/-- The DUMP record of a watch that dumps (R506, R520). -/
def dumpRecord (s : State) (n : Nat) (w : Watch) : State :=
  if w.dump? then
    let r := mkRec s 0x0071 7 srcDevice (le 2 n ++ le 1 w.body.tap ++ le 8 w.dumped ++ le 8 w.body.sel)
    putRec { s with watch.dumps := s.watch.dumps + 1 } { r with slice := some w.slice, ctx := some (w.ctx, w.gen) }
  else s

/-- Close a watch (R516): RESULT is written under the stamp, then its event is signalled. -/
def closeWatch (s : State) (n : Nat) (w : Watch) : State :=
  let s1 := dumpRecord { s with watch.table := tdel s.watch.table n, watch.closed := s.watch.closed + 1 } n w
  let r := resultBytes s1 n w
  let s2 : State := match tierAPlace r.1 w.ctx w.body.result 128 with
    | none => r.1
    | some a =>
      if pagesGrant r.1 w.ctx w.gen w.body.result 128 false then writeVa r.1 w.ctx w.body.result r.2
      else denyTierA r.1 (Config.stackOf a % 16) (a / 2 ^ 26) w.ctx
  settle (signal s2 w.body.event (if w.incomplete then cWatchIncomplete else cOk))

/-- End watches with a code and no RESULT (R516, R522). -/
def endWatches (s : State) (sel : Watch → Bool) (code : Code) : State :=
  if s.watch.table.any fun w => sel w.2 then settle (cancelWatches s sel code) else s

/-- An open watch takes what passes, the first time it does (R516). -/
def takePassed (s : State) (n : Nat) (p : Passed) : State :=
  match tget s.watch.table n with
  | none => s
  | some w =>
    if w.openAt.isNone || w.taken.contains p.key then s
    else
      let w1 : Watch := { w with taken := w.taken ++ [p.key] }
      let w2 : Watch :=
        if !w.stats? then w1
        else match blockElems w.body.fmt p.data p.chunk with
          | some l => { w1 with stats := l.foldl (WatchStats.take (w.body.fmt == 5)) w1.stats }
          | none => { w1 with stats := { w1.stats with unstated := true } }
      let d := if w.digest? then digestBlock s w2 p else (s, w2)
      let e := if w.dump? then dumpBlock d.1 d.2 p else d
      if e.2.total = some e.2.taken.length then closeWatch e.1 n e.2
      else { e.1 with watch.table := tset e.1.watch.table n e.2 }

/-- Blocks of a range of `len` bytes. -/
def rangeBlocks (len : Nat) : Nat := (len + 63) / 64

/-- The blocks of a watch's range that lie whole in the n bytes from a VA on. -/
def blocksIn (w : Watch) (va : Nat) (data : Bytes) : List Passed :=
  let start := w.body.sel
  let len := w.body.length
  let first := (max va start - start + 63) / 64
  (List.range (data.length / 64 + 2)).filterMap fun j =>
    let b := first + j
    let stop := min (start + 64 * b + 64) (start + len)
    if b < rangeBlocks len && va ≤ start + 64 * b && stop ≤ va + data.length then
      some ⟨b, 64 * b, (data.drop (start + 64 * b - va)).take (stop - (start + 64 * b)), none⟩
    else none

/-- Data passes a tap under a context's stamp (R514, R516): range watches. -/
def tapRange (s : State) (tap ctx gen va : Nat) (data : Bytes) : State :=
  (s.watch.table.filter fun w =>
    w.2.body.tap == tap && w.2.body.selKind == 0 && w.2.ctx == ctx && w.2.gen == gen && w.2.openAt.isSome).foldl
    (fun s w => (blocksIn w.2 va data).foldl (fun s p => takePassed s w.1 p) s) s

/-- A chunk passes an alloy's tap (R514, R516): collective watches. `total` counts the chunks of the step at that tap. -/
def tapChunk (s : State) (tap ctx gen coll step total : Nat) (p : Passed) : State :=
  (s.watch.table.filter fun w =>
    w.2.body.tap == tap && w.2.body.selKind == 1 && w.2.body.sel == coll && w.2.body.length == step &&
      w.2.ctx == ctx && w.2.gen == gen && w.2.openAt.isSome).foldl
    (fun s w => takePassed { s with
      watch.table := tset s.watch.table w.1 { w.2 with total := some total } } w.1 p) s

/-- The device VA at which a context maps a physical byte. -/
def vaOf (s : State) (ctx : Nat) (tierB : Bool) (phys : Nat) : Option Nat :=
  ((ctxUnits s ctx).find? fun m => (m.2.kind == 2) == tierB && m.2.frame == phys / 2 ^ 26).map fun m =>
    m.1 * 2 ^ 26 + phys % 2 ^ 26

/-- A granule passes a pewter tap (R514). -/
def tapGranule (s : State) (tap ctx gen region granule : Nat) (data : Bytes) : State :=
  if s.watch.table = [] then s
  else
    match vaOf s ctx true (region * 2 ^ 26 + granule * 256) with
    | some va => tapRange s tap ctx gen va data
    | none => s

/-- A remote write leaves (R514 tap 0): its bytes lie at the local source VA of the piece that issued it. -/
def tapEgress (s : State) (r : SealReq) : State :=
  if s.watch.table = [] || r.ftype ≠ 1 || fld r.payload 0 1 ≠ 1 then s
  else
    let window := fld r.payload 4 4
    let off := fld r.payload 8 6
    match s.gate.seals.find? fun l => l.2.cls == kRemoteWrite && l.2.ctx == r.ctx && l.2.gen == r.gen &&
        l.2.queue == r.queue && dBody l.2.raw 4 2 == r.node && dBody l.2.raw 24 4 == window &&
        decide (dBody l.2.raw 32 8 ≤ off) && decide (off < dBody l.2.raw 32 8 + dBody l.2.raw 0 4) with
    | some l => tapRange s 0 r.ctx r.gen (linear s r.ctx ⟨dBody l.2.raw 8 8, 1, false, false, false⟩ + (off - dBody l.2.raw 32 8))
        ((r.payload.drop 16).take (fld r.payload 2 2))
    | none => s

/-- A remote write arrives (R514 tap 1): its bytes lie at the local VA that the window resolves, in one unit or in two. -/
def tapIngress (s : State) (ctx gen : Nat) (place : Nat → Option (Bool × Nat)) (data : Bytes) : State :=
  if s.watch.table = [] then s
  else
    let at_ (k : Nat) (s : State) (d : Bytes) : State :=
      match (place k).bind fun p => vaOf s ctx p.1 p.2 with
      | some va => tapRange s 1 ctx gen va d
      | none => s
    let n := match place 0 with
      | some p => min data.length (2 ^ 26 - p.2 % 2 ^ 26)
      | none => data.length
    let s1 := at_ 0 s (data.take n)
    if n < data.length then at_ n s1 (data.drop n) else s1

/-- The watches that a cast opens at its fire (R516). -/
def openWatches (s : State) (number seq : Nat) : State :=
  { s with watch.table := s.watch.table.map fun w =>
      if w.2.body.selKind = 0 ∧ w.2.body.cast = number ∧ w.2.body.castSeq = seq ∧ w.2.openAt = none then
        (w.1, { w.2 with openAt := some s.ns })
      else w }

/-- A cast that does not fire ends the watches that it was to open (R516). -/
def failWatches (s : State) (number seq : Nat) (code : Code) : State :=
  endWatches s (fun w => w.body.selKind == 0 && w.body.cast == number && w.body.castSeq == seq && w.openAt.isNone) code

/-- A freeze of a slice (R522): its open watches close, and its armed watches are cancelled. -/
def freezeWatches (s : State) (slice : Nat) : State :=
  let s1 := (s.watch.table.filter fun w => w.2.slice == slice && w.2.openAt.isSome).foldl
    (fun s w => closeWatch s w.1 { w.2 with missed := true }) s
  endWatches s1 (fun w => w.slice == slice) cCastCancelled

end Sys2Proof.Machine
end

