-- ==== Sys2Proof/Machine/LinkOps.lean ====
section
/-!
DEFINITION. LinkOps.lean: flows, epochs, sealing, acknowledgement and fences of the fabric (R204 to R225).
-/
namespace Sys2Proof.Machine

/-- Frame types of R208. -/
abbrev ftRequest : Nat := 0x01
abbrev ftResponse : Nat := 0x02
abbrev ftAck : Nat := 0x03
abbrev ftChunk : Nat := 0x04
abbrev ftControl : Nat := 0x05
abbrev ftCoherence : Nat := 0x06
abbrev ftJoin : Nat := 0x0F

/-- Owner of frames that no slice issued (R229). -/
abbrev whoSys : Nat := 32

/-- The unit and port bound to a node (R206). -/
def nodeUnit (s : State) (node : Nat) : Option Nat := (tget s.link.nodes node).map (·.1)
def nodePort (s : State) (node : Nat) : Nat := ((tget s.link.nodes node).map (·.2)).getD 0

/-- The node bound to a unit. -/
def unitNode (s : State) (unit : Nat) : Option Nat := (s.link.nodes.find? fun n => n.2.1 == unit).map (·.1)

/-- This unit's own node, once it is bound. -/
def ownNode (s : State) : Option Nat := unitNode s unitId

/-- A node bound to a member of the domain. -/
def memberNode (s : State) (node : Nat) : Bool :=
  (nodeUnit s node).any fun u => u != unitId && s.dom.members.any fun m => m.unit == u

/-- The domain epoch that new frames are sealed under: k + 1 from T on (R193). -/
def sendEpoch (s : State) : Nat := if s.dom.grace.isSome then s.dom.nextEpoch else s.dom.epoch

/-- A flow at its creation (R204, R205, R214, R215). -/
def newFlow (s : State) : Flow :=
  { sendSeq := Kept.of 1, ackSeq := Kept.of 1, flowEpoch := 0, domainEpoch := sendEpoch s, outstanding := [],
    frames := Kept.of 0, bytes := Kept.of 0, high := 0, window := [], pendingAcks := [], ackAt := 0, recvEpoch := 0, prevEpoch := none,
    old := none, nextKey := false, rolloverAt := none, rolloverSeq := 0, held := s.dom.changing && s.dom.grace.isNone, awaitKey := false, floor := some 0,
    lastUse := 0, control := [] }

/-- The next SEQ of a flow's two spaces and its usage count, as numbers. -/
def Flow.nextData (f : Flow) : Nat := f.sendSeq.value.toNat
def Flow.nextAck (f : Flow) : Nat := f.ackSeq.value.toNat
def Flow.usedFrames (f : Flow) : Nat := f.frames.value.toNat
def Flow.usedBytes (f : Flow) : Nat := f.bytes.value.toNat

/-- A flow with another next SEQ, or another usage count; complements are written with them (R50). -/
def Flow.sendFrom (f : Flow) (n : Nat) : Flow := { f with sendSeq := Kept.of (BitVec.ofNat 48 n) }
def Flow.ackFrom (f : Flow) (n : Nat) : Flow := { f with ackSeq := Kept.of (BitVec.ofNat 48 n) }
def Flow.used (f : Flow) (frames bytes : Nat) : Flow :=
  { f with frames := Kept.of (BitVec.ofNat 64 frames), bytes := Kept.of (BitVec.ofNat 64 bytes) }

/-- A flow's send state agrees with its complements (R50, R231). -/
def Flow.sound (f : Flow) : Bool := f.sendSeq.sound && f.ackSeq.sound && f.frames.sound && f.bytes.sound

/-- The next SEQ after a mismatch (R231): the larger of the two stored halves plus 2^32; 0 is never used (R210). -/
def seqRepair (k : Kept 48) : Nat := max 1 ((max k.value.toNat (~~~k.inv).toNat + 2 ^ 32) % 2 ^ 48)

def flowAt (s : State) (node : Nat) : Option Flow := tget s.link.flows node

def setFlow (s : State) (node : Nat) (f : Flow) : State := { s with link.flows := tset s.link.flows node f }

/-- Change a port's engine. -/
def portAt (s : State) (p : Nat) : BrassPort := tgetD s.link.ports p BrassPort.reset
def setPort (s : State) (p : Nat) (b : BrassPort) : State := { s with link.ports := tset s.link.ports p b }

/-- A sequence number's distance ahead of another, modulo 2^48 (R205). -/
def ahead (seq h : Nat) : Nat := (seq % 2 ^ 48 + 2 ^ 48 - h % 2 ^ 48) % 2 ^ 48

/-- The following sequence number; 0 is never used (R210). -/
def nextSeq (n : Nat) : Nat := if n + 1 = 2 ^ 48 then 1 else n + 1

/-- Bytes 8 to 23 of a frame: its authenticated header (R207, R212). -/
def frameHead (f : Frame) : Bytes :=
  le 1 f.ftype ++ le 1 f.flags ++ le 2 f.dstNode ++ le 2 f.srcNode ++ le 2 f.payloadLen ++ le 6 f.seq ++
    le 2 f.reserved

/-- The IV of a sealed frame (R211): DIR, SPACE and SEQ. -/
def frameIv (sender receiver : Nat) (space : Bool) (seq : Nat) : BitVec 96 :=
  BitVec.ofNat 96 ((b2n (decide (receiver < sender)) + 2 * b2n space) * 2 ^ 88 + seq % 2 ^ 48)

/-- Wire length of a frame with payload P (R229). -/
def wireOf (payload : Nat) : Nat := 40 + payload

/-- The switch point of a flow key (R221). -/
def atSwitch (f : Flow) : Bool :=
  decide (2 ^ 36 - 2 ^ 30 ≤ f.usedFrames) || decide (2 ^ 48 - 2 ^ 42 ≤ f.usedBytes)

/-- The key that a flow seals under. -/
def sendKey (unit : Nat) (f : Flow) : KeyPath := .flow unit f.domainEpoch f.flowEpoch

/-- An owner's part of an engine's cache of 1,024 keys (R406). -/
def cachePart (s : State) (who : Nat) : Nat :=
  if who = 0 then 256 else if who = 31 ∨ who = whoSys then 64 else 640 / max 1 s.tenants

/-- A port's engine holds a flow key for an owner's frames (R219, R406). -/
def keyCached (s : State) (port who unit de fe : Nat) : Bool := (portAt s port).keyCache.contains (who, unit, de, fe)

/-- Use a cached key: it becomes the most recently used (R219). -/
def touchKey (s : State) (port who unit de fe : Nat) : State :=
  let b := portAt s port
  setPort s port { b with keyCache := b.keyCache.filter (· != (who, unit, de, fe)) ++ [(who, unit, de, fe)] }

/-- The entries left when the least recently used of an owner goes. -/
def dropOldest (who : Nat) (l : List (Nat × Nat × Nat × Nat)) : List (Nat × Nat × Nat × Nat) :=
  match l.find? fun e => e.1 == who with
  | some e => l.erase e
  | none => l

/-- The key of a cache entry. -/
def entryKey (e : Nat × Nat × Nat × Nat) : KeyPath := .flow e.2.1 e.2.2.1 e.2.2.2

/-- A key that a port's engine evicts (R219): its usage count returns to the vault, and the engine no longer holds it once no owner's
part does. -/
def evictKey (s : State) (port : Nat) (e : Nat × Nat × Nat × Nat) : State :=
  let s1 := reportKey s (entryKey e)
  if (portAt s1 port).keyCache.any fun x => x.2 == e.2 then s1
  else modReg s1 (entryKey e) fun r => { r with leaves := r.leaves.filter (· != port) }

/-- Load a key into an owner's part of a port's engine cache, evicting its least recently used (R219, R406); the engine is sent the key
unless it has it (R25). -/
def loadKey (s : State) (port who unit de fe : Nat) : State :=
  let b := portAt s port
  let l := b.keyCache.filter (· != (who, unit, de, fe))
  let full := decide (cachePart s who ≤ (l.filter fun e => e.1 == who).length)
  let s1 := setPort s port { b with keyCache := (if full then dropOldest who l else l) ++ [(who, unit, de, fe)] }
  let s2 := if full then (l.find? fun e => e.1 == who).elim s1 (evictKey s1 port) else s1
  deliverTo s2 (.flow unit de fe) port

/-- A miss of an owner for a key (R219). -/
def MissEntry.names (m : MissEntry) (who node de fe : Nat) : Bool :=
  m.who == who && m.peer == node && m.domEpoch == de && m.flowEpoch == fe

/-- Put into a miss entry, opened once (R219): the vault is asked for the key. -/
def missKey (s : State) (port who node de fe : Nat) (inbound : List Frame) (outbound : List (Nat × Nat)) : State :=
  let b := portAt s port
  let held := b.misses.map fun m =>
    if m.names who node de fe then { m with inbound := m.inbound ++ inbound, outbound := m.outbound ++ outbound } else m
  let fresh : MissEntry :=
    { who := who, peer := node, domEpoch := de, flowEpoch := fe, inbound := inbound, outbound := outbound, startedAt := s.ns }
  setPort s port { b with misses := if b.misses.any (fun m => m.names who node de fe) then held else b.misses ++ [fresh] }

/-- An owner's part of the 64 KiB outbound miss buffer of a port (R406). -/
def missPart (s : State) (who : Nat) : Nat :=
  if who = 0 then 8192 else if who = 31 ∨ who = whoSys then 4096 else 49152 / max 1 s.tenants

/-- Bytes of outbound requests still waiting that an owner has in a port's miss buffer (R219). -/
def heldOutbound (s : State) (port who : Nat) : Nat :=
  (((portAt s port).misses.filter fun m => m.who == who).flatMap fun m =>
    (m.outbound.filter fun o => s.link.waiting.any fun w => w.1 == o.1).map (·.2)).foldl (· + ·) 0

/-- A frame held for a key miss is counted (R231, R234), S0. -/
def countMiss (s : State) (port : Nat) : State := { quietS0 s port with link.keyMiss := s.link.keyMiss + 1 }

/-- An outbound request, by its number, finds its key not in the engine (R219): it waits in the owner's part of the miss buffer
while the key is fetched, or, that part full, at its issuing engine. -/
def missHold (s : State) (port id : Nat) (r : SealReq) (de fe wire : Nat) : State :=
  let b := portAt s port
  let again := b.misses.any fun m => m.outbound.any fun o => o.1 == id
  let s1 := setPort s port { b with
    misses := b.misses.map fun m => { m with outbound := m.outbound.filter fun o => o.1 != id } }
  if missPart s1 r.slice < heldOutbound s1 port r.slice + wire then s1
  else missKey (if again then s1 else countMiss s1 port) port r.slice r.node de fe [] [(id, wire)]

/-- Count a frame under a flow key (R221): at the engine, and in the vault's allowance (R112). -/
def countKey (s : State) (node : Nat) (f : Flow) (bytes : Nat) (p : KeyPath) : State :=
  spendKey (setFlow s node (f.used (f.usedFrames + 1) (f.usedBytes + bytes))) p 1 bytes

/-- Seal new frames under the next flow epoch (R221). What has been accepted under its key counts already. -/
def rollSend (s : State) (node : Nat) (f : Flow) : State :=
  let p : KeyPath := .flow ((nodeUnit s node).getD 0) f.domainEpoch (f.flowEpoch + 1)
  let s1 := if (nodeUnit s node).isSome then needKey s p else s
  let c := usedSoFar s1 p
  setFlow { s1 with link.rollovers := s1.link.rollovers + 1 } node
    ({ f with flowEpoch := f.flowEpoch + 1, nextKey := false, awaitKey := false }.used c.1 c.2)

/-- A complement mismatch in a flow's send state (R231): S1, and the flow rolls to its next flow epoch at once, each next SEQ
repaired. -/
def repairFlow (s : State) (node unit : Nat) (f : Flow) : State :=
  rollSend (notice s 1 231 (nodePort s node) unit) node
    ((f.sendFrom (seqRepair f.sendSeq)).ackFrom (seqRepair f.ackSeq))

/-- The switch point of a flow (R220, R221): its frames go under the next epoch. Where its second slot holds the next domain epoch's key they
are held until T, and where the next key cannot be had until it comes (R113, R231), S1. -/
def switchFlow (s : State) (node : Nat) : State :=
  match flowAt s node, nodeUnit s node with
  | some f, some u =>
    if !f.sound then repairFlow s node u f
    else if !atSwitch f || f.flowEpoch ≠ f.recvEpoch || f.held then s
    else
      let next := s.dom.changing && (findKey s (.flow u s.dom.nextEpoch 0)).isSome
      let s1 := if next then s else needKey s (.flow u f.domainEpoch (f.flowEpoch + 1))
      if next then notice (setFlow s1 node { f with held := true }) 1 220 (nodePort s node) u
      else if (findKey s1 (.flow u f.domainEpoch (f.flowEpoch + 1))).isSome then rollSend s1 node f
      else if f.awaitKey then s1
      else notice (setFlow s1 node { f with awaitKey := true }) 1 220 (nodePort s node) u
  | _, _ => s

/-- The frames of a flow that are outstanding reach as far back as this SEQ. -/
def oldest (f : Flow) (seq : Nat) : Nat := f.outstanding.foldl (fun m o => max m (ahead seq o.1)) 0

/-- Ring bytes of a port that an owner's frames hold (R217, R406). -/
def ringUse (s : State) (port who : Nat) : Nat :=
  (s.link.flows.map fun f => (f.2.outstanding.map fun o =>
    if o.2.port == port && o.2.issuer.slice == who then o.2.wire else 0).foldl (· + ·) 0).foldl (· + ·) 0

/-- An owner's part of the 64 MiB ring of a port (R406). -/
def ringPart (s : State) (who : Nat) : Nat :=
  let part (w : Nat) : Nat := 2 ^ 26 * fabricRate s w / gbit 1600
  if who = whoSys then
    2 ^ 26 - part 0 - part 31 - ((List.range s.tenants).map fun i => part (i + 1)).foldl (· + ·) 0
  else part who

/-- An owner's share of a port, scaled for throttle and for active lanes (R230, R407), and its bucket's depth and level; a
bucket that nothing has drained is full. -/
def fabricShare (s : State) (port who : Nat) : Nat :=
  scaled s who (fabricRate s who) * (portAt s port).activeLanes / 4
def fabricDepth (s : State) (port who : Nat) : Nat := max (fabricShare s port who / 100000) 1080
def fabricLevel (s : State) (port who : Nat) : Nat := tgetD (portAt s port).bucket who (fabricDepth s port who)

/-- Take a frame's whole wire length from its bucket (R230). -/
def fabricTake (s : State) (port who wire : Nat) : State :=
  let b := portAt s port
  setPort s port { b with bucket := tset b.bucket who (fabricLevel s port who - wire) }

/-- The payload of a sealed frame: whole 16-byte blocks, at least one (R207). -/
def sealPayload (b : Bytes) : Bytes := fit (roundUp (max 1 b.length) 16) b

/-- Build and seal a frame (R207, R211, R212). -/
def makeFrame (own node unit : Nat) (f : Flow) (key : Key) (ftype : Nat) (space : Bool) (seq : Nat) (pt : Bytes) : Frame :=
  let f0 : Frame :=
    { routeDst := node, routeSrc := own, routeUse := 0, ftype := ftype,
      flags := f.flowEpoch % 2 + 2 * (f.domainEpoch % 2), dstNode := node, srcNode := own, payloadLen := pt.length,
      seq := seq, reserved := 0, payload := [], tag := 0 }
  let r := gcmSeal key (frameIv unitId unit space seq) (frameHead f0) pt
  { f0 with payload := r.1, tag := r.2 }

/-- The port by which a request leaves: its alloy's own (R30), or the one bound to the peer (R206). -/
def reqPort (s : State) (r : SealReq) : Nat := r.via.getD (nodePort s r.node)

/-- Why a request to seal must wait (R204, R217 to R220), if it must. -/
def sealWaits (s : State) (r : SealReq) (f : Flow) : Bool :=
  f.held || f.awaitKey || (ownNode s).isNone || decide (4096 ≤ oldest f f.nextData) ||
    decide (ringPart s r.slice < ringUse s (reqPort s r) r.slice + wireOf (roundUp (max 1 r.payload.length) 16))

/-- Whether a request passed on to sealing is done, must wait, or names no member. -/
inductive SealDone where
  | sealed (seq : Nat)
  | waits
  | notMember
  deriving DecidableEq, Repr

/-- Seal one outbound frame, whose request has this number, now, if nothing makes it wait (R212, R217): it takes the next SEQ, is outstanding, is copied to the
ring and goes to its port's egress. -/
def sealNow (s : State) (id : Nat) (r : SealReq) : State × SealDone :=
  if !memberNode s r.node then (s, .notMember)
  else
    let s := switchFlow s r.node
    match flowAt s r.node, nodeUnit s r.node, ownNode s with
    | some f, some u, some own =>
      let port := reqPort s r
      if sealWaits s r f then (s, .waits)
      else if !keyCached s port r.slice u f.domainEpoch f.flowEpoch then
        (missHold s port id r f.domainEpoch f.flowEpoch (wireOf (sealPayload r.payload).length), .waits)
      else
        match engKey s (sendKey u f) with
        | none => (missHold s port id r f.domainEpoch f.flowEpoch (wireOf (sealPayload r.payload).length), .waits)
        | some k =>
          let pt := sealPayload r.payload
          if !keyAllows s (sendKey u f) 1 pt.length then (s, .waits)
          else
          let fr := makeFrame own r.node u f k r.ftype false f.nextData pt
          let o : Sent :=
            { frame := fr, issuer := r, wire := wireOf pt.length, port := port, firstAt := none, lastAt := 0, sends := 0,
              waitUs := setting s 0x5000 2 }
          let s1 := touchKey s port r.slice u f.domainEpoch f.flowEpoch
          let b := portAt s1 port
          let s2 := setPort s1 port { b with egress := b.egress ++ [(r.node, f.nextData)] }
          let s3 := countKey s2 r.node
            ({ f with outstanding := tset f.outstanding f.nextData o, lastUse := s.ns }.sendFrom (nextSeq f.nextData)) pt.length (sendKey u f)
          let s4 := bumpUnit (bumpUnit s3 port 0 1) port 2 pt.length
          (tapEgress s4 r, .sealed f.nextData)
    | _, _, _ => (s, .waits)

/-- A queue's number for the tables of fences. -/
def fq (ctx queue : Nat) : Nat := ctx * 64 + queue

/-- A fence that covers waiting work now awaits its frame. -/
def fenceSent (s : State) (id node seq : Nat) : State :=
  { s with link.fences := s.link.fences.map fun f =>
      if f.unsent.contains id then { f with unsent := eraseN f.unsent id, waits := f.waits ++ [(node, seq)] } else f }

/-- Waiting work that is no longer owed leaves the fences that cover it. -/
def fenceDrop (s : State) (id : Nat) : State :=
  { s with link.fences := s.link.fences.map fun f => { f with unsent := eraseN f.unsent id } }

/-- Outbound work to a non-member completes DOMAIN_NOT_MEMBER (R191, R231). -/
def refuseSeal (s : State) (r : SealReq) : State := s.emit (.outboundRefused r.ctx r.gen r.queue r.node cDomainNotMember)

/-- Try every waiting request in turn. -/
def pumpList : List (Nat × SealReq) → State → State
  | [], s => s
  | (id, r) :: rest, s =>
    let t := sealNow s id r
    pumpList rest (match t.2 with
      | .sealed seq => fenceSent { t.1 with link.waiting := t.1.link.waiting.filter fun w => w.1 != id } id r.node seq
      | .notMember =>
        refuseSeal (fenceDrop { t.1 with link.waiting := t.1.link.waiting.filter fun w => w.1 != id } id) r
      | .waits => t.1)

/-- Waiting frames proceed as far as they now can. -/
def linkPump (s : State) : State := pumpList s.link.waiting s

/-- Take outbound work (R212): sealed at once, or waiting at its issuing engine without a status code. -/
def sendFrame (s : State) (r : SealReq) : State :=
  let t := sealNow s s.link.nextReq r
  match t.2 with
  | .sealed _ => t.1
  | .notMember => refuseSeal t.1 r
  | .waits => { t.1 with link.waiting := t.1.link.waiting ++ [(t.1.link.nextReq, r)], link.nextReq := t.1.link.nextReq + 1 }

/-- RECEIVER of a message to all members (R186). -/
abbrev toAll : Nat := 2 ^ 64 - 1

/-- The header of a domain control message from this unit (R186); a joiner names the domain it joins. -/
def domHead (s : State) (receiver txn : Nat) (status : Code) (body : Bytes) : DomHdr :=
  { version := 1, length := 44 + body.length,
    domainId := if s.dom.role = 4 then s.dom.join.domainId else s.dom.domainId, sender := unitId, receiver := receiver,
    epoch := s.dom.epoch, term := s.dom.term, txn := txn, status := status, reserved := 0 }

/-- The 44 bytes of a header (R186). -/
def domHeadBytes (kind : Nat) (h : DomHdr) : Bytes :=
  le 1 kind ++ le 1 h.version ++ le 2 h.length ++ le 8 h.domainId ++ le 8 h.sender ++ le 8 h.receiver ++ le 4 h.epoch ++
    le 4 h.term ++ le 4 h.txn ++ [h.status] ++ le 3 h.reserved

/-- The payloads that carry a message: at most 1,024 bytes each (R207, log 64). The fuel is the number of bytes. -/
def controlParts : Nat → Bytes → List Bytes
  | 0, _ => []
  | _, [] => []
  | n + 1, b => b.take 1024 :: controlParts n (b.drop 1024)

/-- Send a message to one member in sealed CONTROL frames of the pair's flow (R186, R208); brass has no way to a member that no
node is bound to. -/
def sendControl (s : State) (message : Bytes) (unit : Nat) : State :=
  match unitNode s unit with
  | some node => (controlParts message.length message).foldl (fun s p => sendFrame s
      { via := none, node := node, ftype := ftControl, payload := p, slice := whoSys, ctx := 0, gen := 0, queue := 0 }) s
  | none => s

/-- The members that a message to all reaches: not this unit, and none whose removal is held (R195). -/
def listeners (s : State) : List Nat :=
  (s.dom.members.map (·.unit)).filter fun u => u != unitId && !s.dom.triggers.contains u

/-- A port carries frames. -/
def portOpen (s : State) (port : Nat) : Bool := (portAt s port).up && s.crossOpen (32 + port)

/-- A frame that left is acknowledged on its link (R69): one event of FAB_ACKEVT, which no other rule names. DESIGN CHOICE (log 88). -/
def ackEvent (s : State) (port : Nat) : State := (ccEvents s (32 + port) (32 + port) 1).1

/-- Wire length of a JOIN frame, which has no tag (R207). -/
def clearWire (f : Frame) : Nat := 24 + f.payloadLen

/-- The JOIN frames of a port leave while the System bucket holds their length (R229, R230). The fuel is the number of frames. -/
def clearFrames : Nat → State → Nat → State
  | 0, s, _ => s
  | n + 1, s, port =>
    match (portAt s port).clear with
    | [] => s
    | f :: rest =>
      if !portOpen s port || decide (fabricLevel s port whoSys < clearWire f) then s
      else
        let s1 := fabricTake s port whoSys (clearWire f)
        clearFrames n (ackEvent ((setPort s1 port { portAt s1 port with clear := rest }).emit (.frame port f)) port) port

/-- JOIN frames of a port leave as far as they may. -/
def clearPump (s : State) (port : Nat) : State := clearFrames (portAt s port).clear.length s port

/-- The node and port by which a unit is reached: as bound (R206), or by the fabric manager's routing (R186, log 91). -/
def routeTo (s : State) (unit : Nat) : Nat × Nat :=
  match unitNode s unit with
  | some n => (n, nodePort s n)
  | none => ((Config.joinRoute unit).1.toNat, (Config.joinRoute unit).2.val)

/-- The fragments of a join message (R207, R208): SEQ is a fragment's byte offset, and LAST marks the last. -/
def joinFrames (own node : Nat) (message : Bytes) : List Frame :=
  let parts := controlParts message.length message
  (List.range parts.length).map fun i =>
    let p := parts.getD i []
    { routeDst := node, routeSrc := own, routeUse := 0, ftype := ftJoin, flags := 4 * b2n (i + 1 == parts.length), dstNode := node,
      srcNode := own, payloadLen := p.length, seq := 1024 * i, reserved := 0, payload := p, tag := 0 }

/-- Send a join message in cleartext frames (R186, R208). -/
def sendClear (s : State) (message : Bytes) (unit : Nat) : State :=
  let at' := routeTo s unit
  let b := portAt s at'.2
  clearPump (setPort s at'.2 { b with clear := b.clear ++ joinFrames (routeTo s unitId).1 at'.1 message }) at'.2

/-- Send a domain control message (R186): those of a join in the clear, the others sealed. -/
def sendDom (s : State) (kind receiver txn : Nat) (status : Code) (body : Bytes) : State :=
  let h := domHead s receiver txn status body
  if kind ≤ 6 then sendClear s (domHeadBytes kind h ++ body) receiver
  else
    (if receiver = toAll then listeners s else [receiver]).foldl (fun s u => sendControl s (domHeadBytes kind h ++ body) u) s

/-- Count and record a domain control message that is discarded (R186). -/
def domDiscard (s : State) : State :=
  notice { s with dom.discarded := s.dom.discarded + 1 } 0 186 uTcu 0

/-- The message types that sealed frames carry (R186). -/
def sealedKinds : List Nat := [0x10, 0x11, 0x12, 0x13, 0x14, 0x18, 0x20, 0x21, 0x22, 0x23, 0x28, 0x29, 0x30]

/-- The header that a CONTROL payload begins with is one that a receiver takes (R13, R186). -/
def controlOk (s : State) (b : Bytes) : Bool :=
  sealedKinds.contains (fld b 0 1) && fld b 1 1 == 1 && decide (44 ≤ fld b 2 2) && fld b 4 8 == s.dom.domainId && fld b 41 3 == 0

/-- Deliver the payload of a CONTROL frame to the TCU (R186, R208): a message that its LENGTH carries on is kept until its last
frame has come (log 64). -/
def takeControl (s : State) (node : Nat) (pt : Bytes) : State :=
  match flowAt s node with
  | none => s
  | some f =>
    let b := f.control ++ pt
    if !controlOk s b then domDiscard (setFlow s node { f with control := [] })
    else if b.length < fld b 2 2 then setFlow s node { f with control := b }
    else (setFlow s node { f with control := [] }).emit (.control node (b.take (fld b 2 2)))

/-- Sealed CONTROL frames that a leaving unit still holds leave before its flows go (R192, R194). -/
def flushControl (s : State) : State :=
  (s.link.ports.flatMap fun p => p.2.egress.map fun x => (p.1, x)).foldl (fun s x =>
    match (flowAt s x.2.1).bind fun f => tget f.outstanding x.2.2 with
    | some o => if o.frame.ftype = ftControl then s.emit (.frame x.1 o.frame) else s
    | none => s) s

/-- Distinct nodes in order. -/
def nodesOf (l : List (Nat × Nat)) : List Nat := l.foldl (fun a x => insertN a x.1) []

/-- Outcome word and fault address of FENCE_INDETERMINATE (R225, R329). -/
def fenceDetail (l : List Nat) : Nat := min l.length 0xFFFF * 2 ^ 16 + l.headD 0
def fenceAddr (l : List Nat) : Nat := l.getD 1 0 + l.getD 2 0 * 2 ^ 16 + l.getD 3 0 * 2 ^ 32

/-- The physical address of a fence's report (R225). -/
def reportAt (s : State) (ctx report : Nat) : Option Nat :=
  if report = 0 then none
  else match lookup s ctx ⟨report, 4096, true, true, false⟩ 0 with
    | .at false a _ => some a
    | _ => none

/-- What a sealed write adds to the state that a partner hands on (R200): its data bytes and its window. -/
def handoffWrite (s : State) (r : SealReq) : State :=
  match s.dom.handoff with
  | some h =>
    if r.ftype = ftRequest && fld r.payload 0 1 = 1 && unitNode s h.joiner == some r.node &&
        h.queue.all (· == (r.ctx, r.queue)) then
      { s with dom.handoff := some { h with
          queue := some (r.ctx, r.queue), bytes := h.bytes + fld r.payload 2 2
          windows := insertN h.windows (fld r.payload 4 4) } }
    else s
  | none => s

/-- The fence over the writes of a role's state (R200): OK ends them with STATE_MANIFEST; any other outcome voids the transfer, which
starts again at the next step boundary. -/
def handoffFence (s : State) (ctx queue : Nat) (code : Code) : State :=
  match s.dom.handoff with
  | some h =>
    if h.queue ≠ some (ctx, queue) then s
    else if code = cOk then
      sendDom { s with dom.handoff := none } 0x29 h.joiner 0 cOk
        (le 4 h.role ++ le 8 h.step ++ le 8 h.bytes ++ le 4 h.windows.length)
    else { s with dom.handoff := some { h with step := h.step + 1, queue := none, bytes := 0, windows := [] } }
  | none => s

/-- Complete a fence (R224) through its piece in the live-seal table. -/
def fenceDone (s : State) (f : FenceRec) (code : Code) (detail addr : Nat) : State :=
  let s0 := handoffFence s f.ctx f.queue code
  let s1 : State := { s0 with link.fences := s0.link.fences.filter fun g => g.slot != f.slot }
  match tget s1.gate.seals f.slot with
  | none => s1
  | some l =>
    retirePiece { s1 with gate.descs := tmod s1.gate.descs l.did fun d =>
      { d with faultAddr := if d.code = cOk then addr else d.faultAddr } } f.slot code detail

/-- Issue a fence (R224): it covers every frame of its queue issued before it, and takes the failure that the queue holds. -/
def issueFence (s : State) (ctx gen queue report slot : Nat) : State :=
  let waits := s.link.flows.flatMap fun f =>
    (f.2.outstanding.filter fun o => o.2.issuer.ctx == ctx && o.2.issuer.queue == queue && o.2.issuer.gen == gen).map
      fun o => (f.1, o.1)
  let unsent := (s.link.waiting.filter fun w => w.2.ctx == ctx && w.2.queue == queue && w.2.gen == gen).map (·.1)
  let f : FenceRec :=
    { ctx := ctx, gen := gen, queue := queue, slot := slot, report := report, waits := waits, unsent := unsent,
      fail := tgetD s.link.queueFail (fq ctx queue) cOk, startedAt := s.ns, timeoutMs := setting s 0x5000 1, lost := []
      reportTo := reportAt s ctx report }
  { s with link.fences := s.link.fences ++ [f], link.queueFail := tdel s.link.queueFail (fq ctx queue) }

/-- Fences that a queue has outstanding. -/
def fencesOf (s : State) (ctx queue : Nat) : Nat :=
  (s.link.fences.filter fun f => f.ctx == ctx && f.queue == queue).length

/-- Retire one frame with its ACK entry (R218): the first entry counts; a failure is reported by the first fence that the
queue issued after the frame, or held for the next (R224). -/
def retireFrame (s : State) (node seq : Nat) (code : Code) : State :=
  match flowAt s node with
  | none => s
  | some f =>
    match tget f.outstanding seq with
    | none => s
    | some o =>
      let r := o.issuer
      let s1 := setFlow s node { f with outstanding := tdel f.outstanding seq }
      let covers (g : FenceRec) : Bool := g.waits.contains (node, seq)
      let first := s1.link.fences.find? covers
      let s2 : State := { s1 with
        link.fences := s1.link.fences.map fun g =>
          if covers g then
            { g with waits := g.waits.filter (· != (node, seq))
                     fail := if code ≠ cOk && first == some g && g.fail = cOk then code else g.fail }
          else g
        link.queueFail :=
          if code ≠ cOk && first.isNone && r.ctx ≠ 0 && (tget s1.link.queueFail (fq r.ctx r.queue)).isNone then
            tset s1.link.queueFail (fq r.ctx r.queue) code
          else s1.link.queueFail }
      { s2 with link.ports := s2.link.ports.map fun p =>
          (p.1, { p.2 with egress := p.2.egress.filter (· != (node, seq)) }) }

/-- Abandon a frame (R225): it is neither retransmitted nor awaited. -/
def abandonFrame (s : State) (node seq : Nat) : State :=
  match flowAt s node with
  | none => s
  | some f =>
    { setFlow s node { f with outstanding := tdel f.outstanding seq } with
      link.fences := s.link.fences.map fun g => { g with waits := g.waits.filter (· != (node, seq)) }
      link.ports := s.link.ports.map fun p =>
        (p.1, { p.2 with egress := p.2.egress.filter (· != (node, seq)) }) }

/-- A fence whose frames to some destinations are given up (R224, R225): FENCE_INDETERMINATE names the nodes, its report lists their units,
written under the context's stamp (R31), and every frame that it covers to them is abandoned. -/
def fenceLost (s : State) (f : FenceRec) : State :=
  let nodes := f.lost.map (·.1)
  let report := (f.lost.take 512).flatMap fun n => le 8 n.2
  let s1 := match f.reportTo with
    | some a =>
      match tierAVerdict s f.ctx f.gen a report.length true with
      | some v => afterVerdict s v f.ctx
      | none => tierAWrite s a report
    | none => s
  let s2 := fenceDone { s1 with link.fenceIndet := s1.link.fenceIndet + 1 } f cFenceIndeterminate (fenceDetail nodes) (fenceAddr nodes)
  let s3 := (f.waits.filter fun w => nodes.contains w.1).foldl (fun s w => abandonFrame s w.1 w.2) s2
  let late := (s3.link.waiting.filter fun w => f.unsent.contains w.1 && nodes.contains w.2.node).map (·.1)
  late.foldl fenceDrop { s3 with link.waiting := s3.link.waiting.filter fun w => !late.contains w.1 }

/-- The first fence of each queue completes (R224): with the destinations given up, or, satisfied, with its first failure or OK, in the order
of issue. The fuel is the number of fences. -/
def fencePump : Nat → State → State
  | 0, s => s
  | n + 1, s =>
    let first (f : FenceRec) : Bool :=
      (s.link.fences.find? fun g => g.ctx == f.ctx && g.queue == f.queue) == some f
    match s.link.fences.find? fun f => first f && (f.lost != [] || (f.waits == [] && f.unsent == [])) with
    | none => s
    | some f => fencePump n (if f.lost = [] then fenceDone s f f.fail 0 0 else fenceLost s f)

/-- A fifth fence waits in its queue until one of the four completes (R224). -/
def fenceNext : Nat → State → State
  | 0, s => s
  | n + 1, s =>
    match s.link.fenceWaits.find? fun w => decide (fencesOf s w.1 w.2.1 < 4) with
    | none => s
    | some w =>
      let gen := ((tget s.gate.seals w.2.2.2).map (·.gen)).getD 0
      fenceNext n (issueFence { s with link.fenceWaits := s.link.fenceWaits.erase w } w.1 gen w.2.1 w.2.2.1 w.2.2.2)

/-- Settle the fences, those that waited behind them, and what their completions release. -/
def fenceSettle (s : State) : State :=
  let s1 := fencePump s.link.fences.length s
  let s2 := fenceNext s1.link.fenceWaits.length s1
  settle (fencePump s2.link.fences.length s2)

/-- A fence learns that destinations are given up (R224): each node with its unit. -/
def loseNodes (s : State) (g : FenceRec) (nodes : List Nat) : FenceRec :=
  { g with lost := g.lost ++ (nodes.filter fun n => !g.lost.any fun x => x.1 == n).map fun n => (n, (nodeUnit s n).getD 0) }

/-- Give up a set of frames (R223, R224): they are abandoned, and every fence that covers one of them has lost its destination. -/
def giveUp (s : State) (lost : List (Nat × Nat)) : State :=
  lost.foldl (fun s x => abandonFrame s x.1 x.2) { s with
    link.fences := s.link.fences.map fun g => loseNodes s g (nodesOf (g.waits.filter fun w => lost.contains w)) }

/-- A node's place where no frame is sent to it: beyond the 13 bits of a node index. -/
def parkedNode (unit : Nat) : Nat := 8192 + unit

/-- Everything that names one node now names another (R206): a binding with its flow, the fences that await its frames, and
the engines' queues. -/
def moveNode (s : State) (a b : Nat) : State :=
  let re (n : Nat) : Nat := if n = a then b else n
  let tab {α : Type} (t : Table α) : Table α := (tget t a).elim t fun v => tset (tdel t a) b v
  { s with
    link.nodes := tab s.link.nodes
    link.flows := tab s.link.flows
    link.waiting := s.link.waiting.map fun w => (w.1, { w.2 with node := re w.2.node })
    link.fences := s.link.fences.map fun g =>
      { g with waits := g.waits.map fun w => (re w.1, w.2), lost := g.lost.map fun x => (re x.1, x.2) }
    link.ports := s.link.ports.map fun p => (p.1, { p.2 with
      egress := p.2.egress.map fun x => (re x.1, x.2)
      misses := p.2.misses.map fun m => { m with peer := re m.peer } }) }

/-- A unit's flow keys at another port's engine (R191, R219): a change of route or port causes no miss. -/
def carryKeys (s : State) (unit port port' : Nat) : State :=
  if port = port' then s
  else ((portAt s port).keyCache.filter fun e => e.2.1 == unit).foldl
    (fun s e => loadKey s port' e.1 unit e.2.2.1 e.2.2.2) s

/-- Bind a node to a unit and its port (R206): the unit's flow follows it, and a member that the node was bound to keeps its own
flow, unreached until it is bound again (R204). -/
def bindNode (s : State) (node unit port : Nat) : State :=
  let s1 := match nodeUnit s node with
    | some old =>
      if old = unit then s
      else if s.dom.members.any (fun m => m.unit == old) then moveNode s node (parkedNode old)
      else { s with link.nodes := tdel s.link.nodes node }
    | none => s
  let s2 := match unitNode s1 unit with
    | some m => if m = node then s1 else moveNode s1 m node
    | none => s1
  let s3 := carryKeys { s2 with link.nodes := tset s2.link.nodes node (unit, port) } unit (((tget s2.link.nodes node).map (·.2)).getD port) port
  if memberNode s3 node && (flowAt s3 node).isNone then setFlow s3 node (newFlow s3) else s3

/-- A member enters the list: its flow is created (R204). -/
def addPeer (s : State) (m : Member) : State :=
  let s1 : State := if s.dom.members.any fun x => x.unit == m.unit then s
    else { s with dom.members := s.dom.members ++ [m] }
  bindNode s1 m.node m.unit m.port

/-- A member leaves the list (R204, R224): its flow and keys go, and the fences that await it complete at once. -/
def removePeer (s : State) (unit : Nat) : State :=
  let s0 : State := { s with dom.members := s.dom.members.filter fun m => m.unit != unit }
  match unitNode s0 unit with
  | none => s0
  | some node =>
    let lost := ((flowAt s0 node).map fun f => f.outstanding.map fun o => (node, o.1)).getD []
    let owed := (s0.link.waiting.filter fun w => w.2.node == node).map (·.1)
    let mark (g : FenceRec) : FenceRec := if g.unsent.any owed.contains then loseNodes s0 g [node] else g
    let s1 := giveUp { s0 with link.fences := s0.link.fences.map mark } lost
    let s2 : State := { s1 with
      link.flows := tdel s1.link.flows node
      link.nodes := if unit = unitId then s1.link.nodes else tdel s1.link.nodes node
      link.ports := s1.link.ports.map fun p =>
        (p.1, { p.2 with keyCache := p.2.keyCache.filter fun e => e.2.1 != unit
                         misses := p.2.misses.filter fun m => m.peer != node }) }
    let s3 := dropKeys s2 fun k => match k with
      | .flow u _ _ => u == unit
      | _ => false
    fenceSettle (linkPump s3)

/-- Retire the old flow key of a roll-over (R222); the pre-derivation for an armed domain-epoch change then runs (R220). -/
def retireKey (s : State) (node : Nat) : State :=
  match flowAt s node, nodeUnit s node with
  | some f, some u =>
    match f.prevEpoch with
    | none => s
    | some e =>
      let s1 := destroyKey (setFlow s node { f with prevEpoch := none, rolloverAt := none, rolloverSeq := 0 })
        (.flow u f.domainEpoch e)
      if s1.dom.changing && s1.dom.switchAt.isSome then needKey s1 (.flow u s1.dom.nextEpoch 0) else s1
  | _, _ => s

/-- The key of a next flow epoch that no frame has used yet (R220). -/
def nextUnused (s : State) (p : KeyPath) : Bool :=
  match p with
  | .flow u de fe => s.link.flows.any fun f =>
      nodeUnit s f.1 == some u && f.2.domainEpoch == de && fe == f.2.flowEpoch + 1 && f.2.flowEpoch == f.2.recvEpoch
  | _ => false

/-- The key switch at T (R193 step 6, R223): new frames go under epoch k + 1, flow epoch 0, whose usage counts what was accepted under it
before T; epoch k stays accepted for 1 ms, and held frames proceed. A next flow epoch's key that nothing has used leaves the
second slot to the new epoch's (R220). -/
def switchDomain (s : State) : State :=
  let s1 := dropKeys s (nextUnused s)
  linkPump { s1 with link.flows := s1.link.flows.map fun f =>
    let c := usedSoFar s1 (.flow ((nodeUnit s1 f.1).getD 0) s.dom.nextEpoch 0)
    (f.1, { f.2 with
      old := some (f.2.domainEpoch, f.2.recvEpoch, f.2.prevEpoch), domainEpoch := s.dom.nextEpoch, flowEpoch := 0
      recvEpoch := 0, prevEpoch := none, nextKey := false, rolloverAt := none, rolloverSeq := 0, held := false
      awaitKey := false }.used c.1 c.2) }

/-- T + 1 ms (R223): frames of the expired epoch that are still outstanding are abandoned, with FENCE_INDETERMINATE on the
fences that cover them; its keys leave the engines. -/
def expireDomain (s : State) (old : Nat) : State :=
  let lost := s.link.flows.flatMap fun f => (f.2.outstanding.filter fun o =>
    o.2.frame.flags / 2 % 2 == old % 2).map fun o => (f.1, o.1)
  let s1 := giveUp s lost
  fenceSettle (linkPump { s1 with
    link.flows := s1.link.flows.map fun f => (f.1, { f.2 with old := none })
    link.ports := s1.link.ports.map fun p => (p.1, { p.2 with
      keyCache := p.2.keyCache.filter fun e => e.2.2.1 != old
      misses := p.2.misses.filter fun m => m.domEpoch != old }) })

end Sys2Proof.Machine
end

