-- ==== Sys2Proof/Machine/HostOps.lean ====
section
/-!
DEFINITION. HostOps.lean: the SPDM session's end and the shared parts of host sealing (R305, R313, R322).
-/
namespace Sys2Proof.Machine

/-- The host-DMA pieces in the live-seal table, with whether each has started. -/
def hostPieces (s : State) : List (Nat × Bool) :=
  (s.gate.seals.filter fun p => p.2.cls == kHostDma).map fun p =>
    (p.1, s.host.work.any fun w => w.slot == p.1)

/-- End the SPDM session (R322, R66): descriptors not started complete with `idle`; records in progress complete under their
key, or with `cut` where one is given; then the keys go and SESSION_ENDED is posted on every page. A handshake just ends. -/
def endSpdm (s : State) (idle : Code) (cut : Option Code) : State :=
  if s.host.session = 0 then s
  else if s.host.session = 1 then spdmClear s
  else
    let s1 := (hostPieces s).foldl (fun s p =>
      if p.2 then
        match cut with
        | some c => retirePiece s p.1 c 0
        | none => s
      else retirePiece s p.1 idle 0) s
    settle { s1 with host.session := 3 }

/-- A context's window; a new generation starts with h = 0, every entry clear, and SEQ 1 next (R309, R313). -/
def winAt (s : State) (c : Nat) : HostWindow := tgetD s.host.windows c ⟨0, 0, 1⟩

/-- SEQ is not 0, not too old and no duplicate (R312 check 4, R313). -/
def winFresh (w : HostWindow) (seq : Nat) : Bool :=
  decide (0 < seq) &&
    (if w.high < seq then true
     else decide (w.high - seq < 1024) && !(w.bits.getLsbD (seq % 1024)))

/-- Accept a SEQ (R313): entries between the old h and a new one are cleared, then the entry is set. -/
def winTake (w : HostWindow) (seq : Nat) : HostWindow :=
  let cleared : BitVec 1024 :=
    if w.high < seq then
      if 1024 ≤ seq - w.high then 0
      else ((List.range (seq - w.high - 1)).foldl
        (fun b i => b &&& ~~~(1#1024 <<< ((w.high + 1 + i) % 1024))) w.bits)
    else w.bits
  { w with high := max w.high seq, bits := cleared ||| (1#1024 <<< (seq % 1024)) }

/-- A bounce key (R303): 32 bytes expanded from a direction's application secret. -/
def bounceKey (secret : BitVec 384) (slice : Nat) : Key :=
  Config.hkdfExpand32 secret (le 2 0x20 ++ ascii "spdm1.3 vtc bounce" ++ le 1 slice)

/-- Derive a slice's bounce key of one direction at its current generation (R303), held by the system share of partition 3. -/
def deriveBounce (s : State) (slice dir : Nat) : State :=
  match keyWide s (.appSecret dir) with
  | some v => importKey s (bounceNow s slice dir) ((bounceKey (v.setWidth 384) slice).setWidth 512) 256 3 (freeSlotIn s 3) 32 4
  | none => s

/-- Why n more secrets cannot be held in the system share of partition 3 (R88, R99, R100), if they cannot. -/
def secretRefused (s : State) (n : Nat) : Option Code :=
  if !s.vault.entropyOk then some cExecutorReset
  else if partUse s 3 + n ≤ partSize 3 ∧ serviceUse s 32 + n ≤ serviceShare s 32 then none else some cKeySlotsFull

/-- Hold a direction's application secret (R103, R303), 0 inbound and 1 outbound, in the system share of partition 3 (R115). A secret of
384 bits takes one working slot, though a slot has 256: the manual does not say how many it takes. DESIGN CHOICE (log 82). -/
def putAppSecret (s : State) (dir : Nat) (v : BitVec 384) : State :=
  importKey s (.appSecret dir) (v.setWidth 512) 384 3 (freeSlotIn s 3) 32 0

/-- Advance a direction's application secret by one key update (R304). -/
def updateSecret (s : State) (dir : Nat) : State :=
  match keyWide s (.appSecret dir) with
  | some v => putAppSecret s dir (Config.spdmUpdate (v.setWidth 384))
  | none => s

/-- A slice that comes into service while a session is open gets its keys (R303). Its page's SEQ is the session's (R316). -/
def hostSliceIn (s : State) (slice : Nat) : State :=
  if s.host.session = 2 then deriveBounce (deriveBounce s slice 0) slice 1 else s

/-- The keys of a slice that leaves service go (R303). -/
def hostSliceOut (s : State) (slice : Nat) : State :=
  dropKeys s fun p => match p with
    | .bounce n _ _ => n == slice
    | _ => false

end Sys2Proof.Machine
end

