-- ==== Sys2Proof/Machine/Vault.lean ====
section
/-!
DEFINITION. Vault.lean: the meanings of the key vault's commands (chapter 3).
-/
namespace Sys2Proof.Machine

/-- ENTROPY_HEALTH_FAIL (R88): an S3 error for the vault; until its reset no random value is made. -/
def execEntropyHealthFail (s : State) : Host.Outcome State Fault Refusal :=
  done <| if s.pow.sessionOpen && s.pow.iod then
    raiseS3 { s with vault.entropyOk := false } uVault 88 0
  else s

/-- DRBG_RESEED (R87): due after 2^20 generate requests or 10 s; the count and the time start again. -/
def execDrbgReseed (s : State) : Host.Outcome State Fault Refusal :=
  done <| if s.pow.iod && s.vault.seeded && s.vault.entropyOk &&
      (decide (2 ^ 20 ≤ s.vault.requests) || decide (s.vault.reseedAt + 10000000000 ≤ s.ns)) then
    { s with vault.requests := 0, vault.reseedAt := s.ns }
  else s

/-- The path that a request's label, parent and context name (R97); the service slot that a channel key would take is a free one. -/
def reqPath (s : State) (r : DeriveReq) : Option KeyPath :=
  let c (off n : Nat) : Nat := beNat ((r.context.drop off).take n)
  let l := fit 12 r.label
  let is (t : String) : Bool := l == fit 12 (ascii t)
  if is "VTC.IDECC" then some .idEcc
  else if is "VTC.IDMLDSA" then some .idMldsa
  else if is "VTC.STORE" then some (.store (c 0 1))
  else if is "VTC.OPER" then some .oper
  else if is "VTC.SESSION" then some .session
  else if is "VTC.GATE" then some .gate
  else if is "VTC.TREE" then some (.tree (c 0 1))
  else if is "VTC.WRAP" then some .wrap
  else if is "VTC.SLCMEM" then some (.slcmem (c 0 1))
  else if is "VTC.SLCSVC" then some (.slcsvc (c 0 1))
  else if is "VTC.DIGEST" then some (.digest (c 0 1))
  else if is "VTC.PAGE" then some (.page (c 0 1))
  else if is "VTC.CTXMEM" then some (.ctxmem (c 0 2) (c 2 2))
  else if is "VTC.CTXAUX" then some (.ctxaux (c 0 2) (c 2 2))
  else if is "VTC.REGION" then some (.region (c 0 2) (c 2 4))
  else if is "VTC.FLOW" then
    some (.flow (if c 0 8 = unitId then c 8 8 else c 0 8)
      (if r.parent = .nextDomainKey then s.dom.nextEpoch else s.dom.epoch) (c 16 4))
  else if is "VTC.CHAN" then
    match r.parent with
    | .slcsvc n => some (.chan n (freeSlotIn s 3))
    | _ => none
  else none

/-- Whether a request matches its row: label, parent, context and length (R97). -/
def reqOk (s : State) (r : DeriveReq) (p : KeyPath) : Bool :=
  match p with
  | .chan n _ => decide (n < 32) && r.context.length == 34 && r.lenBits == 256
  | _ =>
    match treeRow s p with
    | none => false
    | some row => row.parent == some r.parent && row.ctx == r.context && row.len == r.lenBits &&
        fit 12 row.label == fit 12 r.label

/-- Engines take a key into their registers (R101, R107 step 3): the region's key store marks it held. -/
def deliver (s : State) (p : KeyPath) : State :=
  match p with
  | .region r _ => { s with mem.regions := tmod s.mem.regions r fun g => { g with key := true } }
  | _ => s

/-- Compute the key of a request into its slot (R97, R100): the code where no key comes of it is KEY_SLOTS_FULL for a slice beyond its
share of partition 3. -/
def fillSlot (s : State) (r : DeriveReq) (p : KeyPath) : State × Code :=
  match p with
  | .chan n slot =>
    if slotRoom s p 3 n then (putChan s n slot r.context, cKeyDestroyed) else (s, cKeySlotsFull)
  | _ => (derive 4 s p, cKeyDestroyed)

/-- Serve one derivation request (R97, R100, R101): one off the tree is refused KEY_DESTROYED with an S0 record; otherwise the key is
derived into its slot and delivered, unless the engine's USE bit is 0. -/
def serveReq (s : State) (r : DeriveReq) : State :=
  match reqPath s r with
  | none => notice { s with vault.result := cKeyDestroyed } 0 97 uVault 0
  | some p =>
    if !reqOk s r p || !pathLive s p then notice { s with vault.result := cKeyDestroyed } 0 97 uVault 0
    else
      let f := fillSlot s r p
      match findKey f.1 p with
      | none => { f.1 with vault.result := f.2 }
      | some k =>
        if r.engine < 8 && bit k.attr.toNat r.engine then deliver { f.1 with vault.result := cOk } p
        else notice { f.1 with vault.result := cKeyDestroyed } 0 101 uVault 0

/-- The order of priority of requests (R102): flow keys, region keys, context keys, all other keys. -/
def reqRank (r : DeriveReq) : Nat :=
  let is (t : String) : Bool := fit 12 r.label == fit 12 (ascii t)
  if is "VTC.FLOW" then 0 else if is "VTC.REGION" then 1 else if is "VTC.CTXMEM" || is "VTC.CTXAUX" then 2 else 3

/-- The tenant slice that a request is made for, if it is (R102). -/
def reqTenant (r : DeriveReq) : Option Nat := if 1 ≤ r.slice ∧ r.slice ≤ 16 then some r.slice else none

/-- A tenant slice's part of 200,000 derivations in one second (R102, R547). -/
def reqBudget (s : State) : Nat := 200000 / s.tenants

/-- Whether a request may be served in this second (R102). -/
def reqReady (s : State) (r : DeriveReq) : Bool :=
  match reqTenant r with
  | none => true
  | some n => decide (limCount s (.other (4096 + n)) < reqBudget s)

/-- The next request to serve (R102): the oldest of the highest priority whose slice has budget left. -/
def nextReq (s : State) : Option DeriveReq :=
  (List.range 4).findSome? fun k => s.vault.queue.find? fun r => reqRank r == k && reqReady s r

/-- Serve the requests that can be served (R102). The fuel is the number that wait. -/
def serveQueue : Nat → State → State
  | 0, s => s
  | n + 1, s =>
    match nextReq s with
    | none => s
    | some r =>
      let s1 : State := { s with vault.queue := s.vault.queue.erase r }
      let s2 := match reqTenant r with
        | none => s1
        | some n => limHit s1 (.other (4096 + n))
      serveQueue n (serveReq s2 r)

/-- The vault serves requests: its rails are up, it holds the root and its random source works (R88, R91). -/
def vaultServes (s : State) : Bool := s.pow.iod && s.vault.rootState == 2 && !s.pow.quenched && s.vault.entropyOk

/-- KEY_DERIVATION (R97, R102): the request joins the queue of 256, and what the slices' budgets allow is served in order of priority.
A requester whose request finds the queue full holds it back (log 55). -/
def execKeyDerivation (r : DeriveReq) (s : State) : Host.Outcome State Fault Refusal :=
  done <| if vaultServes s then
    if 256 ≤ s.vault.queue.length then serveQueue 256 s
    else serveQueue 257 { s with vault.queue := s.vault.queue ++ [r] }
  else s

/-- What a replacement brings into a slot (R107 step 1): the value, the attribute word, the count that it resumes from, and its
derivation path. -/
structure FreshKey where
  value : BitVec 512
  attr : BitVec 16
  items : Nat
  label : Bytes
  parent : Option KeyPath
  context : Bytes

/-- The attribute word that a blob leaves in the slot that it replaces (R101, R105): a write may clear bits and sets none, and NX, whose
clearing would let the key out, stands (R116). -/
def replacedAttr (old new : BitVec 16) : BitVec 16 := (old &&& new) ||| (old &&& 0x8000#16)

/-- The new key of a replacement (R107 step 1): derived from the path's row, or opened from a blob, which may not widen the slot's
USE (R105). -/
def freshKey (s : State) (k : KeySlot) : ReplaceSrc → Option FreshKey
  | .blob b =>
    match unwrap s (classOf k.part k.slot) b with
    | some (v, used) =>
      if (BitVec.setWidth 8 b.attr &&& ~~~BitVec.setWidth 8 k.attr) = 0#8 then
        some ⟨v.setWidth 512, replacedAttr k.attr b.attr, used, [], none, []⟩
      else none
    | none => none
  | .derived =>
    match treeRow s k.path with
    | none => none
    | some row =>
      match row.parent with
      | none => none
      | some q => (deriveFrom s q row.label row.ctx row.len).map fun v => ⟨v, k.attr, 0, row.label, some q, row.ctx⟩

/-- The key check value of a slot of a width (R106): a value wider than the key that R106 takes has one that the manual does not give
(log 4). -/
def kcvOf (width : Nat) (v : BitVec 512) : BitVec 32 :=
  if width ≤ 256 then kcv (v.setWidth 256) else Config.kcvWide v

/-- Start a replacement (R107 steps 1 to 4): staged, checked against its KCV, delivered to the shadow registers, and switched at the
engines' next item boundary. -/
def startReplace (s : State) (p : KeyPath) (src : ReplaceSrc) (want : BitVec 32) : State :=
  match findKey s p with
  | none => { s with vault.result := cKeyDestroyed }
  | some k =>
    match freshKey s k src with
    | none => { s with vault.result := match src with
        | .blob _ => cKeyUnwrapFail
        | .derived => cKeyDestroyed }
    | some n =>
      if !s.vault.entropyOk then { s with vault.result := cExecutorReset }
      else if kcvOf k.width n.value = want then
        let sub := if bit n.attr.toNat 7 then some (Shares.of (subValue n.value) (s.drew.drawn 512)) else none
        let r : Replacing :=
          { path := p, key := Shares.of n.value (s.drawn 512), sub := sub, items := n.items, attr := n.attr, label := n.label,
            parent := n.parent, context := n.context, queued := [] }
        let s1 : State := { s.drew.drew with vault.replacing := r :: s.vault.replacing, vault.result := cOk }
        let v := Shares.of n.value (s1.drawn 512)
        switchReg (keySend (modReg s1.drew p fun g => { g with shadow := some v }) (((findReg s1 p).map (·.leaves)).getD []) v) p
      else { s with vault.result := cKeyCheckMismatch }

/-- Start the first of the queued replacements that passes its checks; those behind it wait on (R108). -/
def startQueued : List (ReplaceSrc × BitVec 32) → State → KeyPath → State
  | [], s, _ => s
  | (src, want) :: rest, s, p =>
    let s1 := startReplace s p src want
    if s1.vault.replacing.any fun r => r.path == p then
      { s1 with vault.replacing := s1.vault.replacing.map fun q => if q.path == p then { q with queued := rest } else q }
    else startQueued rest s1 p

/-- REPLACE (R107, R108): staged and checked against its KCV; a second one of the same slot is queued. -/
def execReplace (p : KeyPath) (src : ReplaceSrc) (want : BitVec 32) (s : State) :
    Host.Outcome State Fault Refusal :=
  done <| if s.pow.iod && s.vault.rootState == 2 && !s.pow.quenched then
    if (findKey s p).isNone then { s with vault.result := cKeyDestroyed }
    else if s.vault.replacing.any fun r => r.path == p then
      { s with vault.replacing := s.vault.replacing.map fun r =>
          if r.path == p then { r with queued := r.queued ++ [(src, want)] } else r }
    else startReplace s p src want
  else s

/-- REPLACE_COMPLETE (R107 step 5), which is only when every engine has switched: the old key is zeroised and the staging slot becomes
the slot, with what the engine has counted of the new key since; a queued REPLACE then starts. -/
def execReplaceComplete (p : KeyPath) (s : State) : Host.Outcome State Fault Refusal :=
  done <| if s.pow.iod && !s.pow.quenched then
    let s0 := switchReg s p
    match s0.vault.replacing.find? fun r => r.path == p with
    | some r =>
      if (findReg s0 p).any fun g => g.shadow.isSome then s0
      else
        let s1 := modKey { s0 with vault.replacing := s0.vault.replacing.filter fun r => r.path != p } p fun k =>
          { (k.used r.items 0) with
            key := r.key, sub := r.sub, attr := r.attr, label := r.label, parent := r.parent, context := r.context
            notice := false, limit := false }
        startQueued r.queued (reportKey s1 p) p
    | none => s
  else s

/-- The keys that never leave the vault in any form, whatever their attribute word says (R116). -/
def neverOut : KeyPath → Bool
  | .lcroot => true
  | .session => true
  | .idEcc => true
  | .idMldsa => true
  | .store _ => true
  | .oper => true
  | _ => false

/-- KEY_EXPORT (R101, R104, R112, R116): only where the attributes allow the wrapper; each wrap counts against it. -/
def execKeyExport (p : KeyPath) (wrapper : Nat) (s : State) : Host.Outcome State Fault Refusal :=
  done <| if s.pow.iod && s.vault.rootState == 2 && !s.pow.quenched then
    match findKey s p, wrapperPath wrapper with
    | some k, some w =>
      if neverOut p || bit k.attr.toNat 15 || !(if wrapper = 14 then bit k.attr.toNat 14 else bit k.attr.toNat 13) then
        { s with vault.result := cKeyDestroyed }
      else
        match wrapRefused s w, key256 s w, key256 s p with
        | some code, _, _ => { s with vault.result := code }
        | none, none, _ => { s with vault.result := cKeyDestroyed }
        | none, some _, none => { s with vault.result := cKeyDestroyed }
        | none, some v, some own =>
          let s1 := reportKey s p
          let b := wrapBlob s1 ((findKey s1 p).getD k) own wrapper v
          { ((spendKey s1.drew w 1 0).emit (.wrapped b)) with vault.result := cOk }
    | _, _ => { s with vault.result := cKeyDestroyed }
  else s

/-- Import a blob into a service slot of a slice (R105, R100): the code, and the slot's path when it was taken. -/
def importBlob (s : State) (slice : Nat) (b : WrappedBlob) : State × Code :=
  match unwrap s 3 b with
  | none => (s, cKeyUnwrapFail)
  | some (k, used) =>
    let p : KeyPath := .chan slice (freeSlotIn s 3)
    if !s.vault.entropyOk then (s, cExecutorReset)
    else if !slotRoom s p 3 slice then (s, cKeySlotsFull)
    else
      let left := allowance p used 0
      let s1 := putKey (reborn s p) p (k.setWidth 512) 256 3 (freeSlotIn s 3) slice b.attr [] none []
      (modReg (modKey s1 p fun k => k.used used 0) p fun r => r.setLeft left, cOk)

/-- KEY_IMPORT (R105): verified and put into a slot, counting on from USED, or refused KEY_UNWRAP_FAIL. -/
def execKeyImport (slice ctx : Nat) (b : WrappedBlob) (s : State) : Host.Outcome State Fault Refusal :=
  done <| if s.up && sliceInService s slice && (ctxAt s ctx).slice == slice then
    let r := importBlob s slice b
    { r.1 with vault.result := r.2 }
  else s

/-- Refresh every slot, each value with its own fresh draw (R110): the key, then a parent's subkeys. -/
def annealSlots : Nat → List KeySlot → List KeySlot
  | _, [] => []
  | n, k :: r =>
    { k with key := k.key.refresh (Config.freeBits 512 n), sub := k.sub.map (Shares.refresh · (Config.freeBits 512 (n + 1))) } ::
      annealSlots (n + 2) r

/-- Refresh the staging slots like any other (R111). -/
def annealStaged : Nat → List Replacing → List Replacing
  | _, [] => []
  | n, k :: r =>
    { k with key := k.key.refresh (Config.freeBits 512 n), sub := k.sub.map (Shares.refresh · (Config.freeBits 512 (n + 1))) } ::
      annealStaged (n + 2) r

/-- Engines refresh their key registers from their own mask generator, reseeded at the start of the cycle (R110). -/
def annealRegs (seed : BitVec 256) : Nat → List KeyReg → List KeyReg
  | _, [] => []
  | n, r :: rest =>
    { r with active := r.active.refresh (Config.maskGen seed n), shadow := r.shadow.map (Shares.refresh · (Config.maskGen seed (n + 1))) } ::
      annealRegs seed (n + 2) rest

/-- One anneal cycle (R110, R111): the engines' generator gets its 32-byte reseed, and every occupied slot, every staging slot and every
engine key register is refreshed. The key of a running job is being read, and its refresh waits (R35). -/
def anneal (s : State) : State :=
  let seed : BitVec 256 := s.drawn 256
  let s1 := s.drew
  let n := 2 * (s1.vault.slots.length + s1.vault.replacing.length)
  { s1 with
    vault.maskSeed := seed
    vault.slots := annealSlots s1.free s1.vault.slots
    vault.replacing := annealStaged (s1.free + 2 * s1.vault.slots.length) s1.vault.replacing
    vault.regs := annealRegs seed 0 s1.vault.regs
    free := s1.free + n
    vault.requests := s1.vault.requests + n }

/-- The reseed of the engines' mask generators (R110): one message of 32 bytes to each engine at a leaf. -/
def reseedLeaves (s : State) : State :=
  (List.range 18 ++ [0x20, 0x21, 0x22, 0x23, uHse]).foldl
    (fun s u => netSend s uVault u .reseed (be 32 s.vault.maskSeed.toNat)) s

/-- ANNEAL_CYCLE (R110, R111, R120): due each period, of which the setting acts from the next one's start; missed and counted while the
random source has failed, the third missed in a row being S3. -/
def execAnnealCycle (durationMs : Nat) (s : State) : Host.Outcome State Fault Refusal :=
  done <| if s.pow.iod && !s.pow.quenched && s.vault.seeded &&
      decide (s.vault.annealAt + s.vault.annealPeriod * 1000000 ≤ s.ns) then
    let s1 : State := { s with vault.annealAt := s.ns, vault.annealPeriod := setting s 0x2100 2 }
    if s.vault.entropyOk then
      { (reseedLeaves (anneal s1)) with
        vault.cycles := s.vault.cycles + 1
        vault.lastCycleMs := min durationMs 20
        vault.missedCycles := 0 }
    else
      let s2 : State := { s1 with
        vault.annealMissed := sat 8 (s.vault.annealMissed + 1), vault.missedCycles := s.vault.missedCycles + 1 }
      if s2.vault.missedCycles = 3 then raiseS3 s2 uVault 111 0 else s2
  else s

/-- USAGE_REPORT (R112): the engine's count of a key reaches the vault; a count that an engine outside the model gives stands where it
is higher. -/
def execUsageReport (_engine : Nat) (p : KeyPath) (items bytes : Nat) (s : State) :
    Host.Outcome State Fault Refusal :=
  done <| if s.pow.iod && !s.pow.quenched then
    modKey (reportKey s p) p fun k => k.used (max k.usedItems items) (max k.usedBytes bytes)
  else s

/-- Flow epochs follow their notice: the next epoch's key is derived (R112, R220). -/
def flowNotice (s : State) (peer de fe : Nat) : State :=
  needKey { s with link.flows := s.link.flows.map fun f =>
      if (tget s.link.nodes f.1).any (fun n => n.1 == peer) && f.2.flowEpoch == fe then (f.1, { f.2 with nextKey := true })
      else f } (.flow peer de (fe + 1))

/-- KEY record's DETAIL (R506): event, class, slot, KCV, region or peer. -/
def keyDetail (s : State) (event : Nat) (p : KeyPath) : Bytes :=
  let k := findKey s p
  let cls := match p with
    | .flow _ _ _ => 0
    | .region _ _ => 1
    | .bounce _ _ _ => 2
    | .chan _ _ => 3
    | .page _ => 4
    | _ => 5
  let who := match p with
    | .flow peer _ _ => peer
    | .region r _ => r
    | _ => 0
  le 1 event ++ le 1 cls ++ le 2 ((k.map (·.slot)).getD 0) ++
    le 4 ((k.bind fun k => k.key.read.map fun v => (kcvOf k.width v).toNat).getD 0) ++ le 8 who

/-- Post REKEY_DUE once for an update period (R306). -/
def rekeyEvent (s : State) (data : Nat) : State :=
  if s.host.rekeyPosted || s.host.session ≠ 2 then s
  else postEvent { s with host.rekeyPosted := true } 0 evRekeyDue data

/-- An S0 record of kind KEY (R291, R506): event 2 a rotation's start, 3 its end. -/
def keyRecord (s : State) (unit event : Nat) (p : KeyPath) : State :=
  latch s { unit := unit, cls := 0, cause := 291, kind := 0x0061, detail := some (keyDetail s event p) }

/-- The 256-byte pattern of an assay (R290). -/
def assayPattern : Bytes := (List.range 256).map fun i => BitVec.ofNat 8 i

/-- The assay of a region key (R290): the pattern sealed under the engine's key on one group of cores, at a granule index that no
granule has, opens to itself with its tag on a disjoint group, and the engine's key has the KCV that the vault expects. A pool with
fewer than two good cores has no disjoint groups. -/
def assayOk (s : State) (r gen : Nat) : Bool :=
  match engKey s (.region r gen), key256 s (.region r gen) with
  | some k, some v =>
    let slot := sealGranule k r 0xFFFFFFFF gen 0 assayPattern
    let back := xorBytes (slot.take 256) (ctrStream k (granuleIv 0xFFFFFFFF 0) 256)
    let tag := (be 16 (gcmTag k (granuleIv 0xFFFFFFFF 0) (granuleAad (fld slot 256 8) r 0xFFFFFFFF) (slot.take 256)).toNat).take 8
    decide ((poolOut s (uPewter (r % 4)) 0).length + 2 ≤ 112) && back == assayPattern && tag == slot.drop 264 &&
      kcv k == kcv v
  | _, _ => false

/-- A failed assay (R291): S3 for pewter, and the region waits for the assay that follows its engine reset. -/
def assayFailed (s : State) (r : Nat) : State :=
  let p := tgetD s.mem.ports (r % 4) Pewter.reset
  raiseS3 { s with mem.ports := tset s.mem.ports (r % 4) { p with assayed := insertN p.assayed r } } (uPewter (r % 4)) 291 r

/-- A region whose next key has passed its assay is ROTATING (R291 step 2). -/
def rotatingNow (s : State) (r : Nat) : State :=
  { s with mem.regions := tmod s.mem.regions r fun g => if g.state = 1 then { g with state := 2, sweep := 0 } else g }

/-- The assays that a pewter reset repeats, with keys fetched again from the vault (R291): one that passes lets its rotation resume, and
a second failure is S4. -/
def assayAgain (s : State) (q : Nat) : State :=
  (tgetD s.mem.ports q Pewter.reset).assayed.foldl (fun s r =>
    match tget s.mem.regions r with
    | none => s
    | some g =>
      let path := KeyPath.region r (regionGen g + 1)
      let s0 := match findKey s path with
        | some k => (k.key.read.map fun v => loadReg s path v k.attr k.parent k.label k.context).getD s
        | none => needKey s path
      let p := tgetD s0.mem.ports q Pewter.reset
      let s1 : State := { s0 with mem.ports := tset s0.mem.ports q { p with assayed := eraseN p.assayed r } }
      if assayOk s1 r (regionGen g + 1) then rotatingNow s1 r else raiseS4 s1 (uPewter q) 291 r) s

/-- Start a rotation of a region (R291 steps 1 and 2): the next generation's key is derived and delivered, it is assayed
(R290), and where it passes the region is ROTATING. -/
def rotateStart (s : State) (r : Nat) : State :=
  match tget s.mem.regions r with
  | none => s
  | some g =>
    let p := tgetD s.mem.ports (r % 4) Pewter.reset
    let next := KeyPath.region r (regionGen g + 1)
    let s1 := needKey s next
    let slot := ((List.range 256).find? fun i => !(p.rotating.any fun x =>
      (tget s.mem.regions x).any fun y => y.rotSlot == i)).getD 0
    let g' : Region := { g with rotSlot := slot, newKey := (findKey s1 next).isSome }
    let s2 := keyRecord { s1 with
      mem.regions := tset s1.mem.regions r g'
      mem.ports := tset s1.mem.ports (r % 4) { p with rotating := p.rotating ++ [r], rotQueue := eraseN p.rotQueue r } }
      (uPewter (r % 4)) 2 next
    if assayOk s2 r (regionGen g + 1) then rotatingNow s2 r else assayFailed s2 r

/-- Start the rotations that a port's limit of 256 lets start (R289). The fuel is the number that wait. -/
def rotateNext : Nat → State → Nat → State
  | 0, s, _ => s
  | n + 1, s, q =>
    let p := tgetD s.mem.ports q Pewter.reset
    if 256 ≤ p.rotating.length then s
    else
      match p.rotQueue.find? fun r => !p.rotating.contains r && (tget s.mem.regions r).any fun g => g.state == 1 with
      | none => s
      | some r => rotateNext n (rotateStart s r) q

/-- Start what waits at a port when a rotation has ended (R289). -/
def rotateWake (s : State) (q : Nat) : State := rotateNext (tgetD s.mem.ports q Pewter.reset).rotQueue.length s q

/-- DESTROY (R98, R109). -/
def execDestroy (p : KeyPath) (s : State) : Host.Outcome State Fault Refusal :=
  done <| if s.pow.iod && !s.pow.quenched then
    let s1 := match p with
      | .slcmem n => destroySliceMem s n
      | _ => destroyKey s p
    { (List.range 4).foldl rotateWake s1 with vault.result := cOk }
  else s

/-- Request a rotation of a region (R289): it starts if its port has room, waits otherwise, and follows one that is under
way. The owner is the key's next parent. -/
def queueRotation (s : State) (r owner : Nat) : State :=
  match tget s.mem.regions r with
  | none => s
  | some g =>
    let q := r % 4
    let p := tgetD s.mem.ports q Pewter.reset
    if g.state = 0 || g.state = 3 || p.rotQueue.contains r then s
    else
      let s1 : State := { s with
        mem.ports := tset s.mem.ports q { p with rotQueue := p.rotQueue ++ [r] }
        mem.regions := tset s.mem.regions r (if g.state = 1 && !p.rotating.contains r then { g with newOwner := owner } else g) }
      rotateWake s1 q

/-- KEY_USAGE_NOTICE (R112, R113): at its notice a key writes an S0 record of kind KEY, and its class's renewal
starts. -/
def execKeyUsageNotice (p : KeyPath) (s : State) : Host.Outcome State Fault Refusal :=
  done <| if s.up then
    match findKey s p, keyLimits p with
    | some k, some (ni, _, nb, _) =>
      if k.notice || !(decide (ni ≤ k.usedItems) || decide (nb ≤ k.usedBytes)) then s
      else
        let s1 := latch (modKey s p fun k => { k with notice := true })
          { unit := uVault, cls := 0, cause := 113, kind := 0x0061, detail := some (keyDetail s 0 p) }
        match p with
        | .flow peer de fe => flowNotice s1 peer de fe
        | .region r _ => queueRotation s1 r ((tget s1.mem.regions r).map (·.ownerKind) |>.getD 0)
        | .bounce _ d _ => rekeyEvent s1 (if d = 0 then 1 else 2)
        | .page n =>
          let s2 : State := { s1 with vault.pageGen := genNext s1.vault.pageGen n }
          match freshKey s2 k .derived with
          | some v => startReplace s2 (.page n) .derived (kcv (v.value.setWidth 256))
          | none => s2
        | _ => s1
    | _, _ => s
  else s

/-- KEY_USAGE_LIMIT (R113): S1, and from then on items complete KEY_LIMIT, or the flow's frames are held. -/
def execKeyUsageLimit (p : KeyPath) (s : State) : Host.Outcome State Fault Refusal :=
  done <| if s.up then
    match findKey s p, keyLimits p with
    | some k, some (_, li, _, lb) =>
      if k.limit || !(decide (li ≤ k.usedItems) || decide (lb ≤ k.usedBytes)) then s
      else
        latch (modKey s p fun k => { k with limit := true })
          { unit := uVault, cls := 1, cause := 113, kind := 0x0061, detail := some (keyDetail s 1 p) }
    | _, _ => s
  else s

/-- A vault reset (R115): working slots are cleared, root and class slots whose complements agree are kept; engines keep the keys that
the vault can compute again, and a key with no derivation path is lost with what it carried. -/
def vaultReset (s : State) : State :=
  let s1 : State := { s with
    vault.slots := s.vault.slots.filter fun k => k.part == 4 && k.key.sound && k.sub.all Shares.sound
    vault.regs := s.vault.regs.filter fun r => r.parent.isSome
    vault.replacing := [], vault.queue := [], vault.cycles := 0, vault.mismatch := false
    vault.entropyOk := true }
  endSpdm s1 cTargetReset (some cTargetReset)

/-- Compute a key again from its slot's parent, label and context, with the same attributes, counts and flags (R114). -/
def recompute (s : State) (k : KeySlot) : State :=
  match k.parent.bind fun q => deriveFrom s q k.label k.context k.width with
  | some v =>
    let s1 := putKey s k.path v k.width k.part k.slot k.share k.attr k.label k.parent k.context
    modKey s1 k.path fun n => { n with items := k.items, bytes := k.bytes, notice := k.notice, limit := k.limit }
  | none => s

/-- The label code of a generation (R98). -/
def genLabel : KeyPath → Option Nat
  | .slcmem _ => some 0
  | .digest _ => some 1
  | .page _ => some 2
  | _ => none

/-- The outcome of one kind of mismatch (R114, R98). -/
def mismatchOutcome (s : State) : MismatchOf → State
  | .derivedKey p =>
    match findKey s p with
    | none => s
    | some k => recompute (notice { s with vault.slots := s.vault.slots.filter fun k => k.path != p } 1 114 uVault 0) k
  | .lcRoot reads =>
    let s1 := notice s 1 114 uVault 0
    let s2 := regenerate s1 reads
    if s2.vault.rootState = 2 then s2 else raiseS3 s2 uVault 114 0
  | .domainKey => raiseS4 (memberDown s 2 false) uVault 114 0
  | .spdmOrBounce _ => endSpdm (notice s 1 114 uVault 0) cTargetReset (some cTargetReset)
  | .channelKey p =>
    let owner := (s.cipher.channels.find? fun c => c.2.key == some p).map fun c => c.2.ctx
    let s1 := destroyKey s p
    match owner with
    | some c => raiseS2 s1 uVault 114 0 c 0x05
    | none => notice s1 1 114 uVault 0
  | .usage p =>
    let s1 := modKey s p fun k =>
      match keyLimits p with
      | some (_, li, _, lb) => { k.used li (min lb (2 ^ 64 - 1)) with limit := true }
      | none => k
    notice (modReg s1 p fun r => (r.setLeft (0, 0)).setCounted (0, 0)) 1 114 uVault 0
  | .lcCode => raiseS4 { s with vault.rootState := 4 } uVault 114 0
  | .generation p =>
    match genLabel p with
    | some l => raiseS4 { s with vault.blocked := insertN s.vault.blocked l } uVault 98 0
    | none => raiseS4 s uVault 98 0

/-- The LAST_WHERE code of a kind of mismatch (R118). A generation's is 0x0: the table has no code for it. DESIGN CHOICE (log 56). -/
def mismatchPlace (s : State) : MismatchOf → Nat
  | .derivedKey p => match findKey s p with
    | some k => if k.part = 4 then 2 else 1
    | none => 1
  | .lcRoot _ => 2
  | .domainKey => 2
  | .spdmOrBounce bounce => if bounce then 1 else 2
  | .channelKey _ => 1
  | .usage _ => 3
  | .lcCode => 5
  | .generation _ => 0

/-- VAULT_COMPLEMENT_MISMATCH (R114, R98): counted, and the outcome of its kind; more than 16 within 1 s are a vault
reset, S3. -/
def execVaultComplementMismatch (w : MismatchOf) (s : State) : Host.Outcome State Fault Refusal :=
  done <| if s.pow.iod && !s.pow.quenched && s.vault.seeded then
    let s1 := countMismatch s (mismatchPlace s w)
    let s2 := bumpUnit (mismatchOutcome s1 w) uVault 12 1
    if 16 < limCount s2 .vaultMismatch then raiseS3 s2 uVault 114 0 else s2
  else s

end Sys2Proof.Machine
end

