-- ==== Sys2Proof/Machine/PewOps.lean ====
section
/-!
DEFINITION. PewOps.lean: granules, tree nodes, the node cache and the requests of a pewter engine (R262 to R294).
-/
namespace Sys2Proof.Machine

def pewAt (s : State) (q : Nat) : Pewter := tgetD s.mem.ports q Pewter.reset
def setPew (s : State) (q : Nat) (p : Pewter) : State := { s with mem.ports := tset s.mem.ports q p }

/-- Pool offsets (R263). -/
def poolT0 (s : State) (q : Nat) : Nat := poolRegions s q * (68 * 2 ^ 20)
def granuleOffset (region g : Nat) : Nat := (region / 4 * 262144 + g) * 272
/-- A node's index within its port (R271). -/
def nodeNumber (region level index : Nat) : Nat :=
  if level = 3 then region / 4 else if level = 2 then region / 4 * 64 + index else region / 4 * 4096 + index
def nodeOffset (s : State) (region level index : Nat) : Nat :=
  poolT0 s (region % 4) + (if level = 3 then 0 else if level = 2 then 2 ^ 20 else 65 * 2 ^ 20) +
    nodeNumber region level index * 128

/-- A granule's node at a level, and its child's place there (R263). -/
def pathIndex (level g : Nat) : Nat := if level = 3 then 0 else if level = 2 then g / 4096 else g / 64
def pathChild (level g : Nat) : Nat := if level = 3 then g / 4096 else if level = 2 then g / 64 % 64 else g % 64

/-- The counter that a node holds for a child (R270). -/
def TreeNode.minor (n : TreeNode) (i : Nat) : Nat := tgetD n.minors i 0
def TreeNode.counter (n : TreeNode) (i : Nat) : Nat := n.major * 4096 + n.minor i

/-- Bytes 0 to 119 of a node (R270). -/
def nodeBody (n : TreeNode) : Bytes :=
  le 8 n.major ++ le 96 ((List.range 64).foldl (fun a i => a + n.minor i * 2 ^ (12 * i)) 0) ++
    le 8 (n.poison.foldl (fun a i => a + 2 ^ i) 0) ++ le 8 0

/-- A node read from its bytes. -/
def nodeOf (region level index : Nat) (b : Bytes) : TreeNode :=
  let m := fld b 8 96
  { region := region, level := level, index := index, major := fld b 0 8 % 2 ^ 50,
    minors := (List.range 64).filterMap fun i =>
      if m / 2 ^ (12 * i) % 4096 = 0 then none else some (i, m / 2 ^ (12 * i) % 4096)
    poison := (List.range 64).filter fun i => bit (fld b 104 8) i, dirty := false }

/-- LEVEL_INDEX (R271). -/
def levelIndex (region level index : Nat) : Nat := level * 2 ^ 30 + nodeNumber region level index

/-- A node's MAC under its counter (R271). -/
def nodeMac (s : State) (region level index ctr : Nat) (body : Bytes) : Bytes :=
  match engKey s (.tree (region % 4)) with
  | some k => (be 16 (gmac k (BitVec.ofNat 96 (levelIndex region level index * 2 ^ 64 + ctr)) body).toNat).take 8
  | none => []

/-- The generation of a region whose EPOCH a granule names, if the region holds it (R288). -/
def epochGen (g : Region) (epoch : Nat) : Option Nat :=
  if regionGen g % 4 = epoch then some (regionGen g)
  else if g.state = 2 && (regionGen g + 1) % 4 = epoch then some (regionGen g + 1) else none

/-- The generation that writes are sealed under (R288). -/
def newestGen (g : Region) : Nat := if g.state = 2 then regionGen g + 1 else regionGen g

/-- Open a granule slot under its trusted counter (R273, R280 step 9): the data and its generation, or the check of R446
that failed. -/
def openGranule (s : State) (region : Nat) (r : Region) (g ctr : Nat) (slot : Bytes) : Except Nat (Bytes × Nat) :=
  let ce := fld slot 256 8
  if ce % 2 ^ 62 ≠ ctr then .error 2
  else
    match epochGen r (ce / 2 ^ 62) with
    | none => .error 3
    | some gen =>
      match engKey (needKey s (.region region gen)) (.region region gen) with
      | none => .error 3
      | some k =>
        let ct := slot.take 256
        let tag := gcmTag k (granuleIv g ctr) (granuleAad ce region g) ct
        if (be 16 tag.toNat).take 8 = (slot.drop 264).take 8 then
          .ok (xorBytes ct (ctrStream k (granuleIv g ctr) 256), gen) else .error 1

/-- The node in a port's cache. -/
def nodeAt (s : State) (region level index : Nat) : Option TreeNode :=
  (pewAt s (region % 4)).cache.find? fun n => n.region == region && n.level == level && n.index == index

def sameNode (n m : TreeNode) : Bool := n.region == m.region && n.level == m.level && n.index == m.index

/-- Put a node into the cache as its most recently used line (R274). -/
def putNode (s : State) (n : TreeNode) : State :=
  let p := pewAt s (n.region % 4)
  setPew s (n.region % 4) { p with cache := p.cache.filter (fun m => !sameNode m n) ++ [n] }

/-- Lines of a slice's partition (R274). -/
def cacheLines (s : State) (slice : Nat) : Nat :=
  if slice = 0 then 2048 else if slice = 31 then 512 else 13824 / max 1 s.tenants

/-- The slice that owns a region. -/
def regionSlice (s : State) (region : Nat) : Nat := ((tget s.mem.regions region).map (·.slice)).getD 0

/-- The class whose bucket a request charges (R293): system for sweeps and poison marking. -/
def pewWho (s : State) (j : PewJob) : Nat := if j.src = .system then 32 else regionSlice s j.r.region

/-- Levels of a port's buckets, one for each class and direction (R294); a bucket that nothing has drained is full. -/
def pewLevel (s : State) (q who : Nat) (out : Bool) : Nat :=
  tgetD (pewAt s q).bucket (2 * who + b2n out) (max (scaled s who (poolRate s who) / 100000) 272)

def pewCharge (s : State) (q who : Nat) (out : Bool) (n : Nat) : State :=
  let p := pewAt s q
  setPew s q { p with bucket := tset p.bucket (2 * who + b2n out) (pewLevel s q who out - n) }

/-- The pool crossing of a port carries requests (R60). -/
def poolOpen (s : State) (q : Nat) : Bool := s.crossOpen (64 + q)

/-- A read for a reason is outstanding or is to be repeated. -/
def asked (p : Pewter) (why : PoolWhy) : Bool :=
  p.reads.any (fun r => r.why == why && !r.stale) || p.again.any fun r => r.why == why

/-- Send a read to the pool, if the bucket and the port's 1,024 requests allow (R276, R277, R294). -/
def poolRead (s : State) (q who offset bytes : Nat) (retried : Bool) (why : PoolWhy) : Option State :=
  let p := pewAt s q
  if !poolOpen s q || 1024 ≤ p.reads.length + p.writes.length || pewLevel s q who false < bytes then none
  else
    let r : PoolReq := { tag := p.nextTag, offset := offset, bytes := bytes, sent := s.ns, retried := retried, stale := false, why := why }
    let s1 := setPew (s.emit (.poolRead q offset bytes p.nextTag)) q
      { p with reads := p.reads ++ [r], nextTag := (p.nextTag + 1) % 65536 }
    some (pewCharge s1 q who false bytes)

/-- Entries of the write buffer of each kind (R277). -/
def granuleWrites (p : Pewter) : Nat := (p.writes.filter fun w => w.granule.isSome).length
def nodeWrites (p : Pewter) : Nat := (p.writes.filter fun w => w.node.isSome).length

/-- Whether the buffer and the bucket take a write (R277, R294). -/
def canWrite (s : State) (q who : Nat) (granule : Bool) : Bool :=
  let p := pewAt s q
  poolOpen s q && decide (p.reads.length + p.writes.length < 1024) &&
    (if granule then decide (granuleWrites p < 512) && decide (272 ≤ pewLevel s q who true)
     else decide (nodeWrites p < 128) && decide (128 ≤ pewLevel s q who true))

/-- Put a sealed write into the buffer and send it to the pool (R277). -/
def poolWrite (s : State) (q who offset : Nat) (data : Bytes) (region : Nat) (granule : Option Nat) (node : Option TreeNode) :
    State :=
  let p := pewAt s q
  let w : PoolWrite :=
    { offset := offset, tag := p.nextTag, dead := false, data := data, region := region, granule := granule, node := node, sent := s.ns }
  pewCharge (setPew (s.emit (.poolWrite q offset p.nextTag data)) q
    { p with writes := p.writes ++ [w], nextTag := (p.nextTag + 1) % 65536 }) q who true data.length

/-- What the write buffer holds for an offset (R277): the latest write. -/
def buffered (s : State) (q offset : Nat) : Option Bytes :=
  ((pewAt s q).writes.reverse.find? fun w => w.offset == offset && !w.dead).map (·.data)

/-- A node whose write was not acknowledged and that is not cached again yet (R278). -/
def returnedAt (p : Pewter) (region level index : Nat) : Option TreeNode :=
  p.returned.find? fun n => n.region == region && n.level == level && n.index == index

/-- A breach of the boundary (R287): S5, and the request never completes. -/
def breach (s : State) (q check whereAt : Nat) : State :=
  raise s { unit := uPewter q, cls := 5, cause := 287, whereAt := whereAt } 0 check

/-- The name of a granule in an error (R285). -/
def granuleWhere (region g : Nat) : Nat := region * 2 ^ 18 + g

/-- The child of a node that has a place among its 64 (R263). -/
def TreeNode.kid (n : TreeNode) (c : Nat) : Nat := if n.level = 3 then c else n.index * 64 + c

/-- What was read of the children whose counters an overflow changes is read again after it (R275). -/
def restale (p : Pewter) (n : TreeNode) (used : List Nat) : Pewter :=
  let under (j : PewJob) : Bool :=
    n.level == 1 && j.r.region == n.region && j.r.granule / 64 == n.index && used.contains (j.r.granule % 64)
  let mine : PoolWhy → Bool
    | .granule id => (tget p.jobs id).any under
    | .node region level index => region == n.region && level + 1 == n.level && used.any fun c => n.kid c == index
    | .respan _ _ _ _ => false
  { p with
    jobs := p.jobs.map fun j => if under j.2 then (j.1, { j.2 with slot := none }) else j
    reads := p.reads.map fun r => if mine r.why then { r with stale := true } else r
    again := p.again.filter fun r => !mine r.why }

/-- Advance a child's counter in its cached node (R275). At the end of MINOR, MAJOR advances, every used child is to be
brought to MINOR 1, cached children only turn dirty, and a poisoned granule only keeps its bit. Answers the new counter. -/
def bumpChild (s : State) (n : TreeNode) (i : Nat) : State × Nat :=
  if n.minor i + 1 ≤ 4095 then
    (putNode s { n with minors := tset n.minors i (n.minor i + 1), dirty := true }, n.counter i + 1)
  else
    let q := n.region % 4
    let n' : TreeNode := { n with major := n.major + 1, minors := n.minors.map (fun m => (m.1, 1)), dirty := true }
    let used := (n.minors.map (·.1)).filter fun c => c != i && !(n.level == 1 && n.poison.contains c)
    let cached (c : Nat) : Bool := n.level != 1 && ((nodeAt s n.region (n.level - 1) (n.kid c)).isSome ||
      (returnedAt (pewAt s q) n.region (n.level - 1) (n.kid c)).isSome)
    let s1 := putNode s n'
    let p := restale (pewAt s1 q) n used
    let s2 := setPew s1 q { p with
      cache := p.cache.map (fun m =>
        if n.level ≠ 1 ∧ m.region = n.region ∧ m.level + 1 = n.level ∧ used.any (fun c => n.kid c == m.index) then
          { m with dirty := true } else m)
      respans := if used.filter (fun c => !cached c) = [] then p.respans
        else p.respans ++ [⟨n.region, n.level, n.index, n, used.filter fun c => !cached c⟩] }
    (s2, n'.major * 4096 + 1)

/-- Requests to the span of an overflow wait while it lasts (R275). -/
def spanBusy (s : State) (region g : Nat) : Bool :=
  (pewAt s (region % 4)).respans.any fun r => r.region == region && r.index == pathIndex r.level g

/-- A line that lies on the path of a request. -/
def onPath (n : TreeNode) (j : PewJob) : Bool := j.r.region == n.region && n.index == pathIndex n.level j.r.granule

/-- A line that may not leave (R274): it has a cached child, a request that came before the given one or that is in progress, or an
overflow. -/
def lineHeld (p : Pewter) (job : Nat) (n : TreeNode) : Bool :=
  p.cache.any (fun m => m.region == n.region && m.level + 1 == n.level &&
      (n.level == 3 || m.index / 64 == n.index)) ||
    p.jobs.any (fun j => (decide (j.1 ≤ job) || j.2.slot.isSome || asked p (.granule j.1)) && onPath n j.2) ||
    p.respans.any (fun r => r.region == n.region && r.level == n.level && r.index == n.index) ||
    p.reads.any fun r => match r.why with
      | .node region level index =>
        region == n.region && level + 1 == n.level && (n.level == 3 || index / 64 == n.index)
      | _ => false

/-- Write a dirty node back (R275): its counter in its parent, or its root, advances first. -/
def writeBack (s : State) (who : Nat) (n : TreeNode) : Option State :=
  let q := n.region % 4
  let send (s : State) (ctr : Nat) : State :=
    let body := nodeBody n
    poolWrite s q who (nodeOffset s n.region n.level n.index) (body ++ nodeMac s n.region n.level n.index ctr body)
      n.region none (some n)
  if !canWrite s q who false then none
  else if n.level = 3 then
    let c := ((tgetD s.mem.roots n.region (0, 0)).1 + 1)
    some (send { s with mem.roots := tset s.mem.roots n.region (c, ~~~c) } c.toNat)
  else
    match nodeAt s n.region (n.level + 1) (if n.level = 2 then 0 else n.index / 64) with
    | none => none
    | some par =>
      let r := bumpChild s par (n.index % 64)
      some (send r.1 r.2)

/-- Make room for a line in a slice's partition (R274): the least recently used line that may leave does. -/
def makeRoom (s : State) (q slice job : Nat) : Option State :=
  let p := pewAt s q
  let mine (n : TreeNode) : Bool := regionSlice s n.region == slice
  let coming := (p.reads.filter fun r => match r.why with
    | .node region _ _ => regionSlice s region == slice
    | _ => false).length
  if (p.cache.filter mine).length + coming < cacheLines s slice then some s
  else
    match p.cache.find? fun n => mine n && !lineHeld p job n with
    | none => none
    | some n =>
      let drop (s : State) : State :=
        let p := pewAt s q
        setPew s q { p with cache := p.cache.filter fun m => !sameNode m n }
      if n.dirty then (writeBack (drop s) slice n) else some (drop s)

/-- What a walk finds (R273, R282). -/
inductive Walk where
  | found (n : TreeNode)
  | wait
  | breach (check whereAt : Nat)

/-- Fetch a missing node that its trusted parent says was written: from the write buffer, or by a pool read (R277, R283). -/
def fetchNode (s : State) (job who region level index ctr : Nat) : State × Walk :=
  let q := region % 4
  if asked (pewAt s q) (.node region level index) then (s, .wait)
  else
    match makeRoom s q (regionSlice s region) job with
    | none => (s, .wait)
    | some s1 =>
      match buffered s1 q (nodeOffset s1 region level index) with
      | some b =>
        if b.drop 120 = nodeMac s1 region level index ctr (b.take 120) then
          (putNode s1 (nodeOf region level index b), .found (nodeOf region level index b))
        else (s1, .breach 4 (levelIndex region level index))
      | none =>
        match poolRead s1 q who (nodeOffset s1 region level index) 128 false (.node region level index) with
        | some s2 => ({ s2 with mem.nodeMiss := s2.mem.nodeMiss + 1 }, .wait)
        | none => (s1, .wait)

/-- One level of the walk under a trusted counter: a counter never used means an all-zero node that is not read (R271). -/
def walkLevel (s : State) (job who region level g : Nat) (ctr : Nat) (used : Bool) : State × Walk :=
  let index := pathIndex level g
  match nodeAt s region level index with
  | some n => (putNode s n, .found n)
  | none =>
    match returnedAt (pewAt s (region % 4)) region level index with
    | some n =>
      match makeRoom s (region % 4) (regionSlice s region) job with
      | none => (s, .wait)
      | some s1 =>
        let p := pewAt s1 (region % 4)
        (putNode (setPew s1 (region % 4) { p with returned := p.returned.filter fun m => !sameNode m n }) n, .found n)
    | none =>
    if used then fetchNode s job who region level index ctr
    else
      match makeRoom s (region % 4) (regionSlice s region) job with
      | none => (s, .wait)
      | some s1 =>
        let n : TreeNode :=
          { region := region, level := level, index := index, major := 0, minors := [], poison := [], dirty := false }
        (putNode s1 n, .found n)

/-- The walk to a trusted level-1 node (R273, R280 step 3). -/
def walk (s : State) (job who region g : Nat) : State × Walk :=
  let root := tgetD s.mem.roots region (0, BitVec.allOnes 62)
  if root.2 ≠ ~~~root.1 then (s, .breach 6 region)
  else
    match walkLevel s job who region 3 g root.1.toNat (root.1 != 0) with
    | (s1, .found n3) =>
      match walkLevel s1 job who region 2 g (n3.counter (pathChild 3 g)) (n3.minor (pathChild 3 g) != 0) with
      | (s2, .found n2) =>
        walkLevel s2 job who region 1 g (n2.counter (pathChild 2 g)) (n2.minor (pathChild 2 g) != 0)
      | r => r
    | r => r

/-- Poison a granule in place under an advanced counter (R278, R285), and count it (R302). -/
def poisonGranule (s : State) (region g : Nat) : State :=
  match nodeAt s region 1 (g / 64) with
  | none => s
  | some n =>
    let s1 := (bumpChild { s with mem.ueGranule := s.mem.ueGranule + 1 } n (g % 64)).1
    match nodeAt s1 region 1 (g / 64) with
    | none => s1
    | some m => putNode s1 { m with poison := insertN m.poison (g % 64), dirty := true }

/-- A granule that the pool could not deliver (R285): poison, S1. -/
def poisonBad (s : State) (region g : Nat) : State :=
  let q := region % 4
  let s1 := poisonGranule s region g
  let p := pewAt s1 q
  notice (setPew s1 q { p with ueGranule := p.ueGranule + 1 }) 1 285 (uPewter q) (granuleWhere region g)

/-- Seal a granule under the region's newest key and buffer it (R281): its counter advances and poison clears. -/
def writeGranule (s : State) (who region g : Nat) (r : Region) (data : Bytes) : Option State :=
  let q := region % 4
  let path := KeyPath.region region (newestGen r)
  if !canWrite s q who true then none
  else
    match nodeAt s region 1 (g / 64), engKey (needKey s path) path with
    | some n, some k =>
      let s0 := needKey s path
      let c := bumpChild s0 { n with poison := eraseN n.poison (g % 64) } (g % 64)
      let s1 := poolWrite c.1 q who (granuleOffset region g) (sealGranule k region g (newestGen r) c.2 data) region (some g) none
      let s2 := spendKey s1 path 1 0
      let s3 := bumpUnit (bumpUnit s2 (uPewter q) 0 1) (uPewter q) 2 272
      some { s3 with mem.regions := tmod s3.mem.regions region fun x => { x with writes := x.writes + 1 } }
    | _, _ => none

/-- Charge a tenant's granule bytes (R377, R511). -/
def poolUse (s : State) (j : PewJob) (wr : Bool) : State :=
  if j.src = .system then s
  else
    let t := bumpSlice s j.r.slice (if wr then 8 else 7) 272
    if j.r.ctx = 0 then t else useCtx t j.r.ctx (if wr then 5 else 4) 272

/-- How an attempt at a request ends: with an outcome, never, or not yet. -/
inductive PewEnd where
  | answer (code : Code) (data : Bytes)
  | never
  | wait (j : PewJob)

/-- The granule slot of a request: from the write buffer, from its pool read, or to be read (R277, R280 steps 6 to 8). -/
def needSlot (s : State) (id : Nat) (j : PewJob) : State × Option (Nat × Bytes) :=
  let q := j.r.region % 4
  let off := granuleOffset j.r.region j.r.granule
  match buffered s q off with
  | some b => (s, some (0, b))
  | none =>
    match j.slot with
    | some x => (s, some x)
    | none =>
      if asked (pewAt s q) (.granule id) then (s, none)
      else
        match poolRead s q (pewWho s j) off 272 false (.granule id) with
        | some s1 => (poolUse (bumpUnit s1 (uPewter q) 1 272) j false, none)
        | none => (s, none)

/-- Byte-masked merge of a partial write (R282). -/
def mergeMask (mask : BitVec 256) (data : BitVec 2048) (old : Bytes) : Bytes :=
  (List.range 256).map fun i => if mask.getLsbD i then data.extractLsb' (8 * i) 8 else old.getD i 0

/-- Finish a write (R281): KEY_LIMIT without allowance, or OK when the sealed granule is in the buffer. -/
def finishWrite (s : State) (j : PewJob) (r : Region) (data : Bytes) : State × PewEnd :=
  let path := KeyPath.region j.r.region (newestGen r)
  if (findReg s path).isSome && !keyAllows s path 1 0 then (s, .answer cKeyLimit [])
  else
    match writeGranule s (pewWho s j) j.r.region j.r.granule r data with
    | some s1 => (tapGranule (poolUse s1 j true) 4 j.r.ctx j.r.gen j.r.region j.r.granule data, .answer cOk [])
    | none => (s, .wait j)

/-- Steps 4 to 10 of R280 and of R282, on the trusted level-1 node. -/
def onNode (s : State) (id : Nat) (j : PewJob) (r : Region) (n : TreeNode) : State × PewEnd :=
  let g := j.r.granule
  let region := j.r.region
  let q := region % 4
  let bad (s : State) : State × PewEnd := (s, .answer cPoisonedTarget [])
  let data (f : State → Bytes → State × PewEnd) : State × PewEnd :=
    if n.poison.contains (g % 64) then bad (notice s 0 280 (uPewter q) (granuleWhere region g))
    else if n.minor (g % 64) = 0 then
      if r.lost then bad s else f s (List.replicate 256 0)
    else
      match needSlot s id j with
      | (s1, none) => (s1, .wait j)
      | (s1, some (st, b)) =>
        if st ≠ 0 then bad (poisonBad s1 region g)
        else
          match openGranule s1 region r g (n.counter (g % 64)) b with
          | .ok (pt, _) => f s1 pt
          | .error c => (breach s1 q c (granuleWhere region g), .never)
  match j.op with
  | .read => data fun s pt => (tapGranule s 5 j.r.ctx j.r.gen region g pt, .answer cOk pt)
  | .full d => finishWrite s j r (le 256 d.toNat)
  | .part m d => data fun s pt => finishWrite s j r (mergeMask m d pt)
  | .mark => (poisonGranule s region g, .answer cOk [])
  | .touch => (s, .answer cOk [])
  | .sweep =>
    if n.minor (g % 64) = 0 || n.poison.contains (g % 64) then (s, .answer cOk [])
    else
      match needSlot s id j with
      | (s1, none) => (s1, .wait j)
      | (s1, some (st, b)) =>
        if st ≠ 0 then (poisonBad s1 region g, .answer cOk [])
        else
          match openGranule s1 region r g (n.counter (g % 64)) b with
          | .ok (pt, gen) =>
            if gen = newestGen r then (s1, .answer cOk [])
            else
              match writeGranule s1 32 region g r pt with
              | some s2 => (s2, .answer cOk [])
              | none => (s1, .wait j)
          | .error c => (breach s1 q c (granuleWhere region g), .never)

/-- The stamp suits the region (R280 step 2); the engine's own requests carry none. -/
def stampOk (j : PewJob) (r : Region) : Bool :=
  j.src == .system ||
    (if r.ownerKind = 0 then j.r.ctx == r.ctx && j.r.gen == r.gen else j.r.slice == r.slice)

/-- Poison marking that a region still owes comes before any other request to it (R66, R278). -/
def markDue (s : State) (id : Nat) (j : PewJob) : Bool :=
  j.op != .mark && j.op != .touch && (pewAt s (j.r.region % 4)).jobs.any fun k =>
    k.1 != id && k.2.op == .mark && k.2.r.region == j.r.region

/-- One attempt at a request (R280 to R282). -/
def attempt (s : State) (id : Nat) (j : PewJob) : State × PewEnd :=
  let q := j.r.region % 4
  match tget s.mem.regions j.r.region with
  | none => (s, .answer cFaultUnmapped [])
  | some r =>
    if r.state = 0 then (s, .answer cFaultUnmapped [])
    else if !stampOk j r then
      (raiseS2 s (uPewter q) 280 (granuleWhere j.r.region j.r.granule) j.r.ctx 3, .answer cFaultPermission [])
    else if !r.key then (s, .answer cKeyDestroyed [])
    else if markDue s id j || spanBusy s j.r.region j.r.granule then (s, .wait j)
    else
      match walk s id (pewWho s j) j.r.region j.r.granule with
      | (s1, .found n) => onNode s1 id j r n
      | (s1, .breach c w) => (breach s1 q c w, .never)
      | (s1, .wait) =>
        match j.op with
        | .read => ((needSlot s1 id j).1, .wait j)
        | .part _ _ => ((needSlot s1 id j).1, .wait j)
        | _ => (s1, .wait j)

/-- A region lost (R286): its keys and nodes go, KEY_GEN advances, the root is 0, LOST is set, a rotation ends, and requests in
flight complete POISONED_TARGET. S1. -/
def loseRegion (s : State) (region whereAt : Nat) : State :=
  let q := region % 4
  let p := pewAt s q
  let mine := p.jobs.filter fun j => j.2.r.region == region
  let ofRegion : PoolWhy → Bool
    | .node x _ _ => x == region
    | .respan x _ _ _ => x == region
    | .granule i => mine.any fun j => j.1 == i
  let s1 := setPew s q { p with
    jobs := p.jobs.filter fun j => j.2.r.region != region
    cache := p.cache.filter fun n => n.region != region
    returned := p.returned.filter fun n => n.region != region
    writes := p.writes.map fun w => if w.region = region then { w with dead := true } else w
    respans := p.respans.filter fun n => n.region != region
    reads := p.reads.filter fun r => !ofRegion r.why
    again := p.again.filter fun r => !ofRegion r.why
    rotating := eraseN p.rotating region
    assayed := eraseN p.assayed region
    ueNode := min 255 (p.ueNode + 1) }
  let s2 := dropKeys s1 fun k => match k with
    | .region x _ => x == region
    | _ => false
  let s3 : State := { s2 with
    mem.roots := tset s2.mem.roots region (0, BitVec.allOnes 62), mem.lostRegions := s2.mem.lostRegions + 1
    mem.regions := tmod s2.mem.regions region fun r =>
      { r with state := if r.state = 3 then 3 else 1, lost := true, newKey := false, writes := 0, newOwner := r.ownerKind
               keyGen := r.keyGen + (if r.state = 2 then 2 else 1), sweep := 0 } }
  let path := ((tget s3.mem.regions region).map fun r => regionKey region r).getD (.region region 0)
  let s4 := needKey s3 path
  let s5 : State := { s4 with mem.regions := tmod s4.mem.regions region fun r =>
    { r with key := (findKey s4 path).isSome, withheld := r.withheld || decide (0xFFFFF ≤ r.keyGen) } }
  let full (s : State) : Bool := (tget s.mem.regions region).any (·.withheld)
  let s6 := notice s5 1 286 (uPewter q) whereAt
  let s7 := if full s6 && !full s then capacity s6 6 (0x20 + q) ((s6.mem.regions.filter fun g => g.2.withheld).length) else s6
  rotateWake (mine.foldl (fun s j => pewAnswer s j.2 cPoisonedTarget []) s7) q

/-- A parity error in a cached node, named by its LEVEL_INDEX (R299): a clean line is dropped, to be fetched again; the region of a
dirty one is lost. -/
def nodeParity (s : State) (q name : Nat) : State :=
  match (pewAt s q).cache.find? fun n => levelIndex n.region n.level n.index == name with
  | none => s
  | some n =>
    if n.dirty then loseRegion s n.region name
    else
      let p := pewAt s q
      notice (setPew s q { p with cache := p.cache.filter fun m => !sameNode m n }) 1 299 (uPewter q) name

/-- A corrected single-bit error of a root (R272): S1, counted. -/
def rootCorrect (s : State) (q region : Nat) : State :=
  notice { s with mem.rootCorrected := s.mem.rootCorrected + 1, mem.rootLast := region } 1 272 (uPewter q) region

/-- A child of an overflow is brought to its new counter (R275), or poisoned, or the region is lost, or the unit quenches. -/
def respanChild (s : State) (sp : Respan) (child st : Nat) (b : Bytes) : Option State :=
  let q := sp.region % 4
  let who := regionSlice s sp.region
  let fin (s : State) : State :=
    let p := pewAt s q
    setPew s q { p with respans := (p.respans.map fun x =>
        if x.region == sp.region && x.level == sp.level && x.index == sp.index then
          { x with left := eraseN x.left child } else x).filter fun x => x.left != [] }
  match tget s.mem.regions sp.region, nodeAt s sp.region sp.level sp.index with
  | some r, some n =>
    if sp.level = 1 then
      let g := sp.index * 64 + child
      if st ≠ 0 then
        let s1 := fin (putNode { s with mem.ueGranule := s.mem.ueGranule + 1 }
          { n with poison := insertN n.poison child, dirty := true })
        let p := pewAt s1 q
        some (notice (setPew s1 q { p with ueGranule := p.ueGranule + 1 }) 1 285 (uPewter q) (granuleWhere sp.region g))
      else
        match openGranule s sp.region r g (sp.old.counter child) b with
        | .error c => some (breach s q c (granuleWhere sp.region g))
        | .ok (pt, _) =>
          let path := KeyPath.region sp.region (newestGen r)
          let s0 := needKey s path
          match engKey s0 path, canWrite s0 q who true && keyAllows s0 path 1 0 with
          | some k, true =>
            some (fin (spendKey (poolWrite s0 q who (granuleOffset sp.region g)
              (sealGranule k sp.region g (newestGen r) (n.counter child) pt) sp.region (some g) none) path 1 0))
          | _, _ => none
    else
      let index := if sp.level = 3 then child else sp.index * 64 + child
      let level := sp.level - 1
      if st ≠ 0 then some (loseRegion s sp.region (levelIndex sp.region level index))
      else if b.drop 120 ≠ nodeMac s sp.region level index (sp.old.counter child) (b.take 120) then
        some (breach s q 4 (levelIndex sp.region level index))
      else if !canWrite s q who false then none
      else
        let body := b.take 120
        some (fin (poolWrite s q who (nodeOffset s sp.region level index)
          (body ++ nodeMac s sp.region level index (n.counter child) body) sp.region none
          (some (nodeOf sp.region level index b))))
  | _, _ => some (fin s)

/-- Ask for the next child of an overflow: from the buffer, or by a pool read. -/
def respanAsk (s : State) (sp : Respan) (child : Nat) : State :=
  let q := sp.region % 4
  let index := if sp.level = 3 then child else sp.index * 64 + child
  let off := if sp.level = 1 then granuleOffset sp.region index else nodeOffset s sp.region (sp.level - 1) index
  let why := PoolWhy.respan sp.region sp.level sp.index child
  if asked (pewAt s q) why then s
  else
    match buffered s q off with
    | some b => (respanChild s sp child 0 b).getD s
    | none =>
      match poolRead s q (regionSlice s sp.region) off (if sp.level = 1 then 272 else 128) false why with
      | some s1 => if sp.level = 1 then s1 else { s1 with mem.nodeMiss := s1.mem.nodeMiss + 1 }
      | none => s

/-- Carry on every overflow of a port. -/
def respanPump (s : State) (q : Nat) : State :=
  (pewAt s q).respans.foldl (fun s sp => sp.left.foldl (fun s c => respanAsk s sp c) s) s

/-- A rotation's end (R291 steps 5 and 6): the old key goes, KEY_GEN advances, the region is LIVE. -/
def rotateEnd (s : State) (region : Nat) : State :=
  match tget s.mem.regions region with
  | none => s
  | some r =>
    let q := region % 4
    let old := regionKey region r
    let s1 := dropKeys s fun k => k == old
    let p := pewAt s1 q
    let held := decide (0xFFFFF ≤ r.keyGen + 1)
    let s2 := setPew { s1 with
      mem.rotations := s1.mem.rotations + 1
      mem.regions := tset s1.mem.regions region { r with
        state := if r.state = 3 then 3 else 1, keyGen := r.keyGen + 1, newKey := false, sweep := 0, ownerKind := r.newOwner,
        writes := 0, withheld := r.withheld || held } } q { p with rotating := eraseN p.rotating region }
    let s3 := keyRecord s2 (uPewter q) 3 (.region region (regionGen r + 1))
    let s4 := if held && !r.withheld then
        capacity s3 6 (0x20 + q) ((s3.mem.regions.filter fun g => g.2.withheld).length) else s3
    settle (rotateWake s4 q)

/-- The sweep has passed the last granule (R291 step 5): the assay of G + 1 is repeated, and where it passes the rotation ends. -/
def rotateDone (s : State) (region : Nat) : State :=
  if (tget s.mem.regions region).any fun g => assayOk s region (regionGen g + 1) then rotateEnd s region else assayFailed s region

/-- A sweep's granule is done: the next of its level-1 span, or the pointer moves past the span (R291 step 4). The sweep comes to its next
granule behind the requests that are there already (R279, R292). -/
def sweepOn (s : State) (id : Nat) (j : PewJob) : State :=
  let q := j.r.region % 4
  let g := j.r.granule + 1
  let p := pewAt s q
  let j' : PewJob := { j with r := { j.r with granule := g }, slot := none }
  if g % 64 ≠ 0 then setPew s q { p with jobs := tset (tdel p.jobs id) p.nextJob j', nextJob := p.nextJob + 1 }
  else
    let s1 : State := { setPew s q { p with jobs := tdel p.jobs id } with
      mem.regions := tmod s.mem.regions j.r.region fun r => { r with sweep := g } }
    if 262144 ≤ g then rotateDone s1 j.r.region else s1

/-- The item of a region has ended: its registers may switch (R35). -/
def switchRegion (s : State) (region : Nat) : State :=
  s.vault.replacing.foldl (fun s r => match r.path with
    | .region x _ => if x = region then switchReg s r.path else s
    | _ => s) s

/-- Run one request as far as it goes. The fuel covers the granules of a sweep's span. -/
def runJob : Nat → State → Nat → Nat → State
  | 0, s, _, _ => s
  | n + 1, s, q, id =>
    match tget (pewAt s q).jobs id with
    | none => s
    | some j =>
      let first := (pewAt s q).jobs.find? fun k => k.2.r.region == j.r.region && k.2.r.granule == j.r.granule
      if first.any fun k => k.1 != id then s
      else
        match attempt s id j with
        | (s1, .wait _) => s1
        | (s1, .never) =>
          let p := pewAt s1 q
          setPew s1 q { p with jobs := tdel p.jobs id }
        | (s1, .answer code data) =>
          if j.op = .sweep && code = cOk then runJob n (sweepOn s1 id j) q (pewAt s1 q).nextJob
          else
            let p := pewAt s1 q
            switchRegion (pewAnswer (setPew s1 q { p with jobs := tdel p.jobs id }) j code data) j.r.region

/-- Regions whose release waited for their last request (R298). -/
def releaseDone (s : State) (q : Nat) : State :=
  (s.mem.regions.filter fun r => r.1 % 4 == q && r.2.state == 3 && regionJobs s r.1 == []).foldl
    (fun s r => eraseRegion s r.1) s

/-- The requests of a port in the order in which its slices' queues are taken from in turn (R279), each queue in arrival order. The
fuel is the number of requests. -/
def jobTurns : Nat → List (List Nat) → List Nat
  | 0, _ => []
  | n + 1, l => l.filterMap (·.head?) ++ (if l.all (· == []) then [] else jobTurns n (l.map (·.drop 1)))

/-- The queues of a port, the one whose turn it is first. -/
def jobQueues (s : State) (q : Nat) : List (List Nat) :=
  let p := pewAt s q
  (List.range 33).map fun i => (p.jobs.filter fun j => pewWho s j.2 == (p.turn + i) % 33).map (·.1)

/-- Whose bucket a read charges (R293). -/
def whyWho (s : State) (q : Nat) : PoolWhy → Nat
  | .granule id => ((tget (pewAt s q).jobs id).map (pewWho s)).getD 32
  | .node region _ _ => regionSlice s region
  | .respan region _ _ _ => regionSlice s region

/-- Repeat the reads that had a parity error, as their buckets allow (R280, R293). -/
def againPump (s : State) (q : Nat) : State :=
  (pewAt s q).again.foldl (fun s r =>
    match poolRead s q (whyWho s q r.why) r.offset r.bytes true r.why with
    | some s1 => setPew s1 q { pewAt s1 q with again := (pewAt s1 q).again.erase r }
    | none => s) s

/-- Run everything that waits at a port; an engine whose reset has begun takes no requests (R300). -/
def pewPump (s : State) (q : Nat) : State :=
  if s.pow.quenched || (pewAt s q).closing.isSome then s
  else
    let s1 := respanPump (againPump s q) q
    let p := pewAt s1 q
    let s2 := setPew s1 q { p with turn := (p.turn + 1) % 33 }
    rotateWake (releaseDone ((jobTurns p.jobs.length (jobQueues s1 q)).foldl (fun s i => runJob 65 s q i) s2) q) q

/-- Accept a request (R279): a region that is released takes no new one (R266). -/
def pewSubmit (s : State) (r : PewReq) (op : PewOp) (src : PewSrc) : State :=
  let q := r.region % 4
  let j : PewJob := { r := r, op := op, src := src, slot := none }
  if !(tget s.mem.regions r.region).any fun g => g.state == 1 || g.state == 2 then pewAnswer s j cFaultUnmapped []
  else
    let p := pewAt s q
    pewPump (setPew s q { p with jobs := tset p.jobs p.nextJob j, nextJob := p.nextJob + 1 }) q

/-- A request of the engine's own (R278, R291), which R279 still orders with the others to its granule. -/
def pewOwn (s : State) (region granule : Nat) (op : PewOp) : State :=
  let q := region % 4
  let p := pewAt s q
  let r : PewReq := { region := region, granule := granule, ctx := 0, gen := 0, slice := 0, reqId := 0 }
  setPew s q { p with jobs := tset p.jobs p.nextJob { r := r, op := op, src := .system, slot := none }
                      nextJob := p.nextJob + 1 }

/-- A node whose write was not acknowledged is a dirty line again (R278): its cached line, or one that is fetched with its parents; of two
writes of one node the later stands. -/
def takeBack (s : State) (q : Nat) (n : TreeNode) : State :=
  match nodeAt s n.region n.level n.index with
  | some m =>
    let p := pewAt s q
    setPew s q { p with cache := p.cache.map fun x => if sameNode x m then { x with dirty := true } else x }
  | none =>
    let p := pewAt s q
    let s1 := setPew s q { p with returned := p.returned.filter (fun m => !sameNode m n) ++ [{ n with dirty := true }] }
    pewOwn s1 n.region (if n.level = 1 then n.index * 64 else if n.level = 2 then n.index * 4096 else 0) .touch

/-- A reset of a port's pool crossing (R66, R278): reads in flight complete TARGET_RESET; granules whose write was not
acknowledged are to be poisoned; nodes whose write was not return as dirty lines. -/
def crossReset (s : State) (q : Nat) : State :=
  let p := pewAt s q
  let hit (id : Nat) (j : PewJob) : Bool := j.src != .system && (p.reads ++ p.again).any fun r => match r.why with
    | .granule i => i == id
    | .node region level index => j.r.region == region && index == pathIndex level j.r.granule
    | _ => false
  let cut := p.jobs.filter fun j => hit j.1 j.2
  let s1 := setPew s q { p with
    jobs := p.jobs.filter fun j => !hit j.1 j.2, reads := [], again := [], writes := [], crossResets := min 255 (p.crossResets + 1) }
  let s2 := cut.foldl (fun s j => pewAnswer s j.2 cTargetReset []) s1
  p.writes.foldl (fun s w =>
    if w.dead || (tget s.mem.regions w.region).all fun r => r.state == 0 then s
    else
      match w.granule, w.node with
      | some g, _ => notice (pewOwn s w.region g .mark) 1 278 (uPewter q) (granuleWhere w.region g)
      | none, some n => takeBack s q n
      | none, none => s) s2

end Sys2Proof.Machine
end

