-- ==== Sys2Proof/Machine/Remote.lean ====
section
/-!
DEFINITION. Remote.lean: the tier-A check, and the operations that peers perform through remote windows (R209, R296, R352).
-/
namespace Sys2Proof.Machine

/-- A slice's partition is between the error that resets it and the end of that reset (R216, R443). -/
def partitionDown (s : State) (slice : Nat) : Bool :=
  s.err.banks.any (fun b => b.2.cls == 3 && b.2.scope == .partition slice) || s.err.requested.contains (2, slice)

/-- The physical place of a byte of an object: whether in tier B, and its address (R336, R339). -/
def objByte (o : MemObj) (a : Nat) : Option (Bool × Nat) :=
  if o.kind = 3 then (tget o.blocks (a / 2 ^ 26)).map fun b => (b.kind == 2, b.frame * 2 ^ 26 + a % 2 ^ 26)
  else (o.frames[a / 2 ^ 26]?).map fun f => (o.tierB, f * 2 ^ 26 + a % 2 ^ 26)

/-- Whether an OP is an atomic (R209, R334). -/
def isAtomic (op : Nat) : Bool := decide (0x10 ≤ op) && decide (op ≤ 0x1A)

/-- The remote right that an operation needs (R350). -/
def remoteRight (op : Nat) : Nat := if op = 1 then 3 else if op = 2 then 2 else 4

/-- The remote-window check (R352): the object, or the code. -/
def windowCheck (s : State) (node : Nat) (h : OpHdr) : Except Code (Nat × MemObj) :=
  match tget s.gate.objs (objIndex h.window) with
  | none => .error cStaleHandle
  | some o =>
    if o.state ≠ 1 || o.gen ≠ objGen h.window then .error cStaleHandle
    else if !(o.peers.any fun p => p.2.contains node) || !bit o.rights (remoteRight h.op) then .error cFaultPermission
    else if o.size < h.offset + h.bytes then .error cFaultUnmapped
    else .ok (objIndex h.window, o)

/-- The slice that owns the window an operation names (R229); where it names none, the system's. DESIGN CHOICE (log 93). -/
def windowSlice (s : State) (h : OpHdr) : Nat :=
  (((tget s.gate.objs (objIndex h.window)).filter fun o => o.state == 1 && o.gen == objGen h.window).map (·.slice)).getD whoSys

/-- The stamp that a window's access carries (R352): the owner, or the share group's first member. -/
def windowStamp (s : State) (o : MemObj) : Nat × Nat :=
  match (o.group.bind fun g => tget s.gate.groups g).bind (·.head?) with
  | some m => (m.1, m.2.1)
  | none => (o.owner, (ctxAt s o.owner).gen)

/-- Parse an operation header (R209). -/
def opHdr (pt : Bytes) : OpHdr :=
  { op := fld pt 0 1, status := BitVec.ofNat 8 (fld pt 1 1), bytes := fld pt 2 2, window := fld pt 4 4,
    offset := fld pt 8 6, tagId := fld pt 14 2 }

/-- The bytes of an operation header (R209). -/
def opBytes (h : OpHdr) : Bytes :=
  le 1 h.op ++ [h.status] ++ le 2 h.bytes ++ le 4 h.window ++ le 6 h.offset ++ le 2 h.tagId

/-- The result of an atomic on an old value (R334): 32-bit operations act on the low half, zero-extended. -/
def atomicNew (op old operand compare : Nat) : Nat :=
  let s32 (v : Nat) : Int := (BitVec.ofNat 32 v).toInt
  if op = 0x10 then (old + operand) % 2 ^ 32
  else if op = 0x11 then (old + operand) % 2 ^ 64
  else if op = 0x12 ∨ op = 0x13 then operand
  else if op = 0x14 ∨ op = 0x15 then (if old = compare then operand else old)
  else if op = 0x16 then (if s32 old < s32 operand then operand % 2 ^ 32 else old)
  else if op = 0x17 then (if s32 operand < s32 old then operand % 2 ^ 32 else old)
  else if op = 0x18 then old &&& operand
  else if op = 0x19 then old ||| operand
  else old ^^^ operand

/-- Operand bytes of an atomic (R334). -/
def atomicSize (op : Nat) : Nat := if [0x10, 0x12, 0x14, 0x16, 0x17].contains op then 4 else 8

/-- Send a RESPONSE (R209, R229), charged to the slice that owns the window. -/
def respond (s : State) (node slice op tagId : Nat) (code : Code) (data : Bytes) : State :=
  let h : OpHdr := { op := op, status := code, bytes := data.length, window := 0, offset := 0, tagId := tagId }
  sendFrame s { via := none, node := node, ftype := ftResponse, payload := opBytes h ++ data, slice := slice, ctx := 0, gen := 0,
                queue := 0 }

/-- Whether an OP is answered by a RESPONSE, and with which OP (R209). -/
def responseOp (op : Nat) : Option Nat := if op = 2 then some 0x81 else if isAtomic op then some (op + 0x80) else none

/-- An operation ends with a code (R209, R216): its ACK entry, and its RESPONSE where one is due. -/
def endRemote (s : State) (node seq slice : Nat) (h : OpHdr) (code : Code) (data : Bytes) : State :=
  let s1 := settleFrame s node seq code
  match responseOp h.op with
  | some r => respond s1 node slice r h.tagId code (if code = cOk then data else [])
  | none => s1

/-- Finish a remote operation whose granules are done (R209). -/
def finishRemote (s : State) (n : Nat) (o : RemoteOp) : State :=
  let s1 : State := { s with link.inbound := tdel s.link.inbound n }
  let s2 := settle (objUnref s1 o.obj)
  let h : OpHdr := { op := o.op, status := cOk, bytes := o.bytes, window := 0, offset := o.offset, tagId := o.tagId }
  let data := if o.op ≠ 2 then [] else
    match tget s1.gate.objs o.obj with
    | none => []
    | some b => (List.range o.bytes).map fun i =>
      match objByte b (o.offset + i) with
      | some (true, p) => (tgetD o.data (p / 256 % 2 ^ 18) []).getD (p % 256) 0
      | some (false, p) => tierARead s1 p
      | none => 0
  endRemote s2 o.node o.seq o.slice h o.code data

/-- Finish every remote operation that is done. -/
def remoteSettle (s : State) : State :=
  (s.link.inbound.filter fun o => o.2.left == []).foldl (fun s o => finishRemote s o.1 o.2) s

/-- The granule requests of a tier-B part (R279): full or partial writes, or reads. -/
def granuleOp (write : Bool) (bytes : List (Nat × Byte)) : PewOp :=
  if !write then .read
  else
    let d := bytes.foldl (fun a b => a + b.2.toNat * 2 ^ (8 * (b.1 % 256))) 0
    if bytes.length = 256 then .full (BitVec.ofNat 2048 d)
    else .part (BitVec.ofNat 256 (bytes.foldl (fun a b => a + 2 ^ (b.1 % 256)) 0)) (BitVec.ofNat 2048 d)

/-- Perform a checked read or write of a window (R209): tier A under the owner's stamp at once, tier B granule by granule. -/
def performRemote (s : State) (node seq : Nat) (h : OpHdr) (data : Bytes) (i : Nat) (o : MemObj) : State :=
  let st := windowStamp s o
  let places := (List.range h.bytes).map fun k => (k, objByte o (h.offset + k))
  if places.any fun p => p.2.isNone then endRemote s node seq o.slice h cFaultUnmapped []
  else
    let tierAOf := places.filterMap fun p => match p.2 with
      | some (false, a) => some (p.1, a)
      | _ => none
    let tierBOf := places.filterMap fun p => match p.2 with
      | some (true, a) => some (a, data.getD p.1 0)
      | _ => none
    if tierAOf.any fun p => stackInReset s p.2 then endRemote s node seq o.slice h cTargetReset []
    else
      match tierAOf.find? fun p => !addrGrants s p.2 (h.op == 1) st.1 st.2 with
      | some p => endRemote (denyTierA s (Config.stackOf p.2 % 16) (p.2 / 2 ^ 26) st.1) node seq o.slice h cFaultPermission []
      | none =>
        let s1 : State := if h.op = 1 then
            tapIngress (tierAOf.foldl (fun s p => tierAWrite s p.2 [data.getD p.1 0]) s) st.1 st.2
              (fun k => objByte o (h.offset + k)) (data.take h.bytes)
          else s
        let granules := tierBOf.foldl (fun l b => insertN l (b.1 / 256)) []
        let n := s1.link.nextReq
        let r : RemoteOp :=
          { node := node, seq := seq, op := h.op, tagId := h.tagId, obj := i, slice := o.slice, ctx := st.1,
            offset := h.offset, bytes := h.bytes, left := granules.map (· % 2 ^ 18), data := [], code := cOk }
        let s2 : State := { objRef s1 i with link.inbound := tset s1.link.inbound n r, link.nextReq := n + 1 }
        remoteSettle (granules.foldl (fun s g =>
          pewSubmit s { region := g / 2 ^ 18, granule := g % 2 ^ 18, ctx := st.1, gen := st.2, slice := o.slice, reqId := n }
            (granuleOp (h.op == 1) (tierBOf.filter fun b => b.1 / 256 == g)) (.remote n)) s2)

/-- Perform a checked atomic (R209, R334): tier A only, aligned to its operand. -/
def performAtomic (s : State) (node seq : Nat) (h : OpHdr) (data : Bytes) (o : MemObj) : State :=
  let st := windowStamp s o
  let z := atomicSize h.op
  match objByte o h.offset with
  | none => endRemote s node seq o.slice h cFaultUnmapped []
  | some (true, _) => endRemote s node seq o.slice h cFaultPermission []
  | some (false, a) =>
    if stackInReset s a then endRemote s node seq o.slice h cTargetReset []
    else if !addrGrants s a true st.1 st.2 then
      endRemote (denyTierA s (Config.stackOf a % 16) (a / 2 ^ 26) st.1) node seq o.slice h cFaultPermission []
    else
      let old := leNat (tierABytes s a z)
      let new := atomicNew h.op old (fld data 0 8 % 2 ^ (8 * z)) (fld data 8 8 % 2 ^ (8 * z))
      endRemote (tierAWrite s a (le z new)) node seq o.slice h cOk (le 8 old)

/-- A REQUEST that the target cannot perform (R209). -/
def opMalformed (h : OpHdr) (data : Bytes) : Bool :=
  !(h.op == 1 || h.op == 2 || isAtomic h.op) || h.status != 0 || decide (1024 < h.bytes) ||
    (h.op == 1 && decide (data.length < h.bytes)) || (isAtomic h.op && decide (data.length < 16)) ||
    (isAtomic h.op && h.offset % atomicSize h.op != 0)

/-- An accepted REQUEST (R209): its header is checked, then its window, then it is performed. -/
def takeRequest (s : State) (node seq : Nat) (pt : Bytes) : State :=
  let h := opHdr pt
  let data := pt.drop 16
  if opMalformed h data then
    endRemote (latch s { unit := nodePort s node, cls := 0, cause := 209, whereAt := (nodeUnit s node).getD 0,
                         code := cDescriptorInvalid }) node seq (windowSlice s h) h cDescriptorInvalid []
  else
    match windowCheck s node h with
    | .error c => endRemote s node seq (windowSlice s h) h c []
    | .ok (i, o) =>
      let who := windowStamp s o
      let s1 := bumpSlice (useCtx s who.1 3 (roundUp pt.length 16)) o.slice 6 (roundUp pt.length 16)
      if partitionDown s o.slice || sliceFrozen s o.slice then endRemote s1 node seq o.slice h cTargetReset []
      else if isAtomic h.op then performAtomic s1 node seq h data o
      else performRemote s1 node seq h data i o

end Sys2Proof.Machine
end

