-- ==== Sys2Proof/Machine/AlloyOps.lean ====
section
/-!
DEFINITION. AlloyOps.lean: steps and chunks of reduce-through (R235 to R258).
-/
namespace Sys2Proof.Machine

/-- Fields of a step body (R237). -/
def stKind (b : Bytes) : Nat := fld b 0 1
def stOp (b : Bytes) : Nat := bits (fld b 1 1) 2 0
def stSat (b : Bytes) : Bool := bit (fld b 1 1) 3
def stRound (b : Bytes) : Bool := bit (fld b 1 1) 4
def stStart (b : Bytes) : Bool := bit (fld b 1 1) 5
def stWireIn (b : Bytes) : Nat := bits (fld b 2 1) 3 0
def stWireOut (b : Bytes) : Nat := bits (fld b 2 1) 7 4
def stLocal (b : Bytes) : Nat := bits (fld b 3 1) 3 0
def stDest (b : Bytes) : Nat := bits (fld b 3 1) 7 4
def stFan2 (b : Bytes) : Bool := bit (fld b 4 1) 5
def stFanOut2 (b : Bytes) : Bool := bit (fld b 4 1) 6
def stCast (b : Bytes) : Nat := fld b 6 2 % 512
def stColl (b : Bytes) : Nat := fld b 8 4
def stStep (b : Bytes) : Nat := fld b 12 2
def stChunk (b : Bytes) : Nat := fld b 14 2
def stElems (b : Bytes) : Nat := fld b 24 4
def stScale (b : Bytes) : Nat := fld b 28 4

/-- Whether a kind has inputs, a local operand, a destination (R236). -/
def stHasIn (b : Bytes) : Bool := decide (1 ≤ stKind b)
def stHasLocal (b : Bytes) : Bool := decide (stKind b ≤ 3)
def stHasDest (b : Bytes) : Bool := decide (2 ≤ stKind b)

/-- Input peers of a step (R237). -/
def stepIns (b : Bytes) : List Nat :=
  if stHasIn b then fld b 16 2 :: (if stFan2 b then [fld b 18 2] else []) else []

/-- Formats that a step uses. -/
def stepWire (b : Bytes) : List Nat :=
  (if stHasIn b then [stWireIn b] else []) ++ (if stepOuts b = [] then [] else [stWireOut b])
def stepFormats (b : Bytes) : List Nat :=
  stepWire b ++ (if stHasLocal b then [stLocal b] else []) ++ (if stHasDest b then [stDest b] else [])

/-- A field that the kind does not use is nonzero (R238); only the kinds that fold use SCALE (R246). -/
def stepUnused (b : Bytes) : Bool :=
  (!stHasIn b && (fld b 16 2 != 0 || stWireIn b != 0 || stFan2 b)) ||
    (!stFan2 b && fld b 18 2 != 0) ||
    (stepOuts b == [] && (fld b 20 2 != 0 || stWireOut b != 0)) ||
    (!stFanOut2 b && fld b 22 2 != 0) ||
    (!stHasLocal b && (stLocal b != 0 || fld b 32 8 != 0)) ||
    (!stHasDest b && (stDest b != 0 || fld b 40 8 != 0)) ||
    ((stOp b != 3 || [0, 4, 5].contains (stKind b)) && stScale b != 0) || (!stStart b && stCast b != 0) || (stKind b == 4 && stRound b)

/-- CHUNK_ELEMS keeps R240. -/
def chunkElemsOk (b : Bytes) : Bool :=
  decide (1 ≤ stChunk b) && (stepWire b).all (fun f => decide (stChunk b ≤ fullChunk f)) &&
    (!(stepFormats b).any fmtMx || stChunk b % 32 == 0)

/-- A step that R236 and R238 refuse with STEP_INVALID. -/
def stepInvalid (b : Bytes) : Bool :=
  decide (5 < stKind b) || (stepFormats b).any (fun f => !fmtDefined f) || stepUnused b ||
    (stFan2 b && decide (4 ≤ stKind b)) || (stFanOut2 b && (stKind b == 2 || stKind b == 5)) ||
    (stKind b == 4 && stWireIn b != stWireOut b) ||
    ((stepFormats b).contains 5 && ((stepFormats b).any (· != 5) || stOp b == 3)) ||
    (stOp b == 3 && (finMag (BitVec.ofNat 32 (stScale b))).isNone) || !chunkElemsOk b || stElems b == 0 ||
    decide (2 ^ 30 < stElems b) || ((stepFormats b).any fmtMx && stElems b % 32 != 0)

/-- A slice's block of the 64 step slots of an alloy (R239): first slot, and number. -/
def stepPart (s : State) (slice : Nat) : Nat × Nat :=
  if slice = 0 then (0, 8) else if slice = 31 then (8, 4)
  else (12 + (slice - 1) * (48 / max 1 s.tenants), 48 / max 1 s.tenants)

def alloyAt (s : State) (port : Nat) : Alloy := tgetD s.alloys port Alloy.reset
def setAlloy (s : State) (port : Nat) (a : Alloy) : State := { s with alloys := tset s.alloys port a }

def stepAt (s : State) (port k : Nat) : Option StepRec := tget (alloyAt s port).steps k
def setStep (s : State) (port k : Nat) (t : StepRec) : State :=
  let a := alloyAt s port
  setAlloy s port { a with steps := tset a.steps k t }

/-- Chunks of a step, and the elements of one (R240, R241). -/
def stepChunks (b : Bytes) : Nat := (stElems b + stChunk b - 1) / max 1 (stChunk b)
def chunkCount (b : Bytes) (c : Nat) : Nat := min (stChunk b) (stElems b - c * stChunk b)

/-- Complete a step's piece with a code, DETAIL and FAULT_ADDR (R329). -/
def endPiece (s : State) (slot : Nat) (code : Code) (detail addr : Nat) : State :=
  match tget s.gate.seals slot with
  | none => s
  | some l =>
    let s1 : State := { s with gate.descs := tmod s.gate.descs l.did fun d =>
      { d with faultAddr := if d.code = cOk then addr else d.faultAddr } }
    retire s1 slot code detail

/-- A step that is STAGED or RUNNING fails (R254): its completion carries the code. -/
def failStep (s : State) (port k : Nat) (code : Code) (detail addr : Nat) : State :=
  match stepAt s port k with
  | none => s
  | some t => if t.state = 3 then s else endPiece (stepFails s port k code) t.slot code detail addr

/-- Fail every live step of a selection. -/
def failSteps (s : State) (sel : Nat → StepRec → Bool) (code : Code) : State :=
  (stepsWhere s fun t => t.state != 3).foldl (fun s k =>
    match stepAt s k.1 k.2 with
    | some t => if sel k.1 t then failStep s k.1 k.2 code 0 0 else s
    | none => s) s

/-- One S0 event of a step (R258). -/
def stepNote (s : State) (port : Nat) (t : StepRec) (code : Code) : State :=
  latch s { unit := port, cls := 0, cause := 258, whereAt := stColl t.body * 65536 + stStep t.body, code := code,
            slice := some t.slice, ctx := some (t.ctx, t.gen) }

/-- Steps that lose peers (R255): FENCE_INDETERMINATE at once, naming the lost nodes that are theirs. -/
def stepsLose (s : State) (nodes : List Nat) : State :=
  (stepsWhere s fun t => t.state != 3).foldl (fun s k =>
    match stepAt s k.1 k.2 with
    | some t =>
      let mine := (stepOuts t.body ++ stepIns t.body).filter fun n => nodes.contains n
      if mine = [] then s
      else failStep (stepNote s k.1 t cFenceIndeterminate) k.1 k.2 cFenceIndeterminate (fenceDetail mine) (fenceAddr mine)
    | none => s) s

/-- Steps whose output chunks are given up (R223, R255). -/
def stepsGiveUp (s : State) (lost : List (Nat × Nat)) : State :=
  (stepsWhere s fun t => t.state != 3).foldl (fun s k =>
    match stepAt s k.1 k.2 with
    | some t =>
      let mine := nodesOf (t.outSent.filter fun o => lost.contains o)
      if mine = [] then s
      else failStep (stepNote s k.1 t cFenceIndeterminate) k.1 k.2 cFenceIndeterminate (fenceDetail mine) (fenceAddr mine)
    | none => s) s

/-- A member leaves the list, with everything that waits for it (R204, R224, R255). -/
def peerGone (s : State) (unit : Nat) : State :=
  match unitNode s unit with
  | some n => removePeer (stepsLose s [n]) unit
  | none => removePeer s unit

/-- T + 1 ms, for frames and steps (R223, R255). -/
def domainExpired (s : State) (old : Nat) : State :=
  let lost := s.link.flows.flatMap fun f => (f.2.outstanding.filter fun o =>
    o.2.frame.flags / 2 % 2 == old % 2).map fun o => (f.1, o.1)
  expireDomain (stepsGiveUp s lost) old

/-- Every input chunk taken and every output chunk retired (R254). -/
def stepDone (t : StepRec) : Bool :=
  t.state == 2 && (List.range (stepIns t.body).length).all (fun i => (tgetD t.taken i []).length == stepChunks t.body) &&
    t.owed == [] && t.outDone == stepChunks t.body * (stepOuts t.body).length

/-- DONE (R254): the slot is freed at once, and the piece completes OK. -/
def stepCheck (s : State) (port k : Nat) : State :=
  match stepAt s port k with
  | none => s
  | some t =>
    if stepDone t then
      let a := alloyAt s port
      retire (bumpStat (setAlloy s port { a with steps := tdel a.steps k }) 0x5011 1 1) t.slot cOk 0
    else s

/-- The fire of a STEP_START cast (R254, R424): the staged steps of its owner's slice that name it. -/
def startSteps (s : State) (cast owner : Nat) : State :=
  (stepsWhere s fun t => t.state == 1 && t.slice == owner && stStart t.body && stCast t.body == cast).foldl (fun s k =>
    match stepAt s k.1 k.2 with
    | some t => stepCheck (setStep s k.1 k.2 { t with state := 2 }) k.1 k.2
    | none => s) s

/-- The engine reset of a port clears its alloy (R258): live steps complete EXECUTOR_RESET, with no FAILED state. -/
def clearAlloy (s : State) (port : Nat) : State :=
  let live := (alloyAt s port).steps.filter fun t => t.2.state != 3
  let a := alloyAt s port
  live.foldl (fun s t => endPiece (bumpStat s 0x5011 2 1) t.2.slot cExecutorReset 0 0)
    (setAlloy s port { a with steps := [], served := [] })

/-- The tier-A verdict on a step's access (R237, R244): none grants it. -/
def stepAccess (s : State) (t : StepRec) (a n : Nat) (write : Bool) : Option (Code × Nat) :=
  tierAVerdict s t.ctx t.gen a n write

/-- Where the elements and the block scales of chunk c lie in an operand (R237, R241). -/
def elemsAddr (b : Bytes) (fmt base c : Nat) : Nat := base + c * stChunk b * fmtWidth fmt / 8
def scalesAddr (b : Bytes) (fmt base c : Nat) : Nat := base + stElems b * fmtWidth fmt / 8 + c * stChunk b / 32

def elemsLen (fmt n : Nat) : Nat := (n * fmtWidth fmt + 7) / 8
def scalesLen (fmt n : Nat) : Nat := if fmtMx fmt then n / 32 else 0

/-- Both spans of a chunk in an operand are accessible. -/
def spanAccess (s : State) (t : StepRec) (fmt base c : Nat) (write : Bool) : Option (Code × Nat) :=
  let n := chunkCount t.body c
  match stepAccess s t (elemsAddr t.body fmt base c) (elemsLen fmt n) write with
  | some e => some e
  | none =>
    if fmtMx fmt then stepAccess s t (scalesAddr t.body fmt base c) (max 1 (scalesLen fmt n)) write else none

/-- The elements and block scales of chunk c of the local operand, as tier A holds them now. -/
def localRaw (s : State) (t : StepRec) (c : Nat) : Bytes × Bytes :=
  let f := stLocal t.body
  let n := chunkCount t.body c
  (tierABytes s (elemsAddr t.body f t.localA c) (elemsLen f n), tierABytes s (scalesAddr t.body f t.localA c) (scalesLen f n))

/-- The decoded local operand of chunk c (R244, R245): as it was read ahead, or else as it is now. -/
def localElems (s : State) (t : StepRec) (c : Nat) : List (BitVec 32) :=
  let r := (tget t.fetched c).getD (localRaw s t c)
  decodeElems (stLocal t.body) (chunkCount t.body c) (leNat r.1) r.2

/-- A refused access of a step (R258): the step's code; a checker's denial is S2 for the context. -/
def stepDenied (s : State) (port k : Nat) (t : StepRec) (e : Code × Nat) : State :=
  let s1 := failStep s port k e.1 0 0
  afterVerdict s1 e t.ctx

/-- A chunk index that a step has taken or, a SEND, emitted. -/
def chunkUsed (t : StepRec) (c : Nat) : Bool := decide (c < t.emitted) || t.taken.any fun p => p.2.contains c

/-- The first chunk that a step still expects (R244), from c on. The fuel bounds the search. -/
def chunkNext : Nat → StepRec → Nat → Nat
  | 0, _, c => c
  | n + 1, t, c => if chunkUsed t c then chunkNext n t (c + 1) else c

/-- Read the local operand of chunks c on ahead (R244), under the context's stamp; a denied read fails the step. The fuel is the number of
chunks. -/
def prefetchFrom : Nat → State → Nat → Nat → Nat → State
  | 0, s, _, _, _ => s
  | n + 1, s, port, k, c =>
    match stepAt s port k with
    | none => s
    | some t =>
      if t.state = 3 || stepChunks t.body ≤ c then s
      else if chunkUsed t c || (tget t.fetched c).isSome then prefetchFrom n s port k (c + 1)
      else
        match spanAccess s t (stLocal t.body) t.localA c false with
        | some e => stepDenied s port k t e
        | none => prefetchFrom n (setStep s port k { t with fetched := tset t.fetched c (localRaw s t c) }) port k (c + 1)

/-- The local operand of a step is held up to 64 chunks ahead of those it expects (R244). -/
def prefetch (s : State) (port k : Nat) : State :=
  match stepAt s port k with
  | some t =>
    if stHasLocal t.body then
      prefetchFrom 64 s port k (chunkNext (t.emitted + (t.taken.map fun p => p.2.length).foldl (· + ·) 0) t 0)
    else s
  | none => s

/-- The stream of a context generation (R252). -/
def streamKey (t : StepRec) : Nat := t.ctx * 65536 + t.gen

/-- The draws of the next chunk that a step rounds (R251, R252); none without ROUND. -/
def stepDraw (s : State) (port : Nat) (t : StepRec) (fmt : Nat) (rounds : Bool) : Nat → Option Nat :=
  if rounds && stRound t.body && fmt != 5 then
    match engKey s (.ctxaux t.ctx t.gen) with
    | some k =>
      let kb := be 32 k.toNat
      fun i => some (streamDraw (fld kb 0 4) (fld kb 4 4) port (tcount (alloyAt s port).stream (streamKey t)) i)
    | none => fun _ => none
  else fun _ => none

/-- Convert a chunk of results, counting NaNs and saturations and advancing the stream (R248 to R252). -/
def stepEncode (s : State) (port : Nat) (t : StepRec) (fmt : Nat) (rounds : Bool) (v : List (BitVec 32)) :
    State × Encoded :=
  let e := encodeAll fmt (stSat t.body) (stepDraw s port t fmt rounds) v
  let a := alloyAt s port
  let a' : Alloy := { a with
    nanOut := a.nanOut + BitVec.ofNat 16 e.nans, satOut := a.satOut + BitVec.ofNat 16 e.sats
    stream := if rounds && stRound t.body && fmt != 5 then tbump a.stream (streamKey t) 1 else a.stream }
  (bumpStat (bumpStat (setAlloy s port a') 0x5011 3 e.nans) 0x5011 4 e.sats, e)

/-- The bytes of converted elements. -/
def encBytes (fmt : Nat) (e : Encoded) : Bytes × Bytes :=
  (packElems (fmtWidth fmt) e.elems, e.scales.map fun x => BitVec.ofNat 8 x)

/-- The cleartext of a chunk (R241). -/
def chunkPayload (b : Bytes) (c : Nat) (data : Bytes) (abort : Bool) : Bytes :=
  let n := if abort then 0 else chunkCount b c
  let last := !abort && c + 1 == stepChunks b
  le 1 (stWireOut b) ++ le 1 (stOp b) ++ le 2 (stStep b + 1) ++ le 4 (stColl b) ++ le 4 c ++ le 2 n ++
    le 2 (b2n last + 2 * b2n abort) ++ fit (roundUp data.length 16) data

/-- Queue an output chunk for each output peer (R256). -/
def queueOut (s : State) (port k c : Nat) (data : Bytes) : State :=
  match stepAt s port k with
  | none => s
  | some t =>
    setStep s port k { t with
      outQueued := t.outQueued ++ (List.range (stepOuts t.body).length).map fun i => (c, i)
      outData := tset t.outData c (chunkPayload t.body c data false) }

/-- Write converted results to the destination (R248). -/
def landChunk (s : State) (port : Nat) (t : StepRec) (c : Nat) (rounds : Bool) (v : List (BitVec 32)) : State :=
  let f := stDest t.body
  let r := stepEncode s port t f rounds v
  let b := encBytes f r.2
  tierAWrite (tierAWrite r.1 (elemsAddr t.body f t.destA c) b.1) (scalesAddr t.body f t.destA c) b.2

/-- A chunk of a step passes tap 2 or 3 of its alloy (R514): as `n` elements of a format, among the chunks that pass there. -/
def tapStep (s : State) (tap : Nat) (t : StepRec) (peers peer c fmt : Nat) (data : Bytes) : State :=
  if s.watch.table = [] then s
  else
    let b := t.body
    tapChunk s tap t.ctx t.gen (stColl b) (stStep b) (peers * stepChunks b)
      ⟨c * peers + peer, c * (elemsLen fmt (stChunk b) + scalesLen fmt (stChunk b)), data, some (fmt, chunkCount b c)⟩

/-- The bytes of a chunk in the destination. -/
def landedBytes (s : State) (t : StepRec) (c : Nat) : Bytes :=
  let f := stDest t.body
  tierABytes s (elemsAddr t.body f t.destA c) (elemsLen f (chunkCount t.body c)) ++
    tierABytes s (scalesAddr t.body f t.destA c) (scalesLen f (chunkCount t.body c))

/-- A chunk's result is ready (R246, R248): it is queued for egress, written to the destination, or both. `raw` is the data
that kind 4 forwards unchanged. -/
def resultReady (s : State) (port k : Nat) (t : StepRec) (c : Nat) (v : List (BitVec 32)) (raw : Bytes) : State :=
  let kind := stKind t.body
  if kind = 1 then
    let r := stepEncode s port t (stWireOut t.body) true v
    let b := encBytes (stWireOut t.body) r.2
    tapStep (queueOut r.1 port k c (b.1 ++ b.2)) 3 t 1 0 c (stWireOut t.body) (b.1 ++ b.2)
  else if kind = 3 then
    let r := stepEncode s port t (stWireOut t.body) true v
    let b := encBytes (stWireOut t.body) r.2
    let back := decodeElems (stWireOut t.body) (chunkCount t.body c) (leNat b.1) b.2
    tapStep (landChunk (queueOut r.1 port k c (b.1 ++ b.2)) port t c false back) 3 t 1 0 c (stWireOut t.body) (b.1 ++ b.2)
  else if kind = 4 then tapStep (landChunk (queueOut s port k c raw) port t c false v) 3 t 1 0 c (stWireOut t.body) raw
  else
    let s1 := landChunk s port t c true v
    tapStep s1 3 t 1 0 c (stDest t.body) (landedBytes s1 t c)

/-- The fold of one chunk's elements (R246); the scale factor applies to the last. -/
def foldChunk (b : Bytes) (acc x : List (BitVec 32)) (last : Bool) : List (BitVec 32) :=
  let f := List.zipWith (foldOne (stWireIn b == 5) (stOp b)) acc x
  if last && stOp b == 3 then f.map fun v => fpMul v (BitVec.ofNat 32 (stScale b)) else f

/-- The header of a chunk (R241). -/
structure ChunkHdr where
  fmt : Nat
  op : Nat
  step : Nat
  coll : Nat
  chunk : Nat
  elems : Nat
  flags : Nat
  deriving DecidableEq, Repr

def chunkHdr (pt : Bytes) : ChunkHdr :=
  ⟨fld pt 0 1, fld pt 1 1, fld pt 2 2, fld pt 4 4, fld pt 8 4, fld pt 12 2, fld pt 14 2⟩

/-- The check of a taken chunk (R243). -/
def chunkOk (t : StepRec) (h : ChunkHdr) (peer : Nat) (data : Bytes) : Bool :=
  h.fmt == stWireIn t.body && h.op == stOp t.body && decide (h.chunk < stepChunks t.body) &&
    h.elems == chunkCount t.body h.chunk && !(tgetD t.taken peer []).contains h.chunk && decide (h.flags < 4) &&
    decide (elemsLen h.fmt h.elems + scalesLen h.fmt h.elems ≤ data.length)

/-- The status that a chunk of a FAILED step is acknowledged with (R242): TARGET_RESET, where its partition was reset (R65,
R258). -/
def lateCode (s : State) (t : StepRec) : Code :=
  if t.code = cAbortedReset || partitionDown s t.slice then cTargetReset else cStepPeerAbort

/-- The chunk exchange's finding (R242). -/
inductive ChunkVerdict where
  | unmatched
  | busy (port : Nat)
  | failed (code : Code)
  | take (port k peer : Nat)
  deriving DecidableEq, Repr

/-- Bytes that a slice's chunks hold in an alloy's 128 KiB input buffer, and its part of it (R242, R406). -/
def inputUsed (a : Alloy) (slice : Nat) : Nat :=
  ((a.steps.filter fun t => t.2.slice == slice).map fun t => (t.2.input.map fun d => d.payload.length).foldl (· + ·) 0).foldl
    (· + ·) 0
def inputPart (s : State) (slice : Nat) : Nat :=
  if slice = 0 then 16384 else if slice = 31 then 8192 else 106496 / max 1 s.tenants

/-- Chunks of a fan-in-2 step in the input buffer that wait for their partial accumulator. -/
def accAwaited (t : StepRec) : List Nat :=
  if stFan2 t.body then ((t.input.map fun x => (chunkHdr x.payload).chunk).filter fun c => (tget t.acc c).isNone).foldl insertN [] else []

/-- Partial accumulators that a slice uses or its buffered chunks will, and its part (R406). -/
def accUsed (a : Alloy) (slice : Nat) : Nat :=
  ((a.steps.filter fun t => t.2.slice == slice).map fun t => t.2.acc.length + (accAwaited t.2).length).foldl (· + ·) 0
def accPart (s : State) (slice : Nat) : Nat := Config.accumulators * (stepPart s slice).2 / 64

/-- Look up a verified chunk in the step directory (R242): this port's alloy first, then the others over the chunk exchange. -/
def chunkVerdict (s : State) (port node : Nat) (pt : Bytes) : ChunkVerdict :=
  let h := chunkHdr pt
  let hits := s.alloys.flatMap fun a => (a.2.steps.filter fun t =>
    (stepIns t.2.body).contains node && stColl t.2.body == h.coll && stStep t.2.body == h.step).map fun t => (a.1, t)
  let live := hits.filter fun x => x.2.2.state != 3
  match live.find? (fun x => x.1 == port) <|> live.head? with
  | some x =>
    let t := x.2.2
    let peer := (stepIns t.body).idxOf node
    let fresh := stFan2 t.body && !bit h.flags 1 && (tget t.acc h.chunk).isNone && !(accAwaited t).contains h.chunk
    if inputPart s t.slice < inputUsed (alloyAt s x.1) t.slice + pt.length then .busy x.1
    else if fresh && decide (accPart s t.slice ≤ accUsed (alloyAt s x.1) t.slice) then .busy x.1
    else .take x.1 x.2.1 peer
  | none =>
    match hits.head? with
    | none => .unmatched
    | some x => .failed (lateCode s x.2.2)

/-- The chunks of index c whose status is now known are acknowledged OK (R243). -/
def settleChunk (s : State) (port k c : Nat) : State :=
  match stepAt s port k with
  | none => s
  | some t =>
    (tgetD t.owed c []).foldl (fun s o => settleFrame s o.1 o.2 cOk)
      (setStep s port k { t with owed := tdel t.owed c, acc := tdel t.acc c, progressAt := s.ns })

/-- Fold a chunk that passed its check (R243, R246). -/
def foldTaken (s : State) (port k : Nat) (x : TakenChunk) : State :=
  match stepAt s port k with
  | none => s
  | some t =>
    let h := chunkHdr x.payload
    let data := x.payload.drop 16
    let n := h.elems
    let raw := data.take (elemsLen h.fmt n + scalesLen h.fmt n)
    let v := decodeElems h.fmt n (leNat (data.take (elemsLen h.fmt n))) ((data.drop (elemsLen h.fmt n)).take (scalesLen h.fmt n))
    let first := (tget t.acc h.chunk).isNone
    let readErr := if stHasLocal t.body && first && (tget t.fetched h.chunk).isNone then
      spanAccess s t (stLocal t.body) t.localA h.chunk false else none
    let writeErr := if stHasDest t.body then spanAccess s t (stDest t.body) t.destA h.chunk true else none
    match readErr, writeErr with
    | some e, _ => stepDenied s port k t e
    | none, some e => stepDenied s port k t e
    | none, none =>
      if !stHasLocal t.body then stepCheck (settleChunk (resultReady s port k t h.chunk v raw) port k h.chunk) port k
      else
        let base := (tget t.acc h.chunk).getD (localElems s t h.chunk)
        let last := !stFan2 t.body || !first
        let r := foldChunk t.body base v last
        let t1 : StepRec := { t with fetched := tdel t.fetched h.chunk }
        let s1 := setStep s port k t1
        if last then stepCheck (settleChunk (resultReady s1 port k t1 h.chunk r []) port k h.chunk) port k
        else setStep s port k { t1 with acc := tset t.acc h.chunk r }

/-- A step folds what its input buffer holds while its output queue is empty (R256): how much an output queue holds beyond one chunk is not
given. DESIGN CHOICE (log 100). The fuel is the number of chunks. -/
def drainInput : Nat → State → Nat → Nat → State
  | 0, s, _, _ => s
  | n + 1, s, port, k =>
    match stepAt s port k with
    | none => s
    | some t =>
      match t.input with
      | [] => s
      | x :: rest =>
        if t.state = 3 || t.outQueued ≠ [] then s
        else drainInput n (foldTaken (setStep s port k { t with input := rest }) port k x) port k

/-- A step goes on: it folds what it can, and reads its local operand ahead (R244, R256). -/
def stepOn (s : State) (port k : Nat) : State :=
  prefetch (drainInput (((stepAt s port k).map fun t => t.input.length).getD 0) s port k) port k

/-- Take a chunk that matches a live step (R242, R243): its frame has been accepted and is pending, and it enters the input buffer. -/
def chunkTake (s : State) (port k peer node seq : Nat) (pt : Bytes) : State :=
  match stepAt s port k with
  | none => s
  | some t =>
    let h := chunkHdr pt
    let data := pt.drop 16
    if bit h.flags 1 then
      failStep (stepNote (settleFrame s node seq cOk) port t cStepPeerAbort) port k cStepPeerAbort 0 0
    else if !chunkOk t h peer data then
      failStep (stepNote (settleFrame s node seq cStepMismatch) port t cStepMismatch) port k cStepMismatch 0 0
    else
      let t1 : StepRec := { t with
        taken := tset t.taken peer (tgetD t.taken peer [] ++ [h.chunk])
        owed := tset t.owed h.chunk (tgetD t.owed h.chunk [] ++ [(node, seq)]), progressAt := s.ns
        input := t.input ++ [⟨peer, node, seq, pt⟩] }
      tapStep (stepOn (setStep s port k t1) port k) 2 t (stepIns t.body).length peer h.chunk h.fmt
        (data.take (elemsLen h.fmt h.elems + scalesLen h.fmt h.elems))

/-- The frame of an output chunk or an ABORT (R256). -/
def chunkFrame (t : StepRec) (port node : Nat) (payload : Bytes) : SealReq :=
  { via := some port, node := node, ftype := ftChunk, payload := payload, slice := t.slice, ctx := t.ctx, gen := t.gen, queue := t.queue }

/-- A parity error in a step slot or in the stream state of an alloy (R258): every step completes EXECUTOR_RESET, and their ABORT chunks are
sealed before the engine reset clears the alloy. -/
def alloyParity (s : State) (port : Nat) : State :=
  (stepsWhere (failSteps s (fun p _ => p == port) cExecutorReset) fun t => t.aborts != []).foldl (fun s x =>
    match stepAt s x.1 x.2 with
    | some t =>
      if x.1 = port then
        t.aborts.foldl (fun s n => sendFrame s (chunkFrame t port n (chunkPayload t.body 0 [] true)))
          (setStep s port x.2 { t with aborts := [] })
      else s
    | none => s) (failSteps s (fun p _ => p == port) cExecutorReset)

/-- The first ACK entry of an output chunk (R255). -/
def alloyAck (s : State) (node seq : Nat) (code : Code) : State :=
  match (stepsWhere s fun t => t.outSent.contains (node, seq)).head? with
  | none => s
  | some (port, k) =>
    match stepAt s port k with
    | none => s
    | some t =>
      if code = cOk then
        stepCheck (setStep s port k { t with
          outSent := t.outSent.filter (· != (node, seq)), outDone := t.outDone + 1, progressAt := s.ns }) port k
      else failStep s port k code 0 0

end Sys2Proof.Machine
end

