-- ==== Sys2Proof/Machine/Alloys.lean ====
section
/-!
DEFINITION. Alloys.lean: the commands of the alloys (chapter 8).
-/
namespace Sys2Proof.Machine

/-- The step slot that a new step of a slice takes (R239). -/
def freeStep (s : State) (port slice : Nat) : Option Nat :=
  let part := stepPart s slice
  ((List.range part.2).map (· + part.1)).find? fun k => (tget (alloyAt s port).steps k).isNone

/-- A step refused at staging completes with the code and holds no slot (R238). -/
def stageRefused (s : State) (slot : Nat) (code : Code) : State :=
  retire (bumpStat s 0x5011 2 1) slot code 0

/-- STEP_STAGE (R236 to R239, R254): the alloy that TOPO names takes the piece in a live-seal slot. -/
def execStepStage (port slot : Nat) (s : State) : Host.Outcome State Fault Refusal :=
  done <| whenUp s fun s =>
    match (tget s.gate.seals slot).filter fun l => l.dispatched && l.cls == kStep &&
        bits (dBody l.raw 4 1) 4 0 == port && (stepsWhere s fun t => t.slot == slot && t.state != 3) == [] with
    | none => s
    | some l =>
      let b := l.raw.drop 32
      let s1 := if stRound b then deliverTo (needKey s (.ctxaux l.ctx l.gen)) (.ctxaux l.ctx l.gen) port else s
      if stepInvalid b || (stRound b && (engKey s1 (.ctxaux l.ctx l.gen)).isNone) then stageRefused s1 slot cStepInvalid
      else if (stepIns b ++ stepOuts b).any fun n => !memberNode s1 n then stageRefused s1 slot cDomainNotMember
      else
        match freeStep s1 port l.slice with
        | none => stageRefused s1 slot cRefusedQueue
        | some k =>
          let t : StepRec :=
            { slot := slot, ctx := l.ctx, gen := l.gen, slice := l.slice, queue := l.queue, body := b,
              localA := (l.trs.getD 0 0) % 2 ^ 48, destA := (l.trs.getD 1 0) % 2 ^ 48, state := if stStart b then 1 else 2,
              code := cOk, timeoutMs := setting s1 0x5010 1, taken := [], acc := [], input := [], fetched := [], owed := [], outQueued := [],
              outData := [], emitted := 0, outSent := [], outDone := 0, aborts := [], progressAt := s1.ns, failAt := 0 }
          prefetch (bumpUnit (setStep s1 port k t) port 0 1) port k

/-- A SEND step reads and converts its next chunk (R246, R256). -/
def sendNext (s : State) (port k : Nat) (t : StepRec) : State :=
  if stKind t.body = 0 && t.outQueued = [] && t.emitted < stepChunks t.body then
    match if (tget t.fetched t.emitted).isSome then none else spanAccess s t (stLocal t.body) t.localA t.emitted false with
    | some e => stepDenied s port k t e
    | none =>
      let r := stepEncode s port t (stWireOut t.body) true (localElems s t t.emitted)
      let b := encBytes (stWireOut t.body) r.2
      tapStep (queueOut (setStep r.1 port k { t with emitted := t.emitted + 1, fetched := tdel t.fetched t.emitted }) port k t.emitted (b.1 ++ b.2)) 3 t 1 0
        t.emitted (stWireOut t.body) (b.1 ++ b.2)
  else s

/-- A step has an output chunk or an ABORT to send. -/
def stepReady (t : StepRec) : Bool :=
  (t.state == 3 && t.aborts != []) || (t.state == 2 &&
    (t.outQueued != [] || (stKind t.body == 0 && decide (t.emitted < stepChunks t.body))))

/-- The round robin of a slice's RUNNING steps on its port (R256): no ready step lies between the one served last and this. -/
def stepTurn (a : Alloy) (slice k : Nat) : Bool :=
  let turn (j : Nat) : Nat := (j + 64 - (tgetD a.served slice 63 + 1) % 64) % 64
  !a.steps.any fun t => t.2.slice == slice && stepReady t.2 && decide (turn t.1 < turn k)

/-- Emit the chunk or ABORT that a step has first (R254, R256), if the slice's bucket holds it and it can be sealed now. -/
def emitFirst (s : State) (port k : Nat) : State :=
  match stepAt s port k with
  | none => s
  | some t =>
    let a := alloyAt s port
    let mark (s : State) : State := setAlloy s port { alloyAt s port with served := tset a.served t.slice k }
    if t.state = 3 then
      match t.aborts with
      | [] => s
      | n :: rest =>
        let payload := chunkPayload t.body 0 [] true
        if fabricLevel s port t.slice < wireOf payload.length then s
        else mark (sendFrame (setStep s port k { t with aborts := rest }) (chunkFrame t port n payload))
    else
      match t.outQueued with
      | [] => s
      | (c, i) :: rest =>
        let node := (stepOuts t.body).getD i 0
        let payload := tgetD t.outData c []
        if fabricLevel s port t.slice < wireOf payload.length then s
        else
          let r := sealNow s s.link.nextReq (chunkFrame t port node payload)
          match r.2 with
          | .sealed seq =>
            mark (setStep r.1 port k { t with
              outQueued := rest, outSent := t.outSent ++ [(node, seq)]
              outData := if rest.any fun q => q.1 == c then t.outData else tdel t.outData c })
          | .waits => r.1
          | .notMember =>
            failStep (stepNote r.1 port t cFenceIndeterminate) port k cFenceIndeterminate (fenceDetail [node]) (fenceAddr [node])

/-- CHUNK_EMIT (R256): an output chunk leaves for its peer; a FAILED step sends its ABORT chunks (R254). -/
def execChunkEmit (port stepSlot : Nat) (s : State) : Host.Outcome State Fault Refusal :=
  done <| whenUp s fun s =>
    match stepAt s port stepSlot with
    | none => s
    | some t =>
      if stepReady t && stepTurn (alloyAt s port) t.slice stepSlot then
        stepOn (emitFirst (if t.state = 2 then sendNext s port stepSlot t else s) port stepSlot) port stepSlot
      else s

/-- Frames of a step that FENCE_TIMEOUT after their first send are still unacknowledged (R255). -/
def stepLate (s : State) (t : StepRec) : List Nat :=
  nodesOf (t.outSent.filter fun o => ((flowAt s o.1).bind fun f => tget f.outstanding o.2).any fun x =>
    x.firstAt.any fun a => decide (a + setting s 0x5000 1 * 1000000 ≤ s.ns))

/-- Chunks that a step still awaits (R255). -/
def stepAwaits (t : StepRec) : Nat :=
  (stepIns t.body).length * stepChunks t.body - (t.taken.map fun x => x.2.length).foldl (· + ·) 0 +
    ((stepOuts t.body).length * stepChunks t.body - t.outDone)

/-- STEP_TIMEOUT (R255, R258): an output chunk unacknowledged for FENCE_TIMEOUT is FENCE_INDETERMINATE; no progress for
STEP_TIMEOUT is STEP_INCOMPLETE. -/
def execStepTimeout (port stepSlot : Nat) (s : State) : Host.Outcome State Fault Refusal :=
  done <| whenUp s fun s =>
    match stepAt s port stepSlot with
    | none => s
    | some t =>
      let late := stepLate s t
      if t.state = 3 then s
      else if late ≠ [] then
        failStep (stepNote s port t cFenceIndeterminate) port stepSlot cFenceIndeterminate (fenceDetail late) (fenceAddr late)
      else if t.progressAt + t.timeoutMs * 1000000 ≤ s.ns && stepAwaits t ≠ 0 then
        failStep (stepNote s port t cStepIncomplete) port stepSlot cStepIncomplete (stepAwaits t) 0
      else s

/-- STEP_SLOT_RELEASE (R254): STEP_TIMEOUT after its failure, a FAILED step's slot is freed. -/
def execStepSlotRelease (port stepSlot : Nat) (s : State) : Host.Outcome State Fault Refusal :=
  done <| whenUp s fun s =>
    match stepAt s port stepSlot with
    | none => s
    | some t =>
      if t.state = 3 && t.failAt + t.timeoutMs * 1000000 ≤ s.ns then
        let a := alloyAt s port
        setAlloy s port { a with steps := tdel a.steps stepSlot }
      else s

/-- ALLOY_LANE_TEST (R257): a lane that fails is mapped out, S1; every RUNNING step of the alloy completes EXECUTOR_RESET;
below 196 good lanes the engine has an S3 error (R48). -/
def execAlloyLaneTest (port lane : Nat) (pass : Bool) (s : State) : Host.Outcome State Fault Refusal :=
  done <| whenUp s fun s =>
    let a := alloyAt s port
    if pass || a.lanesOut.contains lane then s
    else
      let a' : Alloy := { a with lanesOut := a.lanesOut ++ [lane], lanesGood := a.lanesGood - 1 }
      let s1 := failSteps (notice (setAlloy s port a') 1 257 port lane) (fun p t => p == port && t.state == 2) cExecutorReset
      if a'.lanesGood < 196 then raiseS3 s1 port 48 lane else s1

end Sys2Proof.Machine
end

