-- ==== Sys2Proof/Machine/CipherOps.lean ====
section
/-!
DEFINITION. CipherOps.lean: the modes of the cipher service (R123 to R125), its channels, keys and saved states.
-/
namespace Sys2Proof.Machine

/-- Fields of CH_CTRL (R139). -/
def cMode (b : CipherBody) : Nat := bits b.ctrl.toNat 27 24
def cFinal (b : CipherBody) : Bool := bit b.ctrl.toNat 30
def cStart (b : CipherBody) : Bool := bit b.ctrl.toNat 29
def cTagLen (b : CipherBody) : Nat := bits b.ctrl.toNat 23 20 + 1

/-- The mode and its lengths obey the table of R123 and R124, with the message open that a job without START needs (R129). -/
def jobOk (b : CipherBody) (m : Option ChanState) : Bool :=
  let k := cMode b
  let aligned := cFinal b || b.len % 16 == 0
  let before := if cStart b then 0 else (m.map (·.text)).getD 0
  let aadBefore := if cStart b then 0 else (m.map (·.aad)).getD 0
  bits b.ctrl.toNat 28 28 == 0 && bits b.ctrl.toNat 19 0 == 0 && decide (1 ≤ b.len) && decide (b.len ≤ 2 ^ 26) &&
    decide (b.aadLen ≤ 2 ^ 20) && (b.aadLen == 0 || ((k == 4 || k == 5) && cStart b)) &&
    (cStart b || m.any fun c => c.mode == k) &&
    (match k with
     | 1 => b.len % 16 == 0
     | 2 => b.len % 16 == 0
     | 3 => aligned
     | 4 => decide (12 ≤ cTagLen b) && decide (before + b.len ≤ 2 ^ 36 - 32)
     | 5 => decide (12 ≤ cTagLen b) && cStart b && cFinal b
     | 6 => decide (12 ≤ cTagLen b) && decide (aadBefore + b.len ≤ 2 ^ 36 - 32)
     | 7 => decide (12 ≤ cTagLen b) && cStart b && cFinal b
     | 8 => aligned
     | 9 => aligned
     | 10 => aligned
     | 11 => decide (8 ≤ cTagLen b) && aligned
     | 12 => decide (8 ≤ cTagLen b) && aligned
     | _ => false)

/-- The state that START loads (R129): the IV, and for GCM the AAD. -/
def startState (k : Key) (b : CipherBody) (aad : Bytes) : ChanState :=
  let m := cMode b
  let gcm := decide (4 ≤ m) && decide (m ≤ 7)
  { mode := m
    reg := if gcm then gcmJ0 (b.iv.extractLsb' 32 96) else if 11 ≤ m then 0 else b.iv
    y := if gcm then ghash (aesBlock k 0) 0 (blocksOf aad) else 0
    aad := aad.length, text := 0, part := [] }

/-- XOR of a string with the leading bytes of a block. -/
def xorBlock (b : Bytes) (v : BitVec 128) : Bytes := List.zipWith (· ^^^ ·) b (ofBlock v)

/-- One block through a chained mode: the output and the next chaining register (SP 800-38A). -/
def chainStep (k : Key) (mode : Nat) (reg : BitVec 128) (b : Bytes) : Bytes × BitVec 128 :=
  if mode = 1 then
    let c := aesBlock k (toBlock b ^^^ reg)
    (ofBlock c, c)
  else if mode = 2 then (ofBlock (aesInv k (toBlock b) ^^^ reg), toBlock b)
  else if mode = 3 then (xorBlock b (aesBlock k reg), inc32 reg 1)
  else if mode = 8 then
    let c := xorBlock b (aesBlock k reg)
    (c, toBlock c)
  else if mode = 9 then (xorBlock b (aesBlock k reg), toBlock b)
  else
    let o := aesBlock k reg
    (xorBlock b o, o)

/-- All blocks of a job through a chained mode. -/
def chain (k : Key) (mode : Nat) : BitVec 128 → List Bytes → Bytes × BitVec 128
  | reg, [] => ([], reg)
  | reg, b :: r =>
    let s := chainStep k mode reg b
    let t := chain k mode s.2 r
    (s.1 ++ t.1, t.2)

/-- Fold further ciphertext or AAD bytes into GHASH, keeping a partial block. -/
def absorb (k : Key) (c : ChanState) (data : Bytes) : ChanState :=
  let all := c.part ++ data
  let n := all.length / 16 * 16
  { c with y := ghash (aesBlock k 0) c.y (blocksOf (all.take n)), part := all.drop n }

/-- The tag of a GCM or GMAC message (SP 800-38D). -/
def gcmFinal (k : Key) (c : ChanState) : BitVec 128 :=
  ghash (aesBlock k 0) c.y (blocksOf c.part ++ [lenBlock c.aad c.text]) ^^^ aesBlock k c.reg

/-- GCM keystream from a text position on. -/
def gcmStream (k : Key) (c : ChanState) (n : Nat) : Bytes :=
  (ctrBytes k (inc32 c.reg (1 + c.text / 16)) (c.text % 16 + n)).drop (c.text % 16)

/-- CMAC over further bytes, its last block held back. -/
def cmacMore (k : Key) (c : ChanState) (data : Bytes) : ChanState :=
  let bs := chunks (c.part.length + data.length) (c.part ++ data)
  { c with y := cmacFold k c.y bs.dropLast, part := bs.getLast?.getD [] }

/-- One job on a message: its output bytes, the state after it, and the tag of the state if it ends here (R123). -/
def runMode (k : Key) (c : ChanState) (text : Bytes) : Bytes × ChanState × BitVec 128 :=
  if c.mode = 4 then
    let ct := xorBytes text (gcmStream k c text.length)
    let c' := absorb k { c with text := c.text + text.length } ct
    (ct, { c' with text := c.text + text.length }, gcmFinal k c')
  else if c.mode = 5 then
    let c' := absorb k { c with text := c.text + text.length } text
    (xorBytes text (gcmStream k c text.length), c', gcmFinal k c')
  else if c.mode = 6 ∨ c.mode = 7 then
    let c' := absorb k { c with aad := c.aad + text.length } text
    ([], c', gcmFinal k c')
  else if 11 ≤ c.mode then
    let c' := cmacMore k c text
    ([], c', cmacLast k c'.y c'.part)
  else
    let r := chain k c.mode c.reg (chunks text.length text)
    (r.1, { c with reg := r.2, text := c.text + text.length }, 0)

/-- Modes that compare the tag (R124), and modes that have one. -/
def isVerify (m : Nat) : Bool := m == 5 || m == 7 || m == 12
def hasTag (m : Nat) : Bool := (decide (4 ≤ m) && decide (m ≤ 7)) || decide (11 ≤ m)

/-- What a job counts against its key (R131): one invocation, or its blocks. -/
def jobUse (b : CipherBody) : Nat × Nat :=
  if 4 ≤ cMode b ∧ cMode b ≤ 7 then (b2n (cStart b), 0) else (0, (b.len + 15) / 16)

/-- The channel number that a descriptor's CHANNEL names (R334). -/
def chanIndex (c : Nat) : Nat := if c = 0x80 then 64 else if c = 0x81 then 65 else c

/-- Whether a stream of a context may use a channel (R127), a system channel (R126) or a privileged page (R136). Context 0 is TCU
firmware; page 3 takes no operation but the sentinels' own. -/
def chanOwn (s : State) (n ctx gen : Nat) : Bool :=
  let c := chanAt s n
  if n = 64 then (ctxAt s ctx).slice == 0 && ctx != 0
  else if n = 65 then (ctxAt s ctx).slice == 31
  else if n = 66 ∨ n < 4 then ctx == 0
  else if n = 67 then false
  else c.allocated && c.ctx == ctx && c.gen == gen

/-- Who a channel's keys and records belong to (R126, R128, R132): 32 names the system, else the slice. -/
def chanShare (s : State) (n : Nat) : Nat := if n < 4 then 32 else (chanAt s n).slice

/-- The OP code of an operation (R139). -/
def opCode : CipherOp → Nat
  | .job => 0
  | .save => 1
  | .restoreRecord _ => 2
  | .exportTo _ => 3
  | .restoreBlob _ => 4
  | .attach _ _ => 5
  | .detach => 6

/-- The dispatched CIPHER piece that brings an operation of a context (R32, R334), the one sealed first. A piece whose OP is none of R139's
comes as a job, which CHAN_PARAM refuses. -/
def jobSlot (s : State) (n ctx gen : Nat) (op : CipherOp) : Option Nat :=
  (s.gate.seals.find? fun p => p.2.cls == kCipher && p.2.dispatched && p.2.ctx == ctx && p.2.gen == gen &&
    chanIndex (dBody p.2.raw 0 1) == n && (dBody p.2.raw 4 4 % 256 == opCode op || (op == .job && decide (6 < dBody p.2.raw 4 4 % 256))) &&
    !(chanAt s n).queue.any fun j => j.slot == some p.1).map (·.1)

/-- The registers that a sealed piece loads (R33, R334): its body, with its translations for source and destination. -/
def sealedBody (l : LiveSeal) : CipherBody :=
  { jobId := dBody l.raw 2 2, ctrl := BitVec.ofNat 32 (dBody l.raw 4 4), src := l.trs.getD 0 0 % 2 ^ 40,
    dst := l.trs.getD 1 0 % 2 ^ 40, len := dBody l.raw 24 4, aadLen := dBody l.raw 28 4,
    iv := toBlock ((l.raw.drop 64).take 16), tag := toBlock ((l.raw.drop 80).take 16) }

/-- A key is joined to some stream (R128): a channel, a page or a saved record. -/
def attached (s : State) (p : KeyPath) : Bool :=
  s.cipher.channels.any (fun c => c.2.key == some p) || s.cipher.store.any fun r => r.2.key == some p

/-- USED of a key, as a saved state records it (R133, R134). -/
def keyUsed (s : State) (p : KeyPath) : Nat := (usedSoFar s p).1 + (usedSoFar s p).2

/-- KCV of a key as a saved state records it. -/
def keyKcv (s : State) (p : KeyPath) : BitVec 32 := ((key256 s p).map kcv).getD 0

/-- Records of the store that a part has (R132): 32 names the system. -/
def storePart (s : State) (slice : Nat) : Nat :=
  if slice = 0 then 128 else if slice = 31 ∨ slice = 32 then 64 else 768 / max 1 s.tenants

/-- The state of a stream as SAVE and EXPORT take it. -/
def streamOf (s : State) (n : Nat) : SavedState :=
  let c := chanAt s n
  { ctx := c.ctx, gen := c.gen, slice := chanShare s n, key := c.key, kcv := ((c.key.map (keyKcv s))).getD 0,
    used := ((c.key.map (keyUsed s))).getD 0, message := c.message }

/-- SAVE (R132): the state moves to a record of the store, and the channel is free for another stream. -/
def chanSave (s : State) (n : Nat) : State × Code :=
  let c := chanAt s n
  if storePart s (chanShare s n) ≤ (s.cipher.store.filter fun r => r.2.slice == chanShare s n).length then (s, cRefusedQueue)
  else
    let i := ((List.range 1024).find? fun i => (tget s.cipher.store i).isNone).getD 0
    let s1 : State := { s with cipher.store := tset s.cipher.store i (streamOf s n), cipher.nextRecord := i }
    (setChan s1 n { c with key := none, message := none }, cOk)

/-- STATE of a blob (R133): the chaining state and message flags, 112 bytes: 0x80 + mode while a message is open, else 0; the chaining
register; the accumulator; the AAD and text lengths; the length of the partial block, and its bytes. The manual names the contents
and gives no order. DESIGN CHOICE (log 57). -/
def stateBytes (m : Option ChanState) : Bytes :=
  match m with
  | none => fit 112 []
  | some c => fit 112 (le 1 (128 + c.mode) ++ ofBlock c.reg ++ ofBlock c.y ++ le 8 c.aad ++ le 8 c.text ++
      le 1 c.part.length ++ c.part)

/-- The chaining state that a blob's bytes spell. -/
def stateOf (b : Bytes) : Option ChanState :=
  let at_ (o n : Nat) : Bytes := (b.drop o).take n
  if fld b 0 1 < 128 then none
  else some { mode := fld b 0 1 - 128, reg := toBlock (at_ 1 16), y := toBlock (at_ 17 16), aad := fld b 33 8,
              text := fld b 41 8, part := at_ 50 (fld b 49 1) }

/-- Bytes 0 to 31 of an exported state: its AAD (R133). `reserved` holds bytes 3, 14 to 15 and 28 to 31, low bytes first. -/
def chanBlobHead (b : ChanBlob) : Bytes :=
  le 1 b.format ++ le 1 b.mode ++ le 1 b.slice ++ le 1 b.reserved ++ le 2 b.ctxId ++ le 2 b.ctxGen ++ le 4 b.kcv.toNat ++
    le 2 b.keySlot ++ le 2 (b.reserved / 2 ^ 8) ++ be 12 b.iv.toNat ++ le 4 (b.reserved / 2 ^ 24)

/-- The blob that 168 bytes spell (R133). -/
def chanBlobOf (b : Bytes) : ChanBlob :=
  { format := fld b 0 1, mode := fld b 1 1, slice := fld b 2 1, ctxId := fld b 4 2, ctxGen := fld b 6 2,
    kcv := BitVec.ofNat 32 (fld b 8 4), keySlot := fld b 12 2,
    reserved := fld b 3 1 + fld b 14 2 * 2 ^ 8 + fld b 28 4 * 2 ^ 24, iv := BitVec.ofNat 96 (beNat ((b.drop 16).take 12)),
    body := (b.drop 32).take 120, tag := toBlock ((b.drop 152).take 16) }

/-- The service slot of a key. -/
def keySlotNo (s : State) (p : Option KeyPath) : Nat := ((p.bind (findKey s)).map (·.slot)).getD 0

/-- What EXPORT takes (R133): a saved record of the same context, or the channel's current state. -/
def exported (s : State) (n : Nat) (j : CipherJob) : Option Nat → Option SavedState
  | none => some (streamOf s n)
  | some i => (tget s.cipher.store i).filter fun r => r.ctx == j.ctx && r.gen == j.gen && r.slice == chanShare s n

/-- EXPORT (R133): the blob of a state, under the session wrap key with a fresh IV, to tier A under the context's stamp (R31). -/
def chanExport (s : State) (n : Nat) (j : CipherJob) (record : Option Nat) : State × Code :=
  let s0 := needKey s .wrap
  match exported s n j record, tierAVerdict s j.ctx j.gen j.body.dst 168 true, wrapRefused s0 .wrap, key256 s0 .wrap with
  | none, _, _, _ => (s, cChanStateInvalid)
  | some _, some v, _, _ => (afterVerdict s v j.ctx, v.1)
  | some _, none, some code, _ => (s, code)
  | some _, none, none, none => (s, cKeyDestroyed)
  | some st, none, none, some k =>
    let iv := s0.drawn 96
    let b : ChanBlob :=
      { format := 2, mode := ((st.message.map (·.mode))).getD 0, slice := (chanAt s n).slice % 32, ctxId := st.ctx, ctxGen := st.gen,
        kcv := st.kcv, keySlot := keySlotNo s0 st.key, reserved := 0, iv := iv, body := [], tag := 0 }
    let r := gcmSeal k iv (chanBlobHead b) (le 8 st.used ++ stateBytes st.message)
    (tierAWrite (spendKey s0.drew .wrap 1 0) j.body.dst (chanBlobHead b ++ r.1 ++ be 16 r.2.toNat), cOk)

/-- Load a state into a free channel of the same context (R134): its key slot must still hold the key, with the count of then; after
a DESTROY the restore completes KEY_DESTROYED (R135). -/
def chanLoad (s : State) (n : Nat) (j : CipherJob) (r : SavedState) (gone : Bool) : State × Code :=
  let c := chanAt s n
  let keyOk := r.key.any fun p => (findKey s p).isSome && keyKcv s p == r.kcv && keyUsed s p == r.used
  if gone then (s, cKeyDestroyed)
  else if c.message.isSome || r.slice ≠ chanShare s n || r.ctx ≠ j.ctx || r.gen ≠ j.gen || !keyOk then
    (s, cChanStateInvalid)
  else (setChan s n { c with key := r.key, message := r.message, keyRef := keySlotNo s r.key }, cOk)

/-- RESTORE of an internal record (R134). -/
def chanRestore (s : State) (n : Nat) (j : CipherJob) (record : Nat) : State × Code :=
  match tget s.cipher.store record with
  | none => (s, cChanStateInvalid)
  | some r =>
    if (chanAt s n).key.isSome then (s, cChanStateInvalid)
    else
      let t := chanLoad s n j r (r.key.any fun p => (findKey s p).isNone)
      if t.2 = cOk then ({ t.1 with cipher.store := tdel t.1.cipher.store record }, cOk) else t

/-- RESTORE of a blob (R134): the tag, then the conditions of every restore. The key slot of an exported stream may still
be attached to the channel itself. -/
def chanImport (s : State) (n : Nat) (j : CipherJob) (b : ChanBlob) : State × Code :=
  match (key256 s .wrap).bind fun k => gcmOpen k b.iv (chanBlobHead b) b.body b.tag with
  | none => (s, cChanStateInvalid)
  | some pt =>
    let key := (s.vault.slots.find? fun k => k.part == 3 && k.slot == b.keySlot).map (·.path)
    let c := chanAt s n
    if b.format ≠ 2 || b.reserved ≠ 0 || b.slice ≠ c.slice % 32 || (c.key.isSome && c.key != key) ||
        key.any (fun p => c.key != some p && attached s p) then (s, cChanStateInvalid)
    else
      chanLoad s n j { ctx := b.ctxId, gen := b.ctxGen, slice := chanShare s n, key := key, kcv := b.kcv, used := fld pt 0 8,
                       message := stateOf (pt.drop 8) }
        (key.isNone && s.vault.destroyed.any fun g => g.part == 3 && g.slot == b.keySlot)

/-- The key that an ATTACH names (R128, R136): in the service partition within the owner's share, its own page key, or for page 2 a root
or class slot key. -/
def attachKey (s : State) (n slot : Nat) : Option KeySlot :=
  let svc (share : Nat) := s.vault.slots.find? fun k => k.part == 3 && k.slot == slot && k.share == share
  if n < 64 then svc (chanShare s n)
  else if slot = 64 + n then findKey s (.page (n - 64))
  else if n = 64 then svc 0
  else if n = 65 then svc 31
  else if n = 66 then s.vault.slots.find? fun k => k.part == 4 && k.slot == slot
  else none

/-- ATTACH (R128): of a slot that holds a key, or a derivation of VTC.CHAN into a free slot. A key without the USE bit of its engine is
refused, with an S0 record (R101). A channel that has a key or an open message takes the new key, and the message ends. DESIGN CHOICE
(log 58). -/
def chanAttach (s : State) (n : Nat) (slot : Nat) (label : BitVec 256) : State × Code :=
  let c := chanAt s n
  let share := chanShare s n
  let join (s : State) (k : KeySlot) : State × Code :=
    if !bit k.attr.toNat (if n < 64 then 4 else 5) then (notice s 0 101 uVault n, cKeyDestroyed)
    else if attached s k.path then (s, cFaultPermission)
    else (setChan s n { c with key := some k.path, message := none, keyRef := slot }, cOk)
  let taken := s.vault.slots.any fun k => k.part == 3 && k.slot == slot
  if 64 ≤ n || taken then
    match attachKey s n slot with
    | some k => join s k
    | none => (s, cKeyDestroyed)
  else if 7168 ≤ slot then (s, cKeyDestroyed)
  else if !slotRoom s (.chan share slot) 3 share then (s, cKeySlotsFull)
  else
    let s1 := deriveChan (reborn s (.chan share slot)) share slot c.ctx label
    match findKey s1 (.chan share slot) with
    | some k => join s1 k
    | none => (s1, cKeyDestroyed)

/-- What the engine knows a key by when it comes again (R123). DESIGN CHOICE (log 89). -/
def keyMark (k : Key) : Dig384 := Config.sha384 (be 32 k.toNat)

/-- An OFB job would use an IV again under its key (R123), also after the key was destroyed and brought back, or in another slot. -/
def ivRepeats (s : State) (k : Key) (b : CipherBody) : Bool :=
  cMode b == 10 && cStart b && s.cipher.ofbIvs.any fun e => e.2 == b.iv && e.1 == keyMark k

/-- Note the IV of an OFB message under its key (R123). -/
def noteIv (s : State) (k : Key) (b : CipherBody) : State :=
  if cMode b = 10 ∧ cStart b then { s with cipher.ofbIvs := (keyMark k, b.iv) :: s.cipher.ofbIvs } else s

/-- The leftmost TAGLEN bytes of a value as CH_TAG holds them (R124). -/
def tagCut (b : CipherBody) (v : BitVec 128) : BitVec 128 := toBlock ((ofBlock v).take (cTagLen b))

/-- Tier A's verdict on what a job reads and writes, under its context's stamp (R31). -/
def jobVerdict (s : State) (j : CipherJob) : Option (Code × Nat) :=
  match tierAVerdict s j.ctx j.gen j.body.src (j.body.aadLen + j.body.len) false with
  | some v => some v
  | none =>
    if cMode j.body = 6 ∨ cMode j.body = 7 ∨ 11 ≤ cMode j.body then none
    else tierAVerdict s j.ctx j.gen j.body.dst j.body.len true

/-- Why the job at the head of a channel is not carried out (R123, R128, R129, R131, R31), taken when its registers are loaded, before a
core takes a block: a parameter or a repeated OFB IV, no key, a denial of tier A, or too little left of the key's allowance. -/
def jobRefusal (s : State) (c : Channel) (j : CipherJob) : Option (Code × Nat) :=
  match c.key, c.loaded.bind Shares.read with
  | some p, some v =>
    let u := jobUse j.body
    if !jobOk j.body c.message || ivRepeats s (v.setWidth 256) j.body then some (cChanParam, 0)
    else
      match jobVerdict s j with
      | some v => some v
      | none => if keyAllows s p u.1 u.2 then none else some (cKeyLimit, 0)
  | _, _ => some (if jobOk j.body c.message then cKeyDestroyed else cChanParam, 0)

/-- Carry a job to its end under its loaded key (R109, R123 to R125, R131): the code, the output and the tag. A job marked START while a
message is open ends that message and begins its own. DESIGN CHOICE (log 58). -/
def chanJob (s : State) (n : Nat) (j : CipherJob) : State × Code × Bytes × BitVec 128 :=
  let c := chanAt s n
  let b := j.body
  if let some v := c.refusal then (afterVerdict s v j.ctx, v.1, [], 0)
  else
    match c.key, c.loaded.bind Shares.read, jobVerdict s j with
    | some p, some v, none =>
      let k : Key := v.setWidth 256
      let u := jobUse b
        let st := if cStart b then startState k b (tierABytes s b.src b.aadLen)
          else c.message.getD (startState k b [])
        let r := runMode k st (tierABytes s (b.src + b.aadLen) b.len)
        let good := !isVerify (cMode b) || !cFinal b ||
          (ofBlock r.2.2).take (cTagLen b) == (ofBlock b.tag).take (cTagLen b)
        let out := if good then r.1 else r.1.map fun _ => 0
        let tag := if hasTag (cMode b) && cFinal b && !isVerify (cMode b) then tagCut b r.2.2 else b.tag
        let s1 := noteIv (spendKey (needChan (tierAWrite s b.dst out) p) p u.1 u.2) k b
        let s2 := setChan s1 n { c with message := if cFinal b then none else some r.2.1, tag := tag }
        (s2, if good then cOk else cChanTagFail, out, tag)
    | some _, some _, some v => (afterVerdict s v j.ctx, v.1, [], 0)
    | _, _, _ => (s, cKeyDestroyed, [], 0)

/-- The level of a part's bucket (R130); a bucket that nothing has drained is full. -/
def cipherLevel (s : State) (who : Nat) : Nat :=
  tgetD s.cipher.bucket who (max (scaled s who (cipherRate s who) / 100000) 16)

/-- Blocks of a job that cores must take (R130), a partial block counting as one; none of a job that is refused, nor on a privileged
page, which has no bucket (R137). -/
def jobBlocks (c : Channel) (n : Nat) (j : CipherJob) : Nat :=
  if n < 64 && j.op == .job && c.refusal.isNone then
    (j.body.aadLen + 15) / 16 + (j.body.len + 15) / 16
  else 0

/-- Cores take blocks of a channel's job while its part's bucket pays for them, 16 bytes each (R130). -/
def takeBlocks (s : State) (n : Nat) : State :=
  let c := chanAt s n
  let who := chanShare s n
  let k := min c.left (cipherLevel s who / 16)
  if k = 0 then s
  else setChan { s with cipher.bucket := tset s.cipher.bucket who (cipherLevel s who - 16 * k) } n { c with left := c.left - k }

/-- Cores take what every channel's job may have after a refill (R130), lower channels first. -/
def takeAll (s : State) : State := (List.range 64).foldl takeBlocks s

/-- Load the registers of the operation that now heads a channel, and its key where it is a job (R139). -/
def chanLoadHead (s : State) (n : Nat) : State :=
  let c := chanAt s n
  match c.queue with
  | [] => setChan s n { c with loaded := none, refusal := none, left := 0 }
  | j :: _ =>
    let b := j.body
    let c1 : Channel := { c with
      loaded := if j.op = .job then (c.key.bind (findReg s)).map (·.active) else none
      ctrl := b.ctrl &&& 0x7FFFFFFF#32, iv := b.iv, src := b.src, dst := b.dst, len := b.len, aadLen := b.aadLen,
      tag := b.tag, jobId := b.jobId }
    let c2 : Channel := { c1 with refusal := if j.op = .job then jobRefusal s c1 j else none }
    takeBlocks (setChan s n { c2 with left := jobBlocks c2 n j }) n

/-- DETACH (R128): the engine reports its count of the key, and the slot is released. -/
def chanDetach (s : State) (n : Nat) : State :=
  let s1 := match (chanAt s n).key with
    | some p => reportKey s p
    | none => s
  setChan s1 n { chanAt s1 n with key := none, message := none, keyRef := 0 }

/-- Perform the operation at the head of a channel: its code, output and tag. -/
def chanPerform (s : State) (n : Nat) (j : CipherJob) : State × Code × Bytes × BitVec 128 :=
  let plain (r : State × Code) : State × Code × Bytes × BitVec 128 := (r.1, r.2, [], 0)
  if 64 ≤ n && 2 ≤ (poolOut s uCipher (n - 63)).length then (s, cExecutorReset, [], 0)
  else
    match j.op with
    | .job => chanJob s n j
    | .save => if 64 ≤ n then (s, cChanParam, [], 0) else plain (chanSave s n)
    | .exportTo record => if 64 ≤ n then (s, cChanParam, [], 0) else plain (chanExport s n j record)
    | .restoreRecord record => if 64 ≤ n then (s, cChanParam, [], 0) else plain (chanRestore s n j record)
    | .restoreBlob b => if 64 ≤ n then (s, cChanParam, [], 0) else plain (chanImport s n j b)
    | .attach slot label => plain (chanAttach s n slot label)
    | .detach => plain (chanDetach s n, cOk)

/-- Take the head operation off a channel and complete it; between two items a switch of the key's register takes effect (R35). -/
def chanRun (s : State) (n : Nat) : State :=
  match (chanAt s n).queue with
  | [] => s
  | j :: rest =>
    let r := chanPerform s n j
    let s1 := setChan r.1 n { chanAt r.1 n with queue := rest, loaded := none, refusal := none }
    let s2 := match (chanAt s n).key with
      | some p => switchReg s1 p
      | none => s1
    chanComplete (chanLoadHead s2 n) n j r.2.1 r.2.2.1 r.2.2.2

/-- Carry out the operations at the head of a channel that are not jobs: they take no block time (R132). -/
def chanDrain : Nat → State → Nat → State
  | 0, s, _ => s
  | f + 1, s, n =>
    match (chanAt s n).queue with
    | j :: _ => if j.op = .job then s else chanDrain f (chanRun s n) n
    | [] => s

/-- The operation as its sealed piece brings it (R98, R334): the owner label of an ATTACH stands in its IV and TAG. -/
def sealedOp (op : CipherOp) (b : CipherBody) : CipherOp :=
  match op with
  | .attach slot _ => .attach slot (b.iv ++ b.tag)
  | _ => op

/-- A refused operation completes with a code where a piece brought it. -/
def refuseOp (s : State) (slot : Option Nat) (code : Code) : State :=
  match slot with
  | some k => retire s k code 0
  | none => s

/-- PAGE_VIOLATIONS: an access to a privileged page by another master is ignored, counted and recorded S0 (R137). -/
def pageViolation (s : State) (page master : Nat) : State :=
  notice { s with cipher.violations := min (s.cipher.violations + 1) 0xFFFF } 0 137 uCipher (page * 2 ^ 32 + master)

/-- Queue an operation on a channel, and carry out what needs no block time (R129, R132). -/
def chanPush (s : State) (n : Nat) (j : CipherJob) : State :=
  let c := chanAt s n
  let s1 := setChan s n { c with queue := c.queue ++ [j] }
  chanDrain 18 (if c.queue = [] then chanLoadHead s1 n else s1) n

/-- Submit an operation (R32, R33, R127, R129, R136, R139). TCU firmware, context 0, submits its own; a context's comes only by a
dispatched sealed piece, which loads the registers; R334 gives a CIPHER descriptor no field for ATTACH's slot, RESTORE's record or the
blob, and these come with the command. DESIGN CHOICE (log 61). To another's channel FAULT_PERMISSION, and on a privileged page a violation; beyond
the executing one and 16 waiting REFUSED_QUEUE. -/
def chanSubmit (s : State) (n ctx gen : Nat) (op : CipherOp) (body : CipherBody) : State :=
  if ctx ≠ 0 && !ctxCurrent s ctx gen then genDiscard s ctx
  else
    let slot := if ctx = 0 then none else jobSlot s n ctx gen op
    if !chanOwn s n ctx gen then refuseOp (if 64 ≤ n then pageViolation s (n - 64) ctx else s) slot cFaultPermission
    else if 17 ≤ (chanAt s n).queue.length then refuseOp s slot cRefusedQueue
    else
      match slot, slot.bind (tget s.gate.seals) with
      | some k, some l => chanPush s n ⟨ctx, gen, sealedOp op (sealedBody l), sealedBody l, some k⟩
      | _, _ => if ctx = 0 then chanPush s n ⟨0, 0, op, { body with src := body.src % 2 ^ 40, dst := body.dst % 2 ^ 40 }, none⟩ else s

end Sys2Proof.Machine
end

