-- ==== Sys2Proof/Machine/PkOps.lean ====
section
/-!
DEFINITION. PkOps.lean: the public-key engine (R141 to R150): identity signatures, verification and hybrid key agreement.
-/
namespace Sys2Proof.Machine

/-- The hybrid public key of identity private keys (R143). -/
def IdentKeys.pub (k : IdentKeys) : HybKey := Config.ecPoint k.scalar ++ Config.mldsaPub k.seed

/-- Expand the identity private keys from their seeds into the engine's protected memory (R97, R149), and check them: a signature that
they make verifies under their public key (R145, R150). -/
def expandIdent (s : State) : State :=
  match keyWide s .idEcc, keyWide s .idMldsa with
  | some e, some m =>
    let k : IdentKeys := ⟨ecdsaScalar (e.setWidth 448), m.setWidth 256⟩
    { s.drew.drew with
      cipher.ident := some k
      cipher.identReady := hybOk k.pub [] (hybSign k.pub [] (s.drawn 384) (s.drew.drawn 256)) }
  | _, _ => { s with cipher.ident := none, cipher.identReady := false }

/-- The identity public key, while the private keys stand in protected memory (R149). -/
def identity (s : State) : Option HybKey := if s.cipher.identReady then s.cipher.ident.map IdentKeys.pub else none

/-- Sign a message under the identity key, with a per-signature secret and 32 hedging bytes from the DRBG (R143), and check the signature
against the public key before it is released (R145): one that fails is discarded, S3 for the engine. `corrupted` says that the unit
computed it wrongly. None without an identity key or a random source (R88). -/
def signWith (s : State) (m : Bytes) (corrupted : Bool) : State × Option HybSig :=
  match identity s with
  | some k =>
    if !s.vault.entropyOk then (s, none)
    else
      let g := hybSign k m (s.drawn 384) (s.drew.drawn 256)
      let s1 : State := { (bumpUnit s.drew.drew uPk 0 1) with cipher.pkDone := s.cipher.pkDone + 1 }
      if !corrupted && hybOk k m g then (s1, some g)
      else (raiseS3 { s1 with cipher.selfFail := true } uPk 145 0, none)
  | none => (s, none)

/-- Sign a message under the identity key (R143, R145). -/
def signId (s : State) (m : Bytes) : State × Option HybSig := signWith s m false

/-- The initiator's ephemeral private parts, from the DRBG (R146). -/
def kaKeys (s : State) : State × BitVec 384 × BitVec 512 :=
  (s.drew.drew, s.drawn 384, s.drew.drawn 512)

/-- ss of a hybrid key agreement (R146). -/
def kaSecret (z : BitVec 384) (k : BitVec 256) (qi : Point) (ek : KemBlob) (qr : Point) (ct : KemBlob) : BitVec 384 :=
  Config.sha384 (ascii "VTC.HYBKA" ++ be 48 z.toNat ++ be 32 k.toNat ++
    be 48 (Config.sha384 (be 97 qi.toNat ++ be 1568 ek.toNat ++ be 97 qr.toNat ++ be 1568 ct.toNat)).toNat)

/-- The responder's part (R146, R147): its point and ciphertext, and ss; none where a received value is not valid, or without a random
source (R88). -/
def kaRespond (s : State) (q : Point) (ek : KemBlob) : State × Option (Point × KemBlob × BitVec 384) :=
  if pointValid q && kemKeyValid ek && s.vault.entropyOk then
    let priv := s.drawn 384
    let e := kemEncaps ek (s.drew.drawn 256)
    let qr := Config.ecPoint priv
    ({ (bumpUnit s.drew.drew uPk 0 1) with cipher.pkDone := s.cipher.pkDone + 1 },
      some (qr, e.1, kaSecret (ecdh priv q) e.2 q ek qr e.1))
  else (s, none)

/-- The initiator's last part (R146, R147). -/
def kaFinish (priv : BitVec 384) (kem : BitVec 512) (q : Point) (ct : KemBlob) : Option (BitVec 384) :=
  if pointValid q then
    some (kaSecret (ecdh priv q) (kemDecaps kem ct) (Config.ecPoint priv) (Config.kemKey kem) q ct)
  else none

/-- Why the vault holds no slot for a secret that was delivered to it, if it holds none (R88, R100). -/
def notHeld (s : State) (p : KeyPath) : Option Code :=
  if (findKey s p).isSome then none else some (if s.vault.entropyOk then cKeySlotsFull else cExecutorReset)

/-- Deliver ss to the vault slot of a request (R103, R146). -/
def putSecret (s : State) (p : KeyPath) (ss : BitVec 384) : State :=
  match p with
  | .spdmHandshake => importKey s p (ss.setWidth 512) 384 4 18 32 0
  | .spdmMaster => importKey s p (ss.setWidth 512) 384 4 19 32 0
  | _ => importKey s p (ss.setWidth 512) 384 3 (freeSlotIn s 3) 32 0

/-- Requests per second of a tenant slice (R150): 10 % of a rate, divided among the active tenant slices. -/
def pkPart (s : State) (rate : Nat) : Nat :=
  rate / 10 / max 1 ((servingSlices s).filter fun n => decide (1 ≤ n) && decide (n ≤ 16)).length

/-- A tenant slice's requests of one operation in this second (R150, R547): signing 0, verification 1, agreement 2. -/
def pkLimit (op slice : Nat) : LimKey := .other (1024 + op * 32 + slice)

/-- The operation of a request, and its rate per second (R142). -/
def PkJob.op : PkJob → Nat × Nat
  | .sign _ _ => (0, 3000)
  | .verify _ _ _ _ _ => (1, 6000)
  | .agree _ _ => (2, 6000)

/-- A tenant slice has a request left of its part (R150). -/
def pkReady (s : State) (slice : Nat) (j : PkJob) : Bool :=
  decide (limCount s (pkLimit j.op.1 slice) < pkPart s j.op.2)

end Sys2Proof.Machine
end

