-- ==== Sys2Proof/Machine/HallOps.lean ====
section
/-!
DEFINITION. HallOps.lean: endorsements, policies and hallmarks (R177 to R183), and the policy checks of R188.
-/
namespace Sys2Proof.Machine

/-- Bytes 0 to 2,816 of an image, which its signature covers (R462). -/
def imageMsg (i : Image) : Bytes :=
  le 2 i.format ++ le 1 i.kind ++ le 1 0 ++ le 4 i.version ++ le 8 i.build ++ le 4 i.bodyLen ++ le 4 0 ++
    be 48 i.bodyDigest.toNat ++ le 56 0 ++ be 2689 i.signerKey.toNat

/-- Bytes of an image as it is stored (R462). -/
def imageText (i : Image) : Bytes := imageMsg i ++ sigBytes i.signature ++ le 12 0 ++ i.body

/-- The endorsement that an object's bytes spell (R177), or none where they spell none. -/
def endorsementOf (b : Bytes) : Option Endorsement :=
  (coseOf b).bind fun c => (cMapOf c.payload).bind fun m =>
    match m with
    | [(1, ⟨0, unit, _⟩, _), (2, ⟨2, 48, d⟩, _), (3, ⟨0, cls, _⟩, _)] =>
      some { unitId := unit, keyDigest := BitVec.ofNat 384 (beNat d), cls := cls, signature := c.signature, prot := c.prot,
             payload := c.payload, encoded := b }
    | _ => none

/-- The payload of an endorsement (R177). -/
def endorsePayload (e : Endorsement) : Bytes :=
  cMap [(cUint 1, cUint e.unitId), (cUint 2, cBytes (be 48 e.keyDigest.toNat)), (cUint 3, cUint e.cls)]

/-- An endorsement of an identity key by the manufacturing key (R177, R183). -/
def endorseOk (e : Endorsement) (unit : Nat) (key : HybKey) : Bool :=
  e.payload == endorsePayload e && hybOk Config.mfgKey (sigStruct e.prot e.payload) e.signature && e.cls == 2 && e.unitId == unit && e.keyDigest == keyDigest key

/-- The policy that stands before any key of a payload is read: the defaults of R178. -/
def policyDefaults : Policy :=
  { domainId := 0, sequence := 0, anchor := 0, states := [0xC35A], debugOpen := false, minVersion := 0, firmware := [],
    hostKeyDigest := 0, revoked := [], maxMembers := 0, deputies := 2, shareMode := 0, maxAge := 0, epochOnJoin := false,
    ownerKey := 0, signature := ⟨0, 0⟩, prot := [], payload := [], encoded := [] }

/-- Unsigned numbers of an array. -/
def cNats (l : List CTok) : Option (List Nat) := l.mapM fun t => if t.major = 0 then some t.arg else none

/-- A byte string of n bytes. -/
def cFixed (n : Nat) (t : CTok) : Option Nat := if t.major = 2 ∧ t.arg = n then some (beNat t.data) else none

/-- A true or false. -/
def cBool (t : CTok) : Option Bool :=
  if t.major = 7 ∧ t.arg = 20 then some false else if t.major = 7 ∧ t.arg = 21 then some true else none

/-- Take one key of a policy's map (R178); a key outside the table, or a value of another type, makes it no policy. -/
def policyKey (p : Policy) (e : Nat × CTok × List CTok) : Option Policy :=
  let v := e.2.1
  let num (f : Nat → Policy) : Option Policy := if v.major = 0 then some (f v.arg) else none
  let arr (f : List Nat → Policy) : Option Policy := if v.major = 4 then (cNats e.2.2).map f else none
  match e.1 with
  | 1 => num fun n => { p with domainId := n }
  | 2 => num fun n => { p with sequence := n }
  | 3 => num fun n => { p with anchor := n }
  | 4 => if v.major = 4 && e.2.2.all (fun t => decide (t.arg < 65536)) then
      (cNats e.2.2).map fun l => { p with states := l.map (BitVec.ofNat 16) } else none
  | 5 => (cBool v).map fun b => { p with debugOpen := b }
  | 6 => num fun n => { p with minVersion := n }
  | 7 => if v.major = 4 then
      (e.2.2.mapM (cFixed 48)).map fun l => { p with firmware := l.map (BitVec.ofNat 384) } else none
  | 8 => (cFixed 32 v).map fun n => { p with hostKeyDigest := BitVec.ofNat 256 n }
  | 9 => arr fun l => { p with revoked := l }
  | 10 => num fun n => { p with maxMembers := n }
  | 11 => num fun n => { p with deputies := n }
  | 12 => num fun n => { p with shareMode := n }
  | 13 => num fun n => { p with maxAge := n }
  | 14 => (cBool v).map fun b => { p with epochOnJoin := b }
  | _ => none

/-- The policy that an object's bytes spell (R178, R179), or none: every key but the four with defaults must be there, and the
unprotected header must carry the owner's key. -/
def policyOf (b : Bytes) : Option Policy :=
  (coseOf b).bind fun c => (cMapOf c.payload).bind fun m =>
    match c.unprot with
    | some k =>
      if k.length = 2689 && ([1, 2, 3, 6, 7, 8, 9, 10, 12, 13] : List Nat).all (fun n => m.any fun e => e.1 == n) then
        (m.foldlM policyKey policyDefaults).map fun p =>
          { p with ownerKey := BitVec.ofNat 21512 (beNat k), signature := c.signature, prot := c.prot, payload := c.payload,
                   encoded := b }
      else none
    | none => none

/-- A policy's fields are those that its payload spells (R178). -/
def policySpelt (p : Policy) : Bool :=
  ((cMapOf p.payload).bind fun m =>
    if ([1, 2, 3, 6, 7, 8, 9, 10, 12, 13] : List Nat).all (fun n => m.any fun e => e.1 == n) then m.foldlM policyKey policyDefaults
    else none) ==
    some { p with ownerKey := 0, signature := ⟨0, 0⟩, prot := [], payload := [], encoded := [] }

/-- The policy digest (R178), of the encoded object as it was received. -/
def policyDigest (p : Policy) : BitVec 256 := left256 (Config.sha384 p.encoded)

/-- A policy verifies: its owner's signature, and its fields in range (R178). -/
def policyOk (p : Policy) : Bool :=
  policySpelt p && hybOk p.ownerKey (sigStruct p.prot p.payload) p.signature && decide (2 ≤ p.maxMembers) && decide (p.maxMembers ≤ 8192) &&
    decide (1 ≤ p.deputies) && decide (p.deputies ≤ 3) && decide (p.shareMode ≤ 1)

/-- The owner key digest of a policy, as DOMAIN_JOIN gives it (R187 step 5). -/
def ownerDigest (p : Policy) : BitVec 256 := left256 (keyDigest p.ownerKey)

/-- The protected header of a hallmark (R180): alg −70100, and kid, the unit identifier as 8 bytes big-endian. -/
def hallProt (h : Hallmark) : Bytes := cMap [(cUint 1, cNeg 70100), (cUint 4, cBytes (be 8 h.unitId))]

/-- The payload of a hallmark (R181), its claims in the order of the table. -/
def hallPayload (h : Hallmark) : Bytes :=
  cMap ([ (cUint 10, cBytes (be 32 h.nonce.toNat)),
    (cUint 265, cText (ascii "tag:gyondist.invalid,2029:vtc/hallmark/1")),
    (cUint 259, cBytes (ascii "SHUSEL-9/VTC")),
    (cUint 260, cArr [cText h.stepping, cUint 1]),
    (cUint 261, cUint h.uptime),
    (cUint 263, cUint h.dbgstat),
    (cNeg 70001, cUint h.unitId),
    (cNeg 70002, cArr [cUint h.session.toNat, cUint h.signTime]),
    (cNeg 70003, cArr [cUint h.lcCode.toNat, cUint h.debugMark, cUint h.scope.toNat, cUint h.debugOpens]),
    (cNeg 70004, cArr [cUint h.fwCounter, cBytes (be 48 h.fwDigest.toNat), cBytes (be 48 h.patchDigest.toNat),
      cBytes (be 48 h.afwDigest.toNat)]),
    (cNeg 70005, cBytes (be 2689 h.idKey.toNat)),
    (cNeg 70006, cBytes ((h.endorse.map (·.encoded)).getD [])),
    (cNeg 70007, match h.domain with
      | some d => cArr [cUint d.domainId, cUint d.epoch, cUint d.term, cUint d.role, cBytes (be 32 d.policyDigest.toNat)]
      | none => cNull),
    (cNeg 70008, cArr [cUint h.shareMode, cUint h.tenants, cBytes (be 32 h.schedDigest.toNat), cUint h.mapGen,
      cUint h.coresInService]) ] ++
    (h.bind.map fun b => (cNeg 70009, cBytes (be 48 b.toNat))).toList)

/-- The message that a hallmark's signature covers (R180). -/
def hallMsg (h : Hallmark) : Bytes := sigStruct (hallProt h) (hallPayload h)

/-- The encoded hallmark (R180). -/
def hallBytes (h : Hallmark) : Bytes := coseSign1 (hallProt h) (hallPayload h) h.signature

/-- This unit's role as vtc-domain names it (R181, R202): 1 member, 2 anchor, 3 to 5 deputy 1 to 3. -/
def roleCode (s : State) : Nat :=
  if s.dom.role = 1 then 2
  else if s.dom.role = 2 then 3 + (s.dom.deputies.findIdx? (· == unitId)).getD 0
  else if s.dom.role = 3 then 1 else 0

/-- Logical cores in service (R474). -/
def coresInService (s : State) : Nat := 4096 - s.boot.vacant.length

/-- The SHA-384 of an image body, or 0 where there is none. -/
def imageDigest (i : Option Image) : Dig384 := ((i.map (·.bodyDigest))).getD 0

/-- The SHA-384 of the 2 MiB firmware patch area as it stands (R181, R462, R464). -/
def areaDigest (s : State) : Dig384 := Config.sha384 (fit 2097152 ((s.boot.area.map imageText).getD []))

/-- The digest of the radio window configuration (R181): of the schedule in force (R393), field by field (log 6). -/
def schedDigest (s : State) : BitVec 256 :=
  let c := schedNow s
  left256 (Config.sha384 (le 4 c.slot ++ le 4 c.slots ++ le 4 c.guard ++ le 4 c.quantum ++
    c.windows.flatMap fun w => le 4 w.1 ++ le 4 w.2))

/-- Claims of a hallmark made now (R181); for a tenant slice, epoch and term read 0 (R182). -/
def hallClaims (s : State) (key : HybKey) (nonce : BitVec 256) (bind : Option Dig384) (tenant : Bool) : Hallmark :=
  let fixed := s.lc.code = 0x39C6 ∨ s.lc.code = 0xC35A
  { nonce := nonce, stepping := be 2 Config.stepping.toNat, uptime := s.ns / 1000000000, dbgstat := if fixed ∧ s.lc.scope = 0 then 1 else 0, unitId := unitId,
    session := s.pow.sessionId, signTime := s.ns, lcCode := s.lc.code, debugMark := b2n s.vault.debugMark,
    scope := s.lc.scope, debugOpens := s.lc.primary.debugOpens, fwCounter := s.boot.versionA.toNat,
    fwDigest := imageDigest s.boot.running, patchDigest := areaDigest s, afwDigest := s.boot.afwDigest,
    idKey := key, endorse := s.dom.endorsement,
    domain := if isMember s then some
        { domainId := s.dom.domainId, epoch := if tenant then 0 else s.dom.epoch,
          term := if tenant then 0 else s.dom.term, role := roleCode s, policyDigest := s.dom.policyDigest }
      else none,
    shareMode := setting s 0x4010 1, tenants := s.tenants, schedDigest := schedDigest s, mapGen := s.boot.mapGen.toNat,
    coresInService := coresInService s, bind := bind, signature := ⟨0, 0⟩ }

/-- Make a hallmark (R180, R182), signed by the identity key: none without one, or beyond the 13,312 bytes of R181. -/
def makeHallmark (s : State) (nonce : BitVec 256) (bind : Option Dig384) (tenant : Bool) : State × Option Hallmark :=
  match identity s with
  | none => (s, none)
  | some k =>
    let h := hallClaims s k nonce bind tenant
    if 13312 < (hallBytes h).length then (s, none)
    else
    match signId s (hallMsg h) with
    | (s1, some g) => (s1, some { h with signature := g })
    | (s1, none) => (s1, none)

/-- What every verifier checks of a hallmark (R183): signature, endorsement, and nonce. -/
def hallOk (h : Hallmark) (nonce : BitVec 256) : Bool :=
  hybOk h.idKey (hallMsg h) h.signature && h.endorse.any (fun e => endorseOk e h.unitId h.idKey) && h.nonce == nonce

/-- The life-cycle states that may join or create a domain (R154): PROVISIONED and FIELD. -/
def joinState (code : BitVec 16) : Bool := code == 0x39C6 || code == 0xC35A

/-- Orders 2 and 3 of R188: the policy's own conditions on a hallmark; no policy admits a state that R154 shuts out (log 62). -/
def policyRefuses (p : Policy) (h : Hallmark) : Option Code :=
  if p.revoked.contains h.unitId then some cDomainRevoked
  else if !joinState h.lcCode || !p.states.contains h.lcCode || (!p.debugOpen && (h.debugMark != 0 || h.scope != 0)) ||
      decide (h.fwCounter < p.minVersion) || !(p.firmware == [] || p.firmware.contains h.fwDigest) ||
      h.shareMode != p.shareMode then some cDomainEvidenceRefused
  else none

end Sys2Proof.Machine
end

