-- ==== Sys2Proof/Machine/CastOps.lean ====
section
/-!
DEFINITION. CastOps.lean: arming, staging and ending a cast (R422 to R429), and the arbiter's own boundary casts (R394).
-/
namespace Sys2Proof.Machine

/-- Owners other than the slices, as R506 codes them. -/
abbrev ownArb : Nat := 0x32
abbrev ownTcu : Nat := 0x36

/-- Targets that have no unit index (R424): the freeze tree, the array control and the reset controller. -/
abbrev tgFreeze : Nat := 0x100
abbrev tgArray : Nat := 0x101
abbrev tgReset : Nat := 0x102

/-- Cast entries of an owner (R422). -/
def castQuota (s : State) (owner : Nat) : Nat :=
  if owner = ownArb then 96 else if owner = ownTcu ∨ owner = 0 then 64 else if owner = 31 then 32
  else 256 / max 1 s.tenants

/-- Entries that an owner has in use; one resting until its targets acknowledge is not in use (R37). -/
def castUse (s : State) (owner : Nat) : Nat :=
  (s.casts.table.filter fun c => c.2.owner == owner && !c.2.resting).length

/-- Kinds that an owner may arm (R422). -/
def castKindOk (owner kind : Nat) : Bool :=
  if owner = ownArb then kind == 1
  else if owner = ownTcu then decide (2 ≤ kind) && decide (kind ≤ 7) else kind == 4

/-- Targets of a cast (R424). A chip warm reset is the reset controller's. -/
def castTargets (kind param : Nat) : List Nat :=
  if kind = 1 then [uArb]
  else if kind = 2 then List.range 18 ++ [uVault]
  else if kind = 3 then [tgFreeze]
  else if kind = 4 then List.range 18
  else if kind = 5 then [uArb, tgArray]
  else if kind = 6 then List.range 18 ++ [0x20, 0x21, 0x22, 0x23, uHse, uGate, uArb]
  else if param % 256 = 1 then [param / 256 % 256] else [tgReset]

/-- Owners of lane 0 of the strobe tree (R423). -/
def laneZero (owner : Nat) : Bool := owner == ownArb || owner == ownTcu

/-- Whether a tick is taken by a cast that shares a lane with this owner. -/
def tickTaken (s : State) (owner t : Nat) : Bool :=
  s.casts.table.any fun c => !c.2.resting && c.2.fire == t &&
    (c.2.owner == owner || (laneZero owner && laneZero c.2.owner))

/-- The next free tick from t on, found within the casts armed (R423). -/
def freeTick (s : State) (owner : Nat) : Nat → Nat → Nat
  | 0, t => t
  | n + 1, t => if tickTaken s owner t then freeTick s owner n (t + 1) else t

/-- A tenant's tick (R423): rounded up to t mod 16 = (s − 1) mod 16 on the scale of its arming. -/
def castRound (owner t : Nat) : Nat :=
  if 1 ≤ owner ∧ owner ≤ 16 then t + (owner - 1 + 16 - t % 16) % 16 else t

/-- The session time that a fire time names (R422). -/
def castSession (s : State) (domain : Bool) (t : Nat) : Int := if domain then (t : Int) - s.time.doff else t

/-- A commit cast is armed (R427). -/
def commitArmed (s : State) : Bool := s.casts.table.any fun c => c.2.kind == 6 && !c.2.resting

/-- Arm a cast (R422, R423, R425, R427): refused by its owner's quota, kind or time, or armed under the least free number,
its targets staged and, for a commit, the shadows captured. Answers the code, the number, its arming sequence and
the fire time as rounded. -/
def armCast (s : State) (owner kind flags fire param : Nat) (ctx : Option (Nat × Nat)) :
    State × Code × Nat × Nat × Nat :=
  if castQuota s owner ≤ castUse s owner || (kind == 6 && commitArmed s) || 512 ≤ s.casts.table.length then
    (s, cRefusedQueue, 0, 0, 0)
  else if !castKindOk owner kind then (s, cFaultPermission, 0, 0, 0)
  else
    let shown := castRound owner fire
    let t0 := castSession s (bit flags 0) shown
    let asked := castSession s (bit flags 0) fire
    if asked < (s.ns : Int) + 10000 || (s.ns : Int) + 3600000000000 < asked then (s, cCastTimeInvalid, 0, 0, 0)
    else if !laneZero owner && tickTaken s owner t0.toNat then (s, cCastTimeInvalid, 0, 0, 0)
    else
      let t := if laneZero owner then freeTick s owner 512 t0.toNat else t0.toNat
      let n := ((List.range 512).find? fun i => (tget s.casts.table i).isNone).getD 0
      let targets := castTargets kind param
      let c : Cast :=
        { owner := owner, kind := kind, param := param, flags := flags, fire := t, fireInv := 2 ^ 64 - 1 - t,
          seq := s.casts.nextSeq.toNat, targets := targets, acked := [], ctx := ctx,
          captured := if kind = 6 then s.dict.shadow else [], resting := false, outcome := cOk }
      let s1 : State := { s with casts.table := tset s.casts.table n c, casts.nextSeq := s.casts.nextSeq + 1 }
      (targets.foldl (fun s g => castStageAt s n g) s1, cOk, n, c.seq, shown + (t - t0.toNat))

/-- The DETAIL of a CAST record (R506). -/
def castDetail (s : State) (n : Nat) (c : Cast) (code : Code) : Bytes :=
  le 2 n ++ le 1 c.kind ++ [code] ++ le 8 c.fire ++ le 8 c.param ++ le 1 (b2n (s.time.state != 3))

/-- Count a fire of CONTEXT_SWITCH or STEP_START for its owner's summary; the first fire of a new second sends the summary of
the second before (R425, R547). -/
def castSummary (s : State) (c : Cast) : State :=
  match tget s.casts.summary c.owner with
  | some (k, first, last) =>
    if first / 1000000000 = c.fire / 1000000000 then
      { s with casts.summary := tset s.casts.summary c.owner (k + 1, first, c.fire) }
    else
      let s1 := summaryRecord s (c.owner, k, first, last)
      { s1 with casts.summary := tset s1.casts.summary c.owner (1, c.fire, c.fire) }
  | none => { s with casts.summary := tset s.casts.summary c.owner (1, c.fire, c.fire) }

/-- Report a cast's outcome (R425): the owner's event, its record, and the counts. A failure is S1. -/
def castReport (s : State) (n : Nat) (c : Cast) (code : Code) : State :=
  let s1 := castRest (if code = cOk then s else failWatches s n c.seq code) n { c with outcome := code }
  let s2 := if c.owner < 32 && code != cCastCancelled then
    postEvent s1 (c.owner + 1) evCastResult (n + code.toNat * 2 ^ 16) else s1
  if code = cCastFailed then
    latch { s2 with casts.failed := s2.casts.failed + 1, time.castFails := s2.time.castFails + 1 }
      { unit := uTcu, cls := 1, cause := 425, kind := 0x0040, source := some srcTime, ctx := c.ctx, code := code,
        detail := some (castDetail s n c code) }
  else if code = cCastCancelled then s2
  else
    let s3 := if c.owner < 32 then bumpSlice (bump s2 15 1) c.owner 14 1 else bump s2 15 1
    if c.kind = 1 ∨ c.kind = 4 then castSummary s3 c
    else putRec s3 { mkRec s3 0x0040 7 srcTime (castDetail s n c code) with code := code }

/-- Cancel the unfired casts of a set with no result (R429). -/
def cancelCasts (s : State) (sel : Cast → Bool) : State :=
  (s.casts.table.filter fun c => !c.2.resting && sel c.2).foldl
    (fun s c => castRest (failWatches s c.1 c.2.seq cCastCancelled) c.1 { c.2 with outcome := cCastCancelled }) s

/-- Casts armed in domain time complete CAST_FAILED when the unit leaves or joins a domain (R429). -/
def failDomainCasts (s : State) : State :=
  (s.casts.table.filter fun c => !c.2.resting && bit c.2.flags 0).foldl
    (fun s c => castReport s c.1 c.2 cCastFailed) s

/-- The session time of the last boundary that the arbiter has armed, or now. -/
def lastArmed (s : State) : Nat :=
  (s.casts.table.filter fun c => c.2.owner == ownArb && !c.2.resting).foldl (fun m c => max m c.2.fire) s.ns

/-- The start of the next span after a domain time. -/
def spanAfter (s : State) (t : Nat) : Nat := ((schedNow s).at t).stop

/-- Fill the arbiter's 96 entries with the next span starts (R394). The parameter is the span's kind. -/
def armHorizon : Nat → State → State
  | 0, s => s
  | n + 1, s =>
    if castQuota s ownArb ≤ castUse s ownArb then s
    else
      let from_ := ((lastArmed s : Int) + s.time.doff).toNat
      let at_ := spanAfter s from_
      let t := ((at_ : Int) - s.time.doff).toNat
      armHorizon n (if t < s.ns + 10000 then (armCast s ownArb 1 0 (s.ns + 10000) 0 none).1
        else (armCast s ownArb 1 0 t ((schedNow s).at at_).kind none).1)

/-- Drop the arbiter's armed boundaries and arm the horizon again: the schedule, its offset or N has changed (R393, R421). The arbiter
is their one target and discards them itself, so their numbers are free at once (R37). -/
def rearm (s : State) : State :=
  armHorizon 96 { s with casts.table := s.casts.table.filter fun c => !(c.2.owner == ownArb && !c.2.resting) }

end Sys2Proof.Machine
end

