-- ==== Sys2Proof/Machine/LifeCycle.lean ====
section
/-!
DEFINITION. LifeCycle.lean: life-cycle state, debug and physical presence (chapter 5).
-/
namespace Sys2Proof.Machine

/-- State codes of R151. -/
abbrev lcBlank : BitVec 16 := 0x96A5
abbrev lcTest : BitVec 16 := 0x6C3A
abbrev lcProvisioned : BitVec 16 := 0x39C6
abbrev lcField : BitVec 16 := 0xC35A
abbrev lcReturn : BitVec 16 := 0x5F05
abbrev lcScrap : BitVec 16 := 0xA0F5

/-- The codes of R151. -/
def lcCodes : List (BitVec 16) := [lcBlank, lcTest, lcProvisioned, lcField, lcReturn, lcScrap]

/-- LC_STATE of a code (R151): 7 where no record is valid. -/
def lcStateOf (c : BitVec 16) : Nat := (lcCodes.findIdx? (· == c)).getD 7

/-- A valid copy of the record (R153). -/
def LcCopy.valid (c : LcCopy) : Bool :=
  c.format == 0x10 && lcCodes.contains c.state && c.stateInv == ~~~c.state && c.flagsInv == ~~~c.flags &&
    c.seqInv == ~~~c.seq && bits c.flags.toNat 7 1 == 0 && c.reserved == 0

/-- A copy under the next sequence number, complements with it; what is written has the format of R152. -/
def LcCopy.next (c : LcCopy) (state : BitVec 16) (pending : Bool) : LcCopy :=
  let f : BitVec 8 := BitVec.ofNat 8 (b2n pending)
  { c with format := 0x10, reserved := 0, state := state, stateInv := ~~~state, flags := f, flagsInv := ~~~f, seq := c.seq + 1, seqInv := ~~~(c.seq + 1) }

/-- Write the record: mirror, then primary (R162 steps 3 and 4). -/
def lcWrite (s : State) (c : LcCopy) : State := { s with lc.mirror := c, lc.primary := c }

/-- Settle the state at a start (R153). With no valid record the table of R151 gives no code: LC_CODE then reads 0, as do STATE_CODE and the FROM
that a request must name. DESIGN CHOICE (log 95). -/
def settleLc (s : State) : State :=
  let p := s.lc.primary
  let m := s.lc.mirror
  let found := 2 * b2n p.valid + b2n m.valid
  let use (c : LcCopy) (fixed : Bool) : State :=
    let s1 : State := { s with lc.primary := c, lc.mirror := c, lc.code := c.state, lc.copies := found }
    if fixed then notice s1 1 153 uTcu 0 else s1
  if p.valid && m.valid then
    if p.seq = m.seq then use p false else if m.seq.toNat < p.seq.toNat then use p true else use m true
  else if p.valid then use p true
  else if m.valid then use m true
  else record { s with lc.code := 0, lc.copies := 0 } 1 4 uTcu (errDetail 153 uTcu 0 [])

/-- Erase the user area (R163): the operator configuration and the saved training settings. -/
def eraseUser (s : State) : State :=
  { s with dict.force := [], dict.shadow := [], dict.boot := [], dict.copies := [], boot.startRecs := [],
           boot.trainWords := [], dom.endorsement := none }

/-- Entry actions of the state entered, while ENTRY_PENDING is 1 (R163). -/
def entryActions (s : State) : State :=
  if !bit s.lc.primary.flags.toNat 0 then s
  else
    let c := s.lc.code
    let s1 :=
      if c = lcTest then eraseUser (if (helperCopy s).isSome then s else enrol s)
      else if c = lcField ∨ c = lcBlank then s
      else { (eraseUser s) with health.ingots := [], tierA := [] }
    let s2 : State :=
      if c = lcProvisioned then { s1 with lc.primary.debugOpens := 0 }
      else if c = lcReturn ∨ c = lcScrap then { s1 with lc.primary.operBinding := 0, lc.primary.operGen := 0 }
      else s1
    let s3 : State := if c = lcScrap then
        { s2 with vault.helperA := none, vault.helperB := none, lc.tokensUsed := List.range 4 }
      else s2
    lcWrite s3 (s3.lc.primary.next c false)

/-- The scope that a state gives without a grant (R165). -/
def stateScope (c : BitVec 16) : BitVec 16 := if c = lcProvisioned ∨ c = lcField then 0 else 0xF

/-- PRESENCE counts as asserted (R83). -/
def present (s : State) : Bool :=
  s.pins.presence || (s.pins.asserted && s.pins.presenceAt.any fun t => decide (s.ns < t + 30000000000))

/-- Quiescent (R156): no context LIVE, no SPDM session open, no cast armed but the arbiter's. BLANK and TEST units always are. -/
def quiescent (s : State) : Bool :=
  s.lc.code == lcBlank || s.lc.code == lcTest ||
    (s.ctxs.table.all (fun c => c.2.mode != .live) && s.host.session != 2 &&
      s.casts.table.all fun c => c.2.owner == ownArb || c.2.resting)

/-- The bytes that a signed request's signature covers (R157). -/
def reqBytes (r : SignedReq) : Bytes :=
  le 2 r.format ++ le 1 r.kind ++ le 1 r.signer ++ le 2 r.fromCode.toNat ++ le 2 r.toCode.toNat ++ le 8 r.unitId ++
    le 8 r.sessionId.toNat ++ be 32 r.nonce.toNat ++ be 32 r.newBinding.toNat ++ le 2 r.scope.toNat ++ le 2 r.opens ++
    le 4 r.reserved ++ be 2689 r.signerKey.toNat

/-- Signers that R155 lets carry out a transition: 1 manufacturing, 3 operator. A binding exists in PROVISIONED and FIELD (R154). -/
def signersOf (a b : BitVec 16) : List Nat :=
  if a = lcBlank ∧ b = lcTest then [1]
  else if a = lcTest ∧ b = lcProvisioned then [1]
  else if a = lcProvisioned ∧ b = lcField then [3]
  else if a = lcField ∧ b = lcProvisioned then [3]
  else if (a = lcProvisioned ∨ a = lcField) ∧ b = lcReturn then [1, 3]
  else if a = lcReturn ∧ b = lcScrap then [1, 3]
  else if (a = lcProvisioned ∨ a = lcField) ∧ b = lcScrap then [1, 3]
  else if b = lcScrap ∧ a ≠ lcScrap then [1]
  else []

/-- The number of a transition marked "Token" (R155). -/
def tokenOf (a b : BitVec 16) : Option Nat :=
  if a = lcBlank ∧ b = lcTest then some 0
  else if a = lcTest ∧ b = lcProvisioned then some 1
  else if a = lcField ∧ b = lcReturn then some 2
  else if a = lcReturn ∧ b = lcScrap then some 3 else none

/-- A chip warm reset that a transition has made due; its steps 1 to 5 are under way (R162, R164). -/
abbrev resetByLc : Nat := 0x101

/-- A request is in progress (R158 check 2, R164): the steps 1 to 5 of a transition. -/
def lcBusy (s : State) : Bool := s.lc.busy

/-- Format, length and reserved fields (R158 check 4); the fields that the kind leaves 0. -/
def reqForm (r : SignedReq) : Bool :=
  r.length == 7508 && r.format == 0x20 && r.reserved == 0 && r.opens == 0 &&
    (if r.kind = 1 then r.scope == 0 && (r.toCode == lcProvisioned || r.newBinding == 0)
     else r.newBinding == 0 && decide (r.scope.toNat < 16))

/-- The key of a signer is the one the unit knows (R158 check 7). -/
def signerOk (s : State) (r : SignedReq) : Bool :=
  if r.signer = 1 then keyDigest r.signerKey == keyDigest Config.mfgKey
  else if r.signer = 2 then keyDigest r.signerKey == keyDigest Config.serviceKey
  else left256 (keyDigest r.signerKey) == s.lc.primary.operBinding

/-- Checks 1 to 4 of R158. -/
def lcEarly (s : State) (overCan form : Bool) : Option Nat :=
  if !present s || !overCan then some 5
  else if lcBusy s then some 0xB
  else if s.lc.lockout then some 7
  else if !form then some 9 else none

/-- The first check of R158 that a signed request fails. `suits` is check 5, `scopeIn` the grant's part of check 6. -/
def reqCheck (s : State) (r : SignedReq) (suits : Bool) (nonce : Option (BitVec 256)) (session : BitVec 64)
    (scopeIn : Bool) : Option Nat :=
  match lcEarly s r.overCan (reqForm r) with
  | some c => some c
  | none =>
    if !suits then some 4
    else if r.unitId ≠ unitId || r.fromCode ≠ s.lc.code || r.sessionId ≠ session || nonce ≠ some r.nonce || !scopeIn then
      some 3
    else if !(signerOk s r && hybOk r.signerKey (reqBytes r) r.signature) then some 2
    else if !quiescent s || isMember s then some 6 else none

/-- Whether a result was decided with the nonce checked (R159): check 6 was reached. -/
def usesNonce (result : Nat) : Bool := result == 3 || result == 2 || result == 6 || result == 1

/-- Set LC_RESULT, count a failed attempt (R161), and void a nonce that was checked (R159). -/
def lcSet (s : State) (result : Nat) (voids : Bool) : State :=
  let bad := result == 2 || result == 3 || result == 8
  let n := if bad then min (s.lc.failCount + 1) 8 else s.lc.failCount
  { s with
    lc.result := result, lc.failCount := n, lc.lockout := s.lc.lockout || decide (8 ≤ n)
    lc.nonce := if usesNonce result && voids then none else s.lc.nonce }

/-- The outcome of a signed write (R533, R536, R539): DONE or SIGNED_REFUSED with the LC_RESULT in DETAIL, PRESENCE, or BUSY
while another request is verified. -/
def answerSigned (s : State) (index sub result : Nat) : State :=
  if result = 1 then answer s 0x82 index sub 0 cOk 1 []
  else if result = 5 then answer s 0x82 index sub 5 cOk 0 []
  else if result = 0xB then answer s 0x82 index sub 7 cOk 0 []
  else answer s 0x82 index sub 6 cOk result []

/-- The outcome of a request (R158, R175). The token of LC_TOKEN is no signed request: its refusal is the entry's own, whose
CODE the manual does not name (log 4). -/
def lcResult (s : State) (index sub result : Nat) : State :=
  let voids := (index == 0x2000 && sub == 4) || (index == 0x2001 && sub == 1) || (index == 0x7F00 && sub == 3)
  let s1 := lcSet s result voids
  if index = 0x2000 ∧ sub = 5 ∧ result ≠ 1 ∧ result ≠ 5 ∧ result ≠ 0xB then
    answer s1.spend 0x82 index sub 8 (s1.freeCode tokenCodes) 0 []
  else if index = 0x2000 ∧ sub = 5 ∧ result = 1 then answer s1 0x82 index sub 0 cOk 0 []
  else answerSigned s1 index sub result

/-- LC_NONCE (R159): each read issues a fresh nonce and voids the one before. While the random source has failed none is made (R88), and
the read is refused EXECUTOR_RESET: the manual names no code. DESIGN CHOICE (log 60). -/
def execLcNonce (s : State) : Host.Outcome State Fault Refusal :=
  done <| whenAon s fun s =>
    let n := s.drawn 256
    if s.vault.entropyOk then answer { s.drew with lc.nonce := some (n, s.ns) } 0x81 0x2000 3 0 cOk 0 (be 32 n.toNat)
    else answer s 0x81 0x2000 3 8 cExecutorReset 0 []

/-- NONCE_EXPIRE (R159): a nonce is void 60 s after it was issued. -/
def execNonceExpire (s : State) : Host.Outcome State Fault Refusal :=
  done <| match s.lc.nonce with
    | some (_, t) => if t + 60000000000 ≤ s.ns then { s with lc.nonce := none } else s
    | none => s

/-- The nonce in force. -/
def nonceNow (s : State) : Option (BitVec 256) :=
  (s.lc.nonce.filter fun n => decide (s.ns < n.2 + 60000000000)).map (·.1)

/-- Carry out an accepted transition (R162): both copies, the LIFECYCLE record, and the chip warm reset. -/
def transition (s : State) (target : BitVec 16) (binding : Option (BitVec 256)) (signer token : Nat) : State :=
  let r := s.lc.primary
  let gen := if target = lcProvisioned then (if s.lc.code = lcField then (r.operGen + 1) % 2 ^ 32 else 0) else r.operGen
  let r' := { r.next target true with operBinding := binding.getD r.operBinding, operGen := gen }
  let s1 := lcWrite s r'
  let s2 := record s1 0x0020 0 uTcu (le 2 s.lc.code.toNat ++ le 2 target.toNat ++ le 1 signer ++ le 1 token)
  { s2 with lc.busy := true, pow.pendingChip := some resetByLc }

/-- LC_REQUEST (R155 to R162). -/
def execLcRequest (r : SignedReq) (s : State) : Host.Outcome State Fault Refusal :=
  done <| whenAon s fun s =>
    let suits := r.kind == 1 && (signersOf s.lc.code r.toCode).contains r.signer
    match reqCheck s r suits (nonceNow s) 0 true with
    | some c => lcResult s 0x2000 4 c
    | none =>
      let binding := if r.toCode = lcProvisioned then some r.newBinding else none
      transition (lcResult s 0x2000 4 1) r.toCode binding r.signer 0

/-- LC_TOKEN (R160): the token's digest is compared, used once, and overwritten. -/
def execLcToken (target : BitVec 16) (tok : BitVec 128) (overCan : Bool) (s : State) :
    Host.Outcome State Fault Refusal :=
  done <| whenAon s fun s =>
    match lcEarly s overCan true with
    | some c => lcResult s 0x2000 5 c
    | none =>
      match tokenOf s.lc.code target with
      | none => lcResult s 0x2000 5 8
      | some i =>
        if s.lc.tokensUsed.contains i ||
            Config.sha384 (be 16 tok.toNat) ≠ Config.sha384 (be 16 (Config.token i).toNat) then
          lcResult s 0x2000 5 8
        else if !quiescent s || isMember s then lcResult s 0x2000 5 6
        else
          let s1 := transition (lcResult s 0x2000 5 1) target none 0 1
          { s1 with lc.tokensUsed := i :: s1.lc.tokensUsed }

/-- Debug can be opened by grant (R154). -/
def debugStates (s : State) : Bool := s.lc.code == lcProvisioned || s.lc.code == lcField

/-- A challenge in the format of R157, signed by the unit's identity key. -/
def challengeReq (s : State) (scope : BitVec 16) (nonce : BitVec 256) (key : HybKey) : SignedReq :=
  { length := 7508, format := 0x20, kind := 4, signer := 4, fromCode := s.lc.code, toCode := s.lc.code,
    unitId := unitId, sessionId := s.pow.sessionId, nonce := nonce, newBinding := 0, scope := scope,
    opens := s.lc.primary.debugOpens, reserved := 0, signerKey := key, signature := ⟨0, 0⟩, overCan := true }

/-- DEBUG_REQUEST (R166): a new request voids the challenge; an accepted one makes the next. A unit that cannot sign one answers 0x04 with
the nonce used: the manual names no result. DESIGN CHOICE (log 60). -/
def execDebugRequest (r : SignedReq) (s : State) : Host.Outcome State Fault Refusal :=
  done <| whenAon s fun s =>
    let s0 : State := { s with lc.challenge := none, lc.challengeBytes := [] }
    let suits := r.kind == 2 && r.signer == 3 && debugStates s && r.toCode == r.fromCode
    match reqCheck s0 r suits (nonceNow s0) s.pow.sessionId true with
    | some c => lcResult s0 0x2001 1 c
    | none =>
      let n := s0.drawn 256
      let q := challengeReq s0 r.scope n ((identity s0).getD 0)
      match signId s0.drew (reqBytes q) with
      | (s1, none) => lcResult { s1 with lc.nonce := none } 0x2001 1 4
      | (s1, some g) =>
        lcResult { s1 with
          lc.challenge := some (r.scope, n, s0.ns)
          lc.challengeBytes := reqBytes q ++ be 96 g.ecdsa.toNat ++ be 4627 g.mldsa.toNat } 0x2001 1 1

/-- CHALLENGE_EXPIRE (R166): a challenge is void after 600 s. -/
def execChallengeExpire (s : State) : Host.Outcome State Fault Refusal :=
  done <| match s.lc.challenge with
    | some (_, _, t) => if t + 600000000000 ≤ s.ns then { s with lc.challenge := none, lc.challengeBytes := [] } else s
    | none => s

/-- Keys that do not descend from the session root: the life-cycle root and its own children. -/
def aboveSession (p : KeyPath) : Bool :=
  match p with
  | .lcroot => true
  | .idEcc => true
  | .idMldsa => true
  | .store _ => true
  | .oper => true
  | _ => false

/-- The keys that a session derives before work (R97): root, gate, trees, wrap and the privileged pages. -/
def sessionKeys (s : State) : State :=
  ([KeyPath.session, .gate, .wrap] ++ (List.range 4).map KeyPath.tree ++ (List.range 4).map KeyPath.page).foldl needKey s

/-- Open debug (R167 steps 1 to 3): the record counts it, every session key goes and is derived again under marker 0x01,
and the scrub of tier A starts. -/
def openDebug (s : State) (scope : BitVec 16) : State :=
  let r := s.lc.primary
  let s1 := lcWrite s { r.next r.state (bit r.flags.toNat 0) with debugOpens := min (r.debugOpens + 1) 0xFFFF }
  let s2 := dropKeys s1 fun p => !aboveSession p
  sessionKeys { s2 with
    vault.debugMark := true, lc.scrubPending := true, lc.pendingScope := some (scope, true)
    mem.regions := s2.mem.regions.map fun g => (g.1, { g.2 with key := false, newKey := false })
    lc.challenge := none, lc.challengeBytes := [] }

/-- DEBUG_GRANT (R166, R167): repeats the challenge's nonce, within its scope; a void challenge gives 0x0A. -/
def execDebugGrant (r : SignedReq) (s : State) : Host.Outcome State Fault Refusal :=
  done <| whenAon s fun s =>
    let suits := r.kind == 3 && r.signer == 2 && debugStates s && r.toCode == r.fromCode
    match lcEarly s r.overCan (reqForm r), s.lc.challenge.filter fun c => decide (s.ns < c.2.2 + 600000000000) with
    | some c, _ => lcResult s 0x2001 3 c
    | none, none => lcResult s 0x2001 3 (if suits then 0xA else 4)
    | none, some (scope, n, _) =>
      match reqCheck s r suits (some n) s.pow.sessionId (r.scope &&& ~~~scope == 0) with
      | some c => lcResult s 0x2001 3 c
      | none => openDebug (lcResult s 0x2001 3 1) r.scope

/-- DEBUG_SCRUB_DONE (R167 step 4): tier A is clean, and the granted scope opens with its DEBUG record. -/
def execDebugScrubDone (s : State) : Host.Outcome State Fault Refusal :=
  done <| whenAon s fun s =>
    match s.lc.scrubPending, s.lc.pendingScope with
    | true, some (scope, grant) =>
      record { s with tierA := [], lc.scrubPending := false, lc.pendingScope := none, lc.scope := scope, lc.byGrant := grant }
        0x0021 0 uTcu (le 2 scope.toNat ++ le 2 s.lc.primary.debugOpens)
    | _, _ => s

/-- PRESENCE_EDGE (R80, R83): the debounced level of PRESENCE changes. -/
def execPresenceEdge (s : State) : Host.Outcome State Fault Refusal :=
  done <| whenAon s fun s =>
    { s with pins.presence := !s.pins.presence, pins.asserted := true, pins.presenceAt := some s.ns }

/-- PRESENCE_WINDOW_END (R83): 30 s after PRESENCE was last high, it no longer counts as asserted. -/
def execPresenceWindowEnd (s : State) : Host.Outcome State Fault Refusal :=
  done <| whenAon s fun s =>
    if !s.pins.presence && s.pins.presenceAt.any fun t => decide (t + 30000000000 ≤ s.ns) then
      { s with pins.asserted := false }
    else s

/-- Whether the open scope has a bit (R165). -/
def scopeHas (s : State) (n : Nat) : Bool := s.lc.scope.getLsbD n

/-- What a master without a sealed descriptor may reach (R172): the ranges 1 to 7 are the rows from the top, and master 1 is the debug
access port. The scope that a state gives is full; one that a grant opened counts bit by bit, and reaches a context's pages only where
they are debuggable. A closed debug port stands in no column (R167). -/
def debugMay (s : State) (master range addr : Nat) (isWrite : Bool) : Bool :=
  let o := pageOwner s (addr / 2 ^ 26)
  if range = 6 then o.kind == 3 && (master != 1 || s.lc.scope != 0)
  else if master ≠ 1 || s.lc.scope == 0 then false
  else if range = 1 then scopeHas s 0
  else if range = 2 then scopeHas s 1 && !isWrite
  else if range = 3 then scopeHas s 3 && !isWrite
  else if range = 5 then (o.kind == 1 || o.kind == 2) && (!s.lc.byGrant || bit o.flags 3)
  else false

/-- A refused access of such a master (R173): not performed, counted, and recorded S0. -/
def protectViolation (s : State) (master range addr : Nat) : State :=
  let s1 : State := { s with
    lc.viol := true, lc.violCount := min (s.lc.violCount + 1) 0x7FFF, lc.violMaster := master, lc.violRange := range }
  latch s1 { unit := uTcu, cls := 0, cause := 173, whereAt := addr, kind := 0x0023,
             detail := some (le 1 master ++ le 1 range ++ le 8 addr) }

/-- An access is allowed from its first byte to its last. -/
def debugReaches (s : State) (master range : Nat) (r : Reach) : Bool :=
  debugMay s master range r.addr r.isWrite && debugMay s master range (r.addr + (r.len - 1)) r.isWrite

/-- An access that R172 allows is performed. Tier-A pages are read and written; what TCU memory, engine control state and the NVM areas give
a debug port at an address no rule lays out, so that a read of them is a free value, and TCU memory is no state of the
model (log 94). -/
def debugAccess (s : State) (master range : Nat) (r : Reach) : State :=
  if range = 5 ∨ range = 6 then
    if r.isWrite then tierAWrite s r.addr (fit r.len r.data) else s.emit (.debugData master (tierABytes s r.addr r.len))
  else if r.isWrite then s
  else s.drew.emit (.debugData master (be r.len (s.drawn (8 * r.len)).toNat))

/-- PROTECT_VIOLATION (R172, R173): an access of a master that works without a sealed descriptor. One that R172 does not allow is a
violation, whose read returns zeros. -/
def execProtectViolation (master range : Nat) (reach : Reach) (s : State) : Host.Outcome State Fault Refusal :=
  done <| whenAon s fun s =>
    if debugReaches s master range reach then debugAccess s master range reach
    else
      let s1 := protectViolation s master range reach.addr
      if reach.isWrite then s1 else s1.emit (.debugData master (List.replicate reach.len 0))

end Sys2Proof.Machine
end

