-- ==== Sys2Proof/Machine/Time.lean ====
section
/-!
DEFINITION. Time.lean: the time base, its discipline to TPULSE, and the clock domains of the neighbours (R415 to R420, R430
to R432).
-/
namespace Sys2Proof.Machine

/-- Change the state of the time base with its TIME record (R417): the loss of TREF is S1, the other recorded changes S0. -/
def timeTo (s : State) (new : Nat) : State :=
  let old := s.time.state
  if old = new then s
  else
    let s1 : State := { s with
      time.state := new
      time.goodRun := 0
      time.holdovers := if new = 4 then s.time.holdovers + 1 else s.time.holdovers
      time.grid0 := if new = 0 ∨ new = 1 then none else s.time.grid0
      time.fCorr := if new = 1 then 0 else s.time.fCorr
      time.pCorr := if new = 1 then 0 else s.time.pCorr
      time.rate := if new = 1 then 0 else s.time.rate }
    if new = 2 then s1
    else
      latch s1 { unit := uTcu, cls := if new = 0 then 1 else 0, cause := 417, kind := 0x0042, source := some srcTime,
                 detail := some (le 1 old ++ le 1 new ++ le 4 (BitVec.ofInt 32 s.time.phase).toNat ++
                   le 4 (BitVec.ofInt 32 s.time.rate).toNat) }

/-- TREF_LOCK (R417): the clock leaves NO_REF for FREE, unless an edge was accepted in the last 1 s. -/
def execTrefLock (s : State) : Host.Outcome State Fault Refusal :=
  done <| whenAon s fun s =>
    if s.time.trefLocked then s
    else
      let s1 : State := { s with time.trefLocked := true }
      if s.time.lastEdge.any fun e => decide (s.ns < e / 1000 + 1000000000) then s1 else timeTo s1 1

/-- TREF_LOSS (R417): S1, and the clock runs on at its last frequency. -/
def execTrefLoss (s : State) : Host.Outcome State Fault Refusal :=
  done <| whenAon s fun s =>
    if s.time.trefLocked then timeTo { s with time.trefLocked := false, time.lostAt := s.ns } 0 else s

/-- Clamp to a symmetric bound. -/
def clampTo (b v : Int) : Int := max (-b) (min b v)

/-- The grid error of an edge in ps (R418): the distance to the nearest grid instant. -/
def gridErr (g e : Nat) : Int :=
  let d : Int := (e : Int) - g
  d - (d + 500000000) / 1000000000 * 1000000000

/-- The loop's step at an accepted edge (R418). The corrections are kept in units of 1 / (64 × 10^9); the rate is theirs
in units of 2^-32, rounded down. -/
def loopStep (t : Time) (err : Int) : Time :=
  let f := if err.natAbs ≤ 2000000 then t.fCorr - err else t.fCorr
  let p := clampTo 3200000 (-16 * err)
  { t with fCorr := f, pCorr := p, rate := clampTo 6400000 (f + p) * 4294967296 / 64000000000, phase := err }

/-- Whether two edges lie a whole number of milliseconds from 1 to `most` apart, within 2 µs. -/
def spaced (a e most : Nat) : Bool :=
  let d := e - a
  let m := (d + 500000000) / 1000000000
  decide (a < e) && decide (1 ≤ m) && decide (m ≤ most) && decide (((d : Int) - m * 1000000000).natAbs ≤ 2000000)

/-- Whether an edge is accepted in the state that the loop is in (R417, R418). -/
def edgeOk (t : Time) (e : Nat) : Bool :=
  if !t.trefLocked then false
  else
    match t.state, t.grid0, t.lastEdge with
    | 2, some _, some l => spaced l e 999
    | 3, some g, some l => decide ((gridErr g e).natAbs ≤ 2000000) && decide (l + 998000000 ≤ e)
    | 4, some g, some l => decide ((gridErr g e).natAbs ≤ 2000000) && decide (l + 998000000 ≤ e)
    | 2, _, _ => true
    | 3, _, _ => true
    | 4, _, _ => true
    | _, _, _ => true

/-- Take an accepted edge (R417, R418, R420). -/
def takeEdge (s : State) (e : Nat) : State :=
  let err := match s.time.grid0 with
    | some g => gridErr g e
    | none => 0
  let good := if err.natAbs ≤ 5000 then s.time.goodRun + 1 else 0
  let t := loopStep s.time err
  let s1 : State := { s with time := { t with
    grid0 := some (s.time.grid0.getD e), lastEdge := some e, virtual := false, badRun := 0, badEdge := none } }
  if s1.time.state ≤ 1 then
    let s2 := timeTo s1 2
    { s2 with time.goodRun := good }
  else if 32 ≤ good && (s1.time.state = 2 || s1.time.state = 4) then timeTo s1 3
  else { s1 with time.goodRun := good }

/-- Reject an edge (R418, R419): counted; 16 in a row at 1 ms spacing in LOCKED or HOLDOVER are a shift, S1, and the last of
them is used as an accepted edge. -/
def rejectEdge (s : State) (e : Nat) : State :=
  let err := match s.time.grid0 with
    | some g => gridErr g e
    | none => 0
  let inRow := s.time.badEdge.any fun b => spaced b e 1
  let run := if inRow then s.time.badRun + 1 else 1
  let s1 : State := { s with
    time.badEdges := s.time.badEdges + 1, time.edgesBad := s.time.edgesBad + 1, time.goodRun := 0
    time.badRun := run, time.badEdge := some e
    time.firstErr := if inRow then s.time.firstErr else err }
  if s1.time.state ≠ 3 ∧ s1.time.state ≠ 4 then s1
  else if 16 ≤ run then
    let s2 := latch { s1 with time.steps := s1.time.steps + 1 }
      { unit := uTcu, cls := 1, cause := 419, kind := 0x0043, source := some srcTime,
        detail := some (le 8 (BitVec.ofInt 64 (s1.time.firstErr / 1000)).toNat) }
    takeEdge (timeTo s2 2) e
  else if s1.time.state = 3 && s1.time.lastEdge.any fun l => decide (l + 2998000000 ≤ e) then timeTo s1 4
  else s1

/-- TPULSE_EDGE (R80, R418): ignored until TREF is locked; an edge captured at a session time in units of 125 ps, which session time has then reached. -/
def execTpulseEdge (at125ps : Nat) (s : State) : Host.Outcome State Fault Refusal :=
  done <| whenAon s fun s =>
    if !s.time.trefLocked then s
    else
    let e := at125ps * 125
    let s1 : State := { s with time.now := max s.time.now (e * 2 ^ 32 / 1000) }
    if edgeOk s1.time e then takeEdge s1 e else rejectEdge s1 e

/-- TPULSE_MISSING (R417): in LOCKED, three expected edges in a row without an accepted one are HOLDOVER. -/
def execTpulseMissing (s : State) : Host.Outcome State Fault Refusal :=
  done <| whenAon s fun s =>
    if s.time.state = 3 && s.time.lastEdge.any fun l => decide (l / 1000 + 3002000 ≤ s.ns) then timeTo s 4 else s

/-- TPULSE_SILENCE (R417): 1 s without an accepted edge is FREE, while TREF is locked. -/
def execTpulseSilence (s : State) : Host.Outcome State Fault Refusal :=
  done <| whenAon s fun s =>
    if s.time.trefLocked && s.time.lastEdge.any fun l => decide (l / 1000 + 1000000000 ≤ s.ns) then timeTo s 1 else s

/-- VIRTUAL_EDGE (R420): until an edge is accepted, the last whole millisecond of session time stands for it. -/
def execVirtualEdge (s : State) : Host.Outcome State Fault Refusal :=
  done <| whenAon s fun s =>
    if s.time.virtual then { s with time.virtualEdge := s.ns / 1000000 * 1000000 } else s

/-- The latest TPULSE edge in session ns, accepted or virtual (R420). -/
def latestEdge (s : State) : Nat :=
  if s.time.virtual then s.time.virtualEdge else (s.time.lastEdge.getD 0) / 1000

/-- TIME_LO (R416): a read latches TIME_HI and TIME_FRAC from the same tick. -/
def execTimeLo (s : State) : Host.Outcome State Fault Refusal :=
  done <| whenAon s fun s => { s with
    time.latchHi := BitVec.ofNat 32 (s.ns / 2 ^ 32)
    time.latchFrac := BitVec.ofNat 32 (s.time.now % 2 ^ 32 / 2 ^ 16 * 2 ^ 16) }

/-- Whether a clock domain is in reset, so that it is not STOPPED (R432). -/
def domainInReset (s : State) (i : Nat) : Bool :=
  let level := if i < 18 then 32 + i
    else if i < 22 then 64 + (i - 18)
    else if i < 38 then 96 + (i - 22)
    else if i = 38 then 128
    else if i < 47 then 160 + (i - 39)
    else if i < 49 then 192
    else 224
  s.cross.nrst.contains level || s.cross.vrst.contains level

/-- CLKD_STOP (R432): a clock domain whose heartbeat has not advanced for 1 µs is STOPPED, with its STOP record. -/
def execClkdStop (i : Nat) (s : State) : Host.Outcome State Fault Refusal :=
  done <| whenAon s fun s =>
    if 50 ≤ i || (tget s.casts.stopped i).isSome || domainInReset s i then s
    else
      let last := s.ns - 1000
      record { s with
        casts.stopped := tset s.casts.stopped i (last, s.ns)
        casts.stops := tset s.casts.stops i (tgetD s.casts.stops i 0 + 1)
        casts.lastAdvance := tset s.casts.lastAdvance i last }
        0x0044 7 srcTime (le 1 i ++ le 8 last ++ le 8 s.ns ++ le 8 0)

/-- CLKD_RESUME (R432): the first sample that shows an advance ends the stop, with its RESUME record. -/
def execClkdResume (i : Nat) (s : State) : Host.Outcome State Fault Refusal :=
  done <| whenAon s fun s =>
    match tget s.casts.stopped i with
    | none => s
    | some (last, _) =>
      record { s with
        casts.stopped := tdel s.casts.stopped i
        casts.lastAdvance := tset s.casts.lastAdvance i s.ns }
        0x0045 7 srcTime (le 1 i ++ le 8 last ++ le 8 s.ns ++ le 8 (s.ns - last))

end Sys2Proof.Machine
end

