-- ==== Sys2Proof/Machine/DomOps.lean ====
section
/-!
DEFINITION. DomOps.lean: the membership state and the messages of the confidential domain (R184 to R197).
-/
namespace Sys2Proof.Machine

/-- Message types of R186. -/
abbrev mJoinHello : Nat := 0x01
abbrev mJoinChallenge : Nat := 0x02
abbrev mJoinEvidence : Nat := 0x03
abbrev mJoinAdmit : Nat := 0x04
abbrev mJoinDone : Nat := 0x05
abbrev mJoinRefuse : Nat := 0x06
abbrev mEpochPrepare : Nat := 0x10
abbrev mEpochShare : Nat := 0x11
abbrev mEpochKey : Nat := 0x12
abbrev mEpochAck : Nat := 0x13
abbrev mEpochCommit : Nat := 0x14
abbrev mMemberUpdate : Nat := 0x18
abbrev mAnchorBeat : Nat := 0x20
abbrev mAnchorState : Nat := 0x21
abbrev mAnchorProbe : Nat := 0x22
abbrev mAnchorClaim : Nat := 0x23
abbrev mRoleHandoff : Nat := 0x28
abbrev mStateManifest : Nat := 0x29
abbrev mMemberLeave : Nat := 0x30

/-- DETAIL of a DOMAIN record (R506); the events are numbered in the order R506 lists them, from 1. -/
def domDetail (s : State) (event peer : Nat) (status : Code) : Bytes :=
  le 1 event ++ le 8 s.dom.domainId ++ le 4 s.dom.epoch ++ le 4 s.dom.term ++ le 8 peer ++ [status]

/-- A DOMAIN record that records no error. -/
def domRecord (s : State) (event peer : Nat) (status : Code) : State :=
  record s 0x0030 7 uTcu (domDetail s event peer status)

/-- A refusal at the anchor, S0 (R188). -/
def domRefusal (s : State) (peer : Nat) (status : Code) : State :=
  latch s { unit := uTcu, cls := 0, cause := 188, kind := 0x0030, code := status,
            detail := some (domDetail s 6 peer status) }

/-- Set the offset of domain time (R421, R429): casts armed in domain time fail first, and the schedule is armed again. -/
def setOffset (s : State) (v : Int) : State :=
  let s1 := failDomainCasts s
  rearm { s1 with time.doff := v, arb.rotBase := 0 }

/-- The keys that descend from a domain key, with the two domain keys (R103, R191). -/
def isDomainKey (p : KeyPath) : Bool :=
  match p with
  | .domainKey => true
  | .nextDomainKey => true
  | .flow _ _ _ => true
  | .joinKey _ => true
  | .epochSecret _ => true
  | _ => false

/-- End this unit's membership (R192, R197, R198): its flows and domain keys go, fences that await a member complete, the
SPDM session ends, and domain time is session time. -/
def leaveDomain (s : State) : State :=
  let s0 := ((s.dom.members.map (·.unit)).filter (· != unitId)).foldl peerGone (flushControl s)
  let s1 := endSpdm { s0 with dom.members := s.dom.members } cAbortedReset none
  let s2 := cancelCasts (dropKeys s1 isDomainKey) fun c => c.kind == 2
  let s3 := domRecord s2 3 s2.dom.anchor cOk
  let d := s3.dom
  setOffset { s3 with
    dom := { Domain.reset with
      endorsement := d.endorsement, hallmark := d.hallmark, hallmarkNonce := d.hallmarkNonce, discarded := d.discarded,
      txn := d.txn }
    link.flows := []
    link.ports := s3.link.ports.map fun p => (p.1, { p.2 with keyCache := [], misses := [], egress := [] }) } 0

/-- Members but this unit. -/
def others (s : State) : List Nat := (s.dom.members.map (·.unit)).filter (· != unitId)

/-- The deputies that are not this unit. -/
def otherDeputies (s : State) : List Nat := s.dom.deputies.filter (· != unitId)

/-- Membership digest (R186): SHA-384 of the units of a list in rising order, leftmost 256 bits (log 65). -/
def digestOf (l : List Nat) : BitVec 256 :=
  left256 (Config.sha384 ((l.foldl (fun t u => tset t u ()) ([] : Table Unit)).flatMap fun p => le 8 p.1))

/-- The digest of this unit's own list. -/
def memberDigest (s : State) : BitVec 256 := digestOf (s.dom.members.map (·.unit))

/-- The bytes of a host member record (R176, R203): the host, its key, the admission key and the signature. -/
def hostBytes (h : HostRec) : Bytes :=
  le 8 h.hostId ++ be 2689 h.key.toNat ++ be 2689 h.admKey.toNat ++ sigBytes h.signature

/-- What the host-admission key signs (R176). -/
def hostMsg (h : HostRec) : Bytes := Config.hostMsg h.hostId h.key

/-- MEMBER_UPDATE to all (R186): units added and removed, host member records, the policy when changed, the digest. -/
def memberUpdate (s : State) (added removed : List Nat) (hosts : List HostRec) (policy : Option Policy) : State :=
  sendDom s mMemberUpdate toAll 0 cOk
    (added.flatMap (le 8) ++ removed.flatMap (le 8) ++ hosts.flatMap hostBytes ++ ((policy.map (·.encoded)).getD []) ++
      be 32 (memberDigest s).toNat)

/-- The pending epoch state (R184): the next epoch, and T once it is committed. -/
def pendingNow (s : State) : Option (Nat × Option Nat) :=
  if s.dom.changing then some (s.dom.nextEpoch, if s.dom.committed then s.dom.switchAt else none) else none

/-- ANCHOR_STATE to each deputy (R184, R197): membership list with the anchor in force and its term, host member records, policy,
pending epoch state. -/
def anchorState (s : State) : State :=
  (otherDeputies s).foldl (fun s d => sendDom s mAnchorState d 0 cOk
    (le 8 s.dom.anchor ++ le 4 s.dom.term ++ s.dom.members.flatMap (fun m => le 8 m.unit) ++ s.dom.hosts.flatMap hostBytes ++
      ((s.dom.policy.map (·.encoded))).getD [] ++
      le 4 ((pendingNow s).elim 0 (·.1)) ++ le 8 (((pendingNow s).bind (·.2)).getD 0))) s

/-- Remove a member from the list, with everything that waits for it (R192, R224). -/
def dropMember (s : State) (unit : Nat) : State :=
  let s1 := peerGone s unit
  { s1 with dom.members := s1.dom.members.filter fun m => m.unit != unit
            dom.deputies := s1.dom.deputies.filter (· != unit)
            dom.evidence := tdel s1.dom.evidence unit }

/-- Whether a unit is in the membership list. -/
def member (s : State) (unit : Nat) : Bool := s.dom.members.any fun m => m.unit == unit

/-- The index byte's IV of an envelope (R190). -/
def envIv (index : Nat) : BitVec 96 := BitVec.ofNat 96 index

/-- Bytes 0 to 15 of an envelope (R190). -/
def envHead (e : KeyEnvelope) : Bytes :=
  le 1 e.format ++ le 1 e.index ++ le 2 e.reserved ++ le 4 e.epoch ++ le 8 e.domainId

/-- Seal a domain key into an envelope (R190). KEY and KCV stand with their most significant byte first: the spec gives the envelope no byte
order. DESIGN CHOICE (log 53). -/
def sealEnv (wrap key : Key) (index epoch domainId : Nat) : KeyEnvelope :=
  let e : KeyEnvelope := { format := 3, index := index, reserved := 0, epoch := epoch, domainId := domainId, body := [], tag := 0 }
  let r := gcmSeal wrap (envIv index) (envHead e) (be 32 key.toNat ++ be 4 (kcv key).toNat)
  { e with body := r.1, tag := r.2 }

/-- Open an envelope (R13, R190): the key, when its reserved bytes are 0, the tag verifies and the KCV matches. -/
def openEnv (wrap : Key) (e : KeyEnvelope) : Option Key :=
  if e.format ≠ 3 ∨ 1 < e.index ∨ e.reserved ≠ 0 then none
  else
    (gcmOpen wrap (envIv e.index) (envHead e) e.body e.tag).bind fun pt =>
      let k : Key := BitVec.ofNat 256 (beNat (pt.take 32))
      if beNat (pt.drop 32) = (kcv k).toNat ∧ pt.length = 36 then some k else none

/-- The bytes of an envelope. -/
def envBytes (e : KeyEnvelope) : Bytes := envHead e ++ e.body ++ be 16 e.tag.toNat

/-- Put a domain key into slot 16 or 17 (R103, R190). -/
def putDomainKey (s : State) (next : Bool) (k : Key) : State :=
  if next then importKey s .nextDomainKey (k.setWidth 512) 256 4 17 32 0x80
  else importKey s .domainKey (k.setWidth 512) 256 4 16 32 0x80

/-- Arm the key-switch cast for a domain time (R193 step 5), with the flow keys of the next epoch derived for every live
flow; one that still holds an old key waits for its retirement (R220). A refusal is a failed cast (R194). -/
def armSwitch (s : State) (t : Nat) : State × Bool :=
  let r := armCast s ownTcu 2 1 t 0 none
  if r.2.1 = cOk then
    let s1 : State := { r.1 with dom.switchAt := some t, dom.committed := true }
    (s1.link.flows.foldl (fun s f => match tget s.link.nodes f.1 with
      | some (unit, _) => if f.2.prevEpoch.isSome then s else needKey s (.flow unit s.dom.nextEpoch 0)
      | none => s) s1, true)
  else (r.1, false)

/-- A member that misses the epoch switch (R194): slots 16 and 17 go, MEMBER_LEAVE and a member-down notice with cause
0x06 are sent, S1; the unit is then outside the domain, to rejoin. -/
def missSwitch (s : State) : State :=
  let s1 := sendDom s mMemberLeave s.dom.anchor 0 cOk []
  let s2 := sendNotice (notice s1 1 194 uTcu 0) 1 6 unitId
  leaveDomain s2

/-- Send EPOCH_COMMIT and arm the anchor's own cast (R193 steps 4 and 5): T is 10 ms ahead, on a whole millisecond. -/
def commitEpoch (s : State) : State :=
  let t := (s.domNs + 10000000 + 999999) / 1000000 * 1000000
  let r := armSwitch (sendDom s mEpochCommit toAll 0 cOk (le 8 t)) t
  if r.2 then anchorState r.1 else missSwitch r.1

/-- Commit once every remaining member's KCV is in (R193 step 4). -/
def tryCommit (s : State) : State :=
  if s.dom.changing && !s.dom.committed && s.dom.parts.all fun p => p.2.acked then commitEpoch s else s

/-- Start a change of the domain epoch at the anchor (R193 steps 1 and 2). Without a random source no key can be drawn (R88): the change
stays due. -/
def startChange (s : State) : State :=
  if !s.vault.entropyOk then s
  else
  let k := s.drawn 256
  let s1 := putDomainKey s.drew true k
  let next := s1.dom.epoch + 1
  let s2 : State := { s1 with
    dom.changing := true, dom.nextEpoch := next, dom.committed := false, dom.switchAt := none
    dom.prepareAt := some s1.ns, dom.triggers := [], dom.coalesceAt := none
    dom.parts := ((others s1).map fun u => (u, (⟨false, false⟩ : EpochPart))).foldr (fun p t => tset t p.1 p.2) [] }
  let s3 := (others s2).foldl (fun s u => sendDom s mEpochPrepare u 0 cOk (le 4 next)) s2
  tryCommit (anchorState s3)

/-- A trigger of R192 at the anchor: a removal takes effect on the list at once, and the change coalesces. While a change is in
progress the trigger is held, and its removal is announced when the change has ended (R195). Unit 0 removes none. -/
def epochTrigger (s : State) (unit : Nat) : State :=
  if s.dom.changing then { s with dom.triggers := insertN s.dom.triggers unit, dom.parts := tdel s.dom.parts unit }
  else
    let s1 := if unit = 0 then s else
      let t := dropMember s unit
      anchorState (memberUpdate t [] [unit] [] none)
    { s1 with
      dom.triggers := insertN s1.dom.triggers unit
      dom.coalesceAt := if s1.dom.coalesceAt.isSome then s1.dom.coalesceAt else some s1.ns }

/-- A header that a receiver takes (R13, R186): version 1, at least its own length, nothing reserved. -/
def hdrOk (m : DomHdr) : Bool := m.version == 1 && decide (44 ≤ m.length) && m.reserved == 0

/-- Take a message of a domain that this unit is in (R186): malformed or foreign ones are discarded, and one of a lower
term is answered with its TYPE and DOMAIN_TERM_STALE. A sealed type comes only from a member; a joiner has no term yet. -/
def domTake (s : State) (kind : Nat) (m : DomHdr) (sealedType : Bool) (f : State → State) : State :=
  if !isMember s || !hdrOk m || m.domainId ≠ s.dom.domainId then domDiscard s
  else if sealedType && m.term < s.dom.term then sendDom s kind m.sender m.txn cDomainTermStale []
  else if sealedType && !member s m.sender then domDiscard s
  else f s

/-- A message that only the anchor acts on. -/
def anchorTake (s : State) (kind : Nat) (m : DomHdr) (sealedType : Bool) (f : State → State) : State :=
  domTake s kind m sealedType fun s => if s.dom.role = 1 then f s else domDiscard s

/-- A message that a member takes from the anchor in force. -/
def fromAnchor (s : State) (kind : Nat) (m : DomHdr) (f : State → State) : State :=
  domTake s kind m true fun s => if m.sender = s.dom.anchor && s.dom.role ≠ 1 then f s else domDiscard s

/-- A unit that the fabric manager reports down to a member (R192, R196, R197): once the anchor and every deputy are reported, no
anchor is left. -/
def unitDown (s : State) (unit : Nat) : State :=
  let down := insertN s.dom.down unit
  let s1 : State := { s with dom.down := down }
  if down.contains s.dom.anchor && s.dom.deputies.all (down.contains ·) then { s1 with dom.anchor := 0 } else s1

/-- This unit's role from the lists in force. -/
def roleNow (s : State) : Nat :=
  if s.dom.anchor = unitId then 1 else if s.dom.deputies.contains unitId then 2 else 3

/-- End a join that has not succeeded (R187): JK and the ephemeral keys go, and the write completes with a code. -/
def endJoin (s : State) (code : Code) : State :=
  let s1 := dropKeys s isDomainKey
  answerWrite { s1 with dom.role := 0, dom.domainId := 0, dom.join := JoinState.reset } 0x2201 2 code

/-- Step 1 of R187: a nonce, ephemeral keys, and JOIN_HELLO with the role this unit asks for (R200). Without a random source the join
ends, EXECUTOR_RESET (R88): the manual names no code. DESIGN CHOICE (log 60). -/
def sendHello (s : State) : State :=
  if !s.vault.entropyOk then endJoin s cExecutorReset
  else
  let nonce := s.drawn 256
  let k := kaKeys s.drew
  let body := be 32 nonce.toNat ++ be 97 (Config.ecPoint k.2.1).toNat ++ be 1568 (Config.kemKey k.2.2).toNat
  let s1 : State := { k.1 with
    dom.txn := k.1.dom.txn + 1
    dom.join := { k.1.dom.join with
      step := 1, nonce := nonce, hash := body ++ le 4 k.1.boot.mapRole.toNat, ecPriv := k.2.1, kemPriv := k.2.2,
      lastAt := k.1.ns, txn := k.1.dom.txn + 1 } }
  sendDom s1 mJoinHello s1.dom.join.anchor s1.dom.txn cOk s1.dom.join.hash

/-- Keep JK, the leftmost 256 bits of ss, in a system slot of partition 3 (R187 step 2). -/
def keepJk (s : State) (peer : Nat) (ss : BitVec 384) : State :=
  importKey s (.joinKey peer) ((left256 ss).setWidth 512) 256 3 (freeSlotIn s 3) 32 0

/-- Abandon a join (R187, R115): JK and the ephemeral keys are destroyed, and it starts afresh, up to three times. -/
def retryJoin (s : State) : State :=
  if s.dom.join.tries < 3 then
    let s1 := dropKeys s isDomainKey
    sendHello { s1 with dom.join := { s1.dom.join with tries := s1.dom.join.tries + 1 } }
  else endJoin s cDomainTimeout

end Sys2Proof.Machine
end

