-- ==== Sys2Proof/Machine/Epoch.lean ====
section
/-!
DEFINITION. Epoch.lean: changes of the domain epoch, and anchor failover (R184, R192 to R197).
-/
namespace Sys2Proof.Machine

/-- EPOCH_COALESCE_EXPIRE (R192): the window after the first trigger has passed, and no change is in progress. -/
def execEpochCoalesceExpire (s : State) : Host.Outcome State Fault Refusal :=
  done <| whenUp s fun s =>
    match s.dom.coalesceAt with
    | some t =>
      if s.dom.role = 1 && t + setting s 0x2201 6 * 1000000 ≤ s.ns && !s.dom.changing then startChange s else s
    | none => s

/-- EPOCH_AGE_LIMIT (R178 key 13, R192): the epoch has reached the policy's maximum age. -/
def execEpochAgeLimit (s : State) : Host.Outcome State Fault Refusal :=
  done <| whenUp s fun s =>
    if s.dom.role = 1 && s.dom.policy.any fun p => p.maxAge != 0 && decide (s.dom.epochAt + p.maxAge * 1000000000 ≤ s.ns)
    then epochTrigger s 0 else s

/-- The ephemeral keys of a member's epoch agreement with its anchor. -/
def epochPriv (s : State) (anchor : Nat) : Option (BitVec 384 × BitVec 512) :=
  (s.cipher.agreed.find? fun a => a.1 == .epochSecret anchor).map (·.2)

/-- Forget them. -/
def dropPriv (s : State) (anchor : Nat) : State :=
  { s with cipher.agreed := s.cipher.agreed.filter fun a => a.1 != .epochSecret anchor }

/-- Answer EPOCH_PREPARE with EPOCH_SHARE (R193 step 3). A member without a random source sends none (R88), and R194 handles it. -/
def sendShare (s : State) (m : DomHdr) (next : Nat) : State :=
  if !s.vault.entropyOk then s
  else
  let k := kaKeys (dropPriv s m.sender)
  let s1 : State := { k.1 with
    cipher.agreed := k.1.cipher.agreed ++ [(.epochSecret m.sender, k.2.1, k.2.2)]
    dom.changing := true, dom.nextEpoch := next, dom.committed := false, dom.switchAt := none }
  sendDom s1 mEpochShare m.sender m.txn cOk
    (be 97 (Config.ecPoint k.2.1).toNat ++ be 1568 (Config.kemKey k.2.2).toNat)

/-- EPOCH_PREPARE at a member (R193, R195): one for the epoch after a change that has switched but not ended is held. -/
def execEpochPrepare (m : DomHdr) (next : Nat) (s : State) : Host.Outcome State Fault Refusal :=
  done <| whenUp s fun s => fromAnchor s mEpochPrepare m fun s =>
    if next = s.dom.epoch + 1 && s.dom.grace.isNone && !s.dom.committed then sendShare s m next
    else if next = s.dom.epoch + 2 && s.dom.changing then { s with dom.heldPrepare := some (m, next) }
    else domDiscard s

/-- EPOCH_SHARE at the anchor (R193 step 3): EPOCH_KEY with one envelope, under a secret that is then destroyed. -/
def execEpochShare (m : DomHdr) (q : Point) (ek : KemBlob) (s : State) : Host.Outcome State Fault Refusal :=
  done <| whenUp s fun s => anchorTake s mEpochShare m true fun s =>
    match tget s.dom.parts m.sender, key256 s .nextDomainKey with
    | some p, some next =>
      if !s.dom.changing || s.dom.committed then domDiscard s
      else
        match kaRespond s q ek with
        | (s1, none) => domRefusal s1 m.sender cPkInputInvalid
        | (s1, some (qr, ct, ss)) =>
          let e := sealEnv (left256 ss) next 1 s1.dom.nextEpoch s1.dom.domainId
          sendDom { s1 with dom.parts := tset s1.dom.parts m.sender { p with shared := true } } mEpochKey m.sender m.txn cOk
            (be 97 qr.toNat ++ be 1568 ct.toNat ++ envBytes e)
    | _, _ => domDiscard s

/-- The key that EPOCH_KEY brings, when its envelope opens (R190). -/
def epochKeyOf (s : State) (m : DomHdr) (q : Point) (ct : KemBlob) (env : KeyEnvelope) : Option Key :=
  (epochPriv s m.sender).bind fun k => (kaFinish k.1 k.2 q ct).bind fun ss =>
    if env.index = 1 && env.epoch = s.dom.nextEpoch && env.domainId = s.dom.domainId then openEnv (left256 ss) env else none

/-- EPOCH_KEY at a member (R190, R193 step 3): the key goes to slot 17 and its KCV to the anchor; an envelope that does not
open leaves the slots as they are, DOMAIN_EVIDENCE_REFUSED. -/
def execEpochKey (m : DomHdr) (q : Point) (ct : KemBlob) (env : KeyEnvelope) (s : State) :
    Host.Outcome State Fault Refusal :=
  done <| whenUp s fun s => fromAnchor s mEpochKey m fun s =>
    if !s.dom.changing || s.dom.committed || (epochPriv s m.sender).isNone then domDiscard s
    else
      match epochKeyOf s m q ct env with
      | none => domRefusal (dropPriv s m.sender) m.sender cDomainEvidenceRefused
      | some k => sendDom (putDomainKey (dropPriv s m.sender) true k) mEpochAck m.sender m.txn cOk (be 4 (kcv k).toNat)

/-- EPOCH_ACK at the anchor (R193 step 4): the KCV must match; after the last one the change is committed. -/
def execEpochAck (m : DomHdr) (k : BitVec 32) (s : State) : Host.Outcome State Fault Refusal :=
  done <| whenUp s fun s => anchorTake s mEpochAck m true fun s =>
    match tget s.dom.parts m.sender, key256 s .nextDomainKey with
    | some p, some next =>
      if s.dom.changing && p.shared && k == kcv next then
        tryCommit { s with dom.parts := tset s.dom.parts m.sender { p with acked := true } }
      else domDiscard s
    | _, _ => domDiscard s

/-- EPOCH_COMMIT at a member (R193 step 5): the key-switch cast is armed, or the switch is missed (R194). -/
def execEpochCommit (m : DomHdr) (switchAt : Nat) (s : State) : Host.Outcome State Fault Refusal :=
  done <| whenUp s fun s => fromAnchor s mEpochCommit m fun s =>
    if s.dom.committed || s.dom.grace.isSome then domDiscard s
    else if s.dom.changing && (findKey s .nextDomainKey).isSome then
      let r := armSwitch s switchAt
      if r.2 then r.1 else missSwitch r.1
    else missSwitch s

/-- EPOCH_ACK_TIMEOUT (R194, R192): a member without its EPOCH_ACK 500 ms after EPOCH_PREPARE is excluded, and the fabric
manager is told. -/
def execEpochAckTimeout (unit : Nat) (s : State) : Host.Outcome State Fault Refusal :=
  done <| whenUp s fun s =>
    if s.dom.role = 1 && s.dom.changing && !s.dom.committed &&
        (s.dom.prepareAt.any fun t => decide (t + 500000000 ≤ s.ns)) && (tget s.dom.parts unit).any fun p => !p.acked then
      tryCommit (sendNotice (epochTrigger s unit) 1 6 unit)
    else s

/-- T (R193 step 6): the key-switch cast has fired at this member. -/
def keySwitch (s : State) : State :=
  if s.dom.changing && s.dom.committed && s.dom.grace.isNone && (findKey s .nextDomainKey).isSome then
    let s1 := domRecord s 4 s.dom.anchor cOk
    switchDomain { s1 with dom.grace := some (s1.ns + 1000000) }
  else s

/-- A parent as it is named after slot 17 has moved to slot 16 (R193 step 8). -/
def promoted (q : Option KeyPath) : Option KeyPath := if q == some .nextDomainKey then some .domainKey else q

/-- Slot 17 moves to slot 16 (R193 step 8), and every key derived under it keeps it as its parent (R114). -/
def promoteKey (s : State) : State :=
  { s with
    vault.slots := s.vault.slots.map fun k =>
      if k.path == .nextDomainKey then { k with path := .domainKey, slot := 16 } else { k with parent := promoted k.parent }
    vault.regs := s.vault.regs.map fun r => { r with parent := promoted r.parent }
    vault.replacing := s.vault.replacing.map fun r => { r with parent := promoted r.parent } }

/-- Step 8 of R193: epoch k ends, its keys go, and outstanding frames of it are abandoned (R223). -/
def endGrace (s : State) : State :=
  let old := s.dom.epoch
  let s1 := dropKeys (domainExpired s old) fun p => match p with
    | .domainKey => true
    | .flow _ e _ => e == old
    | _ => false
  let s2 := promoteKey s1
  { s2 with dom := { s2.dom with
      epoch := s2.dom.nextEpoch, nextEpoch := 0, changing := false, parts := [], switchAt := none, committed := false,
      grace := none, prepareAt := none, epochAt := s2.ns } }

/-- EPOCH_GRACE_END (R193 step 8, R192, R195): the anchor announces the epoch and opens the window of the triggers it held; a
member answers an EPOCH_PREPARE that it held. -/
def execEpochGraceEnd (s : State) : Host.Outcome State Fault Refusal :=
  done <| whenUp s fun s =>
    if s.dom.grace.any fun t => decide (t ≤ s.ns) then
      let s1 := endGrace s
      if s1.dom.role = 1 then
        let gone := s1.dom.triggers.filter (member s1)
        let s2 := anchorState (memberUpdate (gone.foldl dropMember s1) [] gone [] none)
        if s2.dom.triggers = [] then s2 else { s2 with dom.coalesceAt := some s2.ns }
      else
        match s1.dom.heldPrepare with
        | some (m, next) =>
          let s2 : State := { s1 with dom.heldPrepare := none }
          if next = s2.dom.epoch + 1 && m.sender = s2.dom.anchor then sendShare s2 m next else s2
        | none => s1
    else s

/-- ANCHOR_BEAT_TIMER (R184): every 10 ms to each deputy. -/
def execAnchorBeatTimer (s : State) : Host.Outcome State Fault Refusal :=
  done <| whenUp s fun s =>
    if s.dom.role = 1 && s.dom.beatSentAt + 10000000 ≤ s.ns then
      let s1 := (otherDeputies s).foldl (fun s d => sendDom s mAnchorBeat d 0 cOk []) s
      { s1 with dom.beatSentAt := s1.ns }
    else s

/-- ANCHOR_BEAT at a deputy (R196): its timing starts again. -/
def execAnchorBeat (m : DomHdr) (s : State) : Host.Outcome State Fault Refusal :=
  done <| whenUp s fun s => fromAnchor s mAnchorBeat m fun s =>
    { s with dom.beatAt := s.ns, dom.probes := [], dom.claimAt := none }

/-- ANCHOR_STATE at a deputy (R184, R197): the membership list with anchor and term, hosts, policy and pending epoch state are
replicated. -/
def execAnchorState (m : DomHdr) (members : List Member) (hosts : List HostRec) (policy : Policy)
    (view : AnchorView) (s : State) : Host.Outcome State Fault Refusal :=
  done <| whenUp s fun s => fromAnchor s mAnchorState m fun s =>
    let gone := (others s).filter fun u => !members.any fun x => x.unit == u
    let s1 := gone.foldl dropMember ((members.filter fun x => x.unit != unitId).foldl addPeer s)
    let ordered := members.filterMap fun x => s1.dom.members.find? fun y => y.unit == x.unit
    { s1 with
      dom.members := ordered
      dom.hosts := hosts
      dom.policy := if policyOk policy then some policy else s1.dom.policy
      dom.policyDigest := if policyOk policy then policyDigest policy else s1.dom.policyDigest
      dom.anchor := view.anchor
      dom.term := max s1.dom.term view.term
      dom.pending := view.pending }

/-- ANCHOR_PROBE at the anchor (R196): answered by ANCHOR_BEAT. -/
def execAnchorProbe (m : DomHdr) (s : State) : Host.Outcome State Fault Refusal :=
  done <| whenUp s fun s => anchorTake s mAnchorProbe m true fun s =>
    sendDom s mAnchorBeat m.sender m.txn cOk []

/-- A change that has not switched is given up (R194): slot 17, its flow keys and the key-switch cast go. -/
def abortChange (s : State) : State :=
  if s.dom.grace.isSome || !s.dom.changing then s
  else
    let next := s.dom.nextEpoch
    let s1 := dropKeys s fun p => match p with
      | .nextDomainKey => true
      | .flow _ e _ => e == next
      | _ => false
    cancelCasts { s1 with
      dom.changing := false, dom.nextEpoch := 0, dom.parts := [], dom.switchAt := none, dom.committed := false
      dom.heldPrepare := none, dom.prepareAt := none } fun c => c.kind == 2

/-- The deputies that a new anchor names (R196): members in order of join, without the old anchor and itself. -/
def newDeputies (s : State) (old : Nat) : List Nat :=
  ((s.dom.members.map (·.unit)).filter fun u => u != unitId && u != old).take
    ((s.dom.policy.map (·.deputies)).getD 2)

/-- Claim the anchor role (R196): term + 1, new deputies, the old anchor excluded, and a change of the domain epoch, at once
or after the grace of a switch that stands, when the old anchor leaves the list too (R194, R195). -/
def claimAnchor (s : State) : State :=
  let old := s.dom.anchor
  let deps := newDeputies s old
  let s1 := abortChange { s with
    dom.term := s.dom.term + 1, dom.anchor := unitId, dom.role := 1, dom.claimAt := none, dom.probes := []
    dom.beatSentAt := s.ns, dom.coalesceAt := none, dom.triggers := [] }
  let s2 := sendDom (domRecord s1 5 old cOk) mAnchorClaim toAll 0 cOk (le 4 s1.dom.term ++ deps.flatMap (le 8))
  let s3 : State := { s2 with dom.deputies := deps, dom.pending := none, dom.down := [] }
  if s3.dom.changing then anchorState (epochTrigger s3 old)
  else startChange (anchorState (memberUpdate (dropMember s3 old) [] [old] [] none))

/-- This unit's number among the deputies, from 1. -/
def deputyNo (s : State) : Nat := (s.dom.deputies.findIdx? (· == unitId)).getD 0 + 1

/-- A deputy finds the anchor lost (R196): deputy 1 claims, the others first wait for a lower one. -/
def anchorLost (s : State) : State :=
  if deputyNo s = 1 then claimAnchor s
  else if s.dom.claimAt.isSome then s
  else { s with dom.claimAt := some (s.ns + 200000000 * (deputyNo s - 1)) }

/-- ANCHOR_SILENCE (R196, R197): after 100 ms without a beat a deputy probes three times 10 ms apart, then finds the anchor
lost, at once where the fabric manager reports it. A member to which anchor and deputies are reported down has no anchor. -/
def execAnchorSilence (reported : Bool) (s : State) : Host.Outcome State Fault Refusal :=
  done <| whenUp s fun s =>
    if s.dom.role = 2 then
      if reported then anchorLost s
      else if s.ns < s.dom.beatAt + 100000000 then s
      else if s.dom.probes.any fun t => decide (s.ns < t + 10000000) then s
      else if 3 ≤ s.dom.probes.length then anchorLost s
      else sendDom { s with dom.probes := s.dom.probes ++ [s.ns] } mAnchorProbe s.dom.anchor 0 cOk []
    else if s.dom.role = 3 && reported then unitDown s s.dom.anchor
    else s

/-- CLAIM_WAIT_EXPIRE (R196): no lower deputy has claimed in this deputy's wait. -/
def execClaimWaitExpire (s : State) : Host.Outcome State Fault Refusal :=
  done <| whenUp s fun s =>
    if s.dom.role = 2 && s.dom.claimAt.any fun t => decide (t ≤ s.ns) then claimAnchor s else s

/-- An anchor that learns of a higher term stops acting as anchor (R197): slots 16 and 17 go; it is outside, to rejoin. -/
def termLost (s : State) : State := leaveDomain s

/-- ANCHOR_CLAIM at a member (R194, R196): from a listed deputy, with a higher term. The old anchor stays in the list until MEMBER_UPDATE removes
it, so that its messages are still answered DOMAIN_TERM_STALE (R197). -/
def execAnchorClaim (m : DomHdr) (term : Nat) (deputies : List Nat) (s : State) : Host.Outcome State Fault Refusal :=
  done <| whenUp s fun s => domTake s mAnchorClaim m true fun s =>
    if s.dom.deputies.contains m.sender && s.dom.term < term then
      if s.dom.role = 1 then termLost s
      else
        let s1 := abortChange { s with
          dom.term := term, dom.anchor := m.sender, dom.claimAt := none, dom.probes := [], dom.beatAt := s.ns
          dom.pending := none, dom.down := [] }
        let s2 : State := { s1 with dom.deputies := deputies }
        { s2 with dom.role := roleNow s2 }
    else domDiscard s

/-- DOMAIN_TERM_STALE (R197): the reply that an old anchor's message gets from a member of a higher term. -/
def execDomainTermStale (m : DomHdr) (s : State) : Host.Outcome State Fault Refusal :=
  done <| whenUp s fun s =>
    if !isMember s || !hdrOk m || m.domainId ≠ s.dom.domainId || !member s m.sender then domDiscard s
    else if s.dom.role = 1 && s.dom.term < m.term then termLost s
    else s

end Sys2Proof.Machine
end

