-- ==== Sys2Proof/Machine/Pools.lean ====
section
/-!
DEFINITION. Pools.lean: the pools of cipher cores and GHASH multipliers (R45 to R48), and a port's lanes (R227, R233).
-/
namespace Sys2Proof.Machine

/-- Fitted and needed members of a unit's pool (R45, R284, R321, R358, R519). Pools below 16 hold AES cores, the others GHASH
multipliers; a brass lane l has pools 2l for transmit and 2l + 1 for receive. The digest pool is the TCU's pool 0. -/
def poolSpec (unit pool : Nat) : Option (Nat × Nat) :=
  if unit < 18 then (if pool < 10 then some (28, 26) else if 16 ≤ pool ∧ pool < 26 then some (2, 2) else none)
  else if 0x20 ≤ unit ∧ unit < 0x24 then
    (if pool < 2 then some (112, 104) else if pool = 16 ∨ pool = 17 then some (8, 8) else none)
  else if unit = uHse then (if pool < 2 then some (128, 123) else if pool = 16 ∨ pool = 17 then some (9, 8) else none)
  else if unit = uCipher then
    (if pool = 0 then some (28, 26) else if pool < 5 then some (2, 1) else if pool = 16 then some (2, 1)
     else if 16 < pool ∧ pool < 21 then some (1, 1) else none)
  else if unit = uGate then (if pool = 0 then some (16, 7) else if pool = 16 then some (6, 5) else none)
  else if unit = uVault then (if pool = 0 then some (4, 1) else none)
  else if unit = uTcu then (if pool = 0 then some (18, 16) else none)
  else none

/-- A pool's map: every member that is fitted is good until it is mapped out (R46). -/
def poolAt (s : State) (unit pool : Nat) : Pool := tgetD s.pools (unit * 32 + pool) ⟨[], 0⟩
def poolFitted (unit pool : Nat) : Nat := ((poolSpec unit pool).map (·.1)).getD 0
def poolGood (s : State) (unit pool : Nat) : Nat := poolFitted unit pool - (poolOut s unit pool).length
def setPool (s : State) (unit pool : Nat) (p : Pool) : State := { s with pools := tset s.pools (unit * 32 + pool) p }

/-- A pool is at or above its needed count (R48). -/
def poolFit (s : State) (unit pool : Nat) : Bool :=
  decide (((poolSpec unit pool).map (·.2)).getD 0 ≤ poolGood s unit pool)

/-- A physical lane carries traffic: trained, and its pools fit (R48, R69, R227). -/
def laneUsable (s : State) (port lane : Nat) : Bool :=
  bit (tgetD s.cross.laneUp port 0) lane && poolFit s port (2 * lane) && poolFit s port (2 * lane + 1) &&
    poolFit s port (16 + 2 * lane) && poolFit s port (17 + 2 * lane)

/-- The physical lane that FAB_LANEMAP gives logical lane i; 4 is the spare (R69). -/
def laneOf (s : State) (port i : Nat) : Nat := (tgetD s.cross.laneMap port laneMapReset).toNat / 2 ^ (3 * i) % 8

/-- Logical lanes that FAB_LANEMAP puts on the spare (R227, R469). -/
def lentLanes (s : State) (port : Nat) : List Nat := (List.range 4).filter fun i => laneOf s port i == 4

/-- A port's lanes as they now are (R227, R470): a logical lane whose own lane is out takes the spare, unless another has it. A change of
active lanes in service is a capacity change (R409). -/
def refreshLanes (s : State) (port : Nat) : State :=
  let b := portAt s port
  let down := (List.range 4).filter fun i => !laneUsable s port (laneOf s port i) ||
    (List.range i).any fun j => laneOf s port j == laneOf s port i
  let spare := laneUsable s port (laneOf s port 4)
  let lent := (lentLanes s port).head?
  let active := 4 - down.length + (if spare && lent.isNone && down != [] then 1 else 0)
  let st : Nat × Nat :=
    if !laneUsable s port 4 then (3, 7)
    else match lent with
      | some i => (if spare then 2 else 1, i)
      | none => if down = [] then (0, 7) else (1, down.headD 7)
  let up := decide (0 < active) && s.crossOpen (32 + port)
  let s1 := setPort s port { b with up := up, activeLanes := active, spareState := st.1, spareFor := st.2 }
  if active ≠ b.activeLanes && s.boot.phase = 5 then capacity s1 2 port active else s1

/-- A pool member is mapped out (R47), S1; below the needed count the lane leaves service, or the engine has an S3 error
(R48). -/
def loseCore (s : State) (unit pool core : Nat) : State :=
  let p := poolAt s unit pool
  if poolFitted unit pool ≤ core || p.out.contains core then s
  else
    let s1 := setPool s unit pool { p with out := insertN p.out core }
    let lost : ErrIn := { unit := unit, cls := 1, cause := 47, whereAt := pool }
    if poolFit s1 unit pool then latch s1 lost
    else if unit < 18 then refreshLanes (latch s1 lost) unit
    else raiseAll s1 [lost, { unit := unit, cls := 3, cause := 48, whereAt := pool }]

/-- CORE_PARITY_MISPREDICT (R47): the core is mapped out, and its block is recomputed. -/
def execCoreParityMispredict (unit : Nat) (core : PoolCore) (s : State) : Host.Outcome State Fault Refusal :=
  done <| whenUp s fun s =>
    if core.core < poolFitted unit core.pool then loseCore (bumpUnit s unit 15 1) unit core.pool core.core else s

/-- The good member of a pool that is tested next (R47): mapped-out members are out of the rotation. -/
def nextTested (s : State) (unit pool : Nat) : Option Nat :=
  let p := poolAt s unit pool
  let n := poolFitted unit pool
  ((List.range n).map fun i => (p.rotation + i) % n).find? fun c => !p.out.contains c

/-- CORE_KAT_TEST (R47): the next good core of the pool is tested, one at a time. -/
def execCoreKatTest (unit pool : Nat) (pass : Bool) (s : State) : Host.Outcome State Fault Refusal :=
  done <| whenUp s fun s =>
    match nextTested s unit pool with
    | none => s
    | some c =>
      let s1 := setPool s unit pool { poolAt s unit pool with rotation := (c + 1) % poolFitted unit pool }
      if pass then s1 else loseCore s1 unit pool c

end Sys2Proof.Machine
end

