-- ==== Sys2Proof/Machine/EngineReset.lean ====
section
/-!
DEFINITION. EngineReset.lean: what a reset of one engine, of one slice's partition and of one neighbour does (chapter 2, R442,
R443).
-/
namespace Sys2Proof.Machine

/-- A RESET record (R506): kind 1 engine, 2 TCU, 3 partition, 4 chip warm, 5 save; the error that caused it. -/
def resetRec (s : State) (kind what cls : Nat) (rid : Option Nat) : State :=
  putRec s { mkRec s 0x0060 cls uTcu (le 1 kind ++ le 1 what ++ le 8 (2 ^ 64 - 1) ++ le 8 s.ns) with names := some (2, rid) }

/-- The open error that a reset answers, and its closing with the reset's action code (R17, R456). An S4 error stays open until its
chip warm reset. -/
def closeFor (s : State) (unit action : Nat) : State × Option Nat :=
  match tget s.err.banks unit with
  | some o => if o.cls ≤ 3 then (closeBank s unit action false, o.rid) else (s, none)
  | none => (s, none)

/-- Write one dirty node back during a reset (R300), past the port's limits. -/
def resetBack (s : State) (n : TreeNode) : Option State :=
  let q := n.region % 4
  let send (s : State) (ctr : Nat) : State :=
    poolWrite s q (regionSlice s n.region) (nodeOffset s n.region n.level n.index)
      (nodeBody n ++ nodeMac s n.region n.level n.index ctr (nodeBody n)) n.region none (some n)
  let clean (s : State) : State := putNode s { n with dirty := false }
  if !poolOpen s q then none
  else if n.level = 3 then
    let c := ((tgetD s.mem.roots n.region (0, 0)).1 + 1)
    some (send (clean { s with mem.roots := tset s.mem.roots n.region (c, ~~~c) }) c.toNat)
  else
    match nodeAt s n.region (n.level + 1) (if n.level = 2 then 0 else n.index / 64) with
    | none => none
    | some par =>
      let r := bumpChild (clean s) par (n.index % 64)
      some (send r.1 r.2)

/-- Write back the dirty nodes of a port that a selection names, lower levels first (R300). -/
def flushNodes (s : State) (q : Nat) (sel : TreeNode → Bool) : State :=
  [1, 2, 3].foldl (fun s level =>
    ((pewAt s q).cache.filter fun n => n.dirty && n.level == level && sel n).foldl (fun s n => (resetBack s n).getD s) s) s

/-- Regions of a port with a dirty node not written back or not counted, or an overflow not ended (R300). -/
def unflushed (s : State) (q : Nat) : List Nat :=
  let p := pewAt s q
  ((p.cache.filter (·.dirty)).map (·.region) ++ p.returned.map (·.region) ++ p.respans.map (·.region) ++
    (p.writes.filter fun w => w.node.isSome && !w.dead).map (·.region)).foldl insertN []

/-- A pewter engine's reset after its write-back (R300, R442): a region whose nodes are not all counted is lost, a granule whose write is
not is poisoned (R66), items in flight complete EXECUTOR_RESET, and rotations survive. -/
def resetPewter (s : State) (q : Nat) : State :=
  let s1 := (unflushed s q).foldl (fun s r => loseRegion s r 0) s
  let s2 := (pewAt s1 q).writes.foldl (fun s w => match w.granule, w.dead with
    | some g, false => notice (pewOwn s w.region g .mark) 1 278 (uPewter q) (granuleWhere w.region g)
    | _, _ => s) s1
  let p := pewAt s2 q
  let keep (j : PewJob) : Bool := j.src == .system && j.op != .sweep
  let s3 := setPew s2 q { p with
    cache := [], reads := [], again := [], writes := [], returned := [], closing := none, respans := [], bucket := []
    jobs := (p.jobs.filter fun j => keep j.2).map fun j => (j.1, { j.2 with slot := none }) }
  remoteSettle (pewPump ((p.jobs.filter fun j => !keep j.2).foldl (fun s j => pewAnswer s j.2 cExecutorReset []) s3) q)

/-- Sealed frames leave a port's egress unsent; they stay outstanding and are retransmitted (R66, R226). Frames that pass through are gone. -/
def dropEgress (s : State) (p : Nat) : State :=
  let b := portAt s p
  let drop (s : State) (x : Nat × Nat) : State := { s with
    link.flows := tmod s.link.flows x.1 fun f => { f with
      outstanding := tmod f.outstanding x.2 fun o => if o.firstAt.isSome then o else
        { o with firstAt := some s.ns, lastAt := s.ns } } }
  b.egress.foldl drop (setPort s p { b with egress := [], pass := [], clear := [] })

/-- A brass engine's reset with its alloy (R226, R233, R258). -/
def resetBrass (s : State) (p : Nat) : State :=
  let s1 := dropEgress (clearAlloy s p) p
  let b := portAt s1 p
  let a := alloyAt s1 p
  let s2 := setPort s1 p { b with keyCache := [], misses := [], pass := [], tagFail := 0, drops := 0, bucket := [] }
  refreshLanes (setAlloy s2 p { a with nanOut := 0, satOut := 0, unmatched := 0, busyDrop := 0, lastFail := (0, 0, 0) }) p

/-- The host seal engine's reset (R322, R324): records in progress EXECUTOR_RESET, descriptors not started wait. -/
def resetHost (s : State) : State :=
  let s1 := (hostPieces s).foldl (fun s p => if p.2 then retirePiece s p.1 cExecutorReset 0 else s) s
  settle { s1 with
    host.tagFail := 0, host.otherFail := 0, host.lastReason := 0, host.lastSlice := 0, host.lastCtx := 0
    host.bucketBytes := [], host.bucketRecords := [] }

/-- The gate's reset (R357, R361): raw descriptors in progress complete EXECUTOR_RESET; a piece still SEALED is lost, and its
CHECK fails when it comes, or at once where the gate holds it; dispatched pieces have retired, or retire now (log 26), and the host
list is empty. -/
def resetGate (s : State) : State :=
  let lost := s.gate.seals.filter fun l => !l.2.dispatched && l.2.port.isNone
  let held := s.gate.seals.filter fun l => !l.2.dispatched && l.2.port.isSome
  let faulted : Hold → Bool
    | .fault _ _ _ => true
    | _ => false
  let raw := s.gate.descs.filter fun d => decide (d.2.nextElem < d.2.total) && !faulted d.2.hold
  let s1 := lost.foldl (fun s l => releaseSlot { s with
    gate.lostSeals := s.gate.lostSeals ++ [(l.2.serial.toNat, l.2.did)] } l.1) s
  let s2 := held.foldl (fun s l => retirePiece (failHeld s l.2 cExecutorReset) l.1 cExecutorReset 0) s1
  let left := s2.gate.seals.filter fun l => l.2.dispatched
  let s2 := left.foldl (fun s l => retirePiece s l.1 cExecutorReset 0) s2
  let s3 := raw.foldl (fun s d => if d.2.piece = 0 then refuse s d.1 cExecutorReset 0 0 else endDesc s d.1 cExecutorReset 0 0) s2
  settle { s3 with
    gate.failFlag := false, gate.dropUnbound := 0, gate.reseal := 0, gate.devCache := [], gate.hostCache := []
    gate.sealLevel := [], gate.hostList := [], gate.order := [], gate.cutSeals := []
    gate.descs := s3.gate.descs.map fun d => (d.1, { d.2 with reseal := none }) }

/-- The arbiter's reset (R412, R413, R441): the running piece is cut as by ARR_CUT, and the piece whose cut the array has not answered
within 1 ms completes EXECUTOR_RESET, with a record for each step of that recovery; spans are padding until the first period boundary
after ARRAY_CLEAN rises. -/
def resetArbiter (s : State) : State :=
  let stuck := !s.cross.arrayClean && s.arb.cutAt.any fun t => decide (t + 1000000 ≤ s.ns)
  let s1 := arrayLeaves (if stuck then arrayNote (arrayNote (arrayNote s 1) 2) 3 else s)
  let s2 : State := { s1 with
    arb.paused := true, arb.resumeAt := if s.cross.arrayClean then nextPeriod s else 0
    arb.overruns := 0, arb.spills := 0, arb.deferred := 0, arb.refused := 0
    arb.cutAt := none, arb.cutSlot := none, arb.lateClean := false
    err.arbResetAt := some s.ns }
  match s.arb.cutSlot, stuck with
  | some k, true => retire s2 k cExecutorReset 0
  | _, _ => s2

/-- The cipher service's reset (R67, R135, R139): every job EXECUTOR_RESET, the destinations of those that ran undefined, the store and open messages cleared; bindings and
attachments stay. -/
def resetCipher (s : State) : State :=
  let s0 := (s.cipher.channels.map (·.2)).foldl cutJob s
  let s1 := s.cipher.channels.foldl (fun s c => c.2.queue.foldl (fun s j => chanComplete s c.1 j cExecutorReset [] 0) s) s0
  { s1 with
    cipher.store := [], cipher.bucket := []
    cipher.channels := s1.cipher.channels.map fun c => (c.1, { chanBlank c.1 with
      allocated := c.2.allocated, slice := c.2.slice, ctx := c.2.ctx, gen := c.2.gen, key := c.2.key, keyRef := c.2.keyRef }) }

/-- The public-key engine's reset (R146, R150): requests waiting and their ephemeral keys are gone. -/
def resetPk (s : State) : State :=
  { s with cipher.selfFail := false, cipher.pkQueue := [], cipher.pkDone := 0, cipher.agreed := [] }

/-- Step 3 and 4 of R442 for a unit. -/
def clearEngine (s : State) (unit : Nat) : State :=
  if unit < 18 then resetBrass s unit
  else if 0x20 ≤ unit ∧ unit < 0x24 then resetPewter s (unit - 0x20)
  else if unit = uHse then resetHost s
  else if unit = uGate then resetGate s
  else if unit = uArb then resetArbiter s
  else if unit = uCipher then resetCipher s
  else if unit = uPk then resetPk s
  else if unit = uVault then (if s.dom.role = 4 then retryJoin (vaultReset s) else vaultReset s)
  else s

/-- The verdict of an assay (R46, R48): the failed members of each pool, and the failed lanes of an alloy (pool 31). A shortfall
that it confirms is a capacity change. -/
def assayPool (unit : Nat) (s : State) (a : Nat × List Nat) : State :=
  if a.1 = 31 then
    if unit < 18 then
      let y := alloyAt s unit
      let out := (List.range 256).filter a.2.contains
      let s1 := setAlloy s unit { y with lanesGood := 256 - out.length, lanesOut := out }
      if 256 - out.length < 196 then capacity s1 1 unit (256 - out.length) else s1
    else s
  else
    match poolSpec unit a.1 with
    | none => s
    | some (n, _) =>
      let s1 := setPool s unit a.1 { poolAt s unit a.1 with out := (List.range n).filter a.2.contains }
      if poolFit s1 unit a.1 || unit < 18 then s1 else capacity s1 1 unit (poolGood s1 unit a.1)

/-- Casts staged at an engine are staged again when it returns (R429). -/
def restage (s : State) (unit : Nat) : State :=
  let hit := s.casts.table.filter fun c => !c.2.resting && c.2.targets.contains unit
  hit.foldl (fun s c => castStageAt s c.1 unit) { s with
    casts.table := s.casts.table.map fun c => if c.2.resting then c else (c.1, { c.2 with acked := eraseN c.2.acked unit }) }

/-- A link of the internal network carries messages again after its engine's reset (R39). -/
def relink (s : State) (unit : Nat) : State :=
  { s with net := tmod s.net unit fun n => { n with
    failed := false, down := { n.down with sent := [] }, up := { n.up with sent := [] } } }

/-- The unit that holds a key register: its leaf, the gate, or the cipher service. -/
def regUnit (s : State) (r : KeyReg) : Option Nat :=
  (keyLeaf s r.path).or (if r.engine = 3 then some uGate else if 4 ≤ r.engine then some uCipher else none)

/-- The vault delivers an engine's keys again after its reset (R442 step 4): fresh shares of the same keys. Without a random source it
makes none (R88): the engine is left without them. -/
def redeliver (s : State) (unit : Nat) : State :=
  let there (r : KeyReg) : Bool := regUnit s r == some unit || r.leaves.contains unit
  if !s.vault.entropyOk then
    { s with vault.regs := (s.vault.regs.filter fun r => !there r || r.leaves.any (· != unit)).map fun r =>
        { r with leaves := eraseN r.leaves unit } }
  else
    (s.vault.regs.filter there).foldl (fun s r =>
      keySend (modReg s.drew r.path fun x => { x with active := Shares.of x.active.value (s.drawn 512) })
        (if r.leaves.contains unit then [unit] else []) (Shares.of r.active.value (s.drawn 512))) s

/-- An engine reset (R442), all of its steps; the neighbour flushes within it (log 27). -/
def engineReset (s : State) (unit : Nat) (pools : List (Nat × List Nat)) : State :=
  let s1 := clearEngine s unit
  let s2 := pools.foldl (assayPool unit) s1
  let s3 := relink (restage (if unit < 18 then refreshLanes s2 unit
    else if 0x20 ≤ unit ∧ unit < 0x24 then assayAgain s2 (unit - 0x20) else s2) unit) unit
  let r := closeFor { (bumpUnit (redeliver s3 unit) unit 13 1) with
    lc.challenge := none, lc.challengeBytes := []
    err.engineResets := s3.err.engineResets + 1, err.lastAction := 2
    err.requested := s3.err.requested.filter (· != (1, unit)) } unit 2
  resetRec r.1 1 unit 0 r.2

/-- The slice's parts of every table, cache and bucket are cleared (R443 step 4); its dirty node lines are written back. -/
def clearParts (s : State) (n : Nat) : State :=
  let mine (x : TreeNode) : Bool := regionSlice s x.region == n
  let s1 := (List.range 4).foldl (fun s q =>
    let s1 := flushNodes s q mine
    let p := pewAt s1 q
    setPew s1 q { p with
      cache := p.cache.filter fun x => !(mine x && !x.dirty && !lineHeld p 0 x)
      bucket := tdel (tdel p.bucket (2 * n)) (2 * n + 1) }) s
  let ports := s1.link.ports.map fun b => (b.1, { b.2 with
    keyCache := b.2.keyCache.filter fun e => e.1 != n, misses := b.2.misses.filter fun m => m.who != n
    bucket := tdel b.2.bucket n })
  { s1 with
    link.ports := ports
    gate.devCache := s1.gate.devCache.filter fun e => e.2.2 != n
    gate.hostCache := s1.gate.hostCache.filter fun e => e.slice != n
    gate.sealLevel := tdel s1.gate.sealLevel n
    cipher.bucket := tdel s1.cipher.bucket n
    host.bucketBytes := tdel (tdel s1.host.bucketBytes (2 * n)) (2 * n + 1)
    host.bucketRecords := tdel (tdel s1.host.bucketRecords (2 * n)) (2 * n + 1)
    watch.digestLevel := tdel s1.watch.digestLevel n
    arb.lastCtx := tdel s1.arb.lastCtx n
    arb.ownTiles := tdel s1.arb.ownTiles n }

/-- The slice's cipher work is cut: queues emptied, open messages discarded, channels kept, and what a running job was to write is
undefined (R443 steps 2 to 4). -/
def cutCipher (s : State) (n : Nat) : State :=
  let s1 := ((s.cipher.channels.filter fun c => c.2.slice == n).map (·.2)).foldl cutJob s
  { s1 with cipher.channels := s1.cipher.channels.map fun c =>
      if c.2.slice = n then (c.1, { c.2 with queue := [], message := none, loaded := none, refusal := none, left := 0 }) else c }

/-- Remote operations in work on a slice's windows are acknowledged TARGET_RESET (R443 step 1). -/
def cutRemote (s : State) (n : Nat) : State :=
  remoteSettle { s with link.inbound := s.link.inbound.map fun o =>
    if o.2.slice = n then (o.1, { o.2 with left := [], code := if o.2.code = cOk then cTargetReset else o.2.code }) else o }

/-- Tier-B requests of a slice's engines are cut (R443 steps 2 and 3). -/
def cutJobs (s : State) (n : Nat) : State :=
  (List.range 4).foldl (fun s q =>
    let p := pewAt s q
    let hit (j : PewJob) : Bool := j.src == .engine && j.r.slice == n
    (p.jobs.filter fun j => hit j.2).foldl (fun s j => pewAnswer s j.2 cAbortedReset [])
      (setPew s q { p with jobs := p.jobs.filter fun j => !hit j.2 })) s

/-- A partition reset (R443), all of its steps. -/
def partitionReset (s : State) (n : Nat) : State :=
  let s1 := cutRemote s n
  let s2 := cutArray (failSteps s1 (fun _ t => t.slice == n) cAbortedReset) fun l => l.slice == n
  let s3 := cutJobs (cutCipher s2 n) n
  let s4 := cutDescs s3 (fun d => d.slice == n) cAbortedReset true
  let s5 := abandonFrames s4 fun r => r.slice == n
  let s6 : State := { s5 with
    link.fences := s5.link.fences.filter fun f => (ctxAt s5 f.ctx).slice != n
    link.fenceWaits := s5.link.fenceWaits.filter fun f => (ctxAt s5 f.1).slice != n
    link.queueFail := s5.link.queueFail.filter fun f => (ctxAt s5 (f.1 / 64)).slice != n }
  let s7 := clearParts (settle s6) n
  let mine := s7.err.banks.filter fun b => b.2.cls == 3 && b.2.scope == .partition n
  let rid := (mine.head?).bind (·.2.rid)
  let s8 := mine.foldl (fun s b => closeBank s b.1 3 false) s7
  resetRec { s8 with
    lc.challenge := none, lc.challengeBytes := []
    err.partitionResets := s8.err.partitionResets + 1, err.lastAction := 3
    err.requested := s8.err.requested.filter (· != (2, n)) } 3 n 0 rid

/-- The number of a port group's level (R60, R68), and the groups' sizes. -/
def groupCode : Group → Nat
  | .fab => 1
  | .pool => 2
  | .stk => 3
  | .hse => 4
  | .cpq => 5
  | .arr => 6
  | .mgt => 7
def groupSize : Group → Nat
  | .fab => 18
  | .pool => 4
  | .stk => 16
  | .hse => 1
  | .cpq => 8
  | .arr => 1
  | .mgt => 1
def groupLevel (g : Group) (i : Nat) : Nat := 32 * groupCode g + i

/-- The VTC unit that meets a port group (R65). -/
def groupUnit (g : Group) (i : Nat) : Nat :=
  match g with
  | .fab => i
  | .pool => 0x20 + i
  | .stk => 0x40 + i
  | .hse => uHse
  | .cpq => uGate
  | .arr => uArb
  | .mgt => uTcu

/-- A fabric port controller or PHY in reset (R66, R69, R258): its lane map and its lane levels are at their reset values. -/
def fabDown (s : State) (p : Nat) : State :=
  let s1 := failSteps (dropEgress s p) (fun q _ => q == p) cExecutorReset
  let s2 : State := { s1 with
    cross.laneUp := tset s1.cross.laneUp p 0, cross.laneMap := tset s1.cross.laneMap p laneMapReset }
  notice (refreshLanes s2 p) 0 66 p 0

/-- A pool port controller in reset (R66): reads TARGET_RESET, writes not acknowledged leave their granule indeterminate. -/
def poolDown (s : State) (q : Nat) : State :=
  remoteSettle (pewPump (notice (crossReset s q) 1 66 (uPewter q) 0) q)

/-- A stack controller in reset (R66): its contents are lost and scrubbed, and every context that owns a page there is killed;
every page lies on all 16 stacks (R297). -/
def stackDown (s : State) (k : Nat) : State :=
  let owners := (s.gate.pages.filter fun p => p.2.kind == 1 && p.2.owner != 0).foldl (fun l p => insertN l p.2.owner) []
  let members := (s.gate.pages.filter fun p => p.2.kind == 2).flatMap fun p =>
    (tgetD s.gate.groups p.2.owner []).map (·.1)
  let s1 : State := { s with tierA := s.tierA.filter fun c => Config.stackOf c.1 % 16 != k }
  let s2 := (members.foldl insertN owners).foldl (fun s c => raiseS2 s (uStack k) 66 k c 4) s1
  let system := (List.range (setting s 0x5300 2)).filter fun p => (pageOwner s2 p).kind == 3
  system.foldl revokePage (s2.gate.pages.foldl (fun s p => if p.2.kind = 3 && !system.contains p.1 then revokePage s p.1 else s) s2)

/-- A mailbox page's registers after a PCIe reset (R315); its ring and areas stay as they are. -/
def MbxPage.pciReset (m : MbxPage) : MbxPage :=
  { MbxPage.reset with ring := m.ring, command := m.command, response := m.response, nextSeq := m.nextSeq }

/-- The PCIe controller in reset (R66): the SPDM session ends, ATS and PRI waits complete TARGET_RESET, cached host
translations are dropped, and the mailbox registers and vector masks return to reset (R315), after which the session's end is posted. -/
def hostDown (s : State) : State :=
  let waits : Hold → Bool
    | .ats _ _ => true
    | .prg _ => true
    | _ => false
  let s0 : State := { s with host.masked := HostSeal.reset.masked, mbx := s.mbx.map fun p => (p.1, p.2.pciReset) }
  let s1 := endSpdm s0 cTargetReset (some cTargetReset)
  let s2 := (s1.gate.descs.filter fun d => waits d.2.hold).foldl (fun s d => endDesc s d.1 cTargetReset 0 0) s1
  let s3 := settle s2
  notice { s3 with gate.hostCache := [] } 1 66 uHse 0

/-- A command processor in reset (R66): what the gate accepted from it and has not started completes EXECUTOR_RESET, as does
what the processor itself was executing (R67). -/
def cpDown (s : State) (c : Nat) : State :=
  let from_ (l : LiveSeal) : Bool := ((tget s.gate.descs l.did).map (·.cp)) == some c || l.port == some c
  let pieces := s.gate.seals.filter fun l => from_ l.2 && (!started s l.1 l.2 || execOf l.2.raw == 0)
  let raw := s.gate.descs.filter fun d => d.2.cp == c && decide (d.2.nextElem < d.2.total) &&
    !s.gate.seals.any fun l => l.2.did == d.1 && started s l.1 l.2
  let s1 := pieces.foldl (fun s l => retirePiece s l.1 cExecutorReset 0) s
  let s2 := raw.foldl (fun s d => endDesc s d.1 cExecutorReset 0 0) s1
  settle { s2 with gate.order := tdel s2.gate.order c }

/-- The compute array in reset (R66): the running operation is cut; nothing is admitted until ARRAY_CLEAN. -/
def arrayDown (s : State) : State :=
  let running := s.arb.runSlot
  let s1 : State := { s with arb.runSlot := none, arb.resident := none, arb.cutAt := none, cross.arrayClean := false }
  let s2 := match running with
    | some k => retire s1 k cExecutorReset 0
    | none => s1
  notice s2 0 66 uArb 0

/-- Every open transfer is abandoned (R66, R444, R531). -/
def abandonTransfers (s : State) : State :=
  { s with dict.transfers := [], dict.abandoned := s.dict.abandoned + s.dict.transfers.length, dict.answering := [] }

/-- What a neighbour's reset settles (R66); MGT_BUSOFF is low in reset (R78). -/
def neighbourDown (s : State) (g : Group) (i : Nat) : State :=
  match g with
  | .fab => fabDown s i
  | .pool => poolDown s i
  | .stk => stackDown s i
  | .hse => hostDown s
  | .cpq => cpDown s i
  | .arr => arrayDown s
  | .mgt => abandonTransfers { s with cross.busOff := false }

/-- What resumes when a neighbour's reset ends (R60, R66). -/
def neighbourUp (s : State) (g : Group) (i : Nat) : State :=
  match g with
  | .fab => linkPump (refreshLanes s i)
  | .pool => remoteSettle (pewPump s i)
  | .hse => s.host.msixPending.foldl (fun s v =>
      if s.host.masked.contains v then s
      else msix { s with host.msixPending := eraseN s.host.msixPending v } v) s
  | _ => s

end Sys2Proof.Machine
end

