-- ==== Sys2Proof/Machine/BootOps.lean ====
section
/-!
DEFINITION. BootOps.lean: images and the version counter (R462 to R466), the start record (R467), the unit map (R473, R474),
and what a reset of the VTC logic leaves (R445 step 4).
-/
namespace Sys2Proof.Machine

/-- An image as its bytes spell it (R462). -/
def parseImage (b : Bytes) : Image :=
  let at_ (off n : Nat) : Bytes := fit n (b.drop off)
  let len := fld b 16 4
  { format := fld b 0 2, kind := fld b 2 1, version := fld b 4 4, build := fld b 8 8, bodyLen := len
    reserved := fld b 3 1 + fld b 20 4 + fld b 72 56 + fld b 7540 12
    bodyDigest := BitVec.ofNat 384 (beNat (at_ 24 48)), signerKey := BitVec.ofNat 21512 (beNat (at_ 128 2689))
    signature := ⟨BitVec.ofNat 768 (beNat (at_ 2817 96)), BitVec.ofNat 37016 (beNat (at_ 2913 4627))⟩
    body := (b.drop 7552).take len, tail := (b.drop 7552).drop len }

/-- One bit and one byte of the CRC-64 of ECMA-182 (R471): the polynomial of the manual, most significant bit first, from 0 and with no
final inversion. PRESUMED (log 71). -/
def crcBit (c : BitVec 64) : BitVec 64 := if c.msb then (c <<< 1) ^^^ 0x42F0E1EBA9EA3693#64 else c <<< 1
def crcByte (c : BitVec 64) (b : BitVec 8) : BitVec 64 :=
  let c1 := crcBit (crcBit (crcBit (crcBit (c ^^^ (b.setWidth 64 <<< 56)))))
  crcBit (crcBit (crcBit (crcBit c1)))
def crc64 (b : Bytes) : BitVec 64 := b.foldl crcByte 0

/-- BODY_LEN is in range for the image's kind, and a TCU image fits its area with nothing but zero after its body (R462,
R463 check 1). -/
def imageForm (i : Image) : Bool :=
  i.format == 0x30 && i.reserved == 0 && i.body.length == i.bodyLen && decide (1 ≤ i.bodyLen) &&
    (if i.kind = 2 then decide (i.bodyLen ≤ 268435456)
     else decide (i.bodyLen ≤ 2089600) && i.tail.all fun b => b == 0)

/-- The version counter, where both copies agree with their complements (R466). -/
def versionNow (s : State) : Option Nat :=
  if s.boot.versionAInv = ~~~s.boot.versionA ∧ s.boot.versionBInv = ~~~s.boot.versionB then
    some (max s.boot.versionA.toNat s.boot.versionB.toNat)
  else none

/-- Set both copies of the counter. -/
def setVersion (s : State) (v : BitVec 32) : State :=
  { s with boot.versionA := v, boot.versionAInv := ~~~v, boot.versionB := v, boot.versionBInv := ~~~v }

/-- Settle the counter at a start, as R153 settles the life-cycle record (R466). -/
def settleVersion (s : State) : State :=
  let a := s.boot.versionA
  let b := s.boot.versionB
  let okA := s.boot.versionAInv == ~~~a
  let okB := s.boot.versionBInv == ~~~b
  if okA && okB then
    if a = b then s else notice (setVersion s (if a.toNat < b.toNat then b else a)) 1 466 uTcu 0
  else if okA then notice (setVersion s a) 1 466 uTcu 0
  else if okB then notice (setVersion s b) 1 466 uTcu 0
  else record s 1 4 uTcu (errDetail 466 uTcu 0 [])

/-- Raise the counter to the running image's VERSION; it never falls (R466). -/
def raiseVersion (s : State) : State :=
  match s.boot.running, versionNow s with
  | some i, some v => if v < i.version then setVersion s (BitVec.ofNat 32 i.version) else s
  | _, _ => s

/-- The reason of the first check of R463 that an image fails, 0 where all pass; `kind` suits the path that presents it. -/
def imageCheck (s : State) (i : Image) (kind : Nat) : Nat :=
  let newEnough := if kind = 2 then decide (setting s 0x2010 4 ≤ i.version)
    else (versionNow s).any fun v => decide (v ≤ i.version)
  if !imageForm i then 1
  else if i.kind ≠ kind then 6
  else if keyDigest i.signerKey ≠ keyDigest Config.firmwareKey then 2
  else if !newEnough then 3
  else if Config.sha384 i.body ≠ i.bodyDigest then 4
  else if !hybOk i.signerKey (imageMsg i) i.signature then 5
  else 0

/-- The IMAGE record of a check (R506). -/
def imageRecord (s : State) (i : Image) (reason : Nat) : State :=
  record s 0x0013 7 uTcu (le 1 i.kind ++ le 1 reason ++ le 4 i.version ++ le 8 i.build ++
    (be 48 i.bodyDigest.toNat).take 32)

/-- Die of a logical core, and of a physical core (R473). -/
def dieOf (logical : Nat) : Nat := logical / 2048
def dieOfPhys (core : Nat) : Nat := core / 2304

/-- Bytes of the unit map (R474). -/
def mapBytes (gen role inService : Nat) (entries : Table Nat) : Bytes :=
  le 4 gen ++ le 4 role ++ le 2 inService ++ le 2 0 ++ le 4 0 ++
    (List.range 4096).flatMap fun i => le 2 ((tget entries i).getD 0x8000)

/-- The digest of the applied map (R474). -/
def mapDigest (s : State) : Dig384 :=
  Config.sha384 (mapBytes s.boot.mapGen.toNat s.boot.mapRole.toNat (coresInService s) s.boot.mapEntries)

/-- The MAP record of an applied map (R474, R506). -/
def mapRecord (s : State) : State :=
  record s 0x0012 7 uTcu (le 4 s.boot.mapGen.toNat ++ le 2 (coresInService s) ++ le 4 s.boot.mapRole.toNat ++
    (be 48 (mapDigest s).toNat).take 32)

/-- Good physical cores of a die, in ascending order. -/
def goodCores (failed : List Nat) (die : Nat) : List Nat :=
  ((List.range 2304).map fun i => 2304 * die + i).filter fun c => !failed.contains c

/-- Build the unit map of a cold start (R473): generation 1, in ascending order on each die. -/
def buildMap (s : State) (failed : List Nat) : State :=
  let g0 := goodCores failed 0
  let g1 := goodCores failed 1
  let lo := (List.range 2048).zip g0
  let hi := ((List.range 2048).map (2048 + ·)).zip g1
  mapRecord { s with
    boot.mapGen := 1, boot.mapRole := BitVec.allOnes 32, boot.mapEntries := lo ++ hi
    boot.vacant := ((List.range 2048).drop g0.length) ++ ((List.range 2048).map (2048 + ·)).drop g1.length
    boot.spares := g0.drop 2048 ++ g1.drop 2048, boot.failedCores := failed }

/-- The map of good units of the start record (R46, R467): the failed members by pool, and the failed lanes of each alloy as
pool 31. -/
def poolMap (s : State) : List (Nat × List Nat) :=
  (s.pools.map fun p => (p.1, p.2.out)) ++ s.alloys.map fun a => (a.1 * 32 + 31, a.2.lanesOut)

/-- Members of every fitted pool in unit-index order, the lanes of an alloy as pool 31 of its unit (R438, R467). -/
def fittedPools : List (Nat × Nat) :=
  (List.range 0x40).flatMap fun u => (List.range 32).filterMap fun p =>
    if p = 31 then (if u < 18 then some (u * 32 + 31, 256) else none) else (poolSpec u p).map fun x => (u * 32 + p, x.1)

/-- The pool map of the start record (R467): one bit for each fitted member, 1 where it is good. -/
def poolBytes (pools : List (Nat × List Nat)) : Bytes :=
  let l := fittedPools.flatMap fun x => (List.range x.2).map fun i => !(tgetD pools x.1 []).contains i
  le ((l.length + 7) / 8) (packBits l)

/-- Bytes of a list of words. -/
def wordBytes (l : List (BitVec 32)) : Bytes := l.flatMap fun w => le 4 w.toNat

/-- The body of the start record (R467): pool map, unit map, training settings. -/
def startBody (r : StartRec) : Bytes := poolBytes r.pools ++ mapBytes r.mapGen r.mapRole r.inService r.map ++ wordBytes r.training

/-- Bytes 0 to 95 of the start record, the AAD of its seal (R467). -/
def startHead (r : StartRec) : Bytes :=
  le 2 0x40 ++ le 2 0 ++ le 4 r.seq ++ le 8 r.sessionId.toNat ++ be 48 r.fwDigest.toNat ++ le 4 r.mapGen ++
    le 4 (poolBytes r.pools).length ++ le 4 8208 ++ le 4 (4 * r.training.length) ++ be 12 r.iv.toNat ++ le 4 0

/-- The copy of the start record in force: the one with the higher SEQ whose tag verifies under storage key 0x02, and its place
(R467). -/
def startBest (s : State) : Option (Nat × StartRec) :=
  match key256 s (.store 2) with
  | none => none
  | some k =>
    (s.boot.startRecs.filter fun r => (gcmOpen k r.2.iv (startHead r.2) r.2.body r.2.tag).isSome).foldl
      (fun b r => match b with
        | some x => if x.2.seq < r.2.seq then some r else b
        | none => some r) none

/-- The start record in force. -/
def startNow (s : State) : Option StartRec := (startBest s).map (·.2)

/-- Write the start record with the map and the training settings in force, in the other copy, sealed with a random IV (R467, R468).
A write that fails leaves the copy in force and is S1. -/
def writeStart (s : State) (training : List (BitVec 32)) : State :=
  match wrapRefused s (.store 2), key256 s (.store 2) with
  | some _, _ => notice s 1 467 uTcu 0
  | none, none => notice s 1 467 uTcu 0
  | none, some k =>
    let best := startBest s
    let r0 : StartRec :=
      { seq := ((best.map (·.2.seq)).getD 0) + 1, sessionId := s.pow.sessionId, fwDigest := imageDigest s.boot.running
        mapGen := s.boot.mapGen.toNat, pools := poolMap s, mapRole := s.boot.mapRole.toNat, inService := coresInService s
        map := s.boot.mapEntries, training := training, iv := s.drawn 96, body := [], tag := 0 }
    let c := gcmSeal k r0.iv (startHead r0) (startBody r0)
    { (spendKey s.drew (.store 2) 1 0) with
      boot.startRecs := tset s.boot.startRecs (1 - (best.map (·.1)).getD 1) { r0 with body := c.1, tag := c.2 } }

/-- Training settings of the record in force. -/
def trainingNow (s : State) : List (BitVec 32) := ((startNow s).map (·.training)).getD []

/-- What a reset of the VTC logic on the IOD and CDIE rails leaves (R265, R445 step 4, R497): keys, contexts, flows and work
are gone, every context generation advances by 1, and registers return to reset. Session counts, the always-on island and
NVM stay. -/
def logicReset (s : State) : State :=
  let s1 := dropWork (zeroiseKeys (dropCasts s)) 1
  { s1 with
    pow.ready := false, pow.readmitted := false, pow.saving := false, pow.pendingChip := none, pow.rootFail := false
    pow.tcuDown := false
    cross.late := false, cross.vflush := s1.cross.nrst, cross.cc := [], cross.bf := [], cross.held := [], cross.resets := [], cross.vrstAt := [], cross.arrayClean := false
    pools := [], net := [], mbx := s1.mbx.map fun p => (p.1, { p.2 with busy := false, held := none })
    err := { s1.err with arm5 := false, arm50 := false, armMgmt := false, startBeat := false, limits := []
                         requested := [], arbResetAt := none, hbTcu := 0, hubQueue := 0, hubHeld := 0, hbMgmt := 0 }
    lbx := { s1.lbx with dropFlag := false, dropped := 0, cursor := 0, cursorLo := 0, nextHi := 0, auto := false, verifyResult := 0
                         verifyState := 0, verifySeq := 0, dictCursor := 0 }
    cnt := { Counters.reset with stat := s1.cnt.stat, freezeSeq := s1.cnt.freezeSeq }
    watch := { Watches.reset with closed := s1.watch.closed, dumps := s1.watch.dumps }
    dict := { s1.dict with shadow := [], transfers := [], abandoned := s1.dict.abandoned + s1.dict.transfers.length
                           statusSeq := 0, answering := [] }
    host := { HostSeal.reset with recIn := s1.host.recIn, recOut := s1.host.recOut, rejectTag := s1.host.rejectTag
                                  rejectOther := s1.host.rejectOther, keyUpdates := s1.host.keyUpdates
                                  masked := s1.host.masked, msixPending := s1.host.msixPending }
    gate := { Gate.reset with scrubs := s1.gate.scrubs, sealCount := s1.gate.sealCount, wrapCount := s1.gate.wrapCount, nextDid := s1.gate.nextDid
                              failCount := s1.gate.failCount, piecesSealed := s1.gate.piecesSealed
                              splits := s1.gate.splits, faultsHeld := s1.gate.faultsHeld
                              checkFail := s1.gate.checkFail, pageRequests := s1.gate.pageRequests
                              allocs := s1.gate.allocs }
    vault := { Vault.reset with helperA := s1.vault.helperA, helperB := s1.vault.helperB
                                highWater := s1.vault.highWater, annealMissed := s1.vault.annealMissed
                                mismatchCount := s1.vault.mismatchCount, derivations := s1.vault.derivations
                                missedCycles := s1.vault.missedCycles
                                sliceGen := genNextAll s1.vault.sliceGen 32, digestGen := genNextAll s1.vault.digestGen 32
                                pageGen := genNextAll s1.vault.pageGen 4 }
    cipher := { Cipher.reset with violations := s1.cipher.violations, ofbIvs := s1.cipher.ofbIvs }
    dom := { Domain.reset with endorsement := s1.dom.endorsement }
    link := { Link.reset with tagFail := s1.link.tagFail, replayDrop := s1.link.replayDrop
                              otherDrop := s1.link.otherDrop, keyMiss := s1.link.keyMiss, retx := s1.link.retx
                              fenceIndet := s1.link.fenceIndet, rollovers := s1.link.rollovers
                              winCompress := s1.link.winCompress }
    alloys := perPort 18 Alloy.reset
    mem := { MemSeal.reset with ports := s1.mem.ports.map (fun p => (p.1, { Pewter.reset with ueGranule := p.2.ueGranule, ueNode := p.2.ueNode, crossResets := p.2.crossResets }))
                                ueGranule := s1.mem.ueGranule, lostRegions := s1.mem.lostRegions
                                rotations := s1.mem.rotations, nodeMiss := s1.mem.nodeMiss
                                tierADenied := s1.mem.tierADenied }
    arb := { Arbiter.reset with radioOverruns := s1.arb.radioOverruns, guardSpills := s1.arb.guardSpills
                                deferrals := s1.arb.deferrals, refusals := s1.arb.refusals }
    lc := { s1.lc with scope := 0, byGrant := false, challenge := none, challengeBytes := [], scrubPending := false
                       pendingScope := none, viol := false, busy := false }
    boot := { s1.boot with phase := 0, path := 0, coldReason := 0, readyMs := 0, areaValid := false, pending := false
                           reason := 0, loader := false, afwSrc := 0, afwBusy := false, afwResult := 0, afwFailed := 0
                           afwLocked := [], chunkBuf := [], stagedFill := none, stagedDigest := none, stagedRole := none
                           fillArmed := none, testing := none, trainCmd := 0, trainReady := false, trainCursor := 0
                           trainWords := [], retrain := 0, retrainReq := false, wasReset := true }
    health := { s1.health with gauges := [], above := [], plans := 0, throttleReq := 0, throttleWhy := 0, hot := false
                               life := false, opticsStale := false, over520 := false, worst := 0, vmargin := 0
                               tmargin := 0, optics := perPort 18 0x3FFFFFFF#32, opticsAt := [] } }

end Sys2Proof.Machine
end

