-- ==== Sys2Proof/Machine/Recovery.lean ====
section
/-!
DEFINITION. Recovery.lean: reset notices, error banks and the escalation ladder up to the chip warm reset (chapter 15, R38,
R39, R60, R61).
-/
namespace Sys2Proof.Machine

/-- Change a crossing's list of asserted levels. -/
def setLevel (l : List Nat) (n : Nat) (on : Bool) : List Nat := if on then insertN l n else eraseN l n

/-- The half of a crossing on the VTC's side returns to empty (R60): FIFO pointers and counters are 0 again. -/
def Crossings.empty (c : Crossings) (level : Nat) : Crossings :=
  { c with bf := tdel (tdel c.bf level) (1000 + level), cc := tdel (tdel c.cc level) (if level = 192 then 193 else level) }

/-- Every reset-notice level of every group (R65). -/
def allLevels : List Nat :=
  (List.range 18).map (32 + ·) ++ (List.range 4).map (64 + ·) ++ (List.range 16).map (96 + ·) ++ [128] ++
    (List.range 8).map (160 + ·) ++ [192, 224]

/-- The VRST levels that a unit's reset asserts (R65). -/
def unitLevels (unit : Nat) : List Nat :=
  if unit < 18 then [32 + unit]
  else if 0x20 ≤ unit ∧ unit < 0x24 then [64 + (unit - 0x20)]
  else if unit = uHse then [128]
  else if unit = uGate then (List.range 8).map (160 + ·)
  else if unit = uArb then [192]
  else if unit = uTcu then [224]
  else []

def jobLevels (j : ResetJob) : List Nat :=
  match j with
  | .engine u _ => unitLevels u
  | .tcu _ _ => [224]
  | .chip _ => allLevels

/-- Deassert VRST levels (R60 step 4); what waited for the crossings is presented. -/
def dropVrst (s : State) (levels : List Nat) : State :=
  presentHeld (levels.foldl (fun s n => { s with
    cross.vrst := eraseN s.cross.vrst n, cross.nflush := eraseN s.cross.nflush n, cross.vrstAt := tdel s.cross.vrstAt n }) s)

/-- A neighbour need not be waited for (R60, R62): its FLUSH is there, or it is in reset itself. -/
def levelFlushed (s : State) (n : Nat) : Bool := s.cross.nflush.contains n || s.cross.nrst.contains n

/-- What the reload of TCU firmware finds (R444, R464): the image of the patch area, or the recovery loader. -/
def reloadImage (s : State) : State :=
  match s.boot.area with
  | some i =>
    let r := imageCheck s i 1
    if r = 0 then { s with boot.running := some i, boot.loader := false, boot.areaValid := true, boot.pending := false }
    else imageRecord { s with
      boot.running := none, boot.loader := true, boot.areaValid := false, boot.pending := true, boot.reason := r
      boot.phase := 1 } i r
  | none => { s with
      boot.running := none, boot.loader := true, boot.areaValid := false, boot.pending := false, boot.reason := 1
      boot.phase := 1 }

/-- The unit that the cause of a chip warm reset names (R453). -/
def chipUnit (c : ChipCause) : Option Nat :=
  match c with
  | .s4 u => some u
  | _ => none

/-- Steps 3 and 4 of a chip warm reset (R445). -/
def chipClear (s : State) (c : ChipCause) : State :=
  let rid := ((chipUnit c).bind fun u => tget s.err.banks u).bind (·.rid)
  let s1 := s.err.banks.foldl (fun s b => closeBank s b.1 5 false) s
  let s2 := resetRec { s1 with err.lastAction := 5 } 4 ((chipUnit c).getD 0xFF) 7 rid
  { (logicReset s2) with boot.causeUnit := chipUnit c }

/-- Resume what one of the VTC's own resets held at a group's crossings (R60). -/
def groupUp (s : State) (unit : Nat) : State :=
  if unit < 18 then neighbourUp s .fab unit
  else if 0x20 ≤ unit ∧ unit < 0x24 then neighbourUp s .pool (unit - 0x20)
  else if unit = uHse then neighbourUp s .hse 0
  else s

/-- The reset itself, once every neighbour is flushed (R60 steps 3 and 4). The TCU's level falls with its first beat, a chip
warm reset's when the VTC is ready. After a quench an engine's handshake only returns its crossing to empty (R63). -/
def runReset (s : State) (j : ResetJob) : State :=
  match j with
  | .engine u pools =>
    if s.pow.quenched then dropVrst s (unitLevels u)
    else groupUp (dropVrst (engineReset s u pools) (unitLevels u)) u
  | .tcu rid pools => resetRec (reloadImage (pools.foldl (assayPool uTcu) s)) 2 uTcu 7 rid
  | .chip c => chipClear s c

/-- The gate waits for its dispatched pieces to retire (R357 step 3), at most 1 ms from when CPQ_VRST rose. -/
def gateDrained (s : State) : Bool :=
  s.pow.quenched || s.gate.seals.all (fun l => !l.2.dispatched) ||
    (unitLevels uGate).any fun n => (tget s.cross.vrstAt n).any fun t => decide (t + 1000000 ≤ s.ns)

/-- A waiting reset may run: its neighbours are flushed (R60), and the gate's pieces have retired (R357). -/
def jobReady (s : State) (j : ResetJob) : Bool :=
  (jobLevels j).all (levelFlushed s) && (match j with
    | .engine u _ => u != uGate || gateDrained s
    | _ => true)

/-- Run the waiting resets that may run (R60). -/
def settleResets (s : State) : State :=
  (s.cross.resets.filter (jobReady s)).foldl (fun s j =>
    runReset { s with cross.resets := s.cross.resets.filter (· != j) } j) s

/-- Begin a reset (R60 steps 1 and 2): its VRST levels rise, and it waits for the neighbours' FLUSH levels. -/
def beginReset (s : State) (j : ResetJob) : State :=
  let s1 := assertVrst s (jobLevels j)
  settleResets { s1 with cross.resets := s1.cross.resets ++ [j] }

/-- NEIGHBOUR_RST (R60, R62, R64, R66): a neighbour asserts its RST level; the VTC takes the final samples, settles what is in
flight, empties its half and asserts VFLUSH. While the VTC's rails are off its level stays at its inactive value (R54). -/
def execNeighbourRst (g : Group) (index : Nat) (s : State) : Host.Outcome State Fault Refusal :=
  done <| whenAon s fun s =>
    let n := groupLevel g index
    if groupSize g ≤ index || s.cross.nrst.contains n then s
    else if !s.pow.iod then { s with cross.nrst := insertN s.cross.nrst n }
    else
      let s1 : State := { s with cross.nrst := insertN s.cross.nrst n, cross.vflush := insertN s.cross.vflush n }
      let s2 := if s.up then neighbourDown s1 g index else s1
      settleResets { s2 with cross := s2.cross.empty n }

/-- NEIGHBOUR_RST_RELEASE (R60): RST falls, VFLUSH follows within 1 µs, and items resume. -/
def execNeighbourRstRelease (g : Group) (index : Nat) (s : State) : Host.Outcome State Fault Refusal :=
  done <| whenAon s fun s =>
    let n := groupLevel g index
    if groupSize g ≤ index || !s.cross.nrst.contains n then s
    else
      let s1 := presentHeld { s with cross.nrst := eraseN s.cross.nrst n, cross.vflush := eraseN s.cross.vflush n }
      if s.up then neighbourUp s1 g index else s1

/-- A neighbour's half of a crossing is flushed or given up (R60, R61): the VTC's half is emptied, the resets that waited for it
proceed, and a crossing that its engine reset by itself (R277) opens again. -/
def flushed (s : State) (g : Group) (index : Nat) : State :=
  let n := groupLevel g index
  if !s.cross.vrst.contains n then s
  else
    let s1 : State := { s with cross := { s.cross.empty n with nflush := insertN s.cross.nflush n } }
    if s1.cross.resets.any fun j => (jobLevels j).contains n then settleResets s1
    else
      match g with
      | .pool => if s.up then remoteSettle (pewPump (dropVrst s1 [n]) index) else s1
      | _ => s1

/-- NEIGHBOUR_FLUSH (R60): a neighbour answers VRST with its FLUSH level. -/
def execNeighbourFlush (g : Group) (index : Nat) (s : State) : Host.Outcome State Fault Refusal :=
  done <| whenAon s fun s => if index < groupSize g then flushed s g index else s

/-- NFLUSH_LATE (R61, R68): 1 ms after VRST without NFLUSH the VTC proceeds, with a record and BOUNDARY_FLUSH_LATE. -/
def execNflushLate (g : Group) (index : Nat) (s : State) : Host.Outcome State Fault Refusal :=
  done <| whenAon s fun s =>
    let n := groupLevel g index
    if groupSize g ≤ index || !s.cross.vrst.contains n || levelFlushed s n ||
        !(tget s.cross.vrstAt n).any (fun t => decide (t + 1000000 ≤ s.ns)) then s
    else
      let s1 : State := { s with
        cross.late := true, cross.lateCount := sat 15 (s.cross.lateCount + 1), cross.lateIndex := index
        cross.lateGroup := groupCode g }
      flushed (record s1 1 0 (groupUnit g index)
        (errDetail 61 (groupUnit g index) index (le 1 (groupCode g) ++ le 1 index))) g index

/-- The direction of a link that a message goes in, and the link with that direction changed (R38). -/
def NetLink.dir (l : NetLink) (fromLeaf : Bool) : NetDir := if fromLeaf then l.up else l.down
def NetLink.setDir (l : NetLink) (fromLeaf : Bool) (d : NetDir) : NetLink :=
  if fromLeaf then { l with up := d } else { l with down := d }

/-- NETWORK_RESEND (R38, R39): the oldest message that is not acknowledged is rejected, or 2 µs old; it is sent again with its number,
and the receiver discards it where it has taken that number. Its third failure marks the link failed: S3 for the engine, S4 when the
same link fails again in the session or leads to a checker. -/
def execNetworkResend (r : Resend) (s : State) : Host.Outcome State Fault Refusal :=
  done <| whenUp s fun s =>
    let l := netLink s r.leaf
    let d := l.dir r.fromLeaf
    match d.sent with
    | [] => s
    | m :: rest =>
      if l.failed || !(r.rejected || decide (m.sentAt + 2000 ≤ s.ns)) then s
      else if m.tries + 1 < 3 then
        let d' := NetDir.take { d with sent := { m with tries := m.tries + 1, sentAt := s.ns } :: rest } m.seq
        { (s.emit (.networkMessage r.leaf m.seq.toNat)) with net := tset s.net r.leaf (l.setDir r.fromLeaf d') }
      else
        let s1 : State := { s with net := tset s.net r.leaf { l with
          down := { l.down with sent := [] }, up := { l.up with sent := [] }, failed := true, failedBefore := true } }
        raise s1 { unit := r.leaf, cls := if 0x40 ≤ r.leaf || l.failedBefore then 4 else 3, cause := 39 } 0 0

/-- The check code of an S5 error by the rule that classes it (R446). -/
def checkCode (cause : Nat) : Nat := if cause = 272 then 5 else if cause = 292 then 3 else if cause = 287 then 1 else 0

/-- Kill cause of an error latched from outside (R375): a parity error by where it falls, an S5 of the gate's shadows, a derived
key, or any other. -/
def latchKill (unit cause : Nat) : Nat :=
  if cause = 49 then (if unit = uCipher then 6 else if unit < 18 then 9 else if unit = uGate then 7 else 1)
  else if cause = 356 then 8 else if cause = 114 then 5 else 0xFF

/-- A parity error in a channel's state (R135): the channel's job completes EXECUTOR_RESET and its message is gone; the jobs behind it
stay. -/
def chanParity (s : State) (n : Nat) : State :=
  let c := chanAt s n
  match c.queue with
  | j :: rest =>
    chanComplete (chanLoadHead (setChan (cutJob s c) n { c with queue := rest, message := none, loaded := none, refusal := none, left := 0 }) n) n j
      cExecutorReset [] 0
  | [] => setChan s n { c with message := none }

/-- The class of a parity error by where it falls (R49): S2 on an item of a context or a slice, S1 on an item that its protocol
retransmits, and S3 on anything else in the unit: keys, shares and control state. -/
def parityClass : ErrScope → Nat
  | .context _ => 2
  | .partition _ => 2
  | .wire => 1
  | .unit => 3

/-- An error in a flow's receive window (R231): the window gives way to a floor entry at h. -/
def floorFlow (s : State) (node : Nat) : State :=
  { s with link.flows := tmod s.link.flows node fun f =>
      if f.floor.isNone then { f with floor := some f.high, window := [] } else f }

/-- The flow-state unit's tables are lost (R231): MEMBER_LEAVE is sent, and the flows are deleted. -/
def loseFlows (s : State) : State := if isMember s then leaveDomain (sendDom s mMemberLeave s.dom.anchor 0 cOk []) else s

/-- What a parity error of class 2 ends beside its context (R49, R135, R258): a channel's job, the step whose slot WHERE names, the tier-B
request of that number, or the piece that holds that live-seal slot (log 67). -/
def parityEnds (s : State) (unit whereAt : Nat) : State :=
  if unit = uCipher then chanParity s whereAt
  else if unit < 18 then failSteps s (fun p t => p == unit && (stepAt s p whereAt) == some t) cExecutorReset
  else if 0x20 ≤ unit ∧ unit < 0x24 then
    let p := pewAt s (unit - 0x20)
    match tget p.jobs whereAt with
    | some j => remoteSettle (pewPump (pewAnswer (setPew s (unit - 0x20) { p with jobs := tdel p.jobs whereAt }) j cExecutorReset [])
        (unit - 0x20))
    | none => s
  else if unit = uHse ∨ unit = uGate then
    if (tget s.gate.seals whereAt).any fun l => l.dispatched && (unit == uGate || execOf l.raw == 3) then
      retire s whereAt cExecutorReset 0 else s
  else s

/-- A checker's replica of the page-owner table and the share groups is loaded again from the gate's (R299). -/
def reloadReplica (s : State) (stack : Nat) : State :=
  let c := tgetD s.mem.checkers stack Checker.reset
  { s with mem.checkers := tset s.mem.checkers stack { c with pages := s.gate.pages, groups := s.gate.groups } }

/-- ERROR_LATCH (R15, R17, R439): a unit detects an error of a class, and its handling begins. In a brass unit, WHERE 0 to 63 is a step slot of its
alloy and 64 its stream state (R258, log 67). A node that pewter cannot
correct loses its region (R286). -/
def execErrorLatch (unit cls cause whereAt : Nat) (scope : ErrScope) (s : State) : Host.Outcome State Fault Refusal :=
  done <| whenUp s fun s =>
    if !unitExists unit || 5 < cls then s
    else if 0x20 ≤ unit ∧ unit < 0x24 ∧ cause = 286 then loseRegion s whereAt 0
    else if 0x20 ≤ unit ∧ unit < 0x24 ∧ cause = 299 ∧ cls = 1 then nodeParity s (unit - 0x20) whereAt
    else if 0x20 ≤ unit ∧ unit < 0x24 ∧ cause = 272 ∧ cls = 1 then rootCorrect s (unit - 0x20) whereAt
    else if 0x40 ≤ unit ∧ cause = 299 ∧ cls = 1 then notice (reloadReplica s (unit - 0x40)) 1 299 unit whereAt
    else if cause = 49 then
      parityError (if parityClass scope = 2 then parityEnds s unit whereAt
        else if scope = .unit && unit < 18 && whereAt ≤ 64 then alloyParity s unit else s) unit (parityClass scope) 49
        whereAt (latchKill unit 49) scope
    else
      let slice := match scope with
        | .partition n => some n
        | .context c => some (ctxAt s c).slice
        | _ => none
      let ctx := match scope with
        | .context c => some (c, (ctxAt s c).gen)
        | _ => none
      let s := if cause = 231 ∧ cls = 1 then floorFlow s whereAt else if cause = 231 ∧ cls = 4 then loseFlows s else s
      raise s { unit := unit, cls := cls, cause := cause, whereAt := whereAt, scope := scope, slice := slice, ctx := ctx }
        (latchKill unit cause) (checkCode cause)

/-- ERROR_CLOSE (R17, R18): TCU firmware closes an error of class S0 to S2 that it has handled. -/
def execErrorClose (unit : Nat) (s : State) : Host.Outcome State Fault Refusal :=
  done <| whenUp s fun s =>
    if s.pow.tcuDown then s
    else
      match tget s.err.banks unit with
      | some o => if o.cls ≤ 2 then closeBank s unit (if o.cls = 2 then 1 else 0) false else s
      | none => s

/-- The pools that a TCU restart assays (R48): those that its command brings, or the digest pool as it is mapped where its shortfall is the
error that the restart answers. -/
def tcuPools (s : State) (pools : List (Nat × List Nat)) : List (Nat × List Nat) :=
  if pools = [] && (tget s.err.banks uTcu).any fun o => o.cause == 48 then [(0, poolOut s uTcu 0)] else pools

/-- A TCU restart (R440, R444, R450): a fifth within 60 s is S4 in its place; a requested one is not counted. Open S2 and S3
errors start their deadlines afresh (R439). One while MGT_VRST is asserted merges with the first (R62). -/
def tcuRestartWith (s : State) (c : TcuCause) (pools : List (Nat × List Nat)) : State :=
  if s.cross.vrst.contains 224 then s
  else
    let times := if c = .requested then s.err.tcuTimes else s.ns :: s.err.tcuTimes
    let s0 : State := { s with err.tcuTimes := times }
    let near := (times.filter fun t => decide (s.ns < t + 60000000000)).length
    if c ≠ .requested && 5 ≤ near then raiseS4 s0 uTcu 440 0
    else
      let s1 := abandonTransfers { s0 with
        err.tcuRestarts := s.err.tcuRestarts + 1, err.lastAction := 4, err.arm5 := false
        err.hbTcu := 0, err.hbMgmt := 0, cross.late := false, lc.viol := false, lc.challenge := none, lc.challengeBytes := []
        pow.tcuDown := true }
      let s2 : State := { s1 with
        err.banks := s1.err.banks.map fun b =>
          if b.2.cls = 2 ∨ b.2.cls = 3 then (b.1, { b.2 with latchedAt := s.ns, restarts := b.2.restarts + 1 }) else b }
      let r := closeFor s2 uTcu 4
      beginReset r.1 (.tcu r.2 (tcuPools s2 pools))

/-- A TCU restart whose command brings no assay. -/
def tcuRestart (s : State) (c : TcuCause) : State := tcuRestartWith s c []

/-- TCU_RESTART (R444). An exception in TCU firmware that handles an error is S3 for the TCU (R440). -/
def execTcuRestart (c : TcuCause) (s : State) : Host.Outcome State Fault Refusal :=
  done <| whenUp s fun s => tcuRestart (if c = .exception then raiseS3 s uTcu 440 0 else s) c

/-- LOCKSTEP_MISMATCH (R440): S3 for the TCU; the reset controller restarts it at once. -/
def execLockstepMismatch (s : State) : Host.Outcome State Fault Refusal :=
  done <| whenUp s fun s => tcuRestart (raise s { unit := uTcu, cls := 3, cause := 440 } 0 0) .lockstep

/-- The deadline of a handler in ns, by class and scope (R439). -/
def handlerDeadline (o : OpenErr) : Option Nat :=
  match o.cls, o.scope with
  | 2, _ => some 1000000
  | 3, .partition _ => some 20000000
  | 3, _ => some 1000000
  | 4, _ => some 10000000
  | _, _ => none

/-- HANDLER_DEADLINE_MISS (R439, R450): the sentinel restarts the TCU; an S2 or S3 error that outlives a second deadline
becomes S4; an S4 handler's miss is the sentinel's own chip warm reset. -/
def execHandlerDeadlineMiss (unit : Nat) (s : State) : Host.Outcome State Fault Refusal :=
  done <| whenUp s fun s =>
    match tget s.err.banks unit with
    | none => s
    | some o =>
      match handlerDeadline o with
      | none => s
      | some d =>
        if s.ns < o.latchedAt + d then s
        else if o.cls = 4 then chipDue { s with pow.tcuDown := true } unit
        else if 1 ≤ o.restarts then raiseS4 s unit 439 o.whereAt
        else tcuRestart (sentinelError s 3 450) .deadline

/-- An engine reset is under way: it waits for its neighbour (R60). -/
def resetting (s : State) (unit : Nat) : Bool := s.cross.resets.any fun j =>
  match j with
  | .engine u _ => u == unit
  | _ => false

/-- A pewter reset's write-backs are all counted, or 100 µs have passed since they were sent (R300): POOL_VRST rises, and the reset
proceeds. -/
def settleClose (s : State) (q : Nat) : State :=
  match (pewAt s q).closing with
  | some (t, pools) =>
    if (nodeWrites (pewAt s q) = 0 ∨ t + 100000 ≤ s.ns) ∧ !resetting s (uPewter q) then beginReset s (.engine (uPewter q) pools) else s
  | none => s

/-- A pewter engine begins its reset (R300): it takes no more requests, and writes its dirty nodes back. -/
def pewterClose (s : State) (q : Nat) (pools : List (Nat × List Nat)) : State :=
  if (pewAt s q).closing.isSome then settleClose s q
  else
    let s1 := flushNodes s q fun _ => true
    settleClose (setPew s1 q { pewAt s1 q with closing := some (s.ns, pools) }) q

/-- ENGINE_RESET (R442): of any unit; naming the TCU it is a TCU restart. A pewter engine writes its dirty nodes back before
POOL_VRST rises; a reset of a unit whose reset waits merges with it (R62). -/
def execEngineReset (unit : Nat) (pools : List (Nat × List Nat)) (s : State) : Host.Outcome State Fault Refusal :=
  done <| whenUp s fun s =>
    if !unitExists unit || resetting s unit then s
    else if unit = uTcu then
      tcuRestartWith { s with err.requested := s.err.requested.filter (· != (1, uTcu)) } .requested pools
    else if 0x20 ≤ unit ∧ unit < 0x24 then pewterClose s (unit - 0x20) pools
    else beginReset s (.engine unit pools)

/-- PARTITION_RESET (R443); a third of one slice within 60 s is S4 (R440). One that no open error caused counts here. -/
def execPartitionReset (slice : Nat) (s : State) : Host.Outcome State Fault Refusal :=
  done <| whenUp s fun s =>
    if !sliceExists s slice then s
    else if s.err.banks.any fun b => b.2.cls == 3 && b.2.scope == .partition slice then partitionReset s slice
    else
      let s1 : State := { s with err.partitionTimes := (slice, s.ns) :: s.err.partitionTimes }
      if 3 ≤ recent s1 s1.err.partitionTimes slice then raiseS4 s1 uTcu 440 slice else partitionReset s1 slice

/-- A chip warm reset that its cause counts in the chip-reset record (R450). -/
def errorCaused (c : ChipCause) : Bool := c != .requested

/-- The notice's CAUSE (R453). -/
def chipNotice (c : ChipCause) : Nat :=
  match c with
  | .s4 _ => 2
  | .sentinel => 3
  | .requested => 7

/-- Steps 1 and 2 of a chip warm reset (R445): the notice, DEVICE_DOWN, and every VRST of every group. -/
def chipReset (s : State) (c : ChipCause) : State :=
  let s0 : State := if errorCaused c then
      { s with err.chipTimes := s.ns :: s.err.chipTimes, err.chipResets := s.err.chipResets + 1 } else s
  let s1 := memberDown s0 (chipNotice c) s.pow.tcuDown
  let s2 := if s.pow.ready && !s.pow.tcuDown && !s.pow.quenched then postAll s1 evDeviceDown 4 else s1
  beginReset { s2 with pow.readmitted := false, err.arm5 := false, err.arm50 := false, cross.resets := [] } (.chip c)

/-- A chip warm reset waits for its neighbours (R445 step 3). -/
def chipWaits (s : State) : Bool := s.cross.resets.any fun j =>
  match j with
  | .chip _ => true
  | _ => false

/-- CHIP_WARM_RESET (R445, R450): a third error-caused one within 10 minutes is a power-cycle request. One that comes before the levels of
the first have dropped merges with it (R62). -/
def execChipWarmReset (c : ChipCause) (s : State) : Host.Outcome State Fault Refusal :=
  done <| whenAon s fun s =>
    if s.pow.heldInReset || !s.pow.iod || chipWaits s || s.boot.wasReset then s
    else if errorCaused c && 2 ≤ chipWindow s then powerCycle s
    else chipReset s c

/-- NOTICE_REPEAT (R453): the second and third sending, 10 ms apart. -/
def execNoticeRepeat (s : State) : Host.Outcome State Fault Refusal :=
  done <| whenAon s fun s =>
    match s.err.noticePending with
    | b :: rest =>
      if s.ns < s.err.noticeAt + 10000000 then s
      else canNotice { s with
        err.noticePending := rest, err.noticeAt := s.err.noticeAt + 10000000, err.noticeRepeats := s.err.noticeRepeats - 1
        err.lastNotice := b } b
    | [] => s

/-- QUENCH (R446): a unit's S5 error, with the check that failed. -/
def execQuench (unit check whereAt : Nat) (s : State) : Host.Outcome State Fault Refusal :=
  done <| whenUp s fun s =>
    if unitExists unit then
      raise s { unit := unit, cls := 5, cause := if check = 5 ∨ check = 6 then 272 else 287, whereAt := whereAt } 0 check
    else s

/-- Units that a signer of QUENCH_RELEASE may be: the operator or the Gyondist service key (R447). -/
def releaseSigner (r : SignedReq) : Bool := r.kind == 5 && (r.signer == 2 || r.signer == 3)

/-- QUENCH_RELEASE (R447): checks 2 to 7 of R158; acceptance clears the flag, and a chip warm reset with the cold-start assays
follows. -/
def execQuenchRelease (r : SignedReq) (s : State) : Host.Outcome State Fault Refusal :=
  done <| whenAon s fun s =>
    let early : Option Nat :=
      if lcBusy s then some 0xB
      else if s.lc.lockout then some 7
      else if !(r.length == 7508 && r.format == 0x20 && r.reserved == 0 && r.opens == 0 && r.newBinding == 0 && r.scope == 0)
        then some 9
      else none
    let verdict : Nat :=
      match early with
      | some c => c
      | none =>
        if !releaseSigner r || !s.pow.quenched then 4
        else if r.unitId ≠ unitId || r.fromCode ≠ s.lc.code || r.sessionId ≠ s.pow.sessionId ||
            nonceNow s ≠ some r.nonce then 3
        else if !(signerOk s r && hybOk r.signerKey (reqBytes r) r.signature) then 2
        else 1
    let s1 := lcResult s 0x7F00 3 verdict
    if verdict = 1 then
      { s1 with pow.quenched := false, pow.ready := false, err.coldForced := true, pow.pendingChip := some 0x100 }
    else s1

/-- What a valid TCU beat does (R444, R449, R450, R466). -/
def tcuBeat (s : State) (beat : BitVec 16) : State :=
  let s1 := if s.pow.tcuDown then mbxResume (raiseVersion { s with pow.tcuDown := false }) else s
  dropVrst { s1 with
    err.hubQueue := 0, err.hubHeld := 0
    err.hbTcu := beat, err.tcuBeatAt := some s.ns, err.arm5 := true, err.arm50 := true, err.startBeat := true
    pow.tcuDown := false } [224]

/-- A TCU restart waits for its neighbour: its cores run nothing, and write no beat (R60, R444). -/
def tcuWaits (s : State) : Bool := s.cross.resets.any fun j =>
  match j with
  | .tcu _ _ => true
  | _ => false

/-- HB_TCU (R449): a write is a valid beat, or is ignored and counted. -/
def execHbTcu (fromTcu : Bool) (beat inv : BitVec 16) (s : State) : Host.Outcome State Fault Refusal :=
  done <| if s.aon && s.pow.iod then
      (if fromTcu && beat == s.err.hbTcu + 1 && inv == ~~~beat && !tcuWaits s then tcuBeat s beat
       else { s with err.ignoredBeats := s.err.ignoredBeats + 1 })
    else s

/-- HB_MGMT (R449). -/
def execHbMgmt (fromMgmt : Bool) (beat inv : BitVec 16) (s : State) : Host.Outcome State Fault Refusal :=
  done <| if s.aon && s.pow.iod then
      (if fromMgmt && beat == s.err.hbMgmt + 1 && inv == ~~~beat then
        { s with err.hbMgmt := beat, err.mgmtBeatAt := some s.ns, err.armMgmt := true }
       else { s with err.ignoredBeats := s.err.ignoredBeats + 1 })
    else s

/-- The sentinels watch the TCU and the management processor: a session is open, no save runs, and the chip is not held. -/
def watched (s : State) : Bool := s.aon && s.pow.iod && !s.pow.saving && !s.pow.heldInReset

/-- A sentinel condition that asks for a chip warm reset (R450). -/
def sentinelChip (s : State) : State := chipDue (sentinelError s 4 450) uTcu

/-- TCU_BEAT_TIMEOUT_5MS (R450). -/
def execTcuBeatTimeout5ms (s : State) : Host.Outcome State Fault Refusal :=
  done <| if watched s && s.err.arm5 && s.err.tcuBeatAt.any (fun t => decide (t + 5000000 ≤ s.ns)) then
      tcuRestart (sentinelError s 3 450) .sentinel
    else s

/-- TCU_BEAT_TIMEOUT_50MS (R450): counted from the last valid beat. -/
def execTcuBeatTimeout50ms (s : State) : Host.Outcome State Fault Refusal :=
  done <| if watched s && s.err.arm50 && s.err.tcuBeatAt.any (fun t => decide (t + 50000000 ≤ s.ns)) then
      sentinelChip { s with pow.tcuDown := true, err.arm50 := false, err.arm5 := false }
    else s

/-- MGMT_HB_TIMEOUT (R450, R457). -/
def execMgmtHbTimeout (s : State) : Host.Outcome State Fault Refusal :=
  done <| if watched s && s.err.armMgmt &&
        s.err.mgmtBeatAt.any (fun t => decide (t + setting s 0x7F01 2 * 1000000 ≤ s.ns)) then
      sentinelChip { s with err.armMgmt := false }
    else s

/-- MGMT_HB_NOT_ARMED (R450): 10 s after the VTC is ready. -/
def execMgmtHbNotArmed (s : State) : Host.Outcome State Fault Refusal :=
  done <| if watched s && s.pow.ready && !s.err.armMgmt && s.pow.pendingChip.isNone &&
        decide (s.err.readyAt + 10000000000 ≤ s.ns) then sentinelChip s
    else s

/-- START_BEAT_TIMEOUT (R450): a start without a valid TCU beat 5 s after its t0. -/
def execStartBeatTimeout (s : State) : Host.Outcome State Fault Refusal :=
  done <| if watched s && s.boot.starts != 0 && !s.boot.wasReset && !s.err.startBeat && s.pow.pendingChip.isNone &&
        decide (s.err.startAt + 5000000000 ≤ s.ns) then sentinelChip { s with pow.tcuDown := true }
    else s

/-- SENTINEL_SILENT (R450): one sentinel finds the other silent for 1 ms, records S1 and goes on alone. -/
def execSentinelSilent (silentB : Bool) (s : State) : Host.Outcome State Fault Refusal :=
  done <| if s.aon && (if silentB then s.err.sentB else s.err.sentA) then
      (let s1 : State := if silentB then { s with err.sentB := false } else { s with err.sentA := false }
       sentinelError s1 1 450)
    else s

end Sys2Proof.Machine
end

