-- ==== Sys2Proof/Machine/Start.lean ====
section
/-!
DEFINITION. Start.lean: the beginning and end of a session (R7, R415, R505), a start on either path (R458 to R461), the
operator configuration (R542) and the ingot (R496) as a start applies them, and accelerator ready.
-/
namespace Sys2Proof.Machine

/-- What outlasts a session: NVM, with the commands that wait and the model's own records of what was driven and drawn. -/
def nvmOnly (s : State) : State :=
  let r := State.reset
  { r with
    pending := s.pending, free := s.free, out := s.out
    pins := { r.pins with presence := s.pins.presence }
    err := { r.err with quenches := s.err.quenches }
    lbx := { r.lbx with slots := s.lbx.slots, nextRid := s.lbx.nextRid }
    dict := { r.dict with copies := s.dict.copies }
    vault := { r.vault with helperA := s.vault.helperA, helperB := s.vault.helperB }
    lc := { r.lc with primary := s.lc.primary, mirror := s.lc.mirror, tokensUsed := s.lc.tokensUsed }
    dom := { r.dom with endorsement := s.dom.endorsement }
    boot := { r.boot with
      area := s.boot.area, versionA := s.boot.versionA, versionAInv := s.boot.versionAInv, versionB := s.boot.versionB
      versionBInv := s.boot.versionBInv, startRecs := s.boot.startRecs }
    health := { r.health with
      ingots := s.health.ingots, ingotSeq := s.health.ingotSeq, coldTaps := s.health.coldTaps
      unsaved := s.health.unsaved, lastMode := s.health.lastMode, lastResult := s.health.lastResult
      lastDuration := s.health.lastDuration, lastEndMv := s.health.lastEndMv } }

/-- SESSION_START (R7, R55, R415, R505): VAON is established, the time clock locks to TREF at session time 0, both sentinels
run, and the leadbox is scanned. -/
def execSessionStart (s : State) : Host.Outcome State Fault Refusal :=
  done <| if s.pow.sessionOpen then s
    else
      let s0 := nvmOnly s
      let s1 : State := { s0 with
        pow.sessionOpen := true, err.sentA := true, err.sentB := true, time.trefLocked := true
        pins.asserted := s0.pins.presence, pins.presenceAt := if s0.pins.presence then some 0 else none }
      timeTo (runScan s1) 1

/-- SESSION_END (R7): VAON is lost, and with it everything that the always-on island held. -/
def execSessionEnd (s : State) : Host.Outcome State Fault Refusal :=
  done <| if s.pow.sessionOpen then nvmOnly s else s

/-- The operator key exists: a binding, and the field root (R97, R155). -/
def operBound (s : State) : Bool := s.lc.primary.operBinding != 0 && s.vault.lcClass == 2 && s.vault.rootState == 2

/-- Bytes of a type, 0 where its length is the entry's own (R537). -/
def EType.bytes : EType → Nat
  | .bool => 1
  | .u8 => 1
  | .u16 => 2
  | .u32 => 4
  | .i32 => 4
  | .u64 => 8
  | .time64 => 8
  | _ => 0

/-- One stored setting (R542): INDEX, SUB, FLAGS, LEN and the value. -/
def settingBytes (pending : Bool) (e : Nat × Nat) : Bytes :=
  let len := ((entryAt (e.1 / 256) (e.1 % 256)).map (·.type.bytes)).getD 8
  le 2 (e.1 / 256) ++ le 1 (e.1 % 256) ++ le 1 (b2n pending) ++ le 2 len ++ le len e.2

/-- The body of a copy of the configuration (R542). -/
def configBody (c : ConfigCopy) : Bytes := c.settings.flatMap (settingBytes false) ++ c.pending.flatMap (settingBytes true)

/-- Bytes 0 to 31 of a copy, the AAD of its seal (R542). -/
def configHead (c : ConfigCopy) : Bytes :=
  le 2 0x60 ++ le 2 (c.settings.length + c.pending.length) ++ le 4 c.seq ++ le 4 c.operGen ++ be 12 c.iv.toNat ++
    le 4 (configBody c).length ++ le 4 0

/-- A copy of the configuration that the operator key of now opens (R542). -/
def copyOpens (s : State) (c : ConfigCopy) : Bool :=
  (key256 s .oper).any fun k => (gcmOpen k c.iv (configHead c) c.body c.tag).isSome

/-- The copy with the higher SEQ among those that open. -/
def bestCopy (s : State) : Option ConfigCopy :=
  (s.dict.copies.filter fun c => copyOpens s c.2).foldl
    (fun b c => match b with
      | some x => if x.seq < c.2.seq then some c.2 else b
      | none => some c.2) none

/-- Settings that differ from their defaults (R541). -/
def changed (t : Table Nat) : Table Nat :=
  t.filter fun e => ((entryAt (e.1 / 256) (e.1 % 256)).map (·.dflt)) != some e.2

/-- Store the operator configuration in the other copy (R541, R542): one wrap against the operator key. A store that its key's
limit forbids fails, S1. -/
def storeConfig (s : State) : State :=
  if !operBound s then { s with dict.configState := 3 }
  else
    let s1 := needKey s .oper
    match wrapRefused s1 .oper, key256 s1 .oper with
    | none, some k =>
        let seq := (s1.dict.copies.foldl (fun m c => max m c.2.seq) 0) + 1
        let c0 : ConfigCopy :=
          { seq := seq, operGen := s1.lc.primary.operGen, settings := changed s1.dict.force, pending := s1.dict.boot
            iv := s1.drawn 96, body := [], tag := 0 }
        let c := gcmSeal k c0.iv (configHead c0) (configBody c0)
        { (spendKey s1.drew .oper 1 0) with
          dict.copies := tset s1.dict.copies (seq % 2) { c0 with body := c.1, tag := c.2 }, dict.configState := 1 }
    | _, _ => notice s1 1 542 uTcu 0

/-- Every pair of a table put into another. -/
def overlay (t u : Table Nat) : Table Nat := u.foldl (fun t e => tset t e.1 e.2) t

/-- The key of FORCE_COLD among the settings (R482). -/
abbrev forceCold : Nat := 0x201003

/-- Apply the stored settings at a start (R542). Without a binding, settings last for the session. -/
def applyConfig (s : State) : State :=
  if !operBound s then
    { s with dict.force := overlay s.dict.force s.dict.boot, dict.boot := [], dict.configState := 3 }
  else
    match bestCopy s with
    | some c => { s with
        dict.force := overlay c.settings c.pending, dict.boot := [], dict.configState := 1 }
    | none =>
      let s1 : State := { s with dict.force := [], dict.boot := [] }
      if s.dict.copies = [] then { s1 with dict.configState := 0 }
      else notice { s1 with dict.configState := 2 } 1 542 uTcu 0

/-- FORCE_COLD is cleared by the start that it made cold, in the stored copy too (R482, R542). -/
def clearForce (s : State) : State :=
  let had := (tget s.dict.force forceCold).isSome || ((bestCopy s).any fun c => c.pending != [])
  let s1 : State := { s with dict.force := tdel s.dict.force forceCold }
  if had && operBound s && s.dict.configState = 1 then storeConfig s1 else s1

/-- Bytes 0 to 79 of an ingot's header (R494). -/
def ingotHead (i : Ingot) : Bytes :=
  let n := b2n i.records.isSome + b2n i.counters.isSome + b2n i.banks.isSome + b2n i.taps.isSome + b2n i.rate.isSome
  le 2 0x50 ++ le 1 (b2n i.partialSave + 2 * b2n i.debug) ++ le 1 i.mode ++ le 4 i.seq.toNat ++ le 4 i.seqInv.toNat ++
    le 2 n ++ le 2 0 ++ le 8 unitId ++ le 8 i.sessionId.toNat ++ le 8 i.saveTime ++ le 8 i.domainId ++ le 4 i.epoch ++
    le 2 i.vholdStart ++ le 2 0 ++ le 4 i.bodyLen ++ le 4 0 ++ be 12 i.iv.toNat ++ le 4 0

/-- An ingot that a start may use: its complement and its tag check, and it is not consumed (R496). -/
def ingotGood (s : State) (i : Ingot) : Bool :=
  i.valid && !i.consumed && i.seqInv == ~~~i.seq &&
    (key256 s (.store 1)).any fun k => (gcmOpen k i.iv (ingotHead i) i.body i.tag).isSome

/-- The slot that a save writes (R496): one that holds no unconsumed valid ingot, or the one with the lower SEQ. Where neither holds
one the manual does not say which: the slots alternate. -/
def saveSlot (s : State) : Nat :=
  let live (k : Nat) : Option Ingot := (tget s.health.ingots k).filter fun i => i.valid && !i.consumed
  match live 0, live 1 with
  | some a, some b => if a.seq.toNat ≤ b.seq.toNat then 0 else 1
  | some _, none => 1
  | none, some _ => 0
  | none, none => (s.health.ingotSeq + 1) % 2

/-- The SAVE record (R496, R506). -/
def saveRecord (s : State) (mode result slot : Nat) (part : Bool) (startMv : Nat) : State :=
  record s 0x0014 7 srcHold (le 1 mode ++ le 1 result ++ le 1 slot ++ le 1 (b2n part) ++ le 2 startMv ++
    le 2 s.health.lastEndMv)

/-- What an ingot gives to the new start (R496). -/
def applyIngot (s : State) (i : Ingot) : State :=
  if i.debug then notice s 0 496 uTcu 0
  else
    let s1 := (i.records.getD []).foldl putRec s
    let s2 := record s1 0x0015 7 srcHold (le 8 i.sessionId.toNat ++ le 8 i.saveTime ++ (i.banks.getD []).take 40)
    let s3 := match i.counters with
      | some c => { s2 with
          cnt.snapshot := c.set, cnt.snapSource := 3, cnt.freezeSeq := c.seq, cnt.freezeTime := c.time
          cnt.snapStart := c.start, cnt.snapSession := c.session }
      | none => s2
    let s4 : State := { s3 with health.taps := i.taps.getD s3.health.coldTaps }
    match i.rate with
    | some r => if i.sessionId = s.pow.sessionId ∧ s.time.state ≠ 3 then { s4 with time.rate := r } else s4
    | none => s4

/-- The newest usable ingot is applied and marked CONSUMED; a slot whose check fails is S1 and ignored; a save that left no
valid header is recorded (R496, R498). -/
def consumeIngot (s : State) : State :=
  let s0 := match s.health.unsaved with
    | some r => saveRecord { s with health.unsaved := none } s.health.lastMode r (saveSlot s) false 0
    | none => s
  let bad := s0.health.ingots.filter fun i => i.2.valid && !i.2.consumed && !ingotGood s0 i.2
  let s1 := (inOrder (bad.map fun i => { unit := uTcu, cls := 1, cause := 496, whereAt := i.1, source := some srcHold })).foldl latch s0
  let best := (s1.health.ingots.filter fun i => ingotGood s1 i.2).foldl
    (fun (b : Option (Nat × Ingot)) i => match b with
      | some x => if x.2.seq.toNat < i.2.seq.toNat then some i else b
      | none => some i) none
  match best with
  | none => { s1 with health.taps := s1.health.coldTaps }
  | some (k, i) =>
    let s2 := applyIngot s1 i
    let s3 : State := { s2 with
      health.ingots := tset s2.health.ingots k { i with consumed := true }, health.ingotLast := ingotHead i }
    saveRecord s3 i.mode 1 k i.partialSave i.vholdStart

/-- COLD_REASON of a start (R458, R481), 0 for the warm fast path. -/
def coldReason (s : State) (first : Bool) : Nat :=
  if first then 1
  else if s.err.coldForced then 2
  else if setting s 0x2010 3 = 1 then 3
  else
    match startNow s with
    | none => 4
    | some r =>
      if r.sessionId ≠ s.pow.sessionId then 5
      else if r.fwDigest ≠ imageDigest s.boot.running then 6 else 0

/-- The map of good members that a start works with (R46, R445, R461): assayed in full when cold; from the record when warm, with
only the pools of the unit named in the reset's cause assayed. -/
def startPools (s : State) (cold : Bool) (found : List (Nat × Nat × List Nat)) : State :=
  let assay (s : State) (p : Nat × Nat × List Nat) : State := assayPool p.1 s p.2
  if cold then
    found.foldl assay { s with
      pools := [], boot.failedCores := [], alloys := s.alloys.map fun a => (a.1, { a.2 with lanesGood := 256, lanesOut := [] }) }
  else
    let kept := (((startNow s).map (·.pools)).getD []).map fun p => (p.1 / 32, p.1 % 32, p.2)
    (found.filter fun p => s.boot.causeUnit == some p.1).foldl assay (kept.foldl assay s)

/-- The keys that a start derives (R97, R460, R461): storage and operator keys, the identity seeds and their expansion, the
session root under marker 0 and its class keys. -/
def startKeys (s : State) : State :=
  let base := [KeyPath.store 1, .store 2, .store 3, .store 4, .idEcc, .idMldsa] ++ (if operBound s then [.oper] else [])
  let s1 := sessionKeys (base.foldl needKey { s with vault.debugMark := false })
  expandIdent s1

/-- Engines enter service (R460 step 6). -/
def enginesReady (s : State) : State :=
  { s with
    gate.ready := true, arb.ready := true
    alloys := s.alloys.map fun a => (a.1, { a.2 with ready := true })
    mem.ports := s.mem.ports.map fun p => (p.1, { p.2 with ready := true })
    mem.checkers := s.mem.checkers.map fun c => (c.1, { c.2 with ready := true, down := false })
    tierA := [] }

/-- The FLAGS_VTC_READY record (R460 step 7, R506). -/
def readyRecord (s : State) : State :=
  record s 0x0010 7 uTcu (le 1 s.boot.path ++ le 1 s.boot.coldReason ++ le 2 s.lc.code.toNat ++ le 4 s.boot.readyMs ++
    le 4 (((s.boot.running.map (·.version))).getD 0) ++ (be 48 (imageDigest s.boot.running).toNat).take 32)

/-- VTC ready (R459 to R461): the start record is written, the version counter raised, the arbiter's boundaries armed, and
every VRST level falls. READY_MS is open within the bound of R459 (log 4). -/
def vtcReady (s : State) (cold first : Bool) (reason : Nat) : State :=
  let ms := (s.drawn 16).toNat % (if cold then 1801 else 121)
  let s1 := presentHeld { s.spend with
    pow.ready := true, pow.readmitted := first, boot.phase := 4, boot.path := if cold then 0 else 1
    boot.coldReason := reason, boot.readyMs := ms, err.readyAt := s.ns, err.coldForced := false, boot.causeUnit := none
    cross.vrst := [], cross.nflush := [], cross.vrstAt := [], cross.resets := [], pins.quenchLow := false
    health.coldTaps := if cold then s.health.taps else s.health.coldTaps, health.raiseOnly := true
    health.creepAt := if cold then s.ns else s.health.creepAt }
  armHorizon 96 (enterSpan (readyRecord (writeStart (raiseVersion s1) (trainingNow s1))))

/-- The recovery loader runs, or start-up stopped before any key-dependent unit (R91, R447, R464). -/
def loaderOnly (s : State) : State := { s with boot.loader := true, boot.phase := 1, pow.ready := false }

/-- Steps of a start after the root is there: image, configuration, path, keys, ingot, VTC ready (R460, R461). -/
def startRest (s : State) (first : Bool) (found : List (Nat × Nat × List Nat)) : State :=
  let s1 := reloadImage s
  if s1.boot.loader then loaderOnly s1
  else
    let s2 := needKey (applyConfig (if operBound s1 then needKey s1 .oper else s1)) (.store 2)
    let reason := coldReason s2 first
    let cold := reason != 0
    let s3 := enginesReady (startKeys (startPools (clearForce s2) cold found))
    vtcReady (if s3.vault.rootState = 2 then consumeIngot s3 else s3) cold first reason

/-- Draw 64 bits, and again while they are 0 (R7). Draws that are all 0 for n times leave the identifier 0, as a failed source does:
the start stops there, and a later one draws again (log 4). -/
def drawNonzero : Nat → State → State
  | 0, s => s
  | n + 1, s =>
    if s.drawn 64 = 0 then drawNonzero n s.drew else { s.drew with pow.sessionId := s.drawn 64 }

/-- Draw the session identifier where none is held (R7): nonzero, from the DRBG. -/
def drawSession (s : State) : State :=
  if s.pow.sessionId = 0 then drawNonzero 64 s else s

/-- A start from t0 (R458): what each path does once the rails are up. -/
def startUp (s : State) (e : StartEnv) : State :=
  let first := s.boot.starts == 0
  let s0 := if s.boot.wasReset || first then s else logicReset s
  let s1 : State := { s0 with
    pow.iod := true, pow.cdieA := true, pow.cdieB := true, pins.pfailLow := false
    pow.startIndex := if first then 0 else min (s0.pow.startIndex + 1) 0xFFF
    boot.starts := if s0.boot.starts = 255 then 255 else s0.boot.starts + 1
    boot.t0 := s0.ns, boot.wasReset := false, boot.phase := 0, boot.loader := false, cross.vflush := s0.cross.nrst
    arb.capacityPending := s0.arb.capacityPending ++
      (if !first && s0.pow.startIndex = 0xFFE then [6 * 2 ^ 24 + 0xFF * 2 ^ 16 + 0xFFF] else [])
    err.startAt := s0.ns, err.startBeat := false, err.arm5 := false, err.arm50 := false, err.armMgmt := false }
  if !e.entropyOk then { s1 with vault.entropyOk := false }
  else
    let s2 := drawSession { s1 with
      vault.entropyOk := true, vault.seeded := true, vault.requests := 0, vault.reseedAt := s1.ns, vault.annealAt := s1.ns
      vault.annealPeriod := setting s1 0x2100 2 }
    if s2.pow.sessionId = 0 then { s2 with vault.entropyOk := false }
    else
    let s3 := settleVersion (settleLc s2)
    let s4 := if s3.lc.code = 0 then s3 else entryActions s3
    let s5 : State := { s4 with lc.scope := stateScope s4.lc.code, lc.byGrant := false }
    if s5.pow.quenched then loaderOnly s5
    else
      let s6 := regenerate s5 e.pufReads
      if s6.pow.rootFail then loaderOnly s6
      else startRest s6 first e.pools

/-- START (R458): the IOD and CDIE rails come within specification. A chip held in reset does not start (R450). -/
def execStart (e : StartEnv) (s : State) : Host.Outcome State Fault Refusal :=
  done <| whenAon s fun s => if s.pow.heldInReset then s else startUp s e

/-- The lane levels that the controllers' training leaves (R69, R460 step 10). -/
def takeLanes (s : State) (lanes : List Nat) : State :=
  let up := lanes.zipIdx.foldl (fun t l => if l.2 < 18 then tset t l.2 (l.1 % 32) else t) s.cross.laneUp
  (List.range 18).foldl refreshLanes { s with cross.laneUp := up }

/-- Ports UP as a mask, port p at bit p. -/
def upMask (s : State) : Nat := packBits ((List.range 18).map fun p => (portAt s p).up)

/-- ACCEL_READY (R445 step 6, R460, R461): lanes are taken, the unit map is built when cold and applied unchanged when warm, the
start record is rewritten, and after a chip warm reset contexts may be created again. -/
def execAccelReady (failedCores lanes : List Nat) (training : List (BitVec 32)) (s : State) :
    Host.Outcome State Fault Refusal :=
  done <| whenUp s fun s =>
    if s.boot.phase ≠ 4 then s
    else
      let cold := s.boot.path == 0
      let s1 := takeLanes s lanes
      let s2 := if cold then buildMap s1 (failedCores ++ s1.boot.failedCores) else mapRecord s1
      let ms := (s2.ns - s2.boot.t0) / 1000000
      let s3 := linkPump (writeStart { s2 with boot.phase := 5, boot.accelMs := ms, pow.readmitted := true } training)
      let s4 := record s3 0x0011 7 uTcu (le 4 ms ++ le 4 (upMask s3) ++ le 2 (coresInService s3))
      let s5 := if cold then s4 else (List.range 18).foldl (fun s p =>
        if (portAt s p).activeLanes < 4 then capacity s 2 p (portAt s p).activeLanes else s) s4
      if s.pow.readmitted then s5 else postAll s5 evSessionEnded 0

end Sys2Proof.Machine
end

