-- ==== Sys2Proof/Machine/UnitMap.lean ====
section
/-!
DEFINITION. UnitMap.lean: the unit map's vacancies and fills (R475 to R478), array faults, and training settings (R468 to R470).
-/
namespace Sys2Proof.Machine

/-- The map with what is staged applied to it (R476, R477). -/
def changedMap (s : State) : State :=
  { s with
    boot.mapGen := s.boot.mapGen + 1
    boot.mapEntries := match s.boot.stagedFill with
      | some f => tset s.boot.mapEntries f.1 f.2
      | none => s.boot.mapEntries
    boot.vacant := match s.boot.stagedFill with
      | some f => eraseN s.boot.vacant f.1
      | none => s.boot.vacant
    boot.spares := match s.boot.stagedFill with
      | some f => eraseN s.boot.spares f.2
      | none => s.boot.spares
    boot.mapRole := match s.boot.stagedRole with
      | some r => BitVec.ofNat 32 r
      | none => s.boot.mapRole }

/-- The digest of the staged map is recorded (R476 step 3). -/
def recordStaged (s : State) : State := { s with boot.stagedDigest := some (mapDigest (changedMap s)) }

/-- The staged map is rebuilt and staged again for the cast that is armed for it (R477, R478). -/
def restageMap (s : State) : State :=
  match s.boot.fillArmed with
  | none => s
  | some n =>
    match tget s.casts.table n with
    | some c =>
      if c.kind ≠ 5 || c.resting then s
      else
        let c' := { c with acked := [], param := s.boot.mapGen.toNat + 1 }
        recordStaged (c.targets.foldl (fun s g => castStageAt s n g) { s with casts.table := tset s.casts.table n c' })
    | none => s

/-- Stage the new map and arm its cast at a domain time; a map already staged takes the change in and keeps its cast
(R476 step 4, R477). -/
def stageMap (s : State) (time : Nat) : State × Code × Nat :=
  match s.boot.fillArmed with
  | some n => (restageMap s, cOk, n)
  | none =>
    let r := armCast s ownTcu 5 1 time (s.boot.mapGen.toNat + 1) none
    if r.2.1 = cOk then (recordStaged { r.1 with boot.fillArmed := some r.2.2.1 }, cOk, r.2.2.1) else (s, r.2.1, 0)

/-- The lowest-numbered spare of a logical core's die (R476 step 1). -/
def pickSpare (s : State) (logical : Nat) : Option Nat := s.boot.spares.find? fun c => dieOfPhys c == dieOf logical

/-- A physical core is marked failed: it is no spare any more, and a staged map that uses it loses the array control's
acknowledgement (R478). -/
def markFailed (s : State) (core : Nat) : State :=
  let s1 : State := { s with boot.spares := eraseN s.boot.spares core, boot.failedCores := insertN s.boot.failedCores core }
  match s.boot.stagedFill, s.boot.fillArmed with
  | some (_, c), some n =>
    if c = core then { s1 with casts.table := tmod s1.casts.table n fun k => { k with acked := eraseN k.acked tgArray } }
    else s1
  | _, _ => s1

/-- The array's running operation is cut and completes EXECUTOR_RESET (R475 step 2). -/
def cutRunning (s : State) : State :=
  match s.arb.runSlot with
  | some k => retire (arrayCut s) k cExecutorReset 0
  | none => s

/-- A failed physical core leaves the map (R475): its logical core is vacant, the generation advances, the start record is
rewritten, and a capacity change follows. S1, with the stamp of the array's event where one reports it (R433). -/
def vacateCore (s : State) (core : Nat) (stamp : Option Nat) : State :=
  match s.boot.mapEntries.find? fun e => e.2 == core with
  | none => markFailed s core
  | some (l, _) =>
    let s1 := latch (cutRunning s) { unit := uArb, cls := 1, cause := 475, whereAt := core, stamp := stamp }
    let s2 : State := { s1 with
      boot.mapEntries := tdel s1.boot.mapEntries l, boot.vacant := insertN s1.boot.vacant l
      boot.mapGen := s1.boot.mapGen + 1, boot.failedCores := insertN s1.boot.failedCores core }
    let s3 := writeStart s2 (trainingNow s2)
    restageMap (capacity s3 3 (dieOf l) (coresInService s3))

/-- ARR_FAULTEVT (R76, R472, R475): a fault that marks a physical core failed vacates it; a fault that reports a vacant logical
core completes the running piece CORE_VACANT. The manual gives other array faults no effect on the VTC. -/
def execArrFaultevt (code core : Nat) (coreFailed : Bool) (s : State) : Host.Outcome State Fault Refusal :=
  done <| whenUp s fun s =>
    if 256 ≤ code then s
    else
    let r := ccEvents (s.heldIn 194) 193 192 1
    let stamp := eventStamp s 192
    let s := r.1
    if r.2 = 0 then s
    else if coreFailed then (if core < 4608 then vacateCore s core (some stamp) else s)
    else
      match s.arb.runSlot with
      | some k =>
        if s.boot.vacant.contains core then arbWake (retire { s with arb.runSlot := none } k cCoreVacant 0) else s
      | none => s

/-- Ask the array to test a spare for a vacancy (R476 step 2). -/
def testSpare (s : State) (logical spare time : Nat) : State :=
  { (s.emit (.mapCoreLoad spare)) with boot.testing := some (logical, spare, time) }

/-- MAP_FILL (R476): one fill at a time; the lowest spare of the die is tested, or the write is refused. -/
def execMapFill (core time : Nat) (s : State) : Host.Outcome State Fault Refusal :=
  done <| whenUp s fun s =>
    if s.boot.testing.isSome || s.boot.stagedFill.isSome then answerWrite s 0x4020 3 cRefusedQueue
    else if !s.boot.vacant.contains core then answer s 0x82 0x4020 3 4 cOk 0 []
    else
      match pickSpare s core with
      | none => answerWrite s 0x4020 3 cNoSpare
      | some c => testSpare s core c time

/-- SPARE_CHECK_DONE (R476): the spare passes, and the new map is staged and its cast armed; or it is marked failed and the next
one is tested. -/
def execSpareCheckDone (pass : Bool) (s : State) : Host.Outcome State Fault Refusal :=
  done <| whenUp s fun s =>
    match s.boot.testing with
    | none => s
    | some (l, c, t) =>
      let s0 : State := { s with boot.testing := none }
      if pass && s0.boot.spares.contains c then
        let r := stageMap { s0 with boot.stagedFill := some (l, c) } t
        answerWrite (if r.2.1 = cOk then r.1 else s0) 0x4020 3 r.2.1
      else
        let s1 := markFailed s0 c
        match pickSpare s1 l with
        | none => answerWrite s1 0x4020 3 cNoSpare
        | some c' => testSpare s1 l c' t

/-- MAP_ROLE (R477): refused until STATE_MANIFEST has been accepted; the granted role travels in the staged map. -/
def execMapRole (h : MbxHdr) (role time : Nat) (s : State) : Host.Outcome State Fault Refusal :=
  done <| mailbox s h 0x0604 true (le 4 role ++ le 8 time) fun s =>
    match s.dom.manifest, s.dom.roleGrant with
    | some (granted, _), some _ =>
      if granted ≠ role then fail s cFaultPermission
      else
        let r := stageMap { s with boot.stagedRole := some role } time
        if r.2.1 = cOk then (r.1, cOk, le 2 r.2.2) else fail s r.2.1
    | _, _ => fail s cBusyQuiesce

/-- MAP_VACANT (R480): the generation and one bit for each logical core, 1 where it is vacant. -/
def execMapVacant (h : MbxHdr) (s : State) : Host.Outcome State Fault Refusal :=
  done <| mailbox s h 0x0605 false [] fun s =>
    (s, cOk, le 4 s.boot.mapGen.toNat ++ le 512 (packBits ((List.range 4096).map fun i => s.boot.vacant.contains i)))

/-- MAP_CHANGE at its fire (R476, R477): the array is cut and cleared as at a span boundary, and the staged map is applied. -/
def applyMap (s : State) : State :=
  let s1 := arrayCut s
  let s2 : State := { changedMap s1 with
    boot.fillArmed := none, boot.stagedFill := none, boot.stagedRole := none, boot.stagedDigest := none }
  let s3 := mapRecord s2
  let s4 := writeStart s3 (trainingNow s3)
  let die := match s1.boot.stagedFill with
    | some f => dieOf f.1
    | none => 255
  arbWake (capacity s4 4 die (coresInService s4))

/-- A failed map cast leaves the vacancy and drops the staged map (R478). -/
def dropMap (s : State) : State :=
  { s with boot.fillArmed := none, boot.stagedFill := none, boot.stagedRole := none, boot.stagedDigest := none }

/-- Ports of a training group (R468). -/
def trainGroupSize (g : Nat) : Nat := if g = 1 then 18 else if g = 2 then 4 else if g = 3 then 16 else 0

/-- Training entries are whole (R468): each header names a controller and its bytes are there; what remains at the end of the
last word is zero. The fuel is the number of bytes. -/
def trainOk : Nat → Bytes → Bool
  | 0, b => b == []
  | n + 1, b =>
    if b.length < 4 then b.all fun x => x == 0
    else
      let len := fld b 2 2
      decide (fld b 1 1 < trainGroupSize (fld b 0 1)) && decide (4 + len ≤ b.length) && trainOk n (b.drop (4 + len))

/-- TRAIN_SAVE (R468, R470): only the management processor's, written into the start record; malformed or too long entries leave
the record in force, reason 1. -/
def execTrainSave (fromMgmt : Bool) (s : State) : Host.Outcome State Fault Refusal :=
  done <| whenUp s fun s =>
    if !fromMgmt then { s with lc.viol := true, lc.violCount := min (s.lc.violCount + 1) 0x7FFF }
    else
      let words := s.boot.trainWords.take s.boot.trainCursor
      let s1 : State := { s with boot.trainCmd := 1, boot.trainCursor := 0, boot.trainWords := [] }
      if 163840 < 4 * words.length || !trainOk (4 * words.length) (wordBytes words) then { s1 with boot.reason := 1 }
      else writeStart s1 words

/-- TRAIN_LOAD (R468): the record in force is opened for reading. -/
def execTrainLoad (s : State) : Host.Outcome State Fault Refusal :=
  done <| if s.aon && s.pow.iod then
      { s with boot.trainCmd := 2, boot.trainCursor := 0
               boot.trainReady := (startNow s).isSome }
    else s

/-- The word that a read of TRAIN_DATA returns (R481). -/
def trainWord (s : State) : BitVec 32 :=
  if s.boot.trainCmd = 2 then (if s.boot.trainReady then ((trainingNow s)[s.boot.trainCursor]?).getD 0 else 0)
  else (s.boot.trainWords[s.boot.trainCursor]?).getD 0

/-- TRAIN_DATA (R468, R481): a write presents the next word; each access advances the cursor. -/
def execTrainData (write : Option (BitVec 32)) (s : State) : Host.Outcome State Fault Refusal :=
  done <| if s.aon && s.pow.iod then
      (let n := s.boot.trainCursor
       let s1 : State := { s with boot.trainCursor := (n + 1) % 2 ^ 18 }
       match write with
       | some w => if s.boot.trainCmd = 2 then s1
           else { s1 with boot.trainWords := s.boot.trainWords.take n ++ List.replicate (n - s.boot.trainWords.length) 0 ++
             [w] ++ s.boot.trainWords.drop (n + 1) }
       | none => s1)
    else s

/-- RETRAIN (R469): refused while a named port's spare replaces a failed lane or has failed. -/
def execRetrain (ports : BitVec 32) (s : State) : Host.Outcome State Fault Refusal :=
  done <| whenUp s fun s =>
    let busy := (List.range 18).any fun p =>
      ports.getLsbD p && ((portAt s p).spareState == 1 || (portAt s p).spareState == 3)
    if busy then answerWrite s 0x6010 1 cBusyQuiesce
    else answerWrite { s with boot.retrain := s.boot.retrain ||| ports, boot.retrainReq := true } 0x6010 1 cOk

end Sys2Proof.Machine
end

