-- ==== Sys2Proof/Machine/Casts.lean ====
section
/-!
DEFINITION. Casts.lean: the commands that arm, stage and cancel casts, and TIME_NOW (R422 to R427, R435, R437).
-/
namespace Sys2Proof.Machine

/-- A context of the slice page's slice that a header names (R326, R435): 0, or a LIVE or FROZEN context of the slice. -/
def headerCtx (s : State) (h : MbxHdr) : Bool :=
  ctxExists s h.ctxId && (ctxAt s h.ctxId).slice == hslice h

/-- CAST_ARM (R422, R423, R435): the arbiter's and the TCU's arming is internal; a slice arms through its page and is
answered with the number, the arming sequence and the fire time as rounded. -/
def execCastArm (via : CastVia) (kind flags fire param : Nat) (s : State) : Host.Outcome State Fault Refusal :=
  done <| whenUp s fun s =>
    match via with
    | .arbiter => (armCast s ownArb kind flags fire param none).1
    | .tcu => (armCast s ownTcu kind flags fire param none).1
    | .mailbox h r =>
      mailbox s h 0x0501 false (le 1 kind ++ le 1 flags ++ le 2 r ++ le 8 fire ++ le 8 param) fun s =>
        if 2 ≤ flags || r ≠ 0 then (s, cHostRecordRejected, reason 1)
        else if !headerCtx s h then fail s cFaultPermission
        else
          let r := armCast s (hslice h) kind flags fire param (some (h.ctxId, (ctxAt s h.ctxId).gen))
          if r.2.1 = cOk then (r.1, cOk, le 2 r.2.2.1 ++ le 2 r.2.2.2.1 ++ le 8 r.2.2.2.2) else fail s r.2.1

/-- CAST_STAGE_ACK (R36, R37): a target has staged the action, before the fire time; of a resting number, it has acknowledged the fire or the
discard, and the number is free when all have. -/
def execCastStageAck (number target : Nat) (s : State) : Host.Outcome State Fault Refusal :=
  done <| whenAon s fun s =>
    match tget s.casts.table number with
    | none => s
    | some c =>
      if !c.targets.contains target then s
      else if !c.resting && decide (c.fire ≤ s.ns) then netAck s target .stage (le 2 number)
      else
        let s := netAck s target (if c.resting then .discard else .stage) (le 2 number)
        let c' := { c with acked := insertN c.acked target }
        if c.resting && c'.targets.all fun t => c'.acked.contains t then
          { s with casts.table := tdel s.casts.table number }
        else { s with casts.table := tset s.casts.table number c' }

/-- CAST_CANCEL (R426, R37): by number and arming sequence, of the page's own slice, before the launch. -/
def execCastCancel (h : MbxHdr) (number seq : Nat) (s : State) : Host.Outcome State Fault Refusal :=
  done <| mailbox s h 0x0502 false (le 2 number ++ le 2 seq) fun s =>
    match tget s.casts.table number with
    | none => fail s cStaleHandle
    | some c =>
      if c.owner ≠ hslice h || c.seq ≠ seq then fail s cStaleHandle
      else if c.resting then fail s c.outcome
      else (castReport s number c cCastCancelled, cCastCancelled, [])

/-- TIME_NOW (R435): the session identifier, session time and domain time. -/
def execTimeNow (h : MbxHdr) (s : State) : Host.Outcome State Fault Refusal :=
  done <| mailbox s h 0x0503 false [] fun s =>
    (s, cOk, le 8 s.pow.sessionId.toNat ++ le 8 s.ns ++ le 8 s.domNs)

/-- The domain time that a write of COMMIT_AT or FREEZE_AT names (R437): 0 is the first whole millisecond at least 10 µs
ahead. -/
def castWhen (s : State) (t : Nat) : Nat :=
  if t = 0 then (s.domNs + 10000 + 999999) / 1000000 * 1000000 else t

/-- COMMIT_AT (R427, R437): arms the commit cast in domain time; refused while one is armed. -/
def execCommitAt (time : Nat) (s : State) : Host.Outcome State Fault Refusal :=
  done <| whenUp s fun s =>
    let r := armCast s ownTcu 6 1 (castWhen s time) 0 none
    answerWrite r.1 0x3002 1 r.2.1

/-- FREEZE_AT (R437): arms a freeze cast as COMMIT_AT does. -/
def execFreezeAt (time : Nat) (s : State) : Host.Outcome State Fault Refusal :=
  done <| whenUp s fun s =>
    let r := armCast s ownTcu 3 1 (castWhen s time) 0 none
    answerWrite r.1 0x3002 2 r.2.1

end Sys2Proof.Machine
end

