-- ==== Sys2Proof/Machine/Watch.lean ====
section
/-!
DEFINITION. Watch.lean: freezing and reading the counter set (R85, R511 to R513), and the commands of tensor watch (R515, R516,
R518, R522).
-/
namespace Sys2Proof.Machine

/-- The snapshot bank (R511, R513): the header, and 1,040 counters. -/
def freezeSet (s : State) : Bytes :=
  fit 64 (le 1 8 ++ le 1 s.cnt.snapSource ++ le 2 0 ++ le 4 s.cnt.freezeSeq.toNat ++ le 8 s.cnt.snapSession.toNat ++
    le 8 s.cnt.freezeTime.toNat ++ le 2 s.cnt.snapStart) ++
    (List.range 1040).flatMap fun i => le 8 (tcount s.cnt.snapshot i)

/-- Freeze the counters (R512): the live set is copied, the header set, and a FREEZE record written. SOURCE 1 is FREEZE_IN, 2 a
cast, 3 a save, which drives no FREEZE_OUT pulse (R493). -/
def freezeNow (s : State) (source : Nat) : State :=
  let s1 : State := { s with
    cnt.snapshot := s.cnt.live, cnt.snapSource := source, cnt.freezeSeq := s.cnt.freezeSeq + 1
    cnt.freezeTime := BitVec.ofNat 64 s.ns, cnt.snapStart := s.pow.startIndex, cnt.snapSession := s.pow.sessionId
    pins.freezeAt := some s.ns }
  let s2 := if source = 3 then s1 else s1.emit .freezePulse
  record (bump s2 18 1) 0x0070 7 srcDevice (le 4 s2.cnt.freezeSeq.toNat ++ le 1 source ++ le 8 s2.ns)

/-- A freeze trigger (R85, R512): ignored and counted within 1 µs of the one before or during a save; FREEZE_IN and a cast at the
same instant are one freeze. -/
def freezeTrigger (s : State) (source : Nat) : State :=
  let same := s.pins.freezeAt == some s.ns && s.cnt.snapSource != source && s.cnt.snapSource != 3
  if same then s
  else if s.pow.saving || s.pins.freezeAt.any fun t => decide (s.ns < t + 1000) then
    { (bump s 19 1) with cnt.ignored := s.cnt.ignored + 1 }
  else freezeNow s source

/-- The counters have power: the IOD rail is up (R54). -/
def countersUp (s : State) : Bool := s.aon && s.pow.iod

/-- FREEZE_IN (R85): a rising edge. -/
def execFreezeIn (s : State) : Host.Outcome State Fault Refusal :=
  done <| if countersUp s then freezeTrigger s 1 else s

/-- FRZ_TIME_LO (R513): a read latches the high half of the trigger time. -/
def execFrzTimeLo (s : State) : Host.Outcome State Fault Refusal :=
  done <| if countersUp s then { s with cnt.freezeHi := BitVec.ofNat 32 (s.cnt.freezeTime.toNat / 2 ^ 32) } else s

/-- LIVE_COUNTER_LO (R513): a read of a live counter's low word latches its high word. -/
def execLiveCounterLo (offset : Nat) (s : State) : Host.Outcome State Fault Refusal :=
  done <| if countersUp s && decide (64 ≤ offset) && decide (offset < 8384) && offset % 8 == 0 then
      { s with cnt.latchHi := BitVec.ofNat 32 (tcount s.cnt.live ((offset - 64) / 8) / 2 ^ 32) }
    else s

/-- Watches that a slice may have (R515). -/
def watchQuota (s : State) (slice : Nat) : Nat :=
  if slice = 0 then 32 else if slice = 31 then 16 else 192 / max 1 s.tenants

/-- Watches that a slice has. -/
def watchUse (s : State) (slice : Nat) : Nat := (s.watch.table.filter fun w => w.2.slice == slice).length

/-- The body of WATCH_ARM (R524). -/
def watchBytes (b : WatchBody) : Bytes :=
  le 1 b.tap ++ le 1 b.fmt ++ le 1 b.modes ++ le 1 b.selKind ++ le 8 b.sel ++ le 8 b.length ++ le 2 b.cast ++
    le 2 b.castSeq ++ le 8 b.result ++ le 8 b.dumpVa ++ le 4 b.event

/-- What R515's rights refuse: a context, event or cast of another slice or context, or one that does not exist. -/
def watchRights (s : State) (h : MbxHdr) (b : WatchBody) : Option Code :=
  let c := ctxAt s h.ctxId
  if c.mode ≠ .live || c.slice ≠ hslice h then some cFaultPermission
  else
    match evtCheck s h.ctxId (hslice h) b.event with
    | some e => some e
    | none =>
      if b.selKind ≠ 0 then none
      else
        match (tget s.casts.table b.cast).filter fun k => !k.resting && k.seq == b.castSeq with
        | none => some cStaleHandle
        | some k => if k.owner = hslice h && k.ctx == some (h.ctxId, c.gen) then none else some cFaultPermission

/-- RESULT and DUMP_VA are mapped writable in tier A, and DUMP_VA holds the range (R515). -/
def watchMapped (s : State) (ctx : Nat) (b : WatchBody) : Bool :=
  let mapped (va n : Nat) : Bool :=
    (List.range (n / 2 ^ 26 + 1)).all fun i =>
      match lookup s ctx ⟨va, 1, true, true, false⟩ (min (i * 2 ^ 26) (n - 1)), lookup s ctx ⟨va, 1, true, true, false⟩ (n - 1) with
      | .at false _ _, .at false _ _ => true
      | _, _ => false
  mapped b.result 128 && (!bit b.modes 2 || mapped b.dumpVa (if b.selKind = 0 then min b.length (2 ^ 32) else 1))

/-- The fields of an arming keep R515. -/
def watchValid (b : WatchBody) : Bool :=
  let alloy := b.tap == 2 || b.tap == 3
  decide (b.tap < 8) && fmtDefined b.fmt && decide (b.modes < 8) && decide (b.selKind < 2) && (alloy == (b.selKind == 1)) &&
    (if b.selKind = 0 then
      decide (0 < b.length) && decide (b.length ≤ 2 ^ 32) && b.length * 8 % max 1 (fmtWidth b.fmt) == 0
     else decide (b.sel < 2 ^ 32) && decide (b.length < 2 ^ 16))

/-- Arm a watch (R515, R516): under the least free number; a collective selector opens it at once. -/
def armWatch (s : State) (h : MbxHdr) (b : WatchBody) : State × Code × Bytes :=
  let slice := hslice h
  let n := leastFree s.watch.table 0
  let s1 := if bit b.modes 1 then needKey s (.digest slice) else s
  let w : Watch :=
    { slice := slice, ctx := h.ctxId, gen := (ctxAt s h.ctxId).gen, body := b, armedAt := s.ns
      openAt := if b.selKind = 1 then some s.ns else none, timeoutMs := setting s 0x7200 1
      total := if b.selKind = 0 then some (rangeBlocks b.length) else none, taken := [], stats := WatchStats.empty, digest := 0
      digestGen := (genAt s.vault.digestGen slice).toNat, partialDigest := false, truncated := false, missed := false
      dumped := 0 }
  ({ s1 with watch.table := tset s1.watch.table n w }, cOk, le 2 n)

/-- WATCH_ARM (R515): the conditions in the order in which the rule lists them. -/
def execWatchArm (h : MbxHdr) (b : WatchBody) (s : State) : Host.Outcome State Fault Refusal :=
  done <| mailbox s h 0x0701 false (watchBytes b) fun s =>
    if watchQuota s (hslice h) ≤ watchUse s (hslice h) || 256 ≤ s.watch.table.length then fail s cRefusedQueue
    else
      match watchRights s h b with
      | some c => fail s c
      | none =>
        if bit b.modes 2 && (!(ctxAt s h.ctxId).debuggable || setting s 0x7200 2 != 1) then fail s cFaultPermission
        else if !watchMapped s h.ctxId b then fail s cFaultUnmapped
        else if !watchValid b then fail s cWatchInvalid
        else armWatch s h b

/-- WATCH_CANCEL (R522): no RESULT; the event is signalled with CAST_CANCELLED. -/
def execWatchCancel (h : MbxHdr) (watch : Nat) (s : State) : Host.Outcome State Fault Refusal :=
  done <| mailbox s h 0x0702 false (le 2 watch) fun s =>
    match tget s.watch.table watch with
    | none => fail s cStaleHandle
    | some w =>
      if w.slice ≠ hslice h || w.ctx ≠ h.ctxId then fail s cFaultPermission
      else
        let s1 : State := { s with watch.table := tdel s.watch.table watch, watch.closed := s.watch.closed + 1 }
        (settle (signal s1 w.body.event cCastCancelled), cOk, [])

/-- DIGEST_ROTATE (R518, R522): the slice's digest generation advances and the old key goes; while a digest watch of the slice is
open the rotation waits. -/
def execDigestRotate (h : MbxHdr) (s : State) : Host.Outcome State Fault Refusal :=
  done <| mailboxLater s h 0x0703 false [] fun s =>
    if digestOpen s (hslice h) then ({ s with watch.rotateWaiting := s.watch.rotateWaiting ++ [h] }, none)
    else
      let s1 := rotateDigest s (hslice h)
      (s1, some (cOk, le 4 (genAt s1.vault.digestGen (hslice h)).toNat))

/-- WATCH_TIMEOUT (R516): a watch that has been open for its timeout closes. -/
def execWatchTimeout (watch : Nat) (s : State) : Host.Outcome State Fault Refusal :=
  done <| whenUp s fun s =>
    match tget s.watch.table watch with
    | none => s
    | some w =>
      if w.openAt.any fun t => decide (t + w.timeoutMs * 1000000 ≤ s.ns) then closeWatch s watch w else s

/-- Open dumps close INCOMPLETE when DUMP_ENABLE is cleared (R526). -/
def closeDumps (s : State) : State :=
  (s.watch.table.filter fun w => w.2.dump? && w.2.openAt.isSome).foldl
    (fun s w => closeWatch s w.1 { w.2 with missed := true }) s

end Sys2Proof.Machine
end

