-- ==== Sys2Proof/Machine/CastFire.lean ====
section
/-!
DEFINITION. CastFire.lean: the fire of a cast (R36, R424, R425, R427).
-/
namespace Sys2Proof.Machine

/-- The keys of the schedule's entries (R391). -/
def isSchedule (key : Nat) : Bool := key / 256 == 0x4011 || key / 256 == 0x4012

/-- The first boundary of two schedules' periods at or after a domain time (R393). -/
def commonBoundary (old new : Sched) (t : Nat) : Nat :=
  let p := max 1 (Nat.lcm (old.period * 1000) (new.period * 1000))
  (t + p - 1) / p * p

/-- Apply the captured shadows (R427, R393): a schedule waits for the boundary that both schedules share. A captured value leaves
its shadow unless a later write has changed it. -/
def applyCommit (s : State) (c : Cast) : State :=
  let vals := c.captured
  let sched := vals.filter fun v => isSchedule v.1
  let rest := vals.filter fun v => !isSchedule v.1
  let s1 : State := { s with
    dict.force := overlay s.dict.force rest
    dict.shadow := s.dict.shadow.filter fun v => !vals.contains v }
  if sched = [] then s1
  else
    let held := overlay ((s.arb.schedNext.map (·.2)).getD []) sched
    let get (i b : Nat) : Nat := tgetD held (ekey i b) (setting s i b)
    { s1 with arb.schedNext := some (commonBoundary (schedNow s) (schedOf get) (((c.fire : Int) + s.time.doff).toNat), held) }

/-- A span boundary of the schedule, with the arbiter's next entries armed (R394); a schedule that took effect re-arms them all. -/
def boundaryFire (s : State) : State :=
  let s1 := spanBoundary s
  if s.arb.schedNext.isSome && s1.arb.schedNext.isNone then rearm s1 else armHorizon 96 s1

/-- What a fired cast applies at its targets (R424). -/
def castAction (s : State) (n : Nat) (c : Cast) : State :=
  if c.kind = 1 then boundaryFire s
  else if c.kind = 2 then keySwitch s
  else if c.kind = 3 then freezeTrigger s 2
  else if c.kind = 4 then startSteps s n c.owner
  else if c.kind = 5 then applyMap s
  else if c.kind = 6 then applyCommit s c
  else
    let what := c.param % 256
    let unit := c.param / 256 % 256
    if what = 1 then { s with err.requested := s.err.requested ++ [(1, unit)] }
    else if what = 2 then { s with err.requested := s.err.requested ++ [(2, unit)] }
    else if what = 3 then { s with pow.pendingChip := if s.pow.pendingChip.isSome then s.pow.pendingChip else some 0x100 }
    else s

/-- What a failed cast leaves undone: the arbiter applies its boundary by session time (R394); a missed key switch (R195) and a
staged map (R478) have their own rules. -/
def castMissed (s : State) (c : Cast) : State :=
  if c.kind = 1 then boundaryFire s
  else if c.kind = 2 then missSwitch s
  else if c.kind = 5 then dropMap s else s

/-- CAST_FIRE (R36, R425): at its fire time a cast whose stored time agrees with its complement (R50) and whose targets have all
acknowledged is applied at every one; otherwise at none, and it completes CAST_FAILED. -/
def execCastFire (number : Nat) (s : State) : Host.Outcome State Fault Refusal :=
  done <| whenUp s fun s =>
    match tget s.casts.table number with
    | none => s
    | some c =>
      if c.resting || s.ns < c.fire then s
      else if c.fireInv = 2 ^ 64 - 1 - c.fire && c.targets.all fun t => c.acked.contains t then
        castAction (openWatches (castReport (s.emit (.castStrobe number)) number c cOk) number c.seq) number c
      else castMissed (castReport s number c cCastFailed) c

end Sys2Proof.Machine
end

