-- ==== Sys2Proof/Machine/Cipher.lean ====
section
/-!
DEFINITION. Cipher.lean: the meanings of the cipher service's channel commands (R126 to R139).
-/
namespace Sys2Proof.Machine

/-- The channels of a slice's part (R126). -/
def chanPart (s : State) (slice : Nat) : List Nat :=
  if slice = 0 then (List.range 8).map (· + 4)
  else if slice = 31 then (List.range 4).map (· + 12)
  else (List.range (48 / max 1 s.tenants)).map (· + 16 + (slice - 1) * (48 / max 1 s.tenants))

/-- CHANNEL_ALLOCATE (R126, R127): a channel of the slice's part, bound to the context's generation. The manual does not say which free
one: the model gives the lowest. DESIGN CHOICE (log 59). -/
def execChannelAllocate (h : MbxHdr) (ctx : Nat) (s : State) : Host.Outcome State Fault Refusal :=
  done <| mailbox s h (Config.chanOpcode 0) true (le 2 ctx) fun s =>
    let x := ctxAt s ctx
    if x.mode ≠ .live then fail s cStaleHandle
    else
      match (chanPart s x.slice).find? fun n => !(chanAt s n).allocated with
      | none => fail s cRefusedQueue
      | some n =>
        (setChan s n { chanBlank n with allocated := true, slice := x.slice, ctx := ctx, gen := x.gen }, cOk, le 1 n)

/-- CHANNEL_FREE (R127): its operations complete ABANDONED, and its stream ends. -/
def execChannelFree (h : MbxHdr) (ch : Nat) (s : State) : Host.Outcome State Fault Refusal :=
  done <| mailbox s h (Config.chanOpcode 1) true (le 1 ch) fun s =>
    if 64 ≤ ch || !(chanAt s ch).allocated then fail s cStaleHandle
    else
      let s1 := (chanAt s ch).queue.foldl (fun s j => chanComplete s ch j cAbandoned [] 0) s
      ({ s1 with cipher.channels := tdel s1.cipher.channels ch }, cOk, [])

/-- The operand words of an operation that has none of its own. -/
def noBody (src dst : Nat) : CipherBody :=
  { jobId := 0, ctrl := 0, src := src, dst := dst, len := 0, aadLen := 0, iv := 0, tag := 0 }

/-- CH_JOB (R129, R139): OP 0x00 of CH_CTRL queues a job; the other operations have commands of their own. -/
def execChJob (ch ctx gen : Nat) (b : CipherBody) (s : State) : Host.Outcome State Fault Refusal :=
  done <| whenUp s fun s => chanSubmit s ch ctx gen .job b

/-- CH_JOB_DONE (R123 to R125, R130, R131): the job at the head ends once cores have taken all its blocks; its result is written and its
piece retires. -/
def execChJobDone (ch : Nat) (s : State) : Host.Outcome State Fault Refusal :=
  done <| whenUp s fun s =>
    let c := chanAt s ch
    if c.queue = [] || 0 < c.left then s
    else
      chanDrain 18 (chanRun s ch) ch

/-- CH_SAVE (R132). -/
def execChSave (ch ctx gen : Nat) (s : State) : Host.Outcome State Fault Refusal :=
  done <| whenUp s fun s => chanSubmit s ch ctx gen .save (noBody 0 0)

/-- CH_EXPORT (R133): to a tier-A address of the owning context, a saved record or the channel's current state. -/
def execChExport (ch ctx gen : Nat) (dest : ExportTo) (s : State) : Host.Outcome State Fault Refusal :=
  done <| whenUp s fun s => chanSubmit s ch ctx gen (.exportTo dest.record) (noBody 0 dest.dst)

/-- CH_RESTORE_INTERNAL (R134). -/
def execChRestoreInternal (ch ctx gen record : Nat) (s : State) : Host.Outcome State Fault Refusal :=
  done <| whenUp s fun s => chanSubmit s ch ctx gen (.restoreRecord record) (noBody 0 0)

/-- CH_RESTORE_BLOB (R134). -/
def execChRestoreBlob (ch ctx gen : Nat) (b : ChanBlob) (s : State) : Host.Outcome State Fault Refusal :=
  done <| whenUp s fun s => chanSubmit s ch ctx gen (.restoreBlob b) (noBody 0 0)

/-- CH_ATTACH (R128). -/
def execChAttach (ch ctx gen slot : Nat) (label : BitVec 256) (s : State) : Host.Outcome State Fault Refusal :=
  done <| whenUp s fun s => chanSubmit s ch ctx gen (.attach slot label) (noBody 0 0)

/-- CH_DETACH (R128). -/
def execChDetach (ch ctx gen : Nat) (s : State) : Host.Outcome State Fault Refusal :=
  done <| whenUp s fun s => chanSubmit s ch ctx gen .detach (noBody 0 0)

/-- PAGE_ACCESS_VIOLATION (R137): ignored, counted and recorded S0 with the master's identity. -/
def execPageAccessViolation (page master : Nat) (s : State) : Host.Outcome State Fault Refusal :=
  done <| whenUp s fun s => pageViolation s page master

end Sys2Proof.Machine
end

