-- ==== Sys2Proof/Machine/Gate.lean ====
section
/-!
DEFINITION. Gate.lean: the descriptor gate's own commands (chapter 11): submission, translation, the dispatch check,
retirement, rings, queues and windows.
-/
namespace Sys2Proof.Machine

/-- Count a descriptor or doorbell of a queue that is not bound (R330, R342). -/
def unboundDrop (s : State) : State := { s with gate.dropUnbound := s.gate.dropUnbound + 1 }

/-- A raw descriptor as the gate takes it (R326): owner, generation and slice come from the queue table. -/
def newDesc (s : State) (cp ctx queue : Nat) (q : Queue) (raw : Bytes) : Desc :=
  { ctx := ctx, gen := q.gen, slice := q.slice, queue := queue, cp := cp, raw := raw, nextElem := 0,
    total := max 1 (dElems raw), piece := 0, live := 0, hold := .queued, admitted := false, outcome := cOk,
    deferral := 0, admittedAt := s.ns, code := cOk, detail := 0, faultAddr := 0, charge := 0, host := [],
    reseal := none, reserved := false, held := false }

/-- SUBMIT (R342): a raw descriptor of a queue reaches the gate. -/
def execSubmit (cp ctx queue : Nat) (raw : Bytes) (parityOk : Bool) (s : State) :
    Host.Outcome State Fault Refusal :=
  done <| whenUp s fun s =>
    if !s.crossOpen (160 + cp) then s
    else
    let s := s.intake (160 + cp) 1
    match tget s.gate.queues (qid ctx queue) with
    | none => notice (unboundDrop s) 0 342 uGate (qid ctx queue)
    | some q =>
      if q.stopped || (ctxAt s ctx).mode == .frozen then s
      else
        let q' : Queue := { q with head := (q.head + 1) % max 1 q.ringSize }
        let s1 : State := { s with gate.queues := tset s.gate.queues (qid ctx queue) q' }
        let did := s1.gate.nextDid
        let d := newDesc s1 cp ctx queue q raw
        let s2 : State := { s1 with gate.nextDid := did + 1, gate.descs := tset s1.gate.descs did d }
        if parityOk then queueOn s2 ctx queue
        else parityError (settle (refuse s2 did cDescriptorInvalid 6 0)) uGate 2 49 (qid ctx queue) 7 (.context ctx)

/-- The oldest descriptor of a queue that waits in a given way. -/
def waitingDesc (s : State) (ctx queue : Nat) (f : Hold → Bool) : Option (Nat × Desc) :=
  s.gate.descs.find? fun d => d.2.ctx == ctx && d.2.queue == queue && f d.2.hold

def Hold.isRoom : Hold → Bool
  | .room => true
  | _ => false

/-- Seal a HOST_DMA piece again under a new SERIAL (R341, R348 check 4): the old slot is released. A port that waits on
its CHECK gets PASS with the new descriptor; else the new descriptor is a SEALED entry. -/
def resealDone (s : State) (did : Nat) (d : Desc) (slot cp pasid : Nat) : State :=
  match tget s.gate.seals slot with
  | none => s
  | some l =>
    let s1 := releaseSlot s slot
    let r := hostListAdd { s1 with gate.reseal := s1.gate.reseal + 1 } d pasid
    let fresh := leastFree r.1.gate.seals 0
    let d' : Desc := { d with piece := d.piece - 1, live := d.live - 1, reseal := none }
    let s2 := sealPiece r.1 did d' l.start l.len (r.2.2 :: l.trs.drop 1) (decide (32768 ≤ l.pieceWord)) l.objs (some r.2.1)
    if cp = 255 then settle s2 else passCheck { s2 with out := s.out, cross := s.cross } fresh cp

/-- A piece's record cannot be translated again (R327, R340, R348): the CHECK that waits for it fails, and the piece retires. -/
def resealFail (s : State) (slot cp : Nat) (code : Code) : State :=
  match tget s.gate.seals slot with
  | none => s
  | some l => retire (if cp = 255 then s else checkFail s cp (qid l.ctx l.queue) code 0 (sealedBytes l)) slot code 0

/-- Translate a piece's record again (R341, R348): covered and sealed, or a further ATS request. -/
def resealGo (s : State) (did : Nat) : State :=
  match tget s.gate.descs did with
  | none => s
  | some d =>
    match d.reseal, slicePasid s d.slice with
    | some (slot, cp), some p =>
      let d1 := hostCover 40 s p d
      let s1 : State := { s with gate.descs := tset s.gate.descs did d1 }
      match hostNext d1 with
      | none => resealDone s1 did d1 slot cp p
      | some v =>
        if !s.crossOpen 128 || atsPart s d.slice ≤ holding s d.slice Hold.isAts then holdDesc s1 did .room
        else holdDesc (s1.emit (.atsRequest p v)) did (.ats false false)
    | some (slot, cp), none => resealFail s slot cp cFaultUnmapped
    | none, _ => s

/-- Start translating a sealed piece's record again. -/
def resealStart (s : State) (slot cp : Nat) : State :=
  match tget s.gate.seals slot with
  | none => s
  | some l =>
    resealGo { s with gate.descs := tmod s.gate.descs l.did fun d =>
      { d with host := [], reseal := some (slot, cp) } } l.did

/-- Try a descriptor again that waited for a place: its next piece, or its sealing again. -/
def goOn (s : State) (did : Nat) (d : Desc) : State :=
  if d.reseal.isSome then resealGo (holdDesc s did .none) did else resumeDesc s did false

/-- PENDING_PIECE_SEAL (R342): room has come for a piece that waits at step 5, or a held place has come free. -/
def execPendingPieceSeal (ctx queue : Nat) (s : State) : Host.Outcome State Fault Refusal :=
  done <| whenUp s fun s =>
    match waitingDesc s ctx queue Hold.isRoom with
    | some (did, d) => goOn s did d
    | none => queueOn s ctx queue

/-- TRANSLATION_WALK (R336, R338): the walk's reads fill the cache, and the descriptor goes on. -/
def execTranslationWalk (ctx queue : Nat) (s : State) : Host.Outcome State Fault Refusal :=
  done <| whenUp s fun s =>
    match waitingDesc s ctx queue Hold.isWalk with
    | some (did, d) => resumeDesc (walkFill s d) did true
    | none => s

/-- End a descriptor's host translation with a code (R340): the record's first untranslated byte is the fault. -/
def hostFail (s : State) (did : Nat) (d : Desc) (code : Code) : State :=
  match d.reseal with
  | some (slot, cp) => resealFail (holdDesc s did .none) slot cp code
  | none => queueOn (refuse s did code 0 (2 ^ 63 + (hostNext d).getD 0)) d.ctx d.queue

/-- A completion without a translation, or without the right (R340): one page request, then failure. -/
def hostMissed (s : State) (did : Nat) (d : Desc) (pasid : Nat) (retried right : Bool) : State :=
  let v := (hostNext d).getD 0
  if retried then hostFail s did d (if right then cFaultPermission else cFaultUnmapped)
  else if priPart s d.slice ≤ holding s d.slice Hold.isPrg then holdDesc s did .room
  else
    holdDesc { (s.emit (.pageRequest pasid v)) with gate.pageRequests := s.gate.pageRequests + 1 } did (.prg right)

/-- ATS_COMPLETION (R340, R356). -/
def execAtsCompletion (ctx queue : Nat) (a : AtsAnswer) (s : State) : Host.Outcome State Fault Refusal :=
  done <| fromHost s 128 fun s =>
    match waitingDesc s ctx queue Hold.isAts with
    | none => s
    | some (did, d) =>
      match slicePasid s d.slice, d.hold, hostNext d with
      | some p, .ats retried discard, some v =>
        if discard then holdDesc (s.emit (.atsRequest p v)) did (.ats retried false)
        else
          match a with
          | .span hpa log2 read write =>
            let s1 := hostCacheAdd s ⟨p, v / 2 ^ log2 * 2 ^ log2, hpa, log2, read, write, d.slice⟩
            if (if hostWrites d.raw then write else read) then goOn s1 did d else hostMissed s1 did d p retried true
          | .noTranslation => hostMissed s did d p retried false
      | _, _, _ => s

/-- PRG_RESPONSE (R340): Success repeats the ATS request once; any other response fails the descriptor. -/
def execPrgResponse (ctx queue : Nat) (success : Bool) (s : State) : Host.Outcome State Fault Refusal :=
  done <| fromHost s 129 fun s =>
    match waitingDesc s ctx queue Hold.isPrg with
    | none => s
    | some (did, d) =>
      match slicePasid s d.slice, d.hold with
      | some p, .prg right =>
        if success then holdDesc (s.emit (.atsRequest p ((hostNext d).getD 0))) did (.ats true false)
        else hostFail s did d (if right then cFaultPermission else cFaultUnmapped)
      | _, _ => s

/-- A descriptor's record touches a host range. -/
def recordIn (d : Desc) (addr size : Nat) : Bool :=
  let r := hostRange d.raw
  dClass d.raw == kHostDma && decide (r.1 < addr + size) && decide (addr < r.1 + r.2)

/-- ATS_INVALIDATE (R322, R341, R356): the cache drops the range, the PASID's epoch advances, outstanding requests for the
range are discarded, and undispatched pieces that already carry the new epoch value are translated again. -/
def execAtsInvalidate (pasid addr size : Nat) (s : State) : Host.Outcome State Fault Refusal :=
  done <| fromHost s 128 fun s =>
    let ep := (tgetD s.gate.pasidEpoch pasid 0 + 1) % 256
    let s1 : State := { s with
      gate.hostCache := s.gate.hostCache.filter fun e =>
        !(e.pasid == pasid && decide (e.va < addr + size) && decide (addr < e.va + 2 ^ e.log2))
      gate.pasidEpoch := tset s.gate.pasidEpoch pasid ep
      gate.invalidations := s.gate.invalidations ++ [(pasid, addr, size)]
      gate.descs := s.gate.descs.map fun p =>
        if slicePasid s p.2.slice == some pasid && recordIn p.2 addr size then
          (p.1, { p.2 with
            host := if p.2.nextElem < p.2.total || p.2.reseal.isSome then [] else p.2.host
            hold := match p.2.hold with
              | .ats retried _ => .ats retried true
              | h => h })
        else p }
    let again := s1.gate.seals.filter fun l => !l.2.dispatched &&
      (l.2.hostEntry.bind fun h => tget s1.gate.hostList h).any fun e => e.pasid == pasid && e.epoch.toNat == ep
    settle (again.foldl (fun s l => resealStart s l.1 255) s1)

/-- A failure at check 1 or 2 (R348): S1, and S4 beyond 16 in 1 s; a SEALED piece of the same queue in the slot that the
SERIAL names retires. -/
def checkForged (s : State) (cp queueId slot : Nat) (desc : Bytes) : State :=
  let s1 := limHit { (notice s 1 348 uGate queueId) with
    gate.failFlag := true, gate.failCount := min (s.gate.failCount + 1) 0x7FFF, gate.lastPort := cp
    gate.checkFail := s.gate.checkFail + 1 } .checkFail
  let s2 := checkFail s1 cp queueId cDescriptorInvalid 5 desc
  let s3 := match tget s2.gate.seals slot with
    | some l => if !l.dispatched && qid l.ctx l.queue = queueId then retire s2 slot cDescriptorInvalid 5 else s2
    | none => s2
  if 16 < limCount s3 .checkFail then raiseS4 s3 uGate 348 queueId else s3

/-- A CHECK of a piece that was SEALED before a gate reset (R357): EXECUTOR_RESET, and its descriptor loses a piece. -/
def checkLost (s : State) (cp queueId serial did : Nat) (desc : Bytes) : State :=
  let s1 := checkFail { s with gate.lostSeals := s.gate.lostSeals.filter fun p => p.1 != serial } cp queueId
    cExecutorReset 0 desc
  settle (finishDesc { s1 with gate.descs := tmod s1.gate.descs did fun d =>
    { d with live := d.live - 1, code := if d.code = cOk then cExecutorReset else d.code } } did)

/-- A piece's host-list entry does not carry its PASID's current epoch (R341, R348 check 4). -/
def staleHost (s : State) (l : LiveSeal) : Bool :=
  (l.hostEntry.bind fun h => tget s.gate.hostList h).any fun e =>
    e.epoch.toNat != tgetD s.gate.pasidEpoch e.pasid 0 % 256

/-- Checks 3 to 6 of R348 on the SEALED piece of a slot. -/
def checkPiece (s : State) (cp exec queueId slot : Nat) (l : LiveSeal) (desc : Bytes) : State :=
  if !ctxCurrent s l.ctx l.gen then retire (checkFail s cp queueId cAbandoned 0 desc) slot cAbandoned 0
  else if ((tget s.gate.descs l.did).bind (·.reseal)).isSome then
    { s with gate.descs := tmod s.gate.descs l.did fun d => { d with reseal := some (slot, cp) } }
  else if staleHost s l then resealStart s slot cp
  else if exec ≠ execOf l.raw then
    retire (checkFail s cp queueId cDescriptorInvalid 1 desc) slot cDescriptorInvalid 1
  else passCheck s slot cp

/-- CHECK (R348): the tag, then the slot and its SERIAL, then the piece itself. Nothing crosses a command port in reset (R60). -/
def execCheck (cp exec queueId : Nat) (desc : Bytes) (s : State) : Host.Outcome State Fault Refusal :=
  done <| whenUp s fun s =>
    if !s.crossOpen (160 + cp) then s
    else
    let serial := fld desc 96 8
    let slot := serial % 2 ^ 18
    match s.gate.lostSeals.find? fun p => p.1 == serial with
    | some (_, did) => checkLost s cp queueId serial did desc
    | none =>
      match tget s.gate.seals slot with
      | none => checkForged s cp queueId slot desc
      | some l =>
        let tag := sealTag s (desc.take 144) l.wrap (BitVec.ofNat 64 serial)
        if desc.drop 144 ≠ be 16 tag.toNat || l.serial.toNat ≠ serial || l.dispatched || l.port.isSome then
          checkForged s cp queueId slot desc
        else checkPiece s cp exec queueId slot l desc

/-- An executor reports a piece that a teardown cut (R369): where its generation has ended the report changes nothing, and is counted. -/
def lateReport (s : State) (sel : Nat → Bool) : State :=
  match s.gate.cutSeals.find? fun c => sel c.1 with
  | none => s
  | some (serial, ctx, gen) =>
    let s1 : State := { s with gate.cutSeals := s.gate.cutSeals.filter fun c => c.1 != serial }
    if ctxCurrent s ctx gen then s1 else genDiscard s1 ctx

/-- PIECE_RETIRE (R343, R349, R369): an executor reports that a dispatched piece has finished. -/
def execPieceRetire (slot : Nat) (code : Code) (detail : Nat) (s : State) : Host.Outcome State Fault Refusal :=
  done <| whenUp s fun s =>
    match tget s.gate.seals slot with
    | some l => if l.dispatched && execOf l.raw ≠ 5 then retire s slot code detail else s
    | none => lateReport s fun serial => serial % 2 ^ 18 == slot

/-- CPQ_DONE (R349, R369): retirements since the last sample, matched in the port's dispatch order. -/
def execCpqDone (cp count : Nat) (s : State) : Host.Outcome State Fault Refusal :=
  done <| whenUp s fun s =>
    let q := tgetD s.gate.order cp []
    let r := ccEvents s (160 + cp) (160 + cp) count
    let s1 : State := { r.1 with gate.order := tset s.gate.order cp (q.drop r.2) }
    (q.take r.2).foldl (fun s serial =>
      match tget s.gate.seals (serial % 2 ^ 18) with
      | some l =>
        if l.serial.toNat = serial && l.dispatched then retire s (serial % 2 ^ 18) cOk 0 else lateReport s (· == serial)
      | none => lateReport s (· == serial)) s1

/-- DOORBELL (R330): the queue's new ring tail. -/
def execDoorbell (ctx queue tail : Nat) (s : State) : Host.Outcome State Fault Refusal :=
  done <| whenUp s fun s =>
    match tget s.gate.queues (qid ctx queue) with
    | none => unboundDrop s
    | some q => { s with gate.queues := tset s.gate.queues (qid ctx queue) { q with tail := tail % max 1 q.ringSize } }

/-- CQ_HEAD (R330): the queue's new completion-ring head. -/
def execCqHead (ctx queue head : Nat) (s : State) : Host.Outcome State Fault Refusal :=
  done <| whenUp s fun s =>
    match tget s.gate.queues (qid ctx queue) with
    | none => unboundDrop s
    | some q => { s with gate.queues := tset s.gate.queues (qid ctx queue) { q with chead := head % max 1 q.cringSize } }

/-- FAULT_HOLD_LIMIT (R344): a held fault that was not resolved in time completes FAULT_UNMAPPED. -/
def execFaultHoldLimit (ctx queue : Nat) (s : State) : Host.Outcome State Fault Refusal :=
  done <| whenUp s fun s =>
    match waitingDesc s ctx queue Hold.isFault with
    | none => s
    | some (did, d) =>
      match d.hold with
      | .fault since addr limit =>
        if since + limit * 1000000 ≤ s.ns then queueOn (endDesc s did cFaultUnmapped 0 addr) ctx queue else s
      | _ => s

/-- QUEUE_CREATE (R326, R360): binds a queue to its context's generation, or changes only the vector of one bound. -/
def execQueueCreate (h : MbxHdr) (ctx queue ring ringSize cring cringSize vector : Nat) (s : State) :
    Host.Outcome State Fault Refusal :=
  done <| mailbox s h 0x0301 true (le 2 ctx ++ le 1 queue ++ le 8 ring ++ le 4 ringSize ++ le 8 cring ++
      le 4 cringSize ++ le 2 vector) fun s =>
    if (ctxAt s ctx).mode ≠ .live || 64 ≤ queue then fail s cStaleHandle
    else if vector ≠ 0 && (vector < 33 || 2047 < vector) then (s, cDescriptorInvalid, reason 1)
    else
      match tget s.gate.queues (qid ctx queue) with
      | some q =>
        if q.ring = ring && q.ringSize = ringSize && q.cring = cring && q.cringSize = cringSize then
          ({ s with gate.queues := tset s.gate.queues (qid ctx queue) { q with vector := vector } }, cOk, [])
        else fail s cBusyQuiesce
      | none =>
        let q : Queue :=
          { gen := (ctxAt s ctx).gen, slice := (ctxAt s ctx).slice, ring := ring, ringSize := ringSize, head := 0,
            tail := 0, cring := cring, cringSize := cringSize, chead := 0, ctail := 0, vector := vector,
            stopped := false }
        ({ s with gate.queues := tset s.gate.queues (qid ctx queue) q }, cOk, [])

/-- QUEUE_DESTROY (R360): fetching stops, the ring drains ABANDONED, and the queue is unbound when its sealed pieces have
retired. -/
def execQueueDestroy (h : MbxHdr) (ctx queue : Nat) (undrained : List Bytes) (s : State) :
    Host.Outcome State Fault Refusal :=
  done <| mailboxLater s h 0x0302 true (le 2 ctx ++ le 1 queue) fun s =>
    match tget s.gate.queues (qid ctx queue) with
    | none => (s, some (cStaleHandle, []))
    | some q =>
      let s1 : State := { s with gate.queues := tset s.gate.queues (qid ctx queue) { q with stopped := true } }
      let s2 := drainRing (ringCount q) undrained s1 ctx queue
      let s3 : State := { s2 with gate.queues := tmod s2.gate.queues (qid ctx queue) fun q => { q with head := q.tail } }
      let s4 := settle s3
      if s4.gate.descs.any fun d => d.2.ctx == ctx && d.2.queue == queue then
        ({ s4 with gate.destroying := s4.gate.destroying ++ [(qid ctx queue, h)] }, none)
      else ({ s4 with gate.queues := tdel s4.gate.queues (qid ctx queue) }, some (cOk, []))

/-- A slice's object by its handle (R350, R360): the object, or the code that refuses it. -/
def sliceObj (s : State) (slice handle : Nat) : Except Code (Nat × MemObj) :=
  match tget s.gate.objs (objIndex handle) with
  | none => .error cStaleHandle
  | some o =>
    if o.state ≠ 1 || o.gen ≠ objGen handle then .error cStaleHandle
    else if o.slice ≠ slice then .error cFaultPermission else .ok (objIndex handle, o)

/-- Peer sets of a slice (R352). -/
def peerPart (s : State) (slice : Nat) : Nat :=
  if slice = 0 then 32 else if slice = 31 then 16 else 208 / max 1 s.tenants

/-- The peer-set indices in use, and those of one slice. -/
def peerSets (s : State) : Table MemObj := s.gate.objs.filter fun o => o.2.peers.isSome

/-- The least peer-set index from 1 that no object has. -/
def freePeer (s : State) : Nat :=
  let used := (peerSets s).filterMap fun o => o.2.peers.map (·.1)
  (((List.range (used.length + 1)).map (· + 1)).find? fun i => !used.contains i).getD 0

/-- WINDOW_EXPORT (R352, R360): remote rights, as RIGHTS [4:2] of R350, and up to 240 nodes of a peer set. -/
def execWindowExport (h : MbxHdr) (handle rights : Nat) (nodes : List Nat) (s : State) :
    Host.Outcome State Fault Refusal :=
  done <| mailbox s h 0x0303 false (le 4 handle ++ le 1 rights ++ nodes.flatMap (le 2)) fun s =>
    match sliceObj s (hslice h) handle with
    | .error c => fail s c
    | .ok (i, o) =>
      let r := bits rights 4 2
      let put (o : MemObj) : State := { s with gate.objs := tset s.gate.objs i o }
      if (bit r 0 && !bit o.rights 0) || (bits r 2 1 != 0 && !bit o.rights 1) then fail s cFaultPermission
      else if r = 0 then (put { o with rights := o.rights % 4, peers := none }, cOk, le 1 0)
      else
        let o1 : MemObj := { o with rights := o.rights % 4 + 4 * r }
        match o.peers with
        | some (k, old) =>
          (put { o1 with peers := some (k, (nodes.take 240).foldl insertN old) }, cOk, le 1 k)
        | none =>
          if peerPart s (hslice h) ≤ ((peerSets s).filter fun p => p.2.slice == hslice h).length then
            fail s cRefusedQueue
          else
            let k := freePeer s
            (put { o1 with peers := some (k, (nodes.take 240).foldl insertN []) }, cOk, le 1 k)

/-- Tier-A pages and tier-B regions of the context a header names (R360). -/
def ctxPages (s : State) (c : Nat) : Nat := (s.gate.pages.filter fun p => p.2.kind == 1 && p.2.owner == c).length
def ctxRegions (s : State) (c : Nat) : Nat :=
  (s.mem.regions.filter fun r => r.2.state != 0 && r.2.ownerKind == 0 && r.2.ctx == c).length

/-- OBJECT_INFO (R360): KIND, SIZE, HOLDERS, QREFS, and the context's use of the tiers. -/
def execObjectInfo (h : MbxHdr) (handle : Nat) (s : State) : Host.Outcome State Fault Refusal :=
  done <| mailbox s h 0x0304 false (le 4 handle) fun s =>
    match sliceObj s (hslice h) handle with
    | .error c => fail s c
    | .ok (i, o) =>
      (s, cOk, le 1 o.kind ++ le 8 o.size ++ le 4 o.holders.length ++ le 4 (objRefs s i o) ++
        le 4 (ctxPages s h.ctxId) ++ le 4 (ctxRegions s h.ctxId))

end Sys2Proof.Machine
end

