-- ==== Sys2Proof/Machine/HostSeal.lean ====
section
/-!
DEFINITION. HostSeal.lean: bounce records in both directions, and the host's mailbox and vectors (R307 to R320).
-/
namespace Sys2Proof.Machine

/-- Fields of a HOST_DMA descriptor (R334): direction out, payload bytes, host VA, device VA. -/
def hdOut (raw : Bytes) : Bool := bit (dBody raw 0 1) 0
def hdLen (raw : Bytes) : Nat := dBody raw 4 4
def hdHost (raw : Bytes) : Nat := dBody raw 8 8
def hdDev (raw : Bytes) : Nat := dBody raw 16 8

/-- The tier-A address of a piece's device range (R335). -/
def hdTierA (l : LiveSeal) : Nat := (l.trs.getD 1 0) % 2 ^ 48

/-- The host addresses that n bytes from VA v take in a list of page spans, each with its length (R341). -/
def spanPlaces : List (Nat × Nat) → Nat → Nat → List (Nat × Nat)
  | [], _, _ => []
  | (hpa, log2) :: rest, v, n =>
    if n = 0 then []
    else
      let k := min n (2 ^ log2 - v % 2 ^ log2)
      (hpa + v % 2 ^ log2, k) :: spanPlaces rest (v + k) (n - k)

/-- Where the record of a piece lies in host memory (R310, R311, R341). -/
def hdPlaces (s : State) (l : LiveSeal) : List (Nat × Nat) :=
  spanPlaces (((l.hostEntry.bind fun e => tget s.gate.hostList e).map (·.spans)).getD []) (hdHost l.raw) (48 + hdLen l.raw)

/-- A class's byte and record buckets of a direction (R320, R230), scaled by the throttle. -/
def hostShare (s : State) (who : Nat) : Nat := scaled s who (hostRate s who)
def hostRecShare (s : State) (who : Nat) : Nat := scaled s who (hostRecRate s who)
def hostBytesLevel (s : State) (who dir : Nat) : Nat :=
  tgetD s.host.bucketBytes (2 * who + dir) (max (hostShare s who / 100000) 65584)
def hostRecLevel (s : State) (who dir : Nat) : Nat :=
  tgetD s.host.bucketRecords (2 * who + dir) (max (hostRecShare s who / 100000) 1)

/-- Whether a record's class has room in both buckets (R320). -/
def hostRoom (s : State) (who dir bytes : Nat) : Bool :=
  decide (bytes ≤ hostBytesLevel s who dir) && decide (1 ≤ hostRecLevel s who dir)

/-- Charge a record to its class. -/
def hostCharge (s : State) (who dir bytes : Nat) : State :=
  { s with
    host.bucketBytes := tset s.host.bucketBytes (2 * who + dir) (hostBytesLevel s who dir - bytes)
    host.bucketRecords := tset s.host.bucketRecords (2 * who + dir) (hostRecLevel s who dir - 1) }

/-- Bytes of the 4 MiB verify buffer in use (R310 step 3). -/
def verifyUsed (s : State) : Nat := (s.host.work.map (·.bytes)).sum

/-- The dispatched host-DMA piece in a slot, of a direction. -/
def hostPiece (s : State) (slot : Nat) (out : Bool) : Option LiveSeal :=
  (tget s.gate.seals slot).filter fun l => l.cls == kHostDma && l.dispatched && hdOut l.raw == out

/-- A piece is under way at the engine. -/
def hostStarted (s : State) (slot : Nat) : Bool := s.host.work.any fun w => w.slot == slot

/-- What every start meets first (R322, R369): an ended generation, or no session. -/
def hostStart (s : State) (slot : Nat) (l : LiveSeal) (f : State → State) : State :=
  if !ctxCurrent s l.ctx l.gen then retire (genDiscard s l.ctx) slot cGenerationDiscard 0
  else if s.host.session ≠ 2 then retire s slot cKeyDestroyed 0
  else f s

/-- HOST_INBOUND (R310 steps 3 and 4): verify-buffer space and the class's buckets, then the DMA read. A piece without them
waits. -/
def execHostInbound (slot : Nat) (s : State) : Host.Outcome State Fault Refusal :=
  done <| whenUp s fun s =>
    match hostPiece s slot false with
    | none => s
    | some l =>
      if hostStarted s slot || !s.crossOpen 128 then s
      else hostStart s slot l fun s =>
        let n := hdLen l.raw
        if 4194304 < verifyUsed s + n || !hostRoom s l.slice 0 (48 + n) then s
        else
          let s1 := hostCharge s l.slice 0 (48 + n)
          ({ s1 with host.work := s1.host.work ++ [⟨slot, n⟩] } : State).emit (.hostRead (hdPlaces s l))

/-- Bytes 0 to 31 of a record: its additional authenticated data (R307). -/
def recordAad (r : BounceRec) : Bytes :=
  le 1 r.format ++ le 1 r.flags ++ le 1 r.slice ++ le 1 r.keyGen ++ le 2 r.ctxId ++ le 2 r.ctxGen ++ le 8 r.seq ++
    le 4 r.length ++ le 4 r.reserved ++ le 8 r.va

/-- The IV of a record (R308): CTX_ID, CTX_GEN and SEQ, big-endian. -/
def recordIv (ctx gen seq : Nat) : BitVec 96 := BitVec.ofNat 96 ((ctx * 2 ^ 16 + gen) * 2 ^ 64 + seq)

/-- The inbound generation that a record's KEY_GEN names, if the slice holds it (R304, R312 check 3). -/
def inboundGen (s : State) (slice keyGen : Nat) : Option Nat :=
  ((s.host.genIn :: if s.host.updIn then [s.host.genIn - 1] else []).filter fun g =>
    g % 256 == keyGen && (findReg s (.bounce slice 0 g)).isSome).head?

/-- Checks 1 to 4 of R312, after the transport: the reason of the first that fails. -/
def recordRefuses (s : State) (l : LiveSeal) (r : BounceRec) : Option Nat :=
  if r.format ≠ 4 || r.flags ≠ 0 || 32 ≤ r.slice || 4096 ≤ r.ctxId || r.reserved ≠ 0 || r.length ≠ hdLen l.raw ||
      r.payload.length ≠ r.length then some 1
  else if r.slice ≠ l.slice || r.ctxId ≠ l.ctx || r.ctxGen ≠ l.gen || r.va ≠ hdDev l.raw then some 2
  else if (inboundGen s l.slice r.keyGen).isNone then some 3
  else if !winFresh (winAt s l.ctx) r.seq then some 4 else none

/-- A rejected record (R312, R314, R324): S0 and counted; 1,024 tag failures of one slice within 1 s are S1. Nothing is
written. -/
def rejectRecord (s : State) (slot : Nat) (l : LiveSeal) (why : Nat) : State :=
  let s1 := quietS0 (limHit s (.hostReject l.ctx why)) uHse
  let s2 : State := { s1 with
    host.lastReason := why, host.lastSlice := l.slice, host.lastCtx := l.ctx
    host.tagFail := if why = 5 then s1.host.tagFail + 1 else s1.host.tagFail
    host.otherFail := if why = 5 then s1.host.otherFail else s1.host.otherFail + 1
    host.rejectTag := if why = 5 then s1.host.rejectTag + 1 else s1.host.rejectTag
    host.rejectOther := if why = 5 then s1.host.rejectOther else s1.host.rejectOther + 1 }
  let s3 := if why = 5 then
      let t := limHit s2 (.tagFailSlice l.slice)
      if limCount t (.tagFailSlice l.slice) = 1025 then
        latch t { unit := uHse, cls := 1, cause := 314, whereAt := l.slice, slice := some l.slice }
      else t
    else s2
  retire s3 slot cHostRecordRejected why

/-- Tier A's verdict on a range under a piece's stamp (R31, R66, R310 step 6). -/
def hostDenied (s : State) (l : LiveSeal) (a n : Nat) (write : Bool) : Option (Code × Nat) :=
  tierAVerdict s l.ctx l.gen a n write

/-- A record is accepted (R310 steps 5 to 7, R313): written to tier A under the stamp, its window entry set, and completed. -/
def takeRecord (s : State) (slot : Nat) (l : LiveSeal) (r : BounceRec) (p : KeyPath) (data : Bytes) : State :=
  let a := hdTierA l
  let s1 : State := { (spendKey s p 1 0) with
    host.windows := tset s.host.windows l.ctx (winTake (winAt s l.ctx) r.seq), host.recIn := s.host.recIn + 1 }
  match hostDenied s1 l a r.length true with
  | some v => afterVerdict (retire s1 slot v.1 0) v l.ctx
  | none =>
    let s2 := useCtx (bumpSlice (bumpUnit (bumpUnit s1 uHse 0 1) uHse 1 (48 + r.length)) l.slice 9 (48 + r.length)) l.ctx 6
      (48 + r.length)
    retire (tapRange (tierAWrite s2 a data) 6 l.ctx l.gen (hdDev l.raw) data) slot cOk 0

/-- HOST_RECORD_ARRIVE (R310 to R313): the checks in order, then the tag; a key at its limit refuses with KEY_LIMIT. -/
def execHostRecordArrive (slot : Nat) (r : BounceRec) (transportOk : Bool) (s : State) :
    Host.Outcome State Fault Refusal :=
  done <| whenUp s fun s =>
    match hostPiece s slot false with
    | none => s
    | some l =>
      if !hostStarted s slot || !s.crossOpen 128 then s
      else
      let s := s.intake 128 ((48 + r.payload.length + 127) / 128)
      if !ctxCurrent s l.ctx l.gen then retire (genDiscard s l.ctx) slot cGenerationDiscard 0
      else if !transportOk then rejectRecord s slot l 6
      else
        match recordRefuses s l r, inboundGen s l.slice r.keyGen with
        | some why, _ => rejectRecord s slot l why
        | none, none => rejectRecord s slot l 3
        | none, some g =>
          let p := KeyPath.bounce l.slice 0 g
          match engKey s p with
          | some k =>
            if !keyAllows s p 1 0 then retire s slot cKeyLimit 0
            else
              match gcmOpen k (recordIv r.ctxId r.ctxGen r.seq) (recordAad r) r.payload r.tag with
              | none => rejectRecord s slot l 5
              | some data => takeRecord s slot l r p data
          | none => rejectRecord s slot l 3

/-- A sealed outbound record (R307, R308, R311). -/
def outboundRecord (s : State) (l : LiveSeal) (k : Key) (seq : Nat) : BounceRec :=
  let r : BounceRec :=
    { format := 4, flags := 1, slice := l.slice, keyGen := s.host.genOut % 256, ctxId := l.ctx, ctxGen := l.gen, seq := seq,
      length := hdLen l.raw, reserved := 0, va := hdDev l.raw, payload := [], tag := 0 }
  let c := gcmSeal k (recordIv l.ctx l.gen seq) (recordAad r) (tierABytes s (hdTierA l) (hdLen l.raw))
  { r with payload := c.1, tag := c.2 }

/-- Seal and write one outbound record (R309, R311): it takes the context's next SEQ, whose low half is the completion's detail.
DESIGN CHOICE: R311 sends the code of a write that the host cannot accept to R317, which names none, so the code is free among those of
the tables that refuse (log 4). -/
def sendRecord (s : State) (slot : Nat) (l : LiveSeal) (k : Key) (accepted : Bool) : State :=
  let w := winAt s l.ctx
  let n := 48 + hdLen l.raw
  let s1 : State := { (spendKey (hostCharge s l.slice 1 n) (bounceNow s l.slice 1) 1 0) with
    host.windows := tset s.host.windows l.ctx { w with nextOut := w.nextOut + 1 }
    host.sealedOut := insertN s.host.sealedOut l.did }
  if accepted then
    let s2 := tapRange (s1.emit (.hostRecord (hdPlaces s l) (outboundRecord s l k w.nextOut))) 7 l.ctx l.gen (hdDev l.raw)
      (tierABytes s (hdTierA l) (hdLen l.raw))
    let s3 := useCtx (bumpSlice (bumpUnit (bumpUnit s2 uHse 0 1) uHse 2 n) l.slice 10 n) l.ctx 7 n
    retire { s3 with host.recOut := s3.host.recOut + 1 } slot cOk (w.nextOut % 2 ^ 32)
  else retire s1.spend slot (s1.freeCode hostWriteCodes) (w.nextOut % 2 ^ 32)

/-- HOST_OUTBOUND (R311): tier A is read under the stamp, sealed and written. A piece whose class has no room waits. -/
def execHostOutbound (slot : Nat) (accepted : Bool) (s : State) : Host.Outcome State Fault Refusal :=
  done <| whenUp s fun s =>
    match hostPiece s slot true with
    | none => s
    | some l => hostStart s slot l fun s =>
      if !s.crossOpen 128 || !hostRoom s l.slice 1 (48 + hdLen l.raw) then s
      else
        match hostDenied s l (hdTierA l) (hdLen l.raw) false with
        | some v => afterVerdict (retire s slot v.1 0) v l.ctx
        | none =>
          match engKey s (bounceNow s l.slice 1) with
          | some k => if keyAllows s (bounceNow s l.slice 1) 1 0 then sendRecord s slot l k accepted else retire s slot cKeyLimit 0
          | none => retire s slot cKeyDestroyed 0

/-- The answer of BOUNCE_STATE (R317): inbound h, next outbound SEQ, and the generations held, current and previous. Where a
direction holds one generation, what stands for its previous one is not stated (log 4, log 23). -/
def bounceState (s : State) (ctx : Nat) : State × Bytes :=
  let w := winAt s ctx
  let pin := if s.host.updIn then s.host.genIn - 1 else (s.drawn 8).toNat
  let pout := if s.host.marksOut.isSome then s.host.genOut - 1 else (s.spend.drawn 8).toNat
  (s.spend.spend, le 8 w.high ++ le 8 w.nextOut ++ le 1 s.host.genIn ++ le 1 pin ++ le 1 s.host.genOut ++
    le 1 pout)

/-- BOUNCE_STATE (R317): a slice-page command for a context of the slice. -/
def execBounceState (h : MbxHdr) (s : State) : Host.Outcome State Fault Refusal :=
  done <| mailbox s h 0x0101 false [] fun s =>
    if ctxExists s h.ctxId && (ctxAt s h.ctxId).slice == hslice h then
      let r := bounceState s h.ctxId
      (r.1, cOk, r.2)
    else fail s cFaultPermission

/-- MSIX_UNMASK (R319): the host writes a vector's mask. Unmasked, a vector whose pending bit is set is sent once; masked, it waits again. -/
def execMsixUnmask (m : MsixMask) (s : State) : Host.Outcome State Fault Refusal :=
  done <| whenUp s fun s =>
    if m.masked then { s with host.masked := insertN s.host.masked m.vector }
    else
      let s1 : State := { s with host.masked := eraseN s.host.masked m.vector }
      if s.host.msixPending.contains m.vector then
        msix { s1 with host.msixPending := eraseN s1.host.msixPending m.vector } m.vector
      else s1

end Sys2Proof.Machine
end

