-- ==== Sys2Proof/Machine/Contexts.lean ====
section
/-!
DEFINITION. Contexts.lean: slices, contexts, shares, own-use queries and freezing (R363 to R378).
-/
namespace Sys2Proof.Machine

/-- Contexts of a slice that are not FREE. -/
def sliceCtxs (s : State) (n : Nat) : Nat := (s.ctxs.table.filter fun c => c.2.mode != .free && c.2.slice == n).length

/-- A PASID is bound to another slice (R364). -/
def pasidTaken (s : State) (n pasid : Nat) : Bool := s.ctxs.slices.any fun x => x.1 != n && x.2.pasid == some pasid

/-- Bind a PASID (R364): a slice that comes into service counts its use afresh (R377) and gets its bounce keys (R303). -/
def bindPasid (s : State) (n pasid : Nat) : State :=
  let fresh := !sliceInService s n
  let s1 : State := { s with ctxs.slices := tset s.ctxs.slices n ⟨1, some pasid⟩ }
  if fresh then hostSliceIn { s1 with ctxs.sliceUsage := s1.ctxs.sliceUsage.filter fun u => u.1 / 16 != n } n else s1

/-- Why the bounce keys of a slice that comes into service while a session is open cannot be had (R88, R100), if they cannot. -/
def bounceRefused (s : State) (n : Nat) : Option Code :=
  if !sliceInService s n && s.host.session == 2 then secretRefused s 2 else none

/-- PASID_BIND (R100, R364, R386). -/
def execPasidBind (h : MbxHdr) (slice pasid : Nat) (s : State) : Host.Outcome State Fault Refusal :=
  done <| mailbox s h 0x0401 true (le 1 slice ++ le 4 pasid) fun s =>
    if !sliceExists s slice || 2 ^ 20 ≤ pasid then (s, cDescriptorInvalid, reason 1)
    else if (slicePasid s slice).isSome && sliceCtxs s slice ≠ 0 then fail s cBusyQuiesce
    else if pasidTaken s slice pasid then fail s cFaultPermission
    else if let some c := bounceRefused s slice then fail s c
    else (bindPasid s slice pasid, cOk, [])

/-- Context ids at most of a slice (R363). -/
def ctxQuota (s : State) (n : Nat) : Nat := if n = 0 then 512 else if n = 31 then 64 else 3519 / max 1 s.tenants

/-- An id that CONTEXT_CREATE may take (R363, R367, R368). -/
def ctxFree (s : State) (c : Nat) : Bool :=
  decide (1 ≤ c) && decide (c < 4096) && (ctxAt s c).mode == .free && !(ctxAt s c).retired

/-- The id that a request gets: the one it names, or the lowest FREE one. -/
def ctxPick (s : State) (id : Nat) : Option Nat :=
  if id = 0xFFFF then (List.range 4096).find? (ctxFree s) else if ctxFree s id then some id else none

/-- A context comes to life at its id's generation, its memory and stream keys ready (R367). -/
def newContext (s : State) (slice c flags : Nat) : State :=
  let g := (ctxAt s c).gen
  let s1 : State := { s with ctxs.table := tset s.ctxs.table c ⟨.live, g, false, slice, bit flags 0⟩ }
  needKey (needKey (reborn (reborn s1 (.ctxmem c g)) (.ctxaux c g)) (.ctxmem c g)) (.ctxaux c g)

/-- CONTEXT_CREATE (R367, R364). A frozen slice takes none. -/
def execContextCreate (h : MbxHdr) (slice id flags : Nat) (s : State) : Host.Outcome State Fault Refusal :=
  done <| mailbox s h 0x0402 true (le 1 slice ++ le 2 id ++ le 1 flags) fun s =>
    if !sliceExists s slice then (s, cDescriptorInvalid, reason 1)
    else if (slicePasid s slice).isNone then fail s cFaultPermission
    else if sliceFrozen s slice then fail s cBusyQuiesce
    else if ctxQuota s slice ≤ sliceCtxs s slice then fail s cContextTableFull
    else
      match ctxPick s id with
      | none => fail s cContextTableFull
      | some c => (newContext s slice c flags, cOk, le 2 c ++ le 2 (ctxAt s c).gen)

/-- CONTEXT_DESTROY (R375, R376): the teardown, answered at its step 6. `undrained` is what the rings held, by queue. -/
def execContextDestroy (h : MbxHdr) (id : Nat) (undrained : List (Nat × Bytes)) (s : State) :
    Host.Outcome State Fault Refusal :=
  done <| mailbox s h 0x0403 true (le 2 id) fun s =>
    if !ctxExists s id then fail s cStaleHandle
    else (teardown s id fun q => (undrained.filter fun u => u.1 == q).map (·.2), cOk, [])

/-- The target of a share (R373, R374): a LIVE context of the same slice. -/
def shareTarget (s : State) (slice other : Nat) : Option Code :=
  let x := ctxAt s other
  if x.mode = .free || 4096 ≤ other then some cStaleHandle
  else if x.slice ≠ slice then some cFaultPermission
  else if x.mode ≠ .live then some cStaleHandle else none

/-- An event of a slice that a handle names (R353). -/
def sliceEvt (s : State) (slice h : Nat) : Except Code (Nat × EvtObj) :=
  match tget s.gate.evts (evtIndex h) with
  | none => .error cStaleHandle
  | some e =>
    if e.state = 0 || e.gen ≠ evtGen h || h = 0 then .error cStaleHandle
    else if e.slice ≠ slice then .error cFaultPermission else .ok (evtIndex h, e)

/-- EVENT_SHARE (R373). -/
def execEventShare (h : MbxHdr) (handle other : Nat) (s : State) : Host.Outcome State Fault Refusal :=
  done <| mailbox s h 0x0404 false (le 4 handle ++ le 2 other) fun s =>
    match sliceEvt s (hslice h) handle, shareTarget s (hslice h) other with
    | .error c, _ => fail s c
    | .ok _, some c => fail s c
    | .ok (i, e), none =>
      ({ s with gate.evts := tset s.gate.evts i { e with holders := insertN e.holders other } }, cOk, [])

/-- EVENT_QUERY (R372): the event's state and recorded code. -/
def execEventQuery (h : MbxHdr) (handle : Nat) (s : State) : Host.Outcome State Fault Refusal :=
  done <| mailbox s h 0x0406 false (le 4 handle) fun s =>
    match sliceEvt s (hslice h) handle with
    | .error c => fail s c
    | .ok (_, e) => (s, cOk, le 1 e.state ++ [e.code])

/-- Where a share would map its object (R374, R336, R339): the reason that refuses the VA, if any. -/
def shareVa (s : State) (other va : Nat) (o : MemObj) : Option Nat :=
  if o.kind = 3 then
    if va / 2 ^ 62 ≠ 1 then some 3
    else if (tget (tgetD s.gate.tokenSlots other []) (bits va 39 36)).isSome then some 7 else none
  else if 2 ^ 44 ≤ va then some 3
  else if va % 2 ^ 26 ≠ 0 then some 2
  else if (ctxUnits s other).any fun m => decide (va / 2 ^ 26 ≤ m.1) && decide (m.1 < va / 2 ^ 26 + o.frames.length)
  then some 7 else none

/-- The first share makes a group of the owner (R295, R374): its pages become the group's. None where no group is free. -/
def shareGroup (s : State) (i : Nat) (o : MemObj) : Option (State × Nat) :=
  match o.group with
  | some g => some (s, g)
  | none =>
    let g := leastFree s.gate.groups 0
    if 1024 ≤ g then none
    else
      let members := o.holders.map fun c => (c, (ctxAt s c).gen, bit o.rights 1)
      let s := (objPages o).foldl (fun s p => setPage s p { pageOwner s p with kind := 2, owner := g, gen := 0 }) s
      some ({ setGroup s g members with gate.objs := tset s.gate.objs i { o with group := some g } }, g)

/-- Put a context into a share group and among an object's holders (R374). -/
def shareJoin (s : State) (i g other rights : Nat) : State :=
  let m := (tgetD s.gate.groups g []).filter fun m => m.1 != other
  { setGroup s g (m ++ [(other, (ctxAt s other).gen, bit rights 1)]) with
    gate.objs := tmod s.gate.objs i fun o => { o with holders := insertN o.holders other } }

/-- MEMORY_SHARE (R374): the object's pages become a share group's and its regions rotate to the slice memory key; the share is
mapped and answered once that has ended. -/
def execMemoryShare (h : MbxHdr) (handle other va rights : Nat) (s : State) : Host.Outcome State Fault Refusal :=
  done <| settle <| mailboxLater s h 0x0405 false (le 4 handle ++ le 2 other ++ le 8 va ++ le 1 rights) fun s =>
    let no (c : Code) (b : Bytes) : State × Option (Code × Bytes) := (s, some (c, b))
    match sliceObj s (hslice h) handle, shareTarget s (hslice h) other with
    | .error c, _ => no c []
    | .ok _, some c => no c []
    | .ok (i, o), none =>
      if (bit rights 0 && !bit o.rights 0) || (bit rights 1 && !bit o.rights 1) || 4 ≤ rights then no cFaultPermission []
      else
        match shareVa s other va o with
        | some r => no cDescriptorInvalid (reason r)
        | none =>
          match shareGroup s i o with
          | none => no cObjectTableFull []
          | some (s1, g) =>
            if 16 ≤ ((tgetD s1.gate.groups g []).filter fun m => m.1 != other).length then no cObjectTableFull []
            else
              let s2 := shareJoin s1 i g other rights
              let own := (objRegions o).filter fun r => ((tget s2.mem.regions r).map (·.ownerKind)) == some 0
              let s3 := own.foldl (fun s r => queueRotation s r 1) s2
              ({ s3 with gate.sharing := s3.gate.sharing ++ [⟨i, other, va, rights, h⟩] }, none)

/-- What a context holds now (R377): tier-A pages, tier-B regions, objects, events and held faults. -/
def ctxHolds (s : State) (c : Nat) : List Nat :=
  let mine := (s.gate.objs.filter fun o => o.2.state == 1 && o.2.holders.contains c).map (·.2)
  [(mine.map fun o => (objPages o).length).sum, (mine.map fun o => (objRegions o).length).sum, mine.length,
    (s.gate.evts.filter fun e => e.2.state != 0 && e.2.holders.contains c).length,
    (s.gate.descs.filter fun d => d.2.ctx == c && d.2.hold.isFault).length]

/-- Add lists of counters. -/
def addAll (l : List (List Nat)) : List Nat := l.foldl (fun a b => List.zipWith (· + ·) a b) [0, 0, 0, 0, 0]

/-- The counters of R377 in its order. -/
def usageBody (counts : Nat → Nat) (holds : List Nat) : Bytes :=
  ((List.range 8).flatMap fun i => le 8 (counts i)) ++ holds.flatMap (le 8) ++ le 8 (counts 8)

/-- CTX_USAGE (R377): one context of the slice, or the whole slice for CTX_ID 0. -/
def execCtxUsage (h : MbxHdr) (id : Nat) (s : State) : Host.Outcome State Fault Refusal :=
  done <| mailbox s h 0x0407 false (le 2 id) fun s =>
    if id = 0 then
      let ids := (s.ctxs.table.filter fun c => c.2.mode != .free && c.2.slice == hslice h).map (·.1)
      (s, cOk, usageBody (fun i => tcount s.ctxs.sliceUsage (hslice h * 16 + i)) (addAll (ids.map (ctxHolds s))))
    else if ctxExists s id && (ctxAt s id).slice == hslice h then
      (s, cOk, usageBody (fun i => tcount s.ctxs.usage (id * 16 + i)) (ctxHolds s id))
    else fail s cFaultPermission

/-- Classes whose dispatched pieces are cut by a freeze (R378); all others run to retirement. -/
def freezeCuts (k : Nat) : Bool := k == kArray || k == kCopy || k == kRemoteWrite || k == kRemoteRead

/-- The element from which a piece's work is unfinished at a freeze (R378). What an array piece has done is its counted tiles
and those of the last sample; how far a running DMA piece has come is a free multiple of 4 KiB. -/
def unfinished (s : State) (l : LiveSeal) (slot last : Nat) : Nat :=
  if !l.dispatched then l.start
  else if l.cls = kArray then
    l.start + min l.len ((tcount s.arb.pieceTiles slot + last) * dBody l.raw 12 4)
  else l.start + min l.len ((s.drawn 32).toNat % (l.len / 4096 + 1) * 4096)

/-- One descriptor at a freeze (R378): pieces that are cut or not dispatched are withdrawn, and the descriptor becomes a pending
piece from its first unfinished element. -/
def freezeDesc (running : Option Nat) (tilesDone : Nat) (s : State) (p : Nat × Desc) : State :=
  let mine := s.gate.seals.filter fun l => l.2.did == p.1
  let cut := mine.filter fun l => !l.2.dispatched || freezeCuts l.2.cls
  if cut = [] && p.2.total ≤ p.2.nextElem then s
  else
    let elem := (cut.map fun l => unfinished s l.2 l.1 (if running = some l.1 then tilesDone else 0)).foldl min p.2.nextElem
    let s1 := cut.foldl (fun s l => releaseSlot s l.1) s.spend
    { s1 with
      gate.descs := tdel s1.gate.descs p.1
      ctxs.pend := s1.ctxs.pend ++ [⟨p.2.slice, p.2.ctx, p.2.queue, p.2.cp, elem, p.2.raw⟩] }

/-- Freeze a slice (R378): its contexts are FROZEN, the array is cut, and its work becomes pending pieces. -/
def freezeSlice (s : State) (n tilesDone : Nat) : State :=
  let s1 : State := { s with
    ctxs.slices := tmod s.ctxs.slices n fun x => { x with state := 2 }
    ctxs.table := s.ctxs.table.map fun c =>
      (c.1, if c.2.slice = n ∧ c.2.mode = .live then { c.2 with mode := .frozen } else c.2) }
  let running := s1.arb.runSlot.filter fun k => ((tget s1.gate.seals k).map (·.slice)) == some n
  let s2 := cutArray s1 fun l => l.slice == n
  (s2.gate.descs.filter fun d => d.2.slice == n).foldl (freezeDesc running tilesDone) s2

/-- A live alloy step of a slice (R378). -/
def sliceSteps (s : State) (n : Nat) : Bool := s.alloys.any fun a => a.2.steps.any fun t => t.2.slice == n && t.2.state != 3

/-- SLICE_FREEZE (R378): answered when the slice has settled. -/
def execSliceFreeze (h : MbxHdr) (slice tilesDone : Nat) (s : State) : Host.Outcome State Fault Refusal :=
  done <| settle <| mailboxLater s h 0x0408 true (le 1 slice) fun s =>
    if !sliceExists s slice then (s, some (cDescriptorInvalid, reason 1))
    else if slice = 0 || slice = 31 then (s, some (cFaultPermission, []))
    else if ((tget s.ctxs.slices slice).map (·.state)).getD 0 ≠ 1 || sliceSteps s slice then (s, some (cBusyQuiesce, []))
    else
      let s1 := freezeWatches (freezeSlice s slice tilesDone) slice
      ({ s1 with ctxs.freezing := s1.ctxs.freezing ++ [(slice, h)] }, none)

/-- A pending piece becomes a descriptor again, from its element (R378). What follows a piece that has run is not refused (R343). -/
def thawPiece (s : State) (p : PendPiece) : State :=
  match tget s.gate.queues (qid p.ctx p.queue) with
  | none => s
  | some q =>
    let d := { newDesc s p.cp p.ctx p.queue q p.raw with nextElem := p.elem, held := decide (0 < p.elem) }
    { s with gate.descs := tset s.gate.descs s.gate.nextDid d, gate.nextDid := s.gate.nextDid + 1 }

/-- Thaw a slice (R378): pending pieces are sealed again in queue order before any later descriptor, and fetching resumes. -/
def thawSlice (s : State) (n : Nat) : State :=
  let mine := s.ctxs.pend.filter fun p => p.slice == n
  let s1 : State := { s with
    ctxs.slices := tmod s.ctxs.slices n fun x => { x with state := 1 }
    ctxs.table := s.ctxs.table.map fun c =>
      (c.1, if c.2.slice = n ∧ c.2.mode = .frozen then { c.2 with mode := .live } else c.2)
    ctxs.pend := s.ctxs.pend.filter fun p => p.slice != n }
  let s2 := mine.foldl thawPiece s1
  mine.foldl (fun s p => queueOn s p.ctx p.queue) s2

/-- SLICE_THAW (R378, R385): of a frozen slice. -/
def execSliceThaw (h : MbxHdr) (slice : Nat) (s : State) : Host.Outcome State Fault Refusal :=
  done <| mailbox s h 0x0409 true (le 1 slice) fun s =>
    if !sliceExists s slice then (s, cDescriptorInvalid, reason 1)
    else if ((tget s.ctxs.slices slice).map (·.state)).getD 0 ≠ 3 then fail s cBusyQuiesce
    else (thawSlice s slice, cOk, [])

/-- No tenant slice has a context or a memory object (R365). -/
def tenantsEmpty (s : State) : Bool :=
  let tenant (n : Nat) : Bool := decide (1 ≤ n) && decide (n ≤ 16)
  !s.ctxs.table.any (fun c => c.2.mode != .free && tenant c.2.slice) &&
    !s.gate.objs.any fun o => o.2.state != 0 && tenant o.2.slice

/-- A slice that leaves service (R98, R303): its bounce keys go, its memory and digest keys are destroyed, and the generations of both
advance. -/
def sliceOut (s : State) (n : Nat) : State := rotateDigest (destroySliceMem (hostSliceOut s n) n) n

/-- TENANT_SLICES (R98, R365, R389, R392): every share follows N at once; slices above N leave service. -/
def execTenantSlices (n : Nat) (s : State) : Host.Outcome State Fault Refusal :=
  done <| whenUp s fun s =>
    if !([1, 2, 4, 8, 16] : List Nat).contains n then answer s 0x82 0x4000 1 4 cOk 0 []
    else if !tenantsEmpty s then answerWrite s 0x4000 1 cBusyQuiesce
    else
      let gone := (List.range 17).filter fun k => decide (n < k)
      let s1 := gone.foldl sliceOut { s with
        dict.force := tset s.dict.force (ekey 0x4000 1) n
        ctxs.slices := s.ctxs.slices.filter fun x => x.1 == 0 || x.1 == 31 || decide (x.1 ≤ n)
        arb.rotBase := 0 }
      answerWrite (capacity (rearm s1) 7 255 0) 0x4000 1 cOk

end Sys2Proof.Machine
end

