-- ==== Sys2Proof/Machine/Health.lean ====
section
/-!
DEFINITION. Health.lean: the creep gauges, the margin planner and the optics (R483 to R490), VHOLD and the hold-up save (R492 to
R498).
-/
namespace Sys2Proof.Machine

/-- The unit that a gauge sits in (R483); gauges 50 to 63 lie in no unit. -/
def gaugeUnit (g : Nat) : Option Nat :=
  if g < 18 then some g
  else if g < 22 then some (0x20 + (g - 18))
  else if g < 23 then some uHse
  else if g < 39 then some (uStack (g - 23))
  else if g < 43 then some uGate
  else if g < 45 then some uCipher
  else if g < 47 then some uPk
  else if g < 48 then some uVault
  else if g < 50 then some uTcu
  else none

/-- Gauges on a CDIE rail (R483). -/
def gaugeCdie (g : Nat) : Bool := decide (58 ≤ g)

/-- The unit indices of R438 in rising order. -/
def allUnits : List Nat := (List.range 0x50).filter unitExists

/-- The tap of a unit, and of a gauge; a gauge in no unit has the tap 0. -/
def unitTap (s : State) (u : Nat) : Nat := tgetD s.health.taps u 0
def gaugeTap (s : State) (g : Nat) : Nat := ((gaugeUnit g).map (unitTap s)).getD 0

/-- HLT_GAUGE[g] (R499). -/
def gaugeWord (s : State) (g : Nat) : Nat :=
  let r := tgetD s.health.gauges g ⟨0, 0, 0, false⟩
  sat 10 r.cyclePs * 2 ^ 22 + sat 9 r.creep * 2 ^ 13 + r.temp % 256 * 32 + gaugeTap s g % 32

/-- What a plan finds of one gauge (R484). `over c` is whether its cycle is above c ps; the cycle itself is 10^7 / (16 laps) ps. -/
structure GaugeFind where
  g : Nat
  read : GaugeRead
  ref : Nat
  slow : Bool
  vreq : Option Nat
  deriving DecidableEq, Repr

/-- The cycle of a gauge is above c ps. -/
def cycleOver (r : GaugeRead) (c : Nat) : Bool := decide (c * (16 * r.laps) < 10000000)

/-- ref × (1 + creep) is above 520 ps, with creep = max(0, cyc / ref0 − 1) (R484). -/
def above520 (r : GaugeRead) (ref0 ref : Nat) : Bool :=
  decide (520 * (16 * r.laps * ref0) < ref * max (16 * r.laps * ref0) 10000000)

/-- Judge one gauge (R484): its new-part cycle, whether this part is past its budget at the slow corner, and vreq in mV. -/
def gaugeFind (s : State) (g : Nat) (r : GaugeRead) : GaugeFind :=
  let k := gaugeTap s g
  let ref := Config.refModel g r.mv r.temp k
  { g := g, read := r, ref := ref, slow := above520 r ref (Config.refModel g 650 105 k)
    vreq := (List.range 2001).find? fun v => !above520 r ref (Config.refModel g v r.temp k) }

/-- Creep in units of 0.1 %, rounded down (R499). -/
def GaugeFind.creep (f : GaugeFind) : Nat := 10 ^ 10 / max 1 (16 * f.read.laps * f.ref) - 1000

/-- The timing margin times the path-mode laps, in % (R484): 1 − path-mode cycle / cyc = 1 − laps / path-mode laps. -/
def marginTimes (r : GaugeRead) : Int := 100 * ((r.pathLaps : Int) - r.laps)

/-- The timing margin is below m %. -/
def marginBelow (r : GaugeRead) (m : Nat) : Bool := decide (marginTimes r < (m * r.pathLaps : Nat)) || r.pathLaps == 0

/-- The voltage margin of a gauge in mV (R484). -/
def GaugeFind.vmarg (f : GaugeFind) : Option Int := f.vreq.map fun v => (f.read.mv : Int) - v

/-- An error of the health monitor (R485 to R490); it latches in the TCU's bank, as the monitor has none of its own. -/
def healthErr (cls cause whereAt : Nat) : ErrIn :=
  { unit := uTcu, cls := cls, cause := cause, whereAt := whereAt, source := some srcHealth }

/-- The errors that one plan finds are taken together, in the order of R18; beside them stands the state that it leaves. -/
abbrev Plan := State × List ErrIn

/-- Gauges without a lap are S1 and excluded until the next health reset (R485). -/
def excludeGauges (s : State) (gs : List (GaugeRead × Nat)) : Plan :=
  gs.foldl (fun p x =>
    let old := tgetD p.1.health.gauges x.2 ⟨0, 0, 0, false⟩
    if x.1.laps = 0 ∧ !old.excluded then
      ({ p.1 with health.gauges := tset p.1.health.gauges x.2 { old with excluded := true } }, p.2 ++ [healthErr 1 485 x.2])
    else p) (s, [])

/-- The gauges that a plan uses. -/
def usedGauges (s : State) (gs : List (GaugeRead × Nat)) : List GaugeFind :=
  (gs.filter fun x => x.1.laps != 0 && !(tgetD s.health.gauges x.2 ⟨0, 0, 0, false⟩).excluded).map fun x => gaugeFind s x.2 x.1

/-- Publish the readings (R499). -/
def publishGauges (s : State) (fs : List GaugeFind) : State :=
  let put (t : Table Gauge) (f : GaugeFind) : Table Gauge :=
    tset t f.g ⟨10000000 / (16 * f.read.laps), f.creep, (f.read.temp % 256).toNat, false⟩
  { s with health.gauges := fs.foldl put s.health.gauges }

/-- The flags of R485, with their records: OVER_520 and HOT at their changes, LIFE once per session. -/
def healthFlags (s : State) (fs : List GaugeFind) : Plan :=
  let slow := fs.find? fun f => cycleOver f.read 520
  let life := fs.find? fun f => f.slow
  let hot := fs.find? fun f => decide ((setting s 0x6000 2 : Int) ≤ f.read.temp)
  let place (f : Option GaugeFind) : Nat := (f.map (·.g)).getD 0
  ({ s with
    health.over520 := slow.isSome, health.hot := hot.isSome, health.life := s.health.life || life.isSome
    health.lifeNoted := s.health.lifeNoted || life.isSome },
   (if slow.isSome && !s.health.over520 then [healthErr 1 44 (place slow)] else []) ++
     (if life.isSome && !s.health.lifeNoted then [healthErr 1 485 (place life)] else []) ++
     (if hot.isSome != s.health.hot then [healthErr 0 485 (place hot)] else []))

/-- A unit has no request in progress (R487). -/
def unitIdle (s : State) (u : Nat) : Bool :=
  if u < 18 then (portAt s u).egress == [] && (portAt s u).misses == []
  else if 0x20 ≤ u ∧ u < 0x24 then (pewAt s (u - 0x20)).jobs == []
  else if u = uHse then s.host.work == []
  else if u = uGate then !s.gate.descs.any fun d => decide (d.2.nextElem < d.2.total)
  else if u = uCipher then s.cipher.channels.all fun c => c.2.queue == []
  else if u = uPk then s.cipher.pkQueue.all fun q => q.2 == []
  else true

/-- Set a unit's tap and its count of plans above the guard (R487). -/
def setTap (s : State) (u tap above : Nat) : State :=
  { s with health.taps := tset s.health.taps u tap, health.above := tset s.health.above u above }

/-- One unit's tap in a plan (R487), and the error of a unit that is short of GUARD_PCT at tap 31. -/
def planUnit (fs : List GaugeFind) (p : Plan) (u : Nat) : Plan :=
  let s := p.1
  let mine := fs.filter fun f => gaugeUnit f.g == some u
  let guardPct := setting s 0x6000 1
  let tap := unitTap s u
  if mine = [] then p
  else if mine.any fun f => marginBelow f.read guardPct then
    if tap < 31 then (setTap s u (tap + 1) 0, p.2)
    else if mine.any fun f => marginBelow f.read 3 then
      (setTap s u tap 0, p.2 ++ [{ unit := u, cls := 3, cause := 487 }])
    else (setTap s u tap 0, p.2 ++ [healthErr 1 487 u])
  else
    let clear := mine.all fun f => decide (((guardPct + 6) * f.read.pathLaps : Nat) < marginTimes f.read)
    let n := if clear then tcount s.health.above u + 1 else 0
    let rested := (tget s.health.loweredAt u).all fun t => decide (t + 3600000000000 ≤ s.ns)
    if 10 ≤ n && 0 < tap && rested && unitIdle s u && !s.health.raiseOnly then
      ({ setTap s u (tap - 1) 0 with health.loweredAt := tset s.health.loweredAt u s.ns }, p.2)
    else (setTap s u tap n, p.2)

/-- The levels of R489 that hold, each with its cause: 1 thermal, 2 supply, 4 margin planner. -/
def throttleLevels (s : State) (fs : List GaugeFind) (short : Bool) : List (Nat × Nat) :=
  let hottest := fs.foldl (fun m f => max m f.read.temp) (-1000)
  let limit : Int := setting s 0x6000 2
  let vm := fs.filterMap (·.vmarg)
  (if limit ≤ hottest then [(min 12 (2 * (hottest - limit + 1)).toNat, 1)] else []) ++
    (if vm.any fun v => decide (v < 15) then [(4, 2)] else []) ++
    (if vm.any fun v => decide (v < 5) then [(8, 2)] else []) ++
    (if fs.any fun f => cycleOver f.read 500 then [(4, 4)] else []) ++
    (if s.health.over520 then [(12, 4)] else []) ++
    (if short then [(6, 4)] else [])

/-- The throttle request of a plan (R489): the highest level, falling by at most one level per plan. -/
def planThrottle (s : State) (levels : List (Nat × Nat)) : State :=
  let top := levels.foldl (fun m l => max m l.1) 0
  let why := (levels.filter fun l => l.1 == top).foldl (fun w l => w ||| l.2) 0
  if s.health.throttleReq ≤ top + 1 && s.health.throttleReq ≠ top + 1 then
    { s with health.throttleReq := top, health.throttleWhy := if top = 0 then 0 else why }
  else
    let next := s.health.throttleReq - 1
    { s with health.throttleReq := next, health.throttleWhy := if next = 0 then 0 else if next = top then why else s.health.throttleWhy }

/-- The margins of a lane: OPTICS_IN holds 6 bits for each physical lane (R499). -/
def laneMargin (w : BitVec 32) (lane : Nat) : Nat := w.toNat / 2 ^ (6 * lane) % 64

/-- An OPTICS record or error of a lane (R490, R506). ACTION numbers the rows of R490 from 1. -/
def opticsErr (cls port lane margin action : Nat) : ErrIn :=
  { unit := port, cls := cls, cause := 490, whereAt := lane, kind := 0x0052, source := some srcHealth,
    detail := some (le 1 port ++ le 1 lane ++ le 1 margin ++ le 1 action) }

/-- An OPTICS_IN word is stale (R490). -/
def staleKey (port : Nat) : Nat := 1000 + port
def opticsStaleAt (s : State) (port : Nat) : Bool := (tget s.health.opticsRec (staleKey port)).isSome

/-- The planner's answer to one lane's margin (R490). -/
def planLane (port : Nat) (p : Plan) (lane : Nat) : Plan :=
  let s := p.1
  let m := laneMargin (tgetD s.health.optics port 0x3FFFFFFF#32) lane
  let key := port * 8 + lane
  let due := (tget s.health.opticsRec key).all fun t => decide (t + 3600000000000 ≤ s.ns)
  let s1 : Plan := if m < setting s 0x6000 3 && due then
      ({ s with health.opticsRec := tset s.health.opticsRec key s.ns }, p.2 ++ [opticsErr 0 port lane m 1])
    else p
  let s2 : Plan := if m < setting s 0x6000 4 && !s.boot.retrain.getLsbD port then
      ({ s1.1 with boot.retrain := s.boot.retrain ||| BitVec.ofNat 32 (2 ^ port), boot.retrainReq := true },
        s1.2 ++ [opticsErr 1 port lane m 2])
    else s1
  if m < 3 then (s2.1, s2.2 ++ [opticsErr 1 port lane m 3]) else s2

/-- The planner's optics: a stale port is ignored (R490). -/
def planOptics (p : Plan) : Plan :=
  (List.range 18).foldl (fun p port => if opticsStaleAt p.1 port then p else (List.range 5).foldl (planLane port) p) p

/-- The highest vreq of a rail's gauges (R486). -/
def railVreq (fs : List GaugeFind) (cdie : Bool) : Nat :=
  ((fs.filter fun f => gaugeCdie f.g == cdie).filterMap (·.vreq)).foldl max 0

/-- The gauge with the largest creep, the first among equals. -/
def worstGauge (fs : List GaugeFind) : Nat × Nat :=
  fs.foldl (fun b f => if b.2 < f.creep then (f.g, f.creep) else b) (((fs.head?.map (·.g)).getD 0), 0)

/-- The margins that HLT_MARGIN shows (R499): the smallest of all gauges. A negative timing margin has no stated form (log 4). -/
def publishMargins (s : State) (fs : List GaugeFind) : State :=
  let vm := (fs.filterMap (·.vmarg)).foldl (fun (b : Option Int) v => some (min (b.getD v) v)) none
  let pct (f : GaugeFind) : Int := marginTimes f.read / max 1 f.read.pathLaps
  let tm := fs.foldl (fun (b : Option Int) f => some (min (b.getD (pct f)) (pct f))) none
  let t := match tm with
    | some v => if v < 0 then (s.spend, (s.drawn 8).toNat) else (s, v.toNat % 256)
    | none => (s, 0)
  { t.1 with
    health.tmargin := t.2, health.vmargin := (vm.getD 0 % 65536).toNat, health.worst := (worstGauge fs).1
    health.maxCreep := (worstGauge fs).2
    health.maxTemp := (fs.foldl (fun m f => max m f.read.temp) (-1000) % 4294967296).toNat
    health.vreqIod := railVreq fs false, health.vreqCdie := railVreq fs true }

/-- The PLAN record (R486, R506). -/
def planRecord (s : State) : State :=
  record s 0x0051 7 srcHealth (allUnits.flatMap (fun u => le 1 (unitTap s u)) ++ le 1 s.health.throttleReq ++
    le 2 s.health.vreqIod ++ le 2 s.health.vreqCdie)

/-- The outputs of a plan (R486). -/
def planOutputs (s : State) : List Nat × Nat × Nat × Nat × BitVec 32 :=
  (allUnits.map (unitTap s), s.health.throttleReq, s.health.vreqIod, s.health.vreqCdie, s.boot.retrain)

/-- HEALTH_PLAN (R484 to R490): the gauges are read, and the planner acts on them; a plan that changes an output writes a PLAN
record. -/
def execHealthPlan (gauges : List GaugeRead) (s : State) : Host.Outcome State Fault Refusal :=
  done <| whenUp s fun s =>
    let gs := (gauges.take 64).zipIdx
    let x := excludeGauges s gs
    let fs := usedGauges x.1 gs
    let f := healthFlags (publishGauges x.1 fs) fs
    let p := allUnits.foldl (planUnit fs) (publishMargins f.1 fs, [])
    let o := planOptics (planThrottle p.1 (throttleLevels p.1 fs (!p.2.isEmpty)), x.2 ++ f.2 ++ p.2)
    let s4 : State := { raiseAll o.1 o.2 with health.plans := (s.health.plans + 1) % 256, health.raiseOnly := false }
    if planOutputs s4 = planOutputs s then s4 else planRecord s4

/-- Insert a number in order. -/
def insertAsc (n : Nat) : List Nat → List Nat
  | [] => [n]
  | a :: r => if n ≤ a then n :: a :: r else a :: insertAsc n r

/-- The median of the readings: the mean of the two in the middle where their number is even. -/
def median (l : List Nat) : Nat :=
  let a := l.foldr insertAsc []
  (a.getD ((a.length - 1) / 2) 0 + a.getD (a.length / 2) 0) / 2

/-- CREEP_RECORD (R485): at every cold start and every 24 h of session time. -/
def execCreepRecord (s : State) : Host.Outcome State Fault Refusal :=
  done <| whenUp s fun s =>
    if s.ns < s.health.creepAt then s
    else
      let l := (s.health.gauges.filter fun g => !g.2.excluded).map (·.2.creep)
      record { s with health.creepAt := s.ns + 86400000000000 } 0x0050 7 srcHealth
        (le 2 s.health.maxCreep ++ le 2 (median l) ++ le 1 s.health.worst)

/-- OPTICS_IN (R490, R499): only the management processor's writes count. -/
def execOpticsIn (fromMgmt : Bool) (port : Nat) (word : BitVec 32) (s : State) : Host.Outcome State Fault Refusal :=
  done <| whenUp s fun s =>
    if 18 ≤ port then s
    else if !fromMgmt then { s with lc.viol := true, lc.violCount := min (s.lc.violCount + 1) 0x7FFF }
    else
      let s1 : State := { s with
        health.optics := tset s.health.optics port (word &&& 0x3FFFFFFF#32), health.opticsAt := tset s.health.opticsAt port s.ns
        health.opticsRec := tdel s.health.opticsRec (staleKey port) }
      { s1 with health.opticsStale := (List.range 18).any (opticsStaleAt s1) }

/-- OPTICS_STALE (R490): a word not written for 1 s; S0, once. -/
def execOpticsStale (port : Nat) (s : State) : Host.Outcome State Fault Refusal :=
  done <| whenUp s fun s =>
    if 18 ≤ port || opticsStaleAt s port || s.ns < tgetD s.health.opticsAt port s.err.readyAt + 1000000000 then s
    else
      latch { s with
        health.opticsRec := tset s.health.opticsRec (staleKey port) s.ns, health.opticsStale := true }
        { unit := port, cls := 0, cause := 490, whereAt := port, source := some srcHealth }

/-- The save mode that a level of VHOLD gives (R492): 2 full, 1 short, 0 zeroise only. -/
def holdMode (mv : Nat) : Nat := if 4800 ≤ mv then 2 else if 4200 ≤ mv then 1 else 0

/-- VHOLD_SAMPLE (R492): HOLDUP_ARMED is 1 from 4.80 V; its change to 0 is S1, its return to 1 S0. -/
def execVholdSample (mv : Nat) (s : State) : Host.Outcome State Fault Refusal :=
  done <| whenAon s fun s =>
    let armed := decide (4800 ≤ mv)
    let first := s.health.vholdMv == 0 && !s.health.armed
    let s1 : State := { s with health.vholdMv := mv, health.modeAvail := holdMode mv, health.armed := armed }
    if armed == s.health.armed || first then s1
    else latch s1 { unit := uTcu, cls := if armed then 0 else 1, cause := 492, whereAt := mv, source := some srcHold }

/-- Section 3 of an ingot (R495): class, cause, overflow count and stamp of every unit's open error; class 7 where none is open. -/
def bankBytes (s : State) : Bytes :=
  allUnits.flatMap fun u => match tget s.err.banks u with
    | some o => le 1 o.cls ++ le 2 o.cause ++ le 2 o.overflow ++ le 10 o.latchedAt
    | none => le 1 7 ++ le 14 0

/-- One section of an ingot's body (R495): its header, and its data padded to 16 bytes. -/
def ingotSection (type : Nat) (data : Bytes) : Bytes :=
  le 2 type ++ le 2 0 ++ le 4 data.length ++ fit (roundUp data.length 16) data

/-- A queued record as section 1 holds it (R495): its number and its tag are not there yet, and stand as 0 (log 72). -/
def queuedBytes (s : State) (r : LbxRec) : Bytes := le 16 0 ++ recMiddle s r 0 ++ le 16 0

/-- The data of a section (R495), its fields in the order in which the manual names them. DESIGN CHOICE (log 72). -/
def sectionData (s : State) (type : Nat) : Bytes :=
  if type = 1 then s.lbx.queue.flatMap (queuedBytes s)
  else if type = 2 then freezeSet s
  else if type = 3 then bankBytes s
  else if type = 4 then
    allUnits.flatMap (fun u => le 1 (unitTap s u)) ++ le 1 s.health.throttleReq ++ le 2 s.health.vreqIod ++
      le 2 s.health.vreqCdie ++ (List.range 64).flatMap fun g => le 4 (gaugeWord s g)
  else
    le 1 s.time.state ++ le 4 (BitVec.ofInt 32 s.time.rate).toNat ++ le 4 (BitVec.ofInt 32 s.time.phase).toNat ++
      le 8 (BitVec.ofInt 64 s.time.doff).toNat ++ le 1 s.dom.role ++ le 4 s.dom.term ++ le 4 s.boot.mapGen.toNat ++
      be 48 (mapDigest s).toNat

/-- The ingot of a save (R493 to R495): the sections of its mode, as many as were captured, sealed under storage key 0x01. A session counts as
debug-open (R168) while its scope is not 0, be it by a grant or by its state, which no rule says. DESIGN CHOICE (log 96). -/
def makeIngot (s : State) (mode : Nat) (e : SaveEnv) (key : Key) : Ingot :=
  let want := if mode = 2 then [1, 2, 3, 4, 5] else [1, 3, 5]
  let got := want.take e.captured
  let seq : BitVec 32 := BitVec.ofNat 32 (s.health.ingotSeq + 1)
  let plain := got.flatMap fun t => ingotSection t (sectionData s t)
  let i : Ingot :=
    { seq := seq, seqInv := ~~~seq, mode := mode, valid := true, consumed := false, partialSave := got != want
      debug := s.lc.scope != 0, sessionId := s.pow.sessionId, saveTime := s.ns, domainId := s.dom.domainId
      epoch := s.dom.epoch, vholdStart := e.startMv, iv := s.drawn 96
      bodyLen := plain.length, body := [], tag := 0
      records := if got.contains 1 then some s.lbx.queue else none
      counters := if got.contains 2 then
          some ⟨s.cnt.snapshot, s.cnt.freezeSeq, s.cnt.freezeTime, s.cnt.snapStart, s.cnt.snapSession⟩ else none
      banks := if got.contains 3 then some (bankBytes s) else none
      taps := if got.contains 4 then some s.health.taps else none
      rate := if got.contains 5 then some s.time.rate else none }
  let c := gcmSeal key i.iv (ingotHead i) plain
  { i with body := c.1, tag := c.2 }

/-- Write the ingot (R493 steps 2 to 4), or leave the slot without a valid header where VHOLD fell to 3.20 V. -/
def writeIngot (s : State) (mode : Nat) (e : SaveEnv) (key : Key) : State × Nat :=
  let slot := saveSlot s
  let i := makeIngot s mode e key
  let s1 : State := { (spendKey s.drew (.store 1) 1 0) with lbx.queue := if i.records.isSome then [] else s.lbx.queue }
  if e.dropped320 then
    ({ s1 with
      health.ingots := tdel s1.health.ingots slot, health.saveAborts := s1.health.saveAborts + 1, health.unsaved := some 2
      lbx.queue := s.lbx.queue }, 2)
  else ({ s1 with health.ingots := tset s1.health.ingots slot i, health.ingotSeq := s1.health.ingotSeq + 1 }, 1)

/-- The storage key that seals an ingot, where it exists, has a wrap left (R112) and finds a random IV (R88), and the unit is not quenched
(R498). -/
def canSave (s : State) : Option Key :=
  if s.pow.quenched || s.pow.rootFail || (wrapRefused s (.store 1)).isSome then none else key256 s (.store 1)

/-- PFAIL_N (R54, R55, R493, R498): the save, all of its steps, while which the IOD and CDIE rails fall: until their return the isolation cells
hold the crossings' levels inactive. DESIGN CHOICE: a supply that holds is taken as falling and returning (log 87). -/
def execPfailN (e : SaveEnv) (s : State) : Host.Outcome State Fault Refusal :=
  done <| whenAon s fun s =>
    if s.pow.saving || !s.pow.iod then s
    else
      let key := canSave s
      let mode := if key.isSome then holdMode e.startMv else 0
      let s1 := freezeNow (memberDown { s with pins.pfailLow := true } 5 s.pow.tcuDown) 3
      let r := match key, mode with
        | some k, 1 => writeIngot s1 1 e k
        | some k, 2 => writeIngot s1 2 e k
        | _, _ => ({ s1 with health.unsaved := some 3 }, 3)
      let s2 := zeroiseKeys (dropCasts r.1)
      let s3 := resetRec s2 5 0xFF 7 none
      { s3 with
        pow.saving := true, pow.iod := false, pow.cdieA := false, pow.cdieB := false
        cross.vrst := [], cross.vflush := [], cross.vrstAt := [], cross.resets := [], cross.held := []
        err.arm5 := false, err.arm50 := false, health.saves := s3.health.saves + 1
        health.lastMode := mode, health.lastResult := r.2, health.lastDuration := e.durationUs / 10
        health.lastEndMv := e.endMv }

end Sys2Proof.Machine
end

