-- ==== Sys2Proof/Machine/Link.lean ====
section
/-!
DEFINITION. Link.lean: the commands of link sealing (chapter 7).
-/
namespace Sys2Proof.Machine

/-- Work that an issuing engine can have sealed (R207, R208): a data-space type, with a payload that a frame can carry. -/
def sealable (r : SealReq) : Bool :=
  [ftRequest, ftResponse, ftChunk, ftControl, ftCoherence].contains r.ftype && decide (r.payload.length ≤ 1040)

/-- FRAME_SEAL (R212, R217): outbound work of an issuing engine, CONTROL as the system's (R229); a role's state is handed on by such writes
(R200). What no frame of the data space carries is not taken. DESIGN CHOICE (log 92). -/
def execFrameSeal (r : SealReq) (s : State) : Host.Outcome State Fault Refusal :=
  done <| whenUp s fun s =>
    if sealable r then
      let r' : SealReq := if r.ftype = ftControl then { r with slice := whoSys } else r
      sendFrame (handoffWrite s r') r'
    else s

/-- The outstanding frame of a node and SEQ. -/
def sentAt (s : State) (node seq : Nat) : Option Sent := (flowAt s node).bind fun f => tget f.outstanding seq

/-- A frame in a port's egress whose bucket holds its wire length (R229, R230). -/
def egressReady (s : State) (port : Nat) (x : Nat × Nat) : Bool :=
  (sentAt s x.1 x.2).any fun o => decide (o.wire ≤ fabricLevel s port o.issuer.slice)

/-- A system frame is ready, and is served first (R229). -/
def systemReady (s : State) (port : Nat) : Bool :=
  (portAt s port).egress.any fun x => egressReady s port x && (sentAt s x.1 x.2).any fun o => o.issuer.slice == whoSys

/-- The first send of a data-space frame counts for its context (R377). -/
def countSend (s : State) (o : Sent) : State :=
  let n := o.frame.payloadLen
  if o.issuer.slice < 32 then
    let s1 := bumpSlice s o.issuer.slice 5 n
    if o.issuer.ctx = 0 then s1 else useCtx s1 o.issuer.ctx 2 n
  else s

/-- The pass-path frames of a port that may leave (R229): charged to the transit reserve, or in a slot that no local class can
use. The fuel is the number of frames. -/
def passFrames : Nat → State → Nat → State
  | 0, s, _ => s
  | n + 1, s, port =>
    match (portAt s port).pass with
    | [] => s
    | (inPort, f) :: rest =>
      let wire := wireOf f.payloadLen
      let covered := decide (wire ≤ fabricLevel s port whoTransit)
      if !portOpen s port || (!covered && (portAt s port).egress.any (egressReady s port)) then s
      else
        let s1 := if covered then fabricTake s port whoTransit wire else s
        passFrames n (ackEvent ((setPort s1 port { portAt s1 port with pass := rest }).emit (.passFrame inPort port f)) port) port

/-- Pass-path frames of a port leave as far as they may. -/
def passPump (s : State) (port : Nat) : State := passFrames (portAt s port).pass.length s port

/-- Take a frame for another node unopened (R29, R229): it leaves by the port that its destination is bound to, or by the one it
came in by (log 66). -/
def takePass (s : State) (port : Nat) (f : Frame) : State :=
  let out := ((tget s.link.nodes f.routeDst).map (·.2)).getD port
  passPump (setPort s out { portAt s out with pass := (portAt s out).pass ++ [(port, f)] }) out

/-- FRAME_EGRESS (R217, R229, R230): a sealed frame leaves once its bucket holds its whole wire length; the first send starts
its retransmit timer. -/
def execFrameEgress (port peer seq : Nat) (s : State) : Host.Outcome State Fault Refusal :=
  done <| whenUp s fun s =>
    match sentAt s peer seq, flowAt s peer with
    | some o, some f =>
      let b := portAt s port
      if !b.egress.contains (peer, seq) || !portOpen s port || !egressReady s port (peer, seq) then s
      else if o.issuer.slice ≠ whoSys && systemReady s port then s
      else
        let s1 := setPort s port { b with egress := b.egress.filter (· != (peer, seq)) }
        let s2 := fabricTake s1 port o.issuer.slice o.wire
        let o' : Sent := { o with firstAt := some (o.firstAt.getD s.ns), lastAt := s.ns, sends := o.sends + 1, port := port }
        let s3 := setFlow s2 peer { f with outstanding := tset f.outstanding seq o' }
        passPump (ackEvent ((if o.firstAt.isNone then countSend s3 o else s3).emit (.frame port o.frame)) port) port
    | _, _ => s

/-- A dropped inbound frame (R213): counted, and recorded at the end of the window with its peer and kind. -/
def dropFrame (s : State) (port node kind : Nat) : State :=
  let b := portAt s port
  let s1 := setPort s port (if kind = 7 then { b with tagFail := b.tagFail + 1 } else { b with drops := b.drops + 1 })
  let s2 : State :=
    if kind = 7 then { s1 with link.tagFail := s1.link.tagFail + 1 }
    else if kind = 6 then { s1 with link.replayDrop := s1.link.replayDrop + 1 }
    else if kind = 9 then s1
    else { s1 with link.otherDrop := s1.link.otherDrop + 1 }
  limHit (quietS0 s2 port) (.dropRecord node kind)

/-- TYPE, reserved fields and PAYLOAD_LEN of a frame are legal (R207, R213 check 1). -/
def frameLegal (f : Frame) : Bool :=
  let n := f.payloadLen
  decide (f.flags < 8) && f.reserved == 0 && decide (f.dstNode < 8192) && decide (f.srcNode < 8192) && f.payload.length == n &&
    (if f.ftype = ftJoin then decide (1 ≤ n) && decide (n ≤ 1024)
     else decide (1 ≤ f.ftype) && decide (f.ftype ≤ 6) && decide (16 ≤ n) && decide (n ≤ 1040) && n % 16 == 0)

/-- The domain epoch and flow epoch that DEB and EPB name, while their key is accepted (R213 check 4, R222, R223). -/
def frameEpochs (s : State) (f : Flow) (flags : Nat) : Option (Nat × Nat) :=
  let epb := flags % 2
  let deb := flags / 2 % 2
  if deb = f.domainEpoch % 2 then
    if epb = f.recvEpoch % 2 then some (f.domainEpoch, f.recvEpoch)
    else match f.prevEpoch with
      | some p => some (f.domainEpoch, p)
      | none =>
        if 0 < f.recvEpoch && !f.nextKey && f.flowEpoch = f.recvEpoch then none else some (f.domainEpoch, f.recvEpoch + 1)
  else
    match f.old with
    | some (de, re, pe) =>
      if epb = re % 2 then some (de, re) else some (de, pe.getD (re + 1))
    | none =>
      if s.dom.changing && (findKey s .nextDomainKey).isSome && s.dom.nextEpoch % 2 = deb && epb = 0 then
        some (s.dom.nextEpoch, 0)
      else none

/-- Activate the flow's window (R215): the least recently used compressible window gives way; none, if no window can. -/
def activate (s : State) (node : Nat) (f : Flow) : Option (State × Flow) :=
  match f.floor with
  | none => some (s, f)
  | some h =>
    let f' : Flow := { f with floor := none, high := h, window := [] }
    let active := s.link.flows.filter fun x => x.2.floor.isNone
    if active.length < 4096 then some (setFlow s node f', f')
    else
      match (active.filter fun x => x.2.window == []).foldl (fun (a : Option (Nat × Flow)) x =>
          match a with
          | some y => if x.2.lastUse < y.2.lastUse then some x else some y
          | none => some x) none with
      | none => none
      | some (n, g) =>
        let s1 := setFlow s n { g with floor := some g.high }
        some (setFlow { s1 with link.winCompress := s1.link.winCompress + 1 } node f', f')

/-- A node's flow with its window at work. -/
def activeFlow (s : State) (node : Nat) : Option (State × Flow) := (flowAt s node).bind fun w => activate s node w

/-- Kinds of an inbound SEQ (R214). -/
inductive SeqKind where
  | newAhead
  | newInside
  | tooOld
  | duplicate (entry : Nat)
  deriving DecidableEq, Repr

/-- Classify a data-space SEQ against the window (R214). -/
def seqKind (f : Flow) (seq : Nat) : SeqKind :=
  let a := ahead seq f.high
  if a ≠ 0 ∧ a < 2 ^ 47 then .newAhead
  else if 4096 ≤ ahead f.high seq then .tooOld
  else
    match tget f.window (seq % 4096) with
    | some 0 => .newInside
    | some e => .duplicate e
    | none => .duplicate 1

/-- A window moved up to a SEQ ahead of it (R214): the places passed are empty, the SEQ's own is pending. -/
def windowSlide (f : Flow) (seq : Nat) : Flow :=
  let gap := min (ahead seq f.high - 1) 4096
  let w := (List.range gap).foldl (fun w i => tset w ((seq + 2 ^ 48 - 1 - i) % 2 ^ 48 % 4096) 0) f.window
  { f with high := seq, window := tset w (seq % 4096) 3 }

/-- Mark an accepted SEQ pending (R214). -/
def windowTake (f : Flow) (seq : Nat) : Flow :=
  if seqKind f seq = .newAhead then windowSlide f seq else { f with window := tset f.window (seq % 4096) 3 }

/-- What accepting a frame under an epoch does to the flow's epochs (R221, R222): the first under f + 1 makes it current for
both directions; a data-space SEQ far enough above the first retires the old key. -/
def acceptEpoch (s : State) (node : Nat) (de fe : Nat) (data : Option Nat) : State :=
  match flowAt s node with
  | none => s
  | some f =>
    if de ≠ f.domainEpoch then s
    else if fe = f.recvEpoch + 1 then
      let f1 : Flow := { f with
        recvEpoch := fe, prevEpoch := some f.recvEpoch, rolloverAt := some s.ns, rolloverSeq := data.getD 0, nextKey := false }
      if f.flowEpoch < fe then rollSend s node f1 else setFlow s node f1
    else if fe = f.recvEpoch && f.prevEpoch.isSome then
      match data with
      | none => s
      | some seq =>
        if f.rolloverSeq = 0 then setFlow s node { f with rolloverSeq := seq }
        else if 4096 ≤ ahead seq f.rolloverSeq && ahead seq f.rolloverSeq < 2 ^ 47 then retireKey s node
        else s
    else s

/-- Count an accepted frame under its key (R221); a usage count that disagrees with its complement is met first (R231). -/
def countAccepted (s : State) (node unit de fe bytes : Nat) : State :=
  match flowAt s node with
  | none => s
  | some f =>
    if !f.sound then spendKey (repairFlow s node unit f) (.flow unit de fe) 1 bytes
    else if de = f.domainEpoch && fe = f.flowEpoch then countKey s node f bytes (.flow unit de fe)
    else spendKey s (.flow unit de fe) 1 bytes

/-- ACK entries of a payload (R210); one whose reserved byte is not 0 is rejected (R13). -/
def ackEntries (pt : Bytes) : List (Nat × Code) :=
  (((List.range (pt.length / 8)).filter fun i => fld pt (8 * i + 7) 1 == 0).map fun i =>
    (fld pt (8 * i) 6, BitVec.ofNat 8 (fld pt (8 * i + 6) 1))).filter fun e => e.1 != 0

/-- ACK entries retire frames (R218); steps, waiting frames and fences go on. -/
def applyAck (s : State) (node : Nat) (entries : List (Nat × Code)) : State :=
  let one (s : State) (e : Nat × Code) : State :=
    if (sentAt s node e.1).isSome then alloyAck (retireFrame s node e.1 e.2) node e.1 e.2 else s
  fenceSettle (linkPump (entries.foldl one s))

/-- A RESPONSE whose header is not one (R209). -/
def responseBad (h : OpHdr) : Bool :=
  !(h.op == 0x81 || (decide (0x90 ≤ h.op) && decide (h.op ≤ 0x9A))) || decide (1024 < h.bytes)

/-- Deliver a new data-space frame (R208, R209), once it is accepted. -/
def deliverFrame (s : State) (port node : Nat) (f : Frame) (pt : Bytes) : State :=
  if f.ftype = ftRequest then takeRequest s node f.seq pt
  else if f.ftype = ftResponse then
    let h := opHdr pt
    if responseBad h then
      settleFrame (latch s { unit := port, cls := 0, cause := 209, whereAt := (nodeUnit s node).getD 0,
                             code := cDescriptorInvalid }) node f.seq cDescriptorInvalid
    else
      settleFrame (s.emit (.remoteReply node h.tagId h.op h.status ((pt.drop 16).take h.bytes))) node f.seq cOk
  else if f.ftype = ftControl then settleFrame (takeControl s node pt) node f.seq cOk
  else settleFrame (s.emit (.coherence node pt)) node f.seq cOk

/-- Accept a data-space frame whose tag has verified: window, usage and epochs (R214, R221, R222). -/
def acceptData (s : State) (port node unit : Nat) (f : Frame) (de fe : Nat) : State :=
  match flowAt s node with
  | none => s
  | some w =>
    let s1 := setFlow s node { windowTake w f.seq with lastUse := s.ns }
    let s2 := countAccepted s1 node unit de fe f.payloadLen
    bumpUnit (bumpUnit (acceptEpoch s2 node de fe (some f.seq)) port 0 1) port 1 f.payloadLen

/-- A new data-space frame (R213 order 8, R242): chunks are looked up first, and one with no place is dropped with its window
entry unchanged. While the TCU restarts, CONTROL frames are not accepted (R445). -/
def takeData (s : State) (port node unit : Nat) (f : Frame) (de fe : Nat) (pt : Bytes) : State :=
  if s.pow.tcuDown && f.ftype = ftControl then s
  else if f.ftype = ftChunk then
    match chunkVerdict s port node pt with
    | .unmatched =>
      let a := alloyAt s port
      limHit (quietS0 (bumpStat (setAlloy s port { a with unmatched := a.unmatched + 1 }) 0x5011 5 1) port)
        (.dropRecord node 242)
    | .busy p =>
      let a := alloyAt s p
      limHit (quietS0 (bumpStat (setAlloy s p { a with busyDrop := a.busyDrop + 1 }) 0x5011 6 1) p) (.dropRecord node 243)
    | .failed code => settleFrame (acceptData s port node unit f de fe) node f.seq code
    | .take p k peer =>
      let s1 := acceptData s port node unit f de fe
      let s2 := match stepAt s1 p k with
        | some t => useCtx (bumpSlice s1 t.slice 6 f.payloadLen) t.ctx 3 f.payloadLen
        | none => s1
      chunkTake s2 p k peer node f.seq pt
  else deliverFrame (acceptData s port node unit f de fe) port node f pt

/-- A tag failure (R213, R231): S0, and S1 with the peer's name beyond 1,024 in a second. -/
def tagFailure (s : State) (port node unit : Nat) : State :=
  let s1 := limHit (dropFrame s port node 7) (.tagFail node)
  if limCount s1 (.tagFail node) = 1025 then notice s1 1 213 port unit else s1

/-- Bytes of inbound frames that a port's miss buffer holds (R219). -/
def heldInbound (s : State) (port : Nat) : Nat :=
  ((portAt s port).misses.map fun m => (m.inbound.map fun f => wireOf f.payloadLen).foldl (· + ·) 0).foldl (· + ·) 0

/-- A DATA frame whose SEQ is of kind k at its flow's window (R214, R215): too old is dropped, a new one is taken when it opens, and a duplicate that opens
is acknowledged again. -/
def openData (k : SeqKind) (s1 : State) (w : Flow) (now port node unit : Nat) (f : Frame) (de fe : Nat) (opened : Option Bytes) : State :=
  match k with
  | .tooOld => dropFrame s1 port node 6
  | .newAhead =>
    match opened with
    | none => tagFailure s1 port node unit
    | some pt => takeData s1 port node unit f de fe pt
  | .newInside =>
    match opened with
    | none => tagFailure s1 port node unit
    | some pt => takeData s1 port node unit f de fe pt
  | .duplicate e =>
    if opened.isNone then tagFailure s1 port node unit
    else if e = 3 then s1
    else
      setFlow s1 node { w with
        ackAt := if w.pendingAcks = [] then now else w.ackAt
        pendingAcks := w.pendingAcks ++ [(f.seq, if e = 1 then cOk else cRemoteFailedRepeat)] }

/-- Orders 5 to 8 of R213, for a frame whose epochs are known. -/
def openFrame (s : State) (port node unit : Nat) (f : Frame) (de fe : Nat) : State :=
  if !keyCached s port whoSys unit de fe then
    if 131072 < heldInbound s port + wireOf f.payloadLen then dropFrame s port node 5
    else
      missKey (countMiss s port) port whoSys node de fe [f] []
  else
    match engKey s (.flow unit de fe) with
    | none =>
      if 131072 < heldInbound s port + wireOf f.payloadLen then dropFrame s port node 5
      else missKey (countMiss s port) port whoSys node de fe [f] []
    | some k =>
      let s := touchKey s port whoSys unit de fe
      let space := f.ftype == ftAck
      let opened := gcmOpen k (frameIv unit unitId space f.seq) (frameHead f) f.payload f.tag
      if space then
        match opened with
        | none => tagFailure s port node unit
        | some pt =>
          let s1 := countAccepted s node unit de fe f.payloadLen
          applyAck (bumpUnit (bumpUnit (acceptEpoch s1 node de fe none) port 0 1) port 1 f.payloadLen) node (ackEntries pt)
      else
        match activeFlow s node with
        | none => dropFrame { s with link.winFull := true } port node 9
        | some (s1, w) => openData (seqKind w f.seq) s1 w s.ns port node unit f de fe opened

/-- Orders 1 to 4 of R213. -/
def receiveFrame (s : State) (port : Nat) (f : Frame) : State :=
  let node := f.srcNode
  if !frameLegal f then dropFrame s port node 1
  else if f.routeDst ≠ f.dstNode || f.routeSrc ≠ f.srcNode || ownNode s ≠ some f.dstNode then dropFrame s port node 2
  else if f.ftype = ftJoin then
    let s1 := limHit s .joinHello
    if 20000 < limCount s1 .joinHello then dropFrame s1 port node 3 else s1.emit (.joinFragment node f.seq (bit f.flags 2) f.payload)
  else
    match flowAt s node, nodeUnit s node with
    | some w, some unit =>
      if !memberNode s node then dropFrame s port node 3
      else
        match frameEpochs s w f.flags with
        | none => dropFrame s port node 4
        | some (de, fe) => openFrame s port node unit f de fe
    | _, _ => dropFrame s port node 3

/-- FRAME_RECEIVE (R29, R213): a frame for another node takes the pass path unopened. -/
def execFrameReceive (port : Nat) (f : Frame) (parityOk : Bool) (s : State) : Host.Outcome State Fault Refusal :=
  done <| whenUp s fun s =>
    if !portOpen s port then s
    else
    let s := s.intake (32 + port) ((40 + f.payload.length + 31) / 32)
    if !parityOk then parityError s port 1 231 f.srcNode 0 .wire
    else if ownNode s ≠ some f.routeDst then takePass s port f
    else remoteSettle (linkPump (receiveFrame s port f))

/-- An ACK payload (R210). -/
def ackPayload (l : List (Nat × Code)) : Bytes :=
  let b := l.flatMap fun e => le 6 e.1 ++ [e.2] ++ le 1 0
  fit (roundUp b.length 16) b

/-- An ACK finds its key not in the engine (R219, R231): a miss of the system's part, counted once. -/
def ackMiss (s : State) (port peer : Nat) (f : Flow) : State :=
  let known := (portAt s port).misses.any fun m => m.names whoSys peer f.domainEpoch f.flowEpoch
  missKey (if known then s else countMiss s port) port whoSys peer f.domainEpoch f.flowEpoch [] []

/-- ACK_SEND (R216): the entries pending for a peer leave in one ACK, sealed in the acknowledgement space. -/
def execAckSend (peer : Nat) (s : State) : Host.Outcome State Fault Refusal :=
  done <| whenUp s fun s =>
    let s := switchFlow s peer
    match flowAt s peer, nodeUnit s peer, ownNode s with
    | some f, some u, some own =>
      let port := nodePort s peer
      let take := f.pendingAcks.take 16
      let due := decide (16 ≤ f.pendingAcks.length) || decide (f.ackAt + 1000 ≤ s.ns)
      let pt := ackPayload take
      if take = [] || !due || f.held || f.awaitKey || !portOpen s port || fabricLevel s port whoSys < wireOf pt.length then s
      else if !keyCached s port whoSys u f.domainEpoch f.flowEpoch then ackMiss s port peer f
      else
        match engKey s (sendKey u f) with
        | none => ackMiss s port peer f
        | some k =>
          if !keyAllows s (sendKey u f) 1 pt.length then s
          else
          let fr := makeFrame own peer u f k ftAck true f.nextAck pt
          let s1 := fabricTake (touchKey s port whoSys u f.domainEpoch f.flowEpoch) port whoSys (wireOf pt.length)
          let s2 := countKey s1 peer
            ({ f with pendingAcks := f.pendingAcks.drop 16, ackAt := s.ns }.ackFrom (nextSeq f.nextAck)) pt.length (sendKey u f)
          (bumpUnit (bumpUnit s2 port 0 1) port 2 pt.length).emit (.frame port fr)
    | _, _, _ => s

/-- ACK (R210, R218): acknowledgement entries that reach the flow-state unit. -/
def execAck (peer : Nat) (entries : List (Nat × Code)) (s : State) : Host.Outcome State Fault Refusal :=
  done <| whenUp s fun s => applyAck s peer entries

/-- Retransmission of a frame has ended (R217): at the timeout of the fences that cover it, else FENCE_TIMEOUT after its first
send. -/
def retxOver (s : State) (node seq : Nat) (first : Nat) : Bool :=
  match s.link.fences.filter fun f => f.waits.contains (node, seq) with
  | [] => decide (first + setting s 0x5000 1 * 1000000 ≤ s.ns)
  | l => l.all fun f => decide (f.startedAt + f.timeoutMs * 1000000 ≤ s.ns)

/-- RETRANSMIT_TIMER (R217, R229): the stored frame is sent again through the port of the current route, charged to the transit
reserve, or in a slot that no local class can use. -/
def execRetransmitTimer (peer seq : Nat) (s : State) : Host.Outcome State Fault Refusal :=
  done <| whenUp s fun s =>
    match sentAt s peer seq, flowAt s peer with
    | some o, some f =>
      match o.firstAt with
      | none => s
      | some first =>
        let port := nodePort s peer
        if s.ns < o.lastAt + o.waitUs * 1000 || retxOver s peer seq first || !portOpen s port then s
        else
          let covered := decide (o.wire ≤ fabricLevel s port whoTransit)
          if !covered && (portAt s port).egress.any (egressReady s port) then s
          else
            let s1 := if covered then fabricTake s port whoTransit o.wire else s
            let o' : Sent := { o with
              lastAt := s.ns, sends := o.sends + 1, waitUs := min (2 * o.waitUs) (32 * setting s 0x5000 2) }
            let s2 := setFlow s1 peer { f with outstanding := tset f.outstanding seq o' }
            let s3 : State := { s2 with link.retx := s2.link.retx + 1 }
            (bumpUnit s3 port 15 1).emit (.frame port o.frame)
    | _, _ => s

/-- KEY_MISS_FILL (R219, R222): the vault delivers a flow key, derived if need be, and what waits for it goes on. -/
def execKeyMissFill (port peer domEpoch flowEpoch : Nat) (s : State) : Host.Outcome State Fault Refusal :=
  done <| whenUp s fun s =>
    match nodeUnit s peer with
    | none => s
    | some u =>
      let named (m : MissEntry) : Bool := m.peer == peer && m.domEpoch == domEpoch && m.flowEpoch == flowEpoch
      let mine := (portAt s port).misses.filter named
      if mine = [] then s
      else
        let s1 := needKey s (.flow u domEpoch flowEpoch)
        if (findKey s1 (.flow u domEpoch flowEpoch)).isNone then s1
        else
          let b := portAt s1 port
          let s2 := setPort s1 port { b with misses := b.misses.filter fun m => !named m }
          let s3 := match flowAt s2 peer with
            | some f =>
              if domEpoch = f.domainEpoch && flowEpoch = f.recvEpoch + 1 then setFlow s2 peer { f with nextKey := true } else s2
            | none => s2
          let s4 := mine.foldl (fun s m => loadKey s port m.who u domEpoch flowEpoch) s3
          remoteSettle (linkPump ((mine.flatMap (·.inbound)).foldl (fun s f => receiveFrame s port f) s4))

/-- FLOW_EPOCH_SWITCH (R220, R221): a flow that has reached its switch point rolls over. -/
def execFlowEpochSwitch (peer : Nat) (s : State) : Host.Outcome State Fault Refusal :=
  done <| whenUp s fun s => linkPump (switchFlow s peer)

/-- FLOW_KEY_RETIRE (R222): FENCE_TIMEOUT after the first frame accepted under the new flow epoch, the old key goes. -/
def execFlowKeyRetire (peer : Nat) (s : State) : Host.Outcome State Fault Refusal :=
  done <| whenUp s fun s =>
    match (flowAt s peer).bind (·.rolloverAt) with
    | some t => if t + setting s 0x5000 1 * 1000000 ≤ s.ns then retireKey s peer else s
    | none => s

/-- FENCE (R224): the flow-state unit takes a queue's fence; a fifth waits. -/
def execFence (ctx queue report slot : Nat) (s : State) : Host.Outcome State Fault Refusal :=
  done <| whenUp s fun s =>
    match (tget s.gate.seals slot).filter fun l => l.cls == kFence && l.dispatched && l.ctx == ctx && l.queue == queue with
    | none => s
    | some l =>
      if s.link.fences.any (fun f => f.slot == slot) || s.link.fenceWaits.any (fun w => w.2.2.2 == slot) then s
      else if fencesOf s ctx queue < 4 then fenceSettle (issueFence s ctx l.gen queue report slot)
      else { s with link.fenceWaits := s.link.fenceWaits ++ [(ctx, queue, report, slot)] }

/-- FENCE_TIMEOUT (R224, R225): the queue's first fence whose time has come completes FENCE_INDETERMINATE, and the frames it
still awaits are abandoned. -/
def execFenceTimeout (ctx queue : Nat) (s : State) : Host.Outcome State Fault Refusal :=
  done <| whenUp s fun s =>
    match s.link.fences.find? fun f => f.ctx == ctx && f.queue == queue with
    | none => s
    | some f =>
      if s.ns < f.startedAt + f.timeoutMs * 1000000 then s
      else
        let late := s.link.waiting.filter fun w => f.unsent.contains w.1
        let given := loseNodes s f (nodesOf (f.waits ++ late.map fun w => (w.2.node, 0)))
        let s1 : State := { s with link.fences := s.link.fences.map fun g => if g.slot = f.slot then given else g }
        fenceSettle (linkPump (fenceSettle (stepsGiveUp s1 f.waits)))

/-- NODE_BINDING (R206): firmware binds a node index to a unit and its port. -/
def execNodeBinding (node unit port : Nat) (s : State) : Host.Outcome State Fault Refusal :=
  done <| whenUp s fun s => linkPump (bindNode s node unit port)

/-- FAB_LANEMAP (R69, R227, R470): a new lane map, at a frame boundary, followed as it is given; one that lends the spare to a second
lane is S1. -/
def execFabLanemap (port : Nat) (map : BitVec 15) (s : State) : Host.Outcome State Fault Refusal :=
  done <| if s.pow.iod then
      (let s1 := s.heldIn (32 + port)
       let s2 : State := { s1 with cross.laneMap := tset s1.cross.laneMap port map }
       refreshLanes (if 1 < (lentLanes s2 port).length then notice s2 1 470 port 0 else s2) port)
    else s

/-- FAB_LANEUP (R69, R227): a lane's up level. -/
def execFabLaneup (port lane : Nat) (up : Bool) (s : State) : Host.Outcome State Fault Refusal :=
  done <| if s.pow.iod then
    let v := tgetD s.cross.laneUp port 0
    let v' := v - 2 ^ lane * b2n (bit v lane) + 2 ^ lane * b2n up
    refreshLanes { s with cross.laneUp := tset s.cross.laneUp port v' } port
  else s

end Sys2Proof.Machine
end

