-- ==== Sys2Proof/Machine/Windows.lean ====
section
/-!
DEFINITION. Windows.lean: what happens at the end of each microsecond and each millisecond: the refill of the share buckets (R130,
R230, R293, R320, R406, R519) and the records whose number is limited (R213, R314, R369).
-/
namespace Sys2Proof.Machine

/-- What a rate earns in the microsecond that ends now: whole units, so that a rate that is no whole number in a microsecond keeps
its rate over many. -/
def earned (s : State) (rate : Nat) : Nat :=
  let k := s.ns / 1000
  rate * (k + 1) / 1000000 - rate * k / 1000000

/-- The buckets of one resource: the key of each owner's bucket, its rate, and the largest item (R230). -/
structure BucketSet where
  key : Nat → Nat
  rate : Nat → Nat
  largest : Nat

/-- A bucket's depth (R230). -/
def BucketSet.depth (b : BucketSet) (who : Nat) : Nat := max (b.rate who / 100000) b.largest

/-- Add to a bucket: the table, and what the bucket does not hold. A bucket that is not listed is full. -/
def pour (b : BucketSet) (t : Table Nat) (who n : Nat) : Table Nat × Nat :=
  match tget t (b.key who) with
  | none => (t, n)
  | some v => (tset t (b.key who) (min (v + n) (b.depth who)), v + n - b.depth who)

/-- One owner's refill (R230): what its full bucket does not hold passes, in pooled mode, to the tenant slices of the same owner
that follow it. -/
def refillOne (s : State) (b : BucketSet) (t : Table Nat) (who : Nat) : Table Nat :=
  ((poolMates s who).foldl (fun (p : Table Nat × Nat) m => pour b p.1 m p.2) (pour b t who (earned s (b.rate who)))).1

/-- Everyone who may own a bucket: the slices, the system and the transit reserve. -/
def bucketOwners (s : State) : List Nat := [0, 31, whoSystem, whoTransit] ++ (List.range s.tenants).map (· + 1)

/-- Refill the buckets of a resource (R230). -/
def refillAll (s : State) (b : BucketSet) (t : Table Nat) : Table Nat := (bucketOwners s).foldl (refillOne s b) t

/-- An engine's guaranteed rate falls to what its good cores carry when its pool is short (R48). -/
def poolPart (s : State) (unit pool rate : Nat) : Nat :=
  match poolSpec unit pool with
  | some (_, need) => if poolGood s unit pool < need then rate * poolGood s unit pool / need else rate
  | none => rate

/-- The guaranteed rate that an engine's AES cores and GHASH multipliers carry (R48). -/
def enginePart (s : State) (unit pool rate : Nat) : Nat := min (poolPart s unit pool rate) (poolPart s unit (16 + pool) rate)

/-- Refill a pool port's buckets of both directions; pool 1 of a pewter engine carries what it writes (R45, R293, R294). -/
def refillPewter (s : State) (q : Nat) : State :=
  let one (out : Nat) : BucketSet :=
    { key := fun w => 2 * w + out, rate := fun w => enginePart s (uPewter q) out (scaled s w (poolRate s w)), largest := 272 }
  let p := pewAt s q
  setPew s q { p with bucket := refillAll s (one 1) (refillAll s (one 0) p.bucket) }

/-- Refill a fabric port's buckets (R229, R230): JOIN frames that waited leave. -/
def refillFabric (s : State) (port : Nat) : State :=
  let b : BucketSet := { key := fun w => w, rate := fabricShare s port, largest := 1080 }
  let p := portAt s port
  clearPump (setPort s port { p with bucket := refillAll s b p.bucket }) port

/-- Refill the host link's byte and record buckets of both directions (R320). -/
def refillHost (s : State) : State :=
  let bytes (d : Nat) : BucketSet :=
    { key := fun w => 2 * w + d, rate := fun w => enginePart s uHse d (hostShare s w), largest := 65584 }
  let recs (d : Nat) : BucketSet := { key := fun w => 2 * w + d, rate := hostRecShare s, largest := 1 }
  { s with
    host.bucketBytes := refillAll s (bytes 1) (refillAll s (bytes 0) s.host.bucketBytes)
    host.bucketRecords := refillAll s (recs 1) (refillAll s (recs 0) s.host.bucketRecords) }

/-- BUCKET_REFILL (R230): every bucket gets its share × 1 µs; requests that waited for one go on. -/
def execBucketRefill (s : State) : Host.Outcome State Fault Refusal :=
  done <| whenUp s fun s =>
    let cipher : BucketSet :=
      { key := fun w => w, rate := fun w => enginePart s uCipher 0 (scaled s w (cipherRate s w)), largest := 16 }
    let gate : BucketSet :=
      { key := fun w => w, rate := fun w => enginePart s uGate 0 (scaled s w (gateRate s w)), largest := 1 }
    let digest : BucketSet := { key := fun w => w, rate := fun w => poolPart s uTcu 0 (digestRate s w), largest := 64 }
    let s1 : State := { s with
      cipher.bucket := refillAll s cipher s.cipher.bucket, gate.sealLevel := refillAll s gate s.gate.sealLevel
      watch.digestLevel := refillAll s digest s.watch.digestLevel }
    let s2 := (List.range 18).foldl (fun s p => passPump (refillFabric s p) p) (refillHost (takeAll s1))
    let s3 := (List.range 4).foldl (fun s q => pewPump (refillPewter s q) q) s2
    linkPump (remoteSettle s3)

/-- The record of one limit's window that has ended (R213, R314, R369): it carries the count. -/
def windowRecord (s : State) (l : Limit) : State :=
  match l.key with
  | .dropRecord peer kind =>
    let u := ((nodeUnit s peer).getD peer)
    let src := nodePort s peer
    putRec s (mkRec s 0x0001 0 src (errDetail (if kind < 8 then 213 else kind) src u (le 1 kind ++ le 4 l.count)))
  | .hostReject c why =>
    putRec s { mkRec s 0x0001 0 uHse (errDetail 314 uHse c (le 1 why ++ le 4 l.count)) with
      ctx := some (c, (ctxAt s c).gen), slice := some (ctxAt s c).slice, code := cHostRecordRejected }
  | .genDiscard c =>
    putRec s { mkRec s 0x0001 0 uGate (errDetail 369 uGate c (le 4 l.count)) with
      ctx := some (c, (ctxAt s c).gen), slice := some (ctxAt s c).slice, code := cGenerationDiscard }
  | _ => s

/-- A limit whose window has ended and whose record is still to be written. -/
def windowEnded (s : State) (l : Limit) : Bool := l.key.recorded && decide (l.window < s.ns / l.key.window)

/-- RECORD_LIMIT_WINDOW (R547): the rate-limited records are written with the counts gathered in the window. -/
def execRecordLimitWindow (s : State) : Host.Outcome State Fault Refusal :=
  done <| whenUp s fun s =>
    (s.err.limits.filter (windowEnded s)).foldl windowRecord
      { s with err.limits := s.err.limits.filter fun l => !windowEnded s l }

end Sys2Proof.Machine
end

