-- ==== Sys2Proof/Machine/Envelope.lean ====
section
/-!
DEFINITION. Envelope.lean: the signed write envelope (R539), the requests it carries to the reset logic (R457) and to the tensor
watch (R526), and the values that entries take.
-/
namespace Sys2Proof.Machine

/-- The signed bytes of an envelope: 0 to 2,752 + VALUE_LEN (R539). -/
def writeBytes (e : Envelope) : Bytes :=
  le 2 e.format ++ le 1 e.signer ++ le 1 0 ++ le 2 e.index ++ le 1 e.sub ++ le 1 0 ++ le 8 e.unitId ++
    le 8 e.sessionId.toNat ++ be 32 e.nonce.toNat ++ le 4 e.valueLen ++ le 4 0 ++ be 2689 e.signerKey.toNat ++ e.value

/-- An envelope as its bytes spell it (R539). -/
def parseEnvelope (b : Bytes) : Envelope :=
  let at_ (off n : Nat) : Nat := beNat (fit n (b.drop off))
  let sig := b.length - 4723
  { format := fld b 0 2, signer := fld b 2 1, index := fld b 4 2, sub := fld b 6 1, unitId := fld b 8 8
    sessionId := BitVec.ofNat 64 (fld b 16 8), nonce := BitVec.ofNat 256 (at_ 24 32), valueLen := fld b 56 4
    reserved := fld b 3 1 + fld b 7 1 + fld b 60 4, signerKey := BitVec.ofNat 21512 (at_ 64 2689)
    value := (b.take sig).drop 2753
    signature := ⟨BitVec.ofNat 768 (at_ sig 96), BitVec.ofNat 37016 (at_ (sig + 96) 4627)⟩ }

/-- The party whose envelopes are accepted (R539): manufacturing or service in BLANK, TEST, RETURN, SCRAP and INVALID, else the
operator, while a binding exists. -/
def envSigner (s : State) (signer : Nat) : Bool :=
  if s.lc.code = lcProvisioned ∨ s.lc.code = lcField then signer == 3 && s.lc.primary.operBinding != 0
  else signer == 1 || signer == 2

/-- The key of an envelope is the one that the unit knows (R539 order 7). -/
def envKey (s : State) (e : Envelope) : Bool :=
  if e.signer = 1 then keyDigest e.signerKey == keyDigest Config.mfgKey
  else if e.signer = 2 then keyDigest e.signerKey == keyDigest Config.serviceKey
  else left256 (keyDigest e.signerKey) == s.lc.primary.operBinding

/-- Form of an envelope (R539 order 4). -/
def envForm (e : Envelope) : Bool :=
  e.format == 0x21 && e.reserved == 0 && decide (1 ≤ e.valueLen) && decide (e.valueLen ≤ 256) && e.value.length == e.valueLen

/-- The LC_RESULT of an envelope written to an entry: the first check of R539 that fails, or 1. -/
def envCheck (s : State) (index sub : Nat) (e : Envelope) : Nat :=
  if lcBusy s then 0xB
  else if s.lc.lockout then 7
  else if !envForm e then 9
  else if !envSigner s e.signer || e.index ≠ index || e.sub ≠ sub then 4
  else if e.unitId ≠ unitId || e.sessionId ≠ s.pow.sessionId || nonceNow s ≠ some e.nonce then 3
  else if !(envKey s e && hybOk e.signerKey (writeBytes e) e.signature) then 2
  else 1

/-- What a write of a value answers: RESULT, and CODE where the entry's rule refused (R536). -/
abbrev Verdict : Type := Nat × Code

/-- A signed write (R539): the envelope's checks, then the value's. -/
def signedWrite (s : State) (index sub : Nat) (e : Envelope) (apply : State → Bytes → State × Verdict) : State :=
  let r := envCheck s index sub e
  let s1 := lcSet s r true
  if r ≠ 1 then answerSigned s1 index sub r
  else
    let a := apply s1 e.value
    answer a.1 0x82 index sub a.2.1 a.2.2 (if a.2.1 = 0 then 1 else 0) []

/-- What RESET_REQUEST asks for (R457): an engine or a partition reset waits for its turn, a chip warm reset is due as requested. -/
def resetValue (s : State) (b : Bytes) : State × Verdict :=
  let kind := fld b 0 1
  let n := fld b 1 1
  if b.length ≠ 2 then (s, 3, cOk)
  else if s.pow.quenched then (s, 8, cDeviceDown)
  else if kind = 1 ∧ unitExists n then ({ s with err.requested := s.err.requested ++ [(1, n)] }, 0, cOk)
  else if kind = 2 ∧ sliceExists s n then ({ s with err.requested := s.err.requested ++ [(2, n)] }, 0, cOk)
  else if kind = 3 then
    ({ s with pow.pendingChip := if s.pow.pendingChip.isSome then s.pow.pendingChip else some 0x100 }, 0, cOk)
  else (s, 4, cOk)

/-- RESET_REQUEST (R457). -/
def execResetRequest (e : Envelope) (s : State) : Host.Outcome State Fault Refusal :=
  done <| if s.up || dictMode s = 1 then signedWrite s 0x7F01 1 e resetValue else s

/-- DUMP_ENABLE's value (R526): clearing it closes open dumps. -/
def dumpValue (s : State) (b : Bytes) : State × Verdict :=
  let v := fld b 0 1
  if b.length ≠ 1 then (s, 3, cOk)
  else if 1 < v then (s, 4, cOk)
  else
    let s1 : State := { s with dict.force := tset s.dict.force (ekey 0x7200 2) v }
    (if v = 0 then closeDumps s1 else s1, 0, cOk)

/-- DUMP_ENABLE (R526). -/
def execDumpEnable (e : Envelope) (s : State) : Host.Outcome State Fault Refusal :=
  done <| whenUp s fun s => signedWrite s 0x7200 2 e dumpValue

/-- A value held for the next commit cast, or in force (R427). -/
def held (s : State) (index sub : Nat) : Nat := tgetD s.dict.shadow (ekey index sub) (setting s index sub)

/-- A reading of the held values with one of them replaced. -/
def heldWith (s : State) (index sub v i b : Nat) : Nat := if i = index ∧ b = sub then v else held s i b

/-- The set of values an entry takes beyond its bounds. -/
def valueSet (index sub v : Nat) : Bool :=
  if index = 0x1100 ∧ sub = 2 then ([1, 2, 4, 5] : List Nat).contains v
  else if index = 0x4011 ∧ sub = 1 then ([125, 250, 500, 1000] : List Nat).contains v
  else true

/-- The checks on held values (R234, R302, R325, R362, R391, R500). -/
def heldOk (s : State) (index sub v : Nat) : Bool :=
  let get := heldWith s index sub v
  if index = 0x5000 ∧ 3 ≤ sub then decide (get 0x5000 3 + get 0x5000 4 + get 0x5000 5 ≤ 1424)
  else if index = 0x5101 then decide (get 0x5101 1 + get 0x5101 2 + get 0x5101 3 ≤ 1472)
  else if index = 0x5200 ∧ 2 ≤ sub then decide (get 0x5200 2 + get 0x5200 3 ≤ 1536)
  else if index = 0x5300 ∧ (sub = 3 ∨ sub = 4) then
    decide (setting s 0x5300 2 + get 0x5300 3 + get 0x5300 4 + 16 * 64 ≤ 12288)
  else if index = 0x5300 ∧ (sub = 5 ∨ sub = 6) then
    decide (get 0x5300 5 + get 0x5300 6 + 16 * 128 ≤ poolRegions s 0 + poolRegions s 1 + poolRegions s 2 + poolRegions s 3)
  else if index = 0x4011 ∨ index = 0x4012 then (schedOf get).valid
  else if index = 0x6000 ∧ sub = 4 then decide (v ≤ setting s 0x6000 3)
  else true

/-- The unit that owns a QUIESCE setting is idle (R362, R365, R414). The manual names no idleness of SLICE_OWNER: that of the
other entry of its chapter is taken (log 29). -/
def settingIdle (s : State) (index : Nat) : Bool :=
  if index = 0x4010 then !s.ctxs.table.any fun c => c.2.mode != .free && decide (1 ≤ c.2.slice) && decide (c.2.slice ≤ 16)
  else if index = 0x5300 then !s.gate.objs.any fun o => o.2.state != 0
  else if index = 0x4001 then tenantsEmpty s else true

/-- Put a value that passed every check where its change class says (R540). A BOOT setting is stored at once (R541). -/
def putSetting (s : State) (e : Entry) (key v : Nat) : State × Verdict :=
  match e.change with
  | .live => ({ s with dict.force := tset s.dict.force key v }, 0, cOk)
  | .commit => ({ s with dict.shadow := tset s.dict.shadow key v }, 0, cOk)
  | .quiesce =>
    if settingIdle s e.index then ({ s with dict.force := tset s.dict.force key v }, 0, cOk) else (s, 8, cBusyQuiesce)
  | .boot => (storeConfig { s with dict.boot := tset s.dict.boot key v }, 0, cOk)

/-- Write a setting (R536, R537, R540): length, range, held values, and its change class. -/
def writeSetting (index sub : Nat) (s : State) (b : Bytes) : State × Verdict :=
  match entryAt index sub with
  | none => (s, 1, cOk)
  | some e =>
    let v := leNat b
    if b.length ≠ e.type.bytes then (s, 3, cOk)
    else if v < e.lo || e.hi < v || !valueSet index sub v || !heldOk s index sub v then (s, 4, cOk)
    else putSetting s e (ekey index sub) v

end Sys2Proof.Machine
end

