-- ==== Sys2Proof/Machine/Firmware.lean ====
section
/-!
DEFINITION. Firmware.lean: the commands that write the TCU image and broadcast the accelerator firmware (R464, R465, R471, R472).
-/
namespace Sys2Proof.Machine

/-- An image may be presented: in service, or to the recovery loader (R464, R465). -/
def takesImage (s : State) : Bool := s.up || (s.aon && s.boot.loader && !s.pow.heldInReset && !s.pow.saving)

/-- Check a TCU image and write it to the patch area (R463, R465). In the recovery loader a chip warm reset follows (R464). -/
def presentImage (s : State) (i : Image) : State × Nat :=
  let r := imageCheck s i 1
  let s1 := imageRecord { s with boot.fwResult := r } i r
  if r ≠ 0 then ({ s1 with boot.reason := r }, r)
  else
    ({ s1 with
      boot.area := some i, boot.areaValid := true, boot.pending := s.boot.running != some i
      pow.pendingChip := if s.boot.loader then some 0x100 else s.pow.pendingChip }, 0)

/-- FW_IMAGE (R465): a dictionary write of a TCU image. -/
def execFwImage (img : Image) (s : State) : Host.Outcome State Fault Refusal :=
  done <| if takesImage s then
      (let r := presentImage s img
       if r.2 = 0 then answer r.1 0x82 0x2010 1 0 cOk 0 [] else answer r.1 0x82 0x2010 1 8 cImageInvalid 0 [])
    else s

/-- Take a firmware command of the driver page: as every mailbox command in service, and by the recovery loader in its place
(R464). In the quenched state it completes DEVICE_DOWN (R447). -/
def fwMailbox (s : State) (h : MbxHdr) (opcode : Nat) (body : Bytes) (run : State → State × Code × Bytes) : State :=
  if s.boot.loader && !s.pow.quenched && s.pow.pendingChip.isNone && takesImage s && h.page == 0 then
    if !mbxPresent s h then s
    else if hdrBad h body then mbxRefuse s h opcode cHostRecordRejected (reason 1)
    else
      let r := run (mbxTaken s h)
      mbxAnswer r.1 h opcode r.2.1 r.2.2
  else mailbox s h opcode true body run

/-- FW_CHUNK (R480): up to 960 image bytes at an offset. -/
def execFwChunk (h : MbxHdr) (offset : Nat) (data : Bytes) (s : State) : Host.Outcome State Fault Refusal :=
  done <| fwMailbox s h 0x0601 (le 4 offset ++ data) fun s =>
    if 960 < data.length || 2097152 < offset + data.length then (s, cHostRecordRejected, reason 1)
    else
      let b := s.boot.chunkBuf
      ({ s with boot.chunkBuf := fit offset b ++ data ++ b.drop (offset + data.length) }, cOk, [])

/-- FW_COMMIT (R464, R480): the assembled image is verified and written; the answer carries the reason. -/
def execFwCommit (h : MbxHdr) (total : Nat) (s : State) : Host.Outcome State Fault Refusal :=
  done <| fwMailbox s h 0x0602 (le 4 total) fun s =>
    let r := presentImage s (parseImage (fit (min total 2097153) s.boot.chunkBuf))
    ({ r.1 with boot.chunkBuf := [] }, if r.2 = 0 then cOk else cImageInvalid, le 4 r.2)

/-- AFW_LOAD (R471): the driver asks for a broadcast from a first page; refused while one runs or a fill is armed (R478). -/
def execAfwLoad (h : MbxHdr) (page : Nat) (s : State) : Host.Outcome State Fault Refusal :=
  done <| mailbox s h 0x0603 true (le 2 page) fun s =>
    if 16384 ≤ page then (s, cHostRecordRejected, reason 1)
    else if s.boot.afwBusy || s.boot.fillArmed.isSome then fail s cBusyQuiesce
    else ({ s with boot.afwSrc := page, boot.afwBusy := true }, cOk, [])

/-- Give WRITE back on the pages of the last broadcast (R471). -/
def unlockPages (s : State) : State :=
  s.boot.afwLocked.foldl (fun s p =>
    setPage s p { pageOwner s p with flags := (pageOwner s p).flags / 4 * 4 + 3 })
    { s with boot.afwLocked := [] }

/-- Revoke WRITE on the system pages of an image in every replica (R471 step 1). -/
def lockPages (s : State) (bytes : Nat) : State :=
  let pages := ((List.range ((bytes + 2 ^ 26 - 1) / 2 ^ 26)).map (s.boot.afwSrc + ·)).filter fun p => (pageOwner s p).kind == 3
  pages.foldl (fun s p =>
    setPage s p { pageOwner s p with flags := (pageOwner s p).flags / 4 * 4 + 1 })
    { s with boot.afwLocked := pages }

/-- Cores that fail their load check (R472): not assigned before the map is built, else vacated. -/
def loadFailures (s : State) (cores : List Nat) : State :=
  if s.boot.phase = 4 && s.boot.path = 0 then { s with boot.failedCores := cores.foldl insertN s.boot.failedCores }
  else cores.foldl (fun s c => vacateCore s c none) s

/-- AFW_CTRL_GO (R471, R478): the pages are write-locked, the image is verified, the array's loader is switched in under the
system stamp, and the loader is handed the body's place, length and CRC-64 for every good core. -/
def execAfwCtrlGo (img : Image) (coresFailed : List Nat) (s : State) : Host.Outcome State Fault Refusal :=
  done <| whenUp s fun s =>
    let s0 : State := { s with boot.afwBusy := false }
    if s.boot.fillArmed.isSome then { s0 with boot.afwResult := cBusyQuiesce.toNat }
    else
      let s1 := lockPages (unlockPages s0) (7552 + img.bodyLen)
      let r := imageCheck s1 img 2
      let s2 := imageRecord s1 img r
      if r ≠ 0 then unlockPages { s2 with boot.afwResult := cImageInvalid.toNat }
      else
        let s3 := (arrayCut s2).emit (.arrSwitch 0 0 0)
        let s4 : State := { (s3.emit (.afwBroadcast (s3.boot.afwSrc * 2 ^ 26 + 7552) img.bodyLen (crc64 img.body))) with
          boot.afwResult := 0, boot.afwFailed := coresFailed.length, boot.afwDigest := img.bodyDigest
          boot.afwVersion := img.version }
        loadFailures s4 coresFailed

end Sys2Proof.Machine
end

