-- ==== Sys2Proof/Machine/Migrate.lean ====
section
/-!
DEFINITION. Migrate.lean: the slice image: offers, saving and restoring (R379 to R385). A save and a restore are one step each.
-/
namespace Sys2Proof.Machine

/-- Members of a list with their lengths, as the plaintext of a record holds them (log 24). -/
def listBytes (n : Nat) (l : List Nat) : Bytes := le 2 l.length ++ l.flatMap (le n)

/-- The plaintexts of the records of an image in their order, with their kinds (R382); MEMORY records follow all the others. -/
def imageRecords (m : SliceImage) : List (Nat × Bytes) :=
  let group (o : ImageObj) : Bytes := match o.group with
    | some g => le 1 1 ++ le 2 g.length ++ g.flatMap fun x => le 2 x.1 ++ le 2 x.2.1 ++ le 1 (b2n x.2.2)
    | none => le 1 0
  let peers (o : ImageObj) : Bytes := match o.peers with
    | some p => le 1 1 ++ le 1 p.1 ++ listBytes 2 p.2
    | none => le 1 0
  let idx (o : ImageObj) : Nat := o.handle / 4096
  [(1, le 4 m.owner ++ m.objs.flatMap fun o => group o ++ peers o)] ++
    m.ctxs.flatMap (fun c =>
      (2, le 2 c.id ++ le 2 c.gen ++ le 1 (b2n c.debuggable) ++
        c.maps.flatMap (fun x => le 8 (x.1 * 2 ^ 26) ++ le 4 x.2.1 ++ le 4 x.2.2.1 ++ le 1 x.2.2.2) ++
        c.tokens.flatMap fun x => le 1 x.1 ++ le 4 x.2) ::
      c.queues.map (fun q =>
        (3, le 2 c.id ++ le 1 q.number ++ le 8 q.ring ++ le 4 q.ringSize ++ le 4 q.head ++ le 4 q.tail ++ le 8 q.cring ++
          le 4 q.cringSize ++ le 4 q.chead ++ le 4 q.ctail)) ++
      [(7, le 2 c.id ++ le 8 c.hostH ++ le 128 c.hostBits.toNat ++ le 8 c.hostSeq)]) ++
    m.objs.map (fun o =>
      (4, le 4 o.handle ++ le 1 o.kind ++ le 1 o.rights ++ le 8 o.size ++ listBytes 2 o.holders ++ le 4 o.tokens ++
        le 4 o.stride ++ (o.units.flatMap fun u => le 4 u.1 ++ le 1 (b2n u.2.1)) ++ o.map.flatMap fun b => le 4 b.1 ++ le 1 b.2)) ++
    m.evts.map (fun e => (5, le 4 e.handle ++ le 1 e.state ++ [e.code] ++ listBytes 2 e.holders)) ++
    m.pend.map (fun p => (6, le 2 p.1 ++ le 1 p.2.1 ++ le 8 p.2.2.1 ++ fit 96 p.2.2.2)) ++
    m.chans.map (fun c => (8, le 2 c.2.1 ++ le 1 c.1 ++ fit 112 c.2.2.1 ++ blobAad c.2.2.2 ++ c.2.2.2.body ++
      be 16 c.2.2.2.tag.toNat)) ++
    m.objs.flatMap (fun o => o.poison.map fun p =>
      (10, le 4 (idx o) ++ le 4 p.1 ++ le 32768 (p.2.foldl (fun b g => b + 2 ^ g) 0))) ++
    m.objs.flatMap fun o => o.units.map fun u => (9, le 4 (idx o) ++ le 4 u.1 ++ le 8 0 ++ fit (2 ^ 26) u.2.2)

/-- Tier-A pages and tier-B regions that an image needs (R381). -/
def imagePages (m : SliceImage) : Nat := (m.objs.flatMap fun o => o.units.filter fun u => !u.2.1).length
def imageRegions (m : SliceImage) : Nat := (m.objs.flatMap fun o => o.units.filter fun u => u.2.1).length

/-- The header of an image up to its hallmark (R381): what its signature covers. -/
def imageHeader (m : SliceImage) : Bytes :=
  let recs := imageRecords m
  let hall := (m.hallmark.map hallBytes).getD []
  let keys := if m.target = 1 then be 97 m.q.toNat ++ be 1568 m.ct.toNat
    else match m.blob with
      | some b => fit 1665 (blobAad b ++ b.body ++ be 16 b.tag.toNat)
      | none => fit 1665 []
  le 1 m.format ++ le 1 m.target ++ le 1 m.slice ++ le 1 0 ++ le 4 recs.length ++ le 8 m.srcUnit ++
    le 8 m.srcSession.toNat ++ le 8 m.dstUnit ++ le 8 m.domainId ++ le 8 m.saveTime ++
    le 8 (recs.map fun r => 32 + r.2.length).sum ++ le 2 m.ctxs.length ++ le 2 m.evts.length ++ le 4 m.objs.length ++
    le 4 (imagePages m) ++ le 4 (imageRegions m) ++ be 32 m.offerDigest.toNat ++ keys ++ le 3 m.reserved ++
    le 4 hall.length ++ hall

/-- One sealed record (R382). -/
def sealRecord (k : Key) (r : (Nat × Bytes) × Nat) : Bytes :=
  let head := le 1 r.1.1 ++ le 3 0 ++ le 4 r.2 ++ le 4 r.1.2.length ++ le 4 0
  let c := gcmSeal k (BitVec.ofNat 96 r.2) head r.1.2
  head ++ c.1 ++ be 16 c.2.toNat

/-- A whole image (R381, R382). -/
def imageBytes (k : Key) (m : SliceImage) : Bytes :=
  imageHeader m ++ be 96 m.signature.ecdsa.toNat ++ be 4627 m.signature.mldsa.toNat ++
    (imageRecords m).zipIdx.flatMap (sealRecord k)

/-- Tenant slices only freeze and migrate (R378): the refusal of a command for any other number. -/
def notTenant (s : State) (n : Nat) : Option (Code × Bytes) :=
  if !sliceExists s n then some (cDescriptorInvalid, reason 1)
  else if n = 0 || n = 31 then some (cFaultPermission, []) else none

/-- The 1,745 bytes of an offer (R380). -/
def offerBody (unit : Nat) (session : BitVec 64) (slice : Nat) (nonce : BitVec 256) (q : Point) (ek : KemBlob) : Bytes :=
  le 8 unit ++ le 8 session.toNat ++ le 1 slice ++ be 32 nonce.toNat ++ be 97 q.toNat ++ be 1568 ek.toNat ++ le 31 0

/-- OFFER_DIGEST, and the nonce of an offer's hallmark (R380, R381). -/
def offerDigest (body : Bytes) : BitVec 256 := left256 (Config.sha384 body)

/-- An offer is still in its lifetime (R380). -/
def offerLive (s : State) (o : Offer) : Bool := decide (s.ns < o.madeAt + o.lifetime * 1000000000)

/-- SLICE_OFFER (R380): fresh ephemeral keys, the offer, and its hallmark. -/
def execSliceOffer (h : MbxHdr) (slice hostAddr : Nat) (s : State) : Host.Outcome State Fault Refusal :=
  done <| mailbox s h 0x040A true (le 1 slice ++ le 8 hostAddr) fun s =>
    match notTenant s slice with
    | some (c, b) => (s, c, b)
    | none =>
      if 4 ≤ (s.ctxs.offers.filter fun o => offerLive s o.2).length then fail s cRefusedQueue
      else if !s.vault.entropyOk then fail s cExecutorReset
      else
        let nonce := s.drawn 256
        let k := kaKeys s.drew
        let body := offerBody unitId s.pow.sessionId slice nonce (Config.ecPoint k.2.1) (Config.kemKey k.2.2)
        match makeHallmark k.1 (offerDigest body) none true with
        | (s1, none) => fail s1 cSliceImageInvalid
        | (s1, some hall) =>
          let o : Offer :=
            { slice := slice, body := body, nonce := nonce, ecPriv := k.2.1, kemPriv := k.2.2, madeAt := s1.ns,
              lifetime := setting s1 0x4002 1 }
          let out := body ++ hallBytes hall
          (({ s1 with ctxs.offers := tset s1.ctxs.offers (leastFree s1.ctxs.offers 0) o } : State).emit
            (.hostWrite hostAddr out), cOk, le 4 out.length)

/-- OFFER_EXPIRE (R380): after OFFER_LIFETIME the offer is void, and its keys go with it. -/
def execOfferExpire (offer : Nat) (s : State) : Host.Outcome State Fault Refusal :=
  done <| whenUp s fun s =>
    match tget s.ctxs.offers offer with
    | some o =>
      if o.madeAt + o.lifetime * 1000000000 ≤ s.ns then { s with ctxs.offers := tdel s.ctxs.offers offer } else s
    | none => s

/-- The units of an object, by ordinal, with the frame behind each (R350, R339). -/
def objUnits (o : MemObj) : List (Nat × Bool × Nat) :=
  (o.frames.zipIdx.map fun f => (f.2, o.tierB, f.1)) ++ o.blocks.map fun b => (b.1, b.2.kind == 2, b.2.frame)

/-- The data of a unit: tier A as it stands; what the pool holds of a tier-B region is outside the block (log 24). -/
def unitData (s : State) (u : Nat × Bool × Nat) : Nat × Bool × Bytes :=
  (u.1, u.2.1, if u.2.1 then le (2 ^ 26) (Config.freeBits (2 ^ 29) (s.free + u.2.2)).toNat
    else tierABytes s (u.2.2 * 2 ^ 26) (2 ^ 26))

/-- Poisoned granules of a region as the image records them: all of a LOST one; of any other, the tree in the pool says which. -/
def unitPoison (s : State) (u : Nat × Bool × Nat) : Option (Nat × List Nat) :=
  if !u.2.1 then none
  else if (tget s.mem.regions u.2.2).any fun g => g.lost then some (u.1, List.range (2 ^ 18))
  else
    let bitmap : BitVec (2 ^ 18) := Config.freeBits (2 ^ 18) (s.free + u.2.2)
    let l := (List.range (2 ^ 18)).filter fun g => bitmap.getLsbD g
    if l = [] then none else some (u.1, l)

/-- A context as the image holds it (R382). -/
def saveCtx (s : State) (c : Nat) : ImageCtx :=
  let x := ctxAt s c
  let ordinal (m : Mapping) : Nat :=
    (((tget s.gate.objs m.obj).map fun o => o.frames.findIdx fun f => f == m.frame)).getD 0
  let w := winAt s c
  { id := c, gen := x.gen, debuggable := x.debuggable
    maps := ((ctxUnits s c).filter fun m => !m.2.freeing).map fun m =>
      (m.1, m.2.obj, ordinal m.2, b2n m.2.read + 2 * b2n m.2.write)
    tokens := tgetD s.gate.tokenSlots c []
    queues := (s.gate.queues.filter fun q => q.1 / 64 == c).map fun q =>
      { number := q.1 % 64, ring := q.2.ring, ringSize := q.2.ringSize, head := q.2.head, tail := q.2.tail,
        cring := q.2.cring, cringSize := q.2.cringSize, chead := q.2.chead, ctail := q.2.ctail }
    hostH := w.high, hostBits := w.bits, hostSeq := w.nextOut }

/-- An object as the image holds it. -/
def saveObj (s : State) (p : Nat × MemObj) : ImageObj :=
  let o := p.2
  { handle := p.1 * 4096 + o.gen, kind := o.kind, rights := o.rights, size := o.size, holders := o.holders
    group := o.group.map fun g => tgetD s.gate.groups g [], peers := o.peers, tokens := o.tokens, stride := o.stride
    map := o.blocks.map fun b => (b.1, b2n b.2.read + 2 * b2n b.2.write)
    units := (objUnits o).map (unitData s), poison := (objUnits o).filterMap (unitPoison s) }

/-- A slice's channels whose key carries WRAP_STORE (R382), each with its key's path. -/
def storedChans (s : State) (slice : Nat) : List (Nat × Channel × KeyPath) :=
  (s.cipher.channels.filter fun c => c.2.allocated && c.2.slice == slice).filterMap fun c =>
    match c.2.key with
    | some p => if (findKey s p).any fun k => bit k.attr.toNat 13 then some (c.1, c.2, p) else none
    | none => none

/-- Those channels with their keys wrapped under the operator key, each under a fresh IV and counted (R104, R112, R382). -/
def saveChans (s : State) (slice : Nat) (w : Key) : State × List (Nat × Nat × Bytes × WrappedBlob) :=
  (storedChans s slice).foldl (fun r c =>
    let s1 := reportKey r.1 c.2.2
    match findKey s1 c.2.2, key256 s1 c.2.2 with
    | some k, some v => (spendKey s1.drew .oper 1 0, r.2 ++ [(c.1, c.2.1.ctx, stateBytes c.2.1.message, wrapBlob s1 k v 8 w)])
    | _, _ => r) (s, [])

/-- The content of a slice as an unsigned image with no key material (R381, R382). -/
def saveContent (s : State) (slice : Nat) : SliceImage :=
  { format := 5, target := 0, slice := slice, srcUnit := unitId, srcSession := s.pow.sessionId, dstUnit := unitId,
    domainId := 0, saveTime := s.ns, offerDigest := 0, q := 0, ct := 0, blob := none, reserved := 0, hallmark := none,
    signature := ⟨0, 0⟩, owner := setting s 0x4001 slice
    ctxs := (s.ctxs.table.filter fun c => c.2.mode == .frozen && c.2.slice == slice).map fun c => saveCtx s c.1
    objs := (s.gate.objs.filter fun o => o.2.state == 1 && o.2.slice == slice).map (saveObj s)
    evts := (s.gate.evts.filter fun e => e.2.state != 0 && e.2.slice == slice).map fun e =>
      { handle := e.2.gen * 65536 + e.1, state := e.2.state, code := e.2.code, holders := e.2.holders }
    pend := (s.ctxs.pend.filter fun p => p.slice == slice).map fun p => (p.ctx, p.queue, p.elem, p.raw)
    chans := [], recordsOk := true }

/-- The vtc-domain of a hallmark is this unit's domain (R383, R384). -/
def sameDomain (s : State) (h : Hallmark) : Bool :=
  isMember s && h.domain.any fun d => d.domainId == s.dom.domainId

/-- Step 1 of R383 for PEER: the offer's hallmark, its domain, the membership of its unit, and the policy. -/
def peerOk (s : State) (unit : Nat) (body : Bytes) (hall : Hallmark) : Bool :=
  hallOk hall (offerDigest body) && hall.unitId == unit && sameDomain s hall && member s unit &&
    s.dom.policy.any fun p => (policyRefuses p hall).isNone

/-- Step 1 of R383 for the operands of a SLICE_SAVE to another member. -/
def saveOfferOk (s : State) (offer : Option (Nat × BitVec 64 × Nat × BitVec 256 × Point × KemBlob)) (hall : Option Hallmark) : Bool :=
  match offer, hall with
  | some o, some hm => peerOk s o.1 (offerBody o.1 o.2.1 o.2.2.1 o.2.2.2.1 o.2.2.2.2.1 o.2.2.2.2.2) hm
  | _, _ => false

/-- The first unit in tier A of a saved object that its holder's stamp may not read (R31, R383), with the context and the verdict. -/
def saveDenied (s : State) (slice : Nat) : Option (Nat × Code × Nat) :=
  (s.gate.objs.filter fun o => o.2.state == 1 && o.2.slice == slice).findSome? fun o =>
    let c := o.2.holders.headD o.2.owner
    (objUnits o.2).findSome? fun u =>
      if u.2.1 then none
      else (tierAVerdict s c (ctxAt s c).gen (u.2.2 * 2 ^ 26) (2 ^ 26) false).map fun v => (c, v)

/-- The tier-B regions of a slice's objects, read through their pewter engines and charged to the slice's pool buckets (R293, R383). -/
def saveReads (s : State) (slice : Nat) : State :=
  let regions := (s.gate.objs.filter fun o => o.2.state == 1 && o.2.slice == slice).flatMap fun o =>
    ((objUnits o.2).filter fun u => u.2.1).map fun u => u.2.2
  regions.foldl (fun s r => bumpSlice (pewCharge s (r % 4) slice false (2 ^ 18 * 272)) slice 7 (2 ^ 18 * 272)) s

/-- Sign and write an image under its key, which is then destroyed (R383 steps 3 and 4): charged to the slice's own pool and host
buckets. -/
def writeImage (s : State) (slice extents : Nat) (k : Key) (m : SliceImage) : State × Code × Bytes :=
  match signId s (imageHeader m) with
  | (s1, none) => fail s1 cSliceImageInvalid
  | (s1, some g) =>
    let b := imageBytes k { m with signature := g }
    let s2 := bumpSlice (hostCharge (saveReads s1 slice) slice 1 b.length) slice 10 b.length
    let s3 := dropKeys (s2.emit (.hostWrite extents b)) fun p => p == .imageKey slice
    ({ s3 with ctxs.imagesSaved := s3.ctxs.imagesSaved + 1 }, cOk, le 8 b.length)

/-- Put an image key into a system slot of partition 3, wrappable under the operator key (R383 step 2). -/
def putImageKey (s : State) (slice : Nat) (k : Key) : State :=
  importKey s (.imageKey slice) (k.setWidth 512) 256 3 (freeSlotIn s 3) 32 0x2000

/-- Why a save to this unit cannot wrap what it must (R88, R112): the image key and each stored channel key are one wrap each. -/
def saveRefused (s : State) (slice : Nat) : Option Code :=
  match wrapRefused s .oper with
  | some c => some c
  | none => if keyAllows s .oper (1 + (storedChans s slice).length) 0 then none else some cKeyLimit

/-- SAVE to this unit (R379): the image key is drawn, and travels wrapped under the operator key. -/
def saveSelf (s : State) (slice extents : Nat) : State × Code × Bytes :=
  if !s.vault.entropyOk then fail s cExecutorReset
  else
  let k := s.drawn 256
  let s1 := needKey (putImageKey s.drew slice k) .oper
  let drop (s : State) : State := dropKeys s fun p => p == .imageKey slice
  match findKey s1 (.imageKey slice), saveRefused s1 slice, key256 s1 .oper with
  | none, _, _ => fail s1 ((notHeld s1 (.imageKey slice)).getD cSliceImageInvalid)
  | some _, some code, _ => fail (drop s1) code
  | some _, none, none => fail (drop s1) cKeyDestroyed
  | some ks, none, some w =>
    let c := saveChans (spendKey s1.drew .oper 1 0) slice w
    writeImage c.1 slice extents k { saveContent s1 slice with blob := some (wrapBlob s1 ks k 8 w), chans := c.2 }

/-- SAVE to another member (R379): this unit responds to the offer's agreement, and its hallmark answers the offer's nonce. -/
def savePeer (s : State) (slice extents : Nat)
    (o : Nat × BitVec 64 × Nat × BitVec 256 × Point × KemBlob) : State × Code × Bytes :=
  let body := offerBody o.1 o.2.1 o.2.2.1 o.2.2.2.1 o.2.2.2.2.1 o.2.2.2.2.2
  match kaRespond s o.2.2.2.2.1 o.2.2.2.2.2 with
  | (s1, none) => fail s1 cSliceImageInvalid
  | (s1, some (qr, ct, ss)) =>
    let s0 := putImageKey s1 slice (left256 ss)
    if (findKey s0 (.imageKey slice)).isNone then fail s0 ((notHeld s0 (.imageKey slice)).getD cSliceImageInvalid)
    else
    match makeHallmark s0 o.2.2.2.1 none true with
    | (s2, none) => fail (dropKeys s2 fun p => p == .imageKey slice) cSliceImageInvalid
    | (s2, some own) =>
      writeImage s2 slice extents (left256 ss) { saveContent s2 slice with
        target := 1, dstUnit := o.1, domainId := s2.dom.domainId, offerDigest := offerDigest body, q := qr, ct := ct,
        hallmark := some own }

/-- SLICE_SAVE (R383): of a frozen slice, which stays frozen. The offer and its hallmark are checked first. -/
def execSliceSave (h : MbxHdr) (slice target : Nat)
    (offer : Option (Nat × BitVec 64 × Nat × BitVec 256 × Point × KemBlob)) (hall : Option Hallmark) (extents : Nat)
    (s : State) : Host.Outcome State Fault Refusal :=
  done <| mailbox s h 0x040B true (le 1 slice ++ le 1 target ++ le 8 extents) fun s =>
    match notTenant s slice with
    | some (c, b) => (s, c, b)
    | none =>
      if ((tget s.ctxs.slices slice).map (·.state)).getD 0 ≠ 3 then fail s cBusyQuiesce
      else if target = 1 && !saveOfferOk s offer hall then fail s cSliceImageInvalid
      else if target ≤ 1 && (saveDenied s slice).isSome then
        (saveDenied s slice).elim (s, cOk, []) fun d => fail (afterVerdict s d.2 d.1) d.2.1
      else if target = 0 then saveSelf s slice extents
      else if target = 1 then
        match offer with
        | some o => savePeer s slice extents o
        | none => fail s cSliceImageInvalid
      else (s, cDescriptorInvalid, reason 1)

/-- The open offer of a slice that an image answers (R384 order 2), still in its lifetime. -/
def offerOf (s : State) (slice : Nat) (m : SliceImage) : Option (Nat × Offer) :=
  s.ctxs.offers.find? fun o => o.2.slice == slice && offerDigest o.2.body == m.offerDigest && offerLive s o.2

/-- Orders 1 to 3 of R384: whether the image's form, its key and its signature are good, and under whose key it was signed. -/
def imageGood (s : State) (slice : Nat) (m : SliceImage) : Bool :=
  m.format == 5 && m.reserved == 0 && decide (m.target ≤ 1) && decide (m.slice < 32) &&
    (if m.target = 0 then
      m.srcUnit == unitId && m.dstUnit == unitId && m.hallmark.isNone && m.domainId == 0 &&
        m.blob.any (fun b => b.wrapper == 8 && (unwrap s 3 b).isSome) &&
        (identity s).any fun k => hybOk k (imageHeader m) m.signature
    else
      match offerOf s slice m, m.hallmark with
      | some o, some h =>
        m.dstUnit == unitId && (kaFinish o.2.ecPriv o.2.kemPriv m.q m.ct).isSome && hallOk h o.2.nonce &&
          h.unitId == m.srcUnit && sameDomain s h && m.domainId == s.dom.domainId && member s m.srcUnit &&
          hybOk h.idKey (imageHeader m) m.signature
      | _, _ => false)

/-- Order 4 of R384: the image fits the slice's parts, and every id and index in it is FREE. -/
def imageFits (s : State) (slice : Nat) (m : SliceImage) : Bool :=
  decide (m.ctxs.length + sliceCtxs s slice ≤ ctxQuota s slice) && m.ctxs.all (fun c => ctxFree s c.id) &&
    decide (m.objs.length + objsUsed s slice ≤ objPart s slice) &&
    m.objs.all (fun o => ((tget s.gate.objs (objIndex o.handle)).map (·.state)).getD 0 == 0) &&
    decide (m.evts.length + evtsUsed s slice ≤ evtPart s slice) &&
    m.evts.all (fun e => ((tget s.gate.evts (evtIndex e.handle)).map (·.state)).getD 0 == 0) &&
    (match findPages s slice (imagePages m) false false, findRegions s slice (imageRegions m) false with
     | .ok _, .ok _ => true
     | _, _ => false)

/-- Restore one context (R384): at its id and generation, FROZEN, with its tables, queues and host window; its queues send no
MSI-X until the driver binds a vector. -/
def restoreCtx (slice : Nat) (s : State) (c : ImageCtx) : State :=
  let s1 : State := { s with
    ctxs.table := tset s.ctxs.table c.id ⟨.frozen, c.gen, false, slice, c.debuggable⟩
    gate.tokenSlots := if c.tokens = [] then s.gate.tokenSlots else tset s.gate.tokenSlots c.id c.tokens
    gate.queues := c.queues.foldl (fun t q => tset t (qid c.id q.number)
      { gen := c.gen, slice := slice, ring := q.ring, ringSize := q.ringSize, head := q.head, tail := q.tail,
        cring := q.cring, cringSize := q.cringSize, chead := q.chead, ctail := q.ctail, vector := 0, stopped := false })
      s.gate.queues
    host.windows := tset s.host.windows c.id ⟨c.hostH, c.hostBits, c.hostSeq⟩ }
  let s2 := needKey (needKey s1 (.ctxmem c.id c.gen)) (.ctxaux c.id c.gen)
  c.maps.foldl (fun s x => match tget s.gate.objs x.2.1 with
    | some o => mapUnits s c.id x.1 x.2.1 (if o.tierB then 2 else 1) x.2.2.2 false [o.frames.getD x.2.2.1 0]
    | none => s) s2

/-- Write a region's data through its pewter engine under its new key (R266, R384), and mark the poisoned granules (R285). -/
def restoreRegion (s : State) (slice ctx gen region : Nat) (data : Bytes) (poison : List Nat) : State :=
  let s1 := (List.range (2 ^ 18)).foldl (fun s g =>
    if poison.contains g then s
    else pewSubmit s { region := region, granule := g, ctx := ctx, gen := gen, slice := slice, reqId := 0 }
      (.full (BitVec.ofNat 2048 (fld data (g * 256) 256))) .system) s
  pewPump (poison.foldl (fun s g => pewOwn s region g .mark) s1) (region % 4)

/-- Restore one object (R384): new pages and regions for its units, with their data. It keeps its peer set (R352), under another index
where its own is in use. -/
def restoreObj (slice : Nat) (s : State) (o : ImageObj) : State :=
  let owner := o.holders.headD 0
  let gen := (ctxAt s owner).gen
  let grp := o.group.map fun g => (leastFree s.gate.groups 0, g)
  let s0 : State := match grp with
    | some (n, g) => setGroup s n g
    | none => s
  let place : State × List (Nat × Bool × Nat) := o.units.foldl (fun a u =>
    let s := a.1
    if u.2.1 then
      match findRegions s slice 1 false with
      | .ok (r :: _) =>
        let s1 := newRegion s r (if grp.isSome then 1 else 0) slice owner gen
        (restoreRegion s1 slice owner gen r u.2.2 (((o.poison.find? fun p => p.1 == u.1).map (·.2)).getD []),
          a.2 ++ [(u.1, true, r)])
      | _ => a
    else
      match findPages s slice 1 false false with
      | .ok (p :: _) =>
        let s1 := grantPage s p o.rights slice owner gen
        let s2 : State := match grp with
          | some (n, _) => setPage s1 p { pageOwner s1 p with kind := 2, owner := n, gen := 0 }
          | none => s1
        (tierAWrite s2 (p * 2 ^ 26) u.2.2, a.2 ++ [(u.1, false, p)])
      | _ => a) (s0, [])
  let peers := o.peers.map fun p =>
    (if (peerSets s).any fun x => x.2.peers.any fun y => y.1 == p.1 then freePeer s else p.1, p.2)
  let token := decide (o.kind = 3)
  let rights (b : Nat) : Nat := ((o.map.find? fun m => m.1 == b).map (·.2)).getD 0
  let entry (u : Nat × Bool × Nat) : Mapping :=
    ⟨if u.2.1 then 2 else 1, false, bit (rights u.1) 1, bit (rights u.1) 0, objIndex o.handle, u.2.2⟩
  let obj : MemObj :=
    { state := 1, kind := o.kind, slice := slice, rights := o.rights, gen := objGen o.handle, owner := owner,
      holders := o.holders, qrefs := 0, size := o.size, peers := peers,
      frames := if token then [] else place.2.map fun u => u.2.2, tierB := o.kind == 2, group := grp.map (·.1),
      tokens := o.tokens, stride := o.stride,
      blocks := if token then place.2.foldl (fun t u => tset t u.1 (entry u)) [] else [] }
  { place.1 with gate.objs := tset place.1.gate.objs (objIndex o.handle) obj }

/-- Restore one saved channel (R382, R384): its key comes from the blob, its state goes back to it. -/
def restoreChan (slice : Nat) (s : State) (c : Nat × Nat × Bytes × WrappedBlob) : State :=
  let slot := freeSlotIn s 3
  let r := importBlob s slice c.2.2.2
  if r.2 = cOk && !(chanAt s c.1).allocated then
    setChan r.1 c.1 { chanBlank c.1 with
      allocated := true, slice := slice, ctx := c.2.1, gen := (ctxAt s c.2.1).gen, key := some (.chan slice slot),
      message := stateOf c.2.2.1 }
  else s

/-- Restore an image whose checks have passed (R384): the slice is FROZEN, and a PEER image's offer is consumed. -/
def restoreAll (s : State) (slice : Nat) (m : SliceImage) : State :=
  let used := (offerOf s slice m).map (·.1)
  let bare := m.ctxs.foldl (fun s c => restoreCtx slice s { c with maps := [] }) s
  let s1 := m.objs.foldl (restoreObj slice) bare
  let s2 := m.ctxs.foldl (restoreCtx slice) s1
  let s3 : State := { s2 with
    gate.evts := m.evts.foldl (fun t e => tset t (evtIndex e.handle)
      { state := e.state, code := e.code, slice := slice, creator := e.holders.headD 0, gen := evtGen e.handle,
        holders := e.holders, qrefs := 0 }) s2.gate.evts
    ctxs.pend := s2.ctxs.pend ++ m.pend.map fun p =>
      { slice := slice, ctx := p.1, queue := p.2.1, cp := 0, elem := p.2.2.1, raw := p.2.2.2 }
    ctxs.slices := tmod s2.ctxs.slices slice fun x => { x with state := 3 }
    ctxs.imagesRestored := s2.ctxs.imagesRestored + 1
    ctxs.offers := match m.target, used with
      | 1, some n => tdel s2.ctxs.offers n
      | _, _ => s2.ctxs.offers }
  m.chans.foldl (restoreChan slice) s3

/-- SLICE_RESTORE (R98, R384): into a tenant slice in service that holds no context. A restore that fails a check leaves the slice empty,
with its memory key destroyed. -/
def execSliceRestore (h : MbxHdr) (slice : Nat) (image : SliceImage) (s : State) : Host.Outcome State Fault Refusal :=
  done <| mailbox s h 0x040C true (le 1 slice) fun s =>
    match notTenant s slice with
    | some (c, b) => (s, c, b)
    | none =>
      if (slicePasid s slice).isNone then fail s cFaultPermission
      else if sliceCtxs s slice ≠ 0 || sliceFrozen s slice then fail s cBusyQuiesce
      else if !imageGood s slice image then fail (destroySliceMem s slice) cSliceImageInvalid
      else if !imageFits s slice image then fail (destroySliceMem s slice) cSliceImageConflict
      else if !image.recordsOk || !image.chans.all (fun c => (unwrap s 3 c.2.2.2).isSome) then
        fail (destroySliceMem s slice) cSliceImageInvalid
      else (restoreAll s slice image, cOk, [])

end Sys2Proof.Machine
end

