-- ==== Sys2Proof/Machine/DictValues.lean ====
section
/-!
DEFINITION. DictValues.lean: what a read of each entry of the dictionary returns (R120, R174, R203 and the entry rules of the other
chapters), the lengths of their values, and DESCRIBE (R538).
-/
namespace Sys2Proof.Machine

/-- The domain time of the armed cast of a kind that the TCU armed in domain time, or 0 (R437). -/
def armedAt (s : State) (kind : Nat) : Nat :=
  match s.casts.table.find? fun c => c.2.kind == kind && c.2.owner == ownTcu && !c.2.resting with
  | some c => ((c.2.fire : Int) + s.time.doff).toNat
  | none => 0

/-- Milliseconds since PRESENCE was last high, or all ones (R174). -/
def presenceAge (s : State) : Nat :=
  if s.pins.presence then 0
  else match s.pins.presenceAt with
    | some t => min ((s.ns - t) / 1000000) 0xFFFFFFFF
    | none => 0xFFFFFFFF

/-- Slots in use in a partition of the vault (R118). -/
def partInUse (s : State) (p : Nat) : Nat := (s.vault.slots.filter fun k => k.part == p).length

/-- Two's complement of an integer, w bits. -/
def twos (w : Nat) (i : Int) : Nat := (BitVec.ofInt w i).toNat

/-- A counter kept under its entry's key. -/
def stat (index sub : Nat) (s : State) : Nat := tcount s.cnt.stat (ekey index sub)

/-- Numeric entries that are read from elsewhere than a setting: identity, firmware, communication and life cycle. -/
def numbersA : List (Nat × (State → Nat)) :=
  [ (0x100001, fun _ => unitId),
    (0x100101, fun s => (s.boot.running.map (·.version)).getD 0),
    (0x100102, fun s => (s.boot.running.map (·.build)).getD 0),
    (0x100103, fun s => (versionNow s).getD 0),
    (0x110003, fun s => s.dict.busOffCount),
    (0x110004, fun s => s.dict.abandoned),
    (0x110005, fun s => s.dict.configState),
    (0x200001, fun s => lcStateOf s.lc.code),
    (0x200002, fun s => s.lc.code.toNat),
    (0x200006, fun s => s.lc.result),
    (0x200007, presenceAge),
    (0x200009, fun s => s.lc.primary.debugOpens),
    (0x200104, fun s => s.lc.scope.toNat),
    (0x200105, fun s => s.lc.violCount),
    (0x201002, fun s => s.boot.fwResult),
    (0x210001, fun s => s.vault.rootState),
    (0x210003, fun s => s.vault.annealMissed),
    (0x210101, fun s => partInUse s 0),
    (0x210102, fun s => partInUse s 1),
    (0x210103, fun s => partInUse s 2),
    (0x210104, fun s => partInUse s 3),
    (0x210201, fun s => s.vault.mismatchCount),
    (0x210202, fun s => s.vault.derivations),
    (0x210301, fun s => ((findKey s .idEcc).map fun k => (Config.kcvWide k.value).toNat).getD 0) ]

/-- The domain, time and casts. -/
def numbersB : List (Nat × (State → Nat)) :=
  [ (0x220001, fun s => s.dom.domainId),
    (0x220002, fun s => s.dom.epoch),
    (0x220003, roleCode),
    (0x220004, fun s => s.dom.term),
    (0x220005, fun s => s.dom.members.length),
    (0x300001, fun s => s.pow.sessionId.toNat),
    (0x300002, fun s => s.ns),
    (0x300003, fun s => twos 64 s.time.doff),
    (0x300101, fun s => s.time.state),
    (0x300102, fun s => twos 32 s.time.phase),
    (0x300103, fun s => twos 32 s.time.rate),
    (0x300104, fun s => s.time.edgesBad),
    (0x300105, fun s => s.time.holdovers),
    (0x300106, fun s => s.time.steps),
    (0x300201, fun s => armedAt s 6),
    (0x300202, fun s => armedAt s 3),
    (0x300203, fun s => s.casts.table.length),
    (0x300204, fun s => s.time.castFails),
    (0x300301, fun s => packBits ((List.range 50).map fun i => (tget s.casts.stopped i).isSome)),
    (0x300302, fun s => s.time.lateStamps) ]

/-- Contexts, the arbiter and the unit map. -/
def numbersC : List (Nat × (State → Nat)) :=
  [ (0x400301, fun s => (s.ctxs.table.filter fun c => c.2.mode == .live || c.2.mode == .frozen).length),
    (0x400302, fun s => s.ctxs.genDiscards),
    (0x400303, fun s => s.ctxs.kills),
    (0x400304, fun s => s.ctxs.imagesSaved),
    (0x400305, fun s => s.ctxs.imagesRestored),
    (0x400306, fun s => s.ctxs.idsRetired),
    (0x401501, fun s => s.arb.radioOverruns),
    (0x401502, fun s => s.arb.guardSpills),
    (0x401503, fun s => s.arb.deferrals),
    (0x401504, fun s => s.arb.refusals),
    (0x401505, fun s => s.arb.throttle),
    (0x402001, fun s => s.boot.mapGen.toNat),
    (0x402002, coresInService) ]

/-- Links, alloys, memory, host and gate. -/
def numbersD : List (Nat × (State → Nat)) :=
  [ (0x500101, fun s => s.link.tagFail),
    (0x500102, fun s => s.link.replayDrop),
    (0x500103, fun s => s.link.otherDrop),
    (0x500104, fun s => s.link.keyMiss),
    (0x500105, fun s => s.link.retx),
    (0x500106, fun s => s.link.fenceIndet),
    (0x500107, fun s => s.link.rollovers),
    (0x500108, fun s => s.link.winCompress),
    (0x501101, stat 0x5011 1),
    (0x501102, stat 0x5011 2),
    (0x501103, stat 0x5011 3),
    (0x501104, stat 0x5011 4),
    (0x501105, stat 0x5011 5),
    (0x501106, stat 0x5011 6),
    (0x510301, fun s => s.mem.ueGranule),
    (0x510302, fun s => s.mem.lostRegions),
    (0x510303, fun s => s.mem.rotations),
    (0x510304, fun s => s.mem.nodeMiss),
    (0x510305, fun s => s.mem.tierADenied),
    (0x520004, fun s => s.host.session),
    (0x520101, fun s => s.host.recIn),
    (0x520102, fun s => s.host.recOut),
    (0x520103, fun s => s.host.rejectTag),
    (0x520104, fun s => s.host.rejectOther),
    (0x520105, fun s => s.host.keyUpdates),
    (0x530101, fun s => s.gate.piecesSealed),
    (0x530102, fun s => s.gate.splits),
    (0x530103, fun s => s.gate.faultsHeld),
    (0x530104, fun s => s.gate.checkFail),
    (0x530105, fun s => s.gate.pageRequests),
    (0x530106, fun s => s.gate.allocs) ]

/-- Health, start-up, leadbox, counters, watch and recovery. -/
def numbersE : List (Nat × (State → Nat)) :=
  [ (0x600101, fun s => s.health.throttleReq),
    (0x600102, fun s => s.health.vreqIod),
    (0x600103, fun s => s.health.vreqCdie),
    (0x600104, fun s => s.health.maxCreep),
    (0x600105, fun s => s.health.maxTemp),
    (0x600201, fun s => b2n s.health.armed),
    (0x600202, fun s => s.health.vholdMv),
    (0x600203, fun s => s.health.saves),
    (0x600204, fun s => s.health.saveAborts),
    (0x601001, fun s => s.boot.retrain.toNat),
    (0x601002, fun s => s.boot.path),
    (0x601003, fun s => s.boot.readyMs),
    (0x601004, fun s => s.boot.accelMs),
    (0x700001, fun s => s.lbx.next.toNat),
    (0x700002, fun s => s.lbx.dictCursor.toNat),
    (0x700004, fun s => s.lbx.dropped),
    (0x710001, fun s => s.cnt.freezeSeq.toNat),
    (0x710003, fun s => s.cnt.ignored),
    (0x720101, fun s => s.watch.closed),
    (0x720102, fun s => s.watch.dumps),
    (0x7F0001, fun s => b2n s.pow.quenched),
    (0x7F0004, fun s => s.err.quenches),
    (0x7F0201, fun s => s.err.chipResets),
    (0x7F0202, fun s => s.err.tcuRestarts),
    (0x7F0203, fun s => s.err.partitionResets),
    (0x7F0204, fun s => s.err.engineResets),
    (0x7F0205, fun s => b2n s.err.sentA + 2 * b2n s.err.sentB) ]

/-- Entries of bytes whose value the state gives. -/
def octetEntries : List (Nat × (State → Bytes)) :=
  [ (0x100002, fun _ => ascii "SHUSEL-9/VTC"),
    (0x100003, fun _ => be 2 Config.stepping.toNat),
    (0x100004, fun s => ((identity s).map fun k => be 2689 k.toNat).getD []),
    (0x100104, fun s => be 48 s.boot.afwDigest.toNat),
    (0x200008, fun s => be 32 s.lc.primary.operBinding.toNat),
    (0x200102, fun s => if (s.lc.challenge.filter fun c => decide (s.ns < c.2.2 + 600000000000)).isSome then
      s.lc.challengeBytes else []),
    (0x201001, fun s => (s.boot.running.map imageText).getD []),
    (0x220006, fun s => be 32 s.dom.policyDigest.toNat),
    (0x220201, fun s => (s.dom.endorsement.map (·.encoded)).getD []),
    (0x220203, fun s => (s.dom.hallmark.map hallBytes).getD []),
    (0x402004, fun s => be 48 (mapDigest s).toNat),
    (0x600106, fun s => (List.range 64).flatMap fun g => le 4 (gaugeWord s g)),
    (0x600301, fun s => s.health.ingotLast),
    (0x710002, freezeSet) ]

/-- A slice's index in a view, over CAN FD (R545). -/
def viewSlice (index : Nat) : Option Nat := if 0x4060 ≤ index ∧ index ≤ 0x407F then some (index - 0x4060) else none

/-- The domain time of a slice's next own span (R403, R545); the own spans of slice 0 are the radio windows. -/
def nextOwn (s : State) (slice : Nat) : Nat :=
  if slice = 0 then
    let c := schedNow s
    let l := c.kinds [1]
    if l = [] then 0 else nthStart c l (firstSpan c l s.domNs true)
  else (ownSpan s slice 0 true).getD 0

/-- Whole Gbit/s of a rate. -/
def inGbit (r : Nat) : Nat := r / 125000000

/-- A field of the view of a slice (R545); every field of a slice that is not in service reads 0. -/
def viewField (s : State) (slice sub : Nat) : Bytes :=
  let n (w v : Nat) : Bytes := le w (if sliceInService s slice then v else 0)
  if sub = 1 then n 1 slice
  else if sub = 2 then n 1 s.tenants
  else if sub = 3 then n 1 (setting s 0x4010 1)
  else if sub = 4 then n 4 (schedNow s).period
  else if sub = 5 then n 2 (schedNow s).quantum
  else if sub = 6 then n 8 (nextOwn s slice)
  else if sub = 7 then n 4 (inGbit (fabricRate s slice)) ++ n 4 (inGbit (poolRate s slice)) ++
    n 4 (inGbit (hostRate s slice)) ++ n 4 (inGbit (cipherRate s slice))
  else if sub = 8 then n 2 (ctxQuota s slice) ++ n 2 (pagePart s slice) ++ n 2 (regionPart s slice) ++
    n 4 (objPart s slice) ++ n 2 (evtPart s slice) ++ n 2 (castQuota s slice) ++ n 2 (watchQuota s slice)
  else if sub = 9 then n 4 (setting s 0x4013 1) ++ n 4 (setting s 0x4013 2) ++ n 2 (setting s 0x4013 3)
  else if sub = 10 then n 1 s.arb.throttle
  else n 4 s.dict.capacityLast

/-- The entry that an index and sub name over CAN FD: the view of the caller's own slice has no caller there (R545). -/
def canEntry (index sub : Nat) : Option Entry :=
  match viewSlice index with
  | some _ => entryAt 0x4040 sub
  | none => if index = 0x4040 then none else entryAt index sub

/-- Shortest and longest value of an entry of bytes. -/
def octetLen (index sub : Nat) : Nat × Nat :=
  let k := ekey index sub
  if k = 0x100004 then (0, 2689)
  else if k = 0x100104 ∨ k = 0x402004 then (48, 48)
  else if k = 0x200003 ∨ k = 0x200008 ∨ k = 0x220006 ∨ k = 0x220202 then (32, 32)
  else if k = 0x200004 ∨ k = 0x200101 ∨ k = 0x200103 ∨ k = 0x7F0003 then (7508, 7508)
  else if k = 0x200005 ∨ k = 0x7F0002 then (18, 18)
  else if k = 0x200102 then (0, 7508)
  else if k = 0x201001 then (0, 2097152)
  else if k = 0x220102 then (48, 48)
  else if k = 0x220203 then (0, 13312)
  else if k = 0x402003 then (10, 10)
  else if k = 0x600106 then (256, 256)
  else if k = 0x600301 then (0, 80)
  else if k = 0x700003 then (130, 130)
  else if k = 0x710002 then (8384, 8384)
  else if k = 0x7F0206 then (64, 64)
  else if k = 0x404007 ∨ k = 0x404008 then (16, 16)
  else if k = 0x404009 then (10, 10)
  else if k = 0x100002 ∨ k = 0x100003 then (1, 255)
  else (0, 3670008)

/-- The value of an entry of bytes that the manual leaves open: an action's, or a cause or notice that has not come (log 4). -/
def openValue (s : State) (index sub : Nat) : State × Bytes :=
  let l := octetLen index sub
  let n := l.1 + (s.drawn 32).toNat % (l.2 + 1 - l.1)
  (s.spend.spend, le n (s.spend.drawn (8 * n)).toNat)

/-- Readers of the numeric entries. -/
def numbers : List (Nat × (State → Nat)) := numbersA ++ numbersB ++ numbersC ++ numbersD ++ numbersE

/-- The entries of a port: active lanes and good alloy lanes (R234, R260). -/
def portNumber (s : State) (index sub : Nat) : Option Nat :=
  if index = 0x5002 then some (portAt s (sub - 1)).activeLanes
  else if index = 0x5012 then some (tgetD s.alloys (sub - 1) Alloy.reset).lanesGood else none

/-- A read of an entry whose value is a number (R537, R540): what the state gives, else the setting in force. RESET_REQUEST holds no
value that can be read, and the manual gives none. -/
def readNumber (s : State) (e : Entry) (index sub : Nat) : State × Bytes :=
  if ekey index sub = 0x7F0101 then (s.spend, le 2 (s.drawn 16).toNat)
  else
    match portNumber s index sub, numbers.find? fun p => p.1 == ekey index sub with
    | some v, _ => (s, le e.type.bytes v)
    | none, some p => (s, le e.type.bytes (p.2 s))
    | none, none => (s, le e.type.bytes (setting s index sub))

/-- A read of an entry of bytes. A read of LBX_RECORD moves its cursor (R509). -/
def readOctets (s : State) (index sub : Nat) : State × Bytes :=
  if ekey index sub = 0x700003 then lbxRead s
  else if ekey index sub = 0x7F0002 ∧ s.err.quenchCause.isSome then
    (s, (s.err.quenchCause.map fun c => quenchBytes c.1 c.2.1 c.2.2.1 c.2.2.2).getD [])
  else if ekey index sub = 0x7F0206 ∧ s.err.lastNotice ≠ [] then (s, s.err.lastNotice)
  else
    match octetEntries.find? fun p => p.1 == ekey index sub with
    | some p => (s, p.2 s)
    | none => openValue s index sub

/-- The value that a read returns (R540). -/
def readValue (s : State) (index sub : Nat) : State × Bytes :=
  match viewSlice index, canEntry index sub with
  | some n, _ => (s, viewField s n sub)
  | none, some e => if e.type.bytes = 0 then readOctets s index sub else readNumber s e index sub
  | none, none => (s, [])

/-- The value that a SHADOW read returns (R540): the shadow of a COMMIT entry, the stored value of a BOOT entry, else the value in
force. -/
def readShadow (s : State) (index sub : Nat) : State × Bytes :=
  let k := ekey index sub
  match canEntry index sub with
  | none => readValue s index sub
  | some e =>
    if e.change = .commit then (s, le e.type.bytes (tgetD s.dict.shadow k (setting s index sub)))
    else if k = 0x201001 then (s, (s.boot.area.map imageText).getD [])
    else if e.change = .boot ∧ e.type.bytes ≠ 0 then (s, le e.type.bytes (tgetD s.dict.boot k (setting s index sub)))
    else readValue s index sub

/-- Codes of R537 and R538. -/
def EType.code : EType → Nat
  | .bool => 1
  | .u8 => 2
  | .u16 => 3
  | .u32 => 4
  | .u64 => 5
  | .i32 => 6
  | .time64 => 7
  | .octets => 8
  | .string => 9
  | .record => 10

def EAccess.code : EAccess → Nat
  | .ro => 0
  | .rw => 1
  | .wo => 2
  | .rwp => 3
  | .rws => 4
  | .rwps => 5

def EChange.code : EChange → Nat
  | .live => 0
  | .commit => 1
  | .quiesce => 2
  | .boot => 3

/-- The 36 bytes of DESCRIBE (R538); a view of a slice is described as 0x4040 is. -/
def describeBytes (index sub : Nat) (e : Entry) : Bytes :=
  let w := e.type.bytes
  let l := if w = 0 then octetLen (if (viewSlice index).isSome then 0x4040 else index) sub else (w, w)
  let signed := e.type == .i32
  le 1 e.type.code ++ le 1 e.access.code ++ le 1 e.change.code ++ le 1 0 ++ le 4 l.1 ++ le 4 l.2 ++
    (if w = 0 then le 24 0
     else le 8 (if signed then 2 ^ 64 - 2 ^ 31 else e.lo) ++ le 8 (if signed then 2 ^ 31 - 1 else e.hi) ++ le 8 e.dflt)

end Sys2Proof.Machine
end

