-- ==== Sys2Proof/Machine/Domain.lean ====
section
/-!
DEFINITION. Domain.lean: creating, joining and leaving the confidential domain, its policy and its hosts (R176 to R192, R200).
-/
namespace Sys2Proof.Machine

/-- IDENTITY_ENDORSEMENT (R177): kept when the manufacturing key signed it for this unit and its identity key. -/
def execIdentityEndorsement (e : Endorsement) (s : State) : Host.Outcome State Fault Refusal :=
  done <| whenUp s fun s =>
    if (identity s).any fun k => endorseOk e unitId k then
      answerWrite { s with dom.endorsement := some e } 0x2202 1 cOk
    else answerWrite s 0x2202 1 cDomainEvidenceRefused

/-- Become the anchor of a new domain at term 1 and epoch 1 (R185): the domain key is drawn, and the offset makes TPULSE edges
fall on whole milliseconds of domain time. -/
def foundDomain (s : State) (p : Policy) : State :=
  let e := latestEdge s
  let s1 := putDomainKey s.drew false (s.drawn 256)
  let s2 := setOffset s1 (((e + 999999) / 1000000 * 1000000 - e : Nat) : Int)
  domRecord { s2 with
    dom := { Domain.reset with
      endorsement := s2.dom.endorsement, hallmark := s2.dom.hallmark, hallmarkNonce := s2.dom.hallmarkNonce,
      discarded := s2.dom.discarded, txn := s2.dom.txn, domainId := p.domainId, epoch := 1, term := 1, role := 1,
      anchor := unitId, members := [⟨unitId, (ownNode s2).getD 0, 0⟩], policy := some p, policyDigest := policyDigest p,
      epochAt := s2.ns, beatSentAt := s2.ns } } 1 0 cOk

/-- DOMAIN_CREATE (R185): a quiescent unit in no domain, a policy that verifies and names this unit, and this unit's own
hallmark within it. The manual gives no code for a unit that is in a domain already, here and in DOMAIN_JOIN: the model answers
BUSY_QUIESCE, as for one that is not quiescent. DESIGN CHOICE (log 83). One without a random source draws no domain key (R88) and answers
EXECUTOR_RESET. DESIGN CHOICE (log 60). -/
def execDomainCreate (p : Policy) (s : State) : Host.Outcome State Fault Refusal :=
  done <| whenUp s fun s =>
    if !quiescent s || s.dom.role ≠ 0 then answerWrite s 0x2201 1 cBusyQuiesce
    else if !policyOk p || p.anchor ≠ unitId then answerWrite s 0x2201 1 cDomainPolicyInvalid
    else
      match identity s with
      | none => answerWrite s 0x2201 1 cDomainEvidenceRefused
      | some k =>
        match policyRefuses p (hallClaims s k 0 none false) with
        | some c => answerWrite s 0x2201 1 c
        | none =>
          if s.vault.entropyOk then answerWrite (foundDomain s p) 0x2201 1 cOk else answerWrite s 0x2201 1 cExecutorReset

/-- Start a join (R187 step 1). -/
def startJoin (s : State) (domainId anchor : Nat) (owner : BitVec 256) : State :=
  sendHello { s with
    dom.role := 4
    dom.join := { JoinState.reset with domainId := domainId, anchor := anchor, owner := owner, startedAt := s.ns } }

/-- DOMAIN_JOIN (R154, R187): a quiescent unit in no domain, in a state that may join; the write is answered when the join ends. -/
def execDomainJoin (domainId anchor : Nat) (ownerDigest : BitVec 256) (s : State) : Host.Outcome State Fault Refusal :=
  done <| whenUp s fun s =>
    if !quiescent s || s.dom.role ≠ 0 then answerWrite s 0x2201 2 cBusyQuiesce
    else if !joinState s.lc.code then answerWrite s 0x2201 2 cDomainEvidenceRefused
    else startJoin s domainId anchor ownerDigest

/-- The transcript hash of a handshake (R187), from the body of JOIN_HELLO and the challenge. -/
def joinHash (hello : Bytes) (nonce : BitVec 256) (q : Point) (ct : KemBlob) : Dig384 :=
  Config.sha384 (hello ++ be 32 nonce.toNat ++ be 97 q.toNat ++ be 1568 ct.toNat)

/-- Refuse a unit that joins (R188): JOIN_REFUSE with the code, an S0 record, and the admission ends. -/
def refuseUnit (s : State) (unit txn : Nat) (code : Code) : State :=
  let s1 := dropKeys (sendDom s mJoinRefuse unit txn code []) fun k => k == .joinKey unit
  domRefusal { s1 with dom.admissions := tdel s1.dom.admissions unit } unit code

/-- Refuse the sender of a message. -/
def refuseJoin (s : State) (m : DomHdr) (code : Code) : State := refuseUnit s m.sender m.txn code

/-- JOIN_HELLO at the anchor (R187 step 2). A member that no anchor leads any more refuses with DOMAIN_ANCHOR_LOST (R197). -/
def execJoinHello (m : DomHdr) (nonce : BitVec 256) (q : Point) (ek : KemBlob) (role : Nat) (s : State) :
    Host.Outcome State Fault Refusal :=
  done <| whenUp s fun s => domTake s mJoinHello m false fun s =>
    if s.dom.role ≠ 1 then
      if s.dom.anchor = 0 then refuseJoin s m cDomainAnchorLost else domDiscard s
    else
      match kaRespond s q ek with
      | (s1, none) => refuseJoin s1 m cPkInputInvalid
      | (s1, some (qr, ct, ss)) =>
        let na := s1.drawn 256
        let hello := be 32 nonce.toNat ++ be 97 q.toNat ++ be 1568 ek.toNat ++ le 4 role
        let th := joinHash hello na qr ct
        let s2 := keepJk s1.drew m.sender ss
        if let some c := notHeld s2 (.joinKey m.sender) then refuseJoin s2 m c
        else
        match makeHallmark s2 nonce (some th) false with
        | (s3, none) => domDiscard s3
        | (s3, some h) =>
          let a : Admission :=
            { unit := m.sender, txn := m.txn, nonce := na, hash := th, startedAt := s3.ns, admitted := false, role := role,
              hall := none, grant := ⟨role, 0, 0⟩, kcvs := [] }
          sendDom { s3 with dom.admissions := tset s3.dom.admissions m.sender a } mJoinChallenge m.sender m.txn cOk
            (be 32 na.toNat ++ be 97 qr.toNat ++ be 1568 ct.toNat ++ hallBytes h)

/-- A handshake message that the joiner takes: from the anchor it names, of its own transaction, at the step it awaits. -/
def joinTake (s : State) (m : DomHdr) (step : Nat) (f : State → State) : State :=
  if s.dom.role = 4 && s.dom.join.step == step && hdrOk m && m.domainId == s.dom.join.domainId &&
      m.sender == s.dom.join.anchor && m.txn == s.dom.join.txn then f s
  else domDiscard s

/-- JOIN_CHALLENGE at the joiner (R187 step 3). Of the checks of R183 a joiner makes all but that of vtc-lc against its own policy: it holds none
yet, and the rule does not say which it would judge by. DESIGN CHOICE (log 99). -/
def execJoinChallenge (m : DomHdr) (nonce : BitVec 256) (q : Point) (ct : KemBlob) (hall : Hallmark) (s : State) :
    Host.Outcome State Fault Refusal :=
  done <| whenUp s fun s => joinTake s m 1 fun s =>
    let th := joinHash s.dom.join.hash nonce q ct
    if !(hallOk hall s.dom.join.nonce && hall.bind == some th && hall.unitId == m.sender &&
        hall.domain.any fun d => d.domainId == s.dom.join.domainId) then endJoin s cDomainEvidenceRefused
    else
      match kaFinish s.dom.join.ecPriv s.dom.join.kemPriv q ct with
      | none => endJoin s cPkInputInvalid
      | some ss =>
        let s0 := keepJk s m.sender ss
        if let some c := notHeld s0 (.joinKey m.sender) then endJoin s0 c
        else
        match makeHallmark s0 nonce (some th) false with
        | (s1, none) => endJoin s1 cDomainEvidenceRefused
        | (s1, some h) =>
          sendDom { s1 with
            dom.join := { s1.dom.join with
              step := 2, policyDigest := ((hall.domain.map (·.policyDigest))).getD 0, ecPriv := 0, kemPriv := 0,
              lastAt := s1.ns } } mJoinEvidence m.sender m.txn cOk (hallBytes h)

/-- Checks 1 to 5 of R188 in order: the code of the first that fails. -/
def admitCheck (s : State) (p : Policy) (a : Admission) (sender : Nat) (h : Hallmark) : Option Code :=
  if !(hallOk h a.nonce && h.bind == some a.hash && h.unitId == sender) then some cDomainEvidenceRefused
  else
    match policyRefuses p h with
    | some c => some c
    | none =>
      if member s sender then some cDomainDuplicate
      else if p.maxMembers ≤ s.dom.members.length then some cDomainFull else none

/-- The deputy list with a joiner that fills a free position (R185). -/
def withDeputy (l : List Nat) (p : Policy) (unit : Nat) : List Nat := if l.length < p.deputies then l ++ [unit] else l

/-- The role grant of a joiner (R200): partner and handoff step are the anchor's own choice, which the manual leaves open. -/
def grantRole (s : State) (role : Nat) : State × RoleGrant :=
  if role = 0xFFFFFFFF then (s, ⟨role, 0, 0⟩)
  else (s.spend.spend, ⟨role, (s.drawn 64).toNat, (s.spend.drawn 64).toNat⟩)

/-- The envelopes of a join (R190, R194): the current key, and the next once slot 17 holds it; with their KCVs. -/
def joinEnvelopes (s : State) (jk : Key) : List KeyEnvelope × List (BitVec 32) :=
  let held : List (Nat × Nat × Key) :=
    ((key256 s .domainKey).map fun k => (0, s.dom.epoch, k)).toList ++
      ((key256 s .nextDomainKey).map fun k => (1, s.dom.nextEpoch, k)).toList
  (held.map fun x => sealEnv jk x.2.2 x.1 x.2.1 s.dom.domainId, held.map fun x => kcv x.2.2)

/-- Send JOIN_ADMIT (R187 step 4, R189, R194, R200). -/
def sendAdmit (s : State) (m : DomHdr) (p : Policy) (a : Admission) (h : Hallmark) (jk : Key) : State :=
  let g := grantRole s a.role
  let s1 := g.1
  let e := joinEnvelopes s1 jk
  let aEdge := ((latestEdge s1 : Int) + s1.time.doff).toNat
  let a' := { a with txn := m.txn, admitted := true, startedAt := s1.ns, hall := some h, grant := g.2, kcvs := e.2 }
  let s2 : State := { s1 with dom.admissions := tset s1.dom.admissions m.sender a' }
  sendDom s2 mJoinAdmit m.sender m.txn cOk
    (p.encoded ++ be 32 (memberDigest s2).toNat ++ (withDeputy s2.dom.deputies p m.sender).flatMap (le 8) ++
      le 8 aEdge ++ le 8 (s2.domNs - aEdge) ++ le 4 g.2.role ++ le 8 g.2.partner ++ le 8 g.2.step ++
      e.1.flatMap envBytes ++ le 8 (if s2.dom.committed then s2.dom.switchAt.getD 0 else 0))

/-- JOIN_EVIDENCE at the anchor (R187 step 4, R188). On DOMAIN_DUPLICATE the earlier membership is removed by a change that
starts at once. -/
def execJoinEvidence (m : DomHdr) (hall : Hallmark) (s : State) : Host.Outcome State Fault Refusal :=
  done <| whenUp s fun s => anchorTake s mJoinEvidence m false fun s =>
    match tget s.dom.admissions m.sender, s.dom.policy, key256 s (.joinKey m.sender) with
    | some a, some p, some jk =>
      if a.admitted then domDiscard s
      else
        match admitCheck s p a m.sender hall with
        | some c =>
          let s1 := refuseJoin s m c
          if c = cDomainDuplicate then
            let s2 := epochTrigger s1 m.sender
            if s2.dom.changing then s2 else startChange s2
          else s1
        | none => sendAdmit s m p a hall jk
    | _, _, _ => domDiscard s

/-- Open the envelopes of JOIN_ADMIT into slots 16 and 17 (R190): none where one does not open; the first is of the current
epoch. -/
def openEnvs (s : State) (jk : Key) (m : DomHdr) : List KeyEnvelope → Option State
  | [] => some s
  | e :: r =>
    match openEnv jk e with
    | none => none
    | some k =>
      if e.domainId ≠ m.domainId || e.epoch ≠ m.epoch + e.index then none
      else openEnvs (putDomainKey s (e.index == 1) k) jk m r

/-- The offset of R189, from the anchor's time fields and this unit's latest edge. -/
def joinOffset (s : State) (aEdge : Int) (aAge : Nat) : Int :=
  let e : Int := latestEdge s
  let lo : Int := (aAge : Int) - ((s.ns : Int) - e) - 100000
  aEdge + (-((-lo) / 1000000)) * 1000000 - e

/-- The joiner takes up its membership (R187 step 5, R189, R194). -/
def takeMembership (s : State) (m : DomHdr) (p : Policy) (members : List Member) (deputies : List Nat) (aEdge : Int)
    (aAge : Nat) (role : RoleGrant) (envs : List KeyEnvelope) (switchAt : Nat) : State :=
  let s1 := setOffset s (joinOffset s aEdge aAge)
  let s2 : State := { s1 with
    dom := { s1.dom with
      domainId := m.domainId, epoch := m.epoch, term := m.term, anchor := m.sender, deputies := deputies, policy := some p,
      policyDigest := policyDigest p, members := [], beatAt := s1.ns, epochAt := s1.ns,
      changing := decide (1 < envs.length), nextEpoch := if 1 < envs.length then m.epoch + 1 else 0,
      roleGrant := if role.role = 0xFFFFFFFF then none else some role,
      join := { JoinState.reset with step := 3 } } }
  let s3 := (members.filter fun x => x.unit != unitId).foldl addPeer s2
  let s4 : State := { s3 with
    dom.role := roleNow s3, dom.members := s3.dom.members ++ [⟨unitId, (ownNode s3).getD 0, 0⟩] }
  let kcvs := ((key256 s4 .domainKey).map kcv).toList ++ ((key256 s4 .nextDomainKey).map kcv).toList
  let s5 := sendDom s4 mJoinDone m.sender m.txn cOk (kcvs.flatMap fun k => be 4 k.toNat)
  let s6 := dropKeys s5 fun k => k == .joinKey m.sender
  let s7 := answerWrite (domRecord s6 2 m.sender cOk) 0x2201 2 cOk
  if switchAt = 0 then s7
  else
    let r := armSwitch s7 switchAt
    if r.2 then r.1 else missSwitch r.1

/-- JOIN_ADMIT at the joiner (R187 step 5); a list that is not the digest's ends the join as failed evidence does (log 65). -/
def execJoinAdmit (m : DomHdr) (p : Policy) (list : MemberList) (deputies : List Nat) (aEdge : Int) (aAge : Nat)
    (role : RoleGrant) (envs : List KeyEnvelope) (switchAt : Nat) (s : State) :
    Host.Outcome State Fault Refusal :=
  done <| whenUp s fun s => joinTake s m 2 fun s =>
    if ownerDigest p ≠ s.dom.join.owner || !policyOk p || policyDigest p ≠ s.dom.join.policyDigest then
      endJoin s cDomainPolicyInvalid
    else if list.digest ≠ digestOf (list.members.map (·.unit)) then endJoin s cDomainEvidenceRefused
    else
      match key256 s (.joinKey m.sender) with
      | none => endJoin s cDomainEvidenceRefused
      | some jk =>
        match openEnvs s jk m envs with
        | none => endJoin s cDomainEvidenceRefused
        | some s1 =>
          if (key256 s1 .domainKey).isNone then endJoin s1 cDomainEvidenceRefused
          else takeMembership s1 m p list.members deputies aEdge aAge role envs switchAt

/-- An admitted joiner becomes a member (R187 step 6, R184, R192, R200). -/
def addMember (s : State) (a : Admission) (node port : Nat) (p : Policy) : State :=
  let s1 := addPeer s ⟨a.unit, node, port⟩
  let s2 : State := { s1 with
    dom.deputies := withDeputy s1.dom.deputies p a.unit
    dom.evidence := match a.hall with
      | some h => tset s1.dom.evidence a.unit h
      | none => s1.dom.evidence }
  let s3 := anchorState (memberUpdate s2 [a.unit] [] [] none)
  let s4 := if a.role = 0xFFFFFFFF then s3
    else sendDom s3 mRoleHandoff a.grant.partner 0 cOk (le 4 a.role ++ le 8 a.unit ++ le 8 a.grant.step)
  if p.epochOnJoin then epochTrigger s4 0 else s4

/-- JOIN_DONE at the anchor (R187 step 6, R188 check 6): within 800 µs of JOIN_ADMIT, with the KCVs of the keys it carried. -/
def execJoinDone (m : DomHdr) (node port : Nat) (kcvs : List (BitVec 32)) (s : State) : Host.Outcome State Fault Refusal :=
  done <| whenUp s fun s => anchorTake s mJoinDone m false fun s =>
    match tget s.dom.admissions m.sender, s.dom.policy with
    | some a, some p =>
      if !a.admitted then domDiscard s
      else if a.startedAt + 800000 < s.ns || kcvs ≠ a.kcvs then refuseJoin s m cDomainTimeout
      else
        let s1 := dropKeys s fun k => k == .joinKey m.sender
        addMember { s1 with dom.admissions := tdel s1.dom.admissions m.sender } a node port p
    | _, _ => domDiscard s

/-- JOIN_REFUSE at the joiner (R187, R188): the join completes with the reason; one that had taken up its keys leaves. -/
def execJoinRefuse (m : DomHdr) (s : State) : Host.Outcome State Fault Refusal :=
  done <| whenUp s fun s =>
    if s.dom.role = 4 then
      if hdrOk m && m.domainId = s.dom.join.domainId && m.sender = s.dom.join.anchor && m.txn = s.dom.join.txn then
        endJoin s m.status
      else domDiscard s
    else if isMember s && s.dom.join.step == 3 && m.sender == s.dom.anchor && m.domainId == s.dom.domainId && hdrOk m then
      leaveDomain s
    else domDiscard s

/-- JOIN_TIMEOUT (R187): 100 ms without the other side's next message. The joiner starts afresh up to three times, and then
completes DOMAIN_TIMEOUT. The anchor drops the admission; a unit whose JOIN_DONE has not come fails check 6 (R188). -/
def execJoinTimeout (peer : Nat) (s : State) : Host.Outcome State Fault Refusal :=
  done <| whenUp s fun s =>
    if s.dom.role = 4 && s.dom.join.anchor == peer && s.dom.join.lastAt + 100000000 ≤ s.ns then
      retryJoin s
    else
      match tget s.dom.admissions peer with
      | some a =>
        if s.ns < a.startedAt + 100000000 then s
        else if a.admitted then refuseUnit s peer a.txn cDomainTimeout
        else
          let s1 := dropKeys s fun k => k == .joinKey peer
          { s1 with dom.admissions := tdel s1.dom.admissions peer }
      | none => s

/-- An update admits less than the policy in force (R179): new revoked units, or fewer accepted states or firmware. -/
def policyNarrows (old new : Policy) : Bool :=
  new.revoked.any (fun u => !old.revoked.contains u) || old.states.any (fun c => !new.states.contains c) ||
    decide (old.minVersion < new.minVersion) ||
    (new.firmware != [] && (old.firmware == [] || old.firmware.any fun d => !new.firmware.contains d))

/-- A member that a policy no longer admits, by its revoked list or by the evidence that the member joined with (R179). An anchor that took the role
over holds no evidence of members that it did not admit (ANCHOR_STATE carries none, R186): of those it excludes the revoked ones
only; nor does it judge itself. DESIGN CHOICE (log 98). -/
def inadmissible (s : State) (p : Policy) (unit : Nat) : Bool :=
  p.revoked.contains unit || (tget s.dom.evidence unit).any fun h => (policyRefuses p h).isSome

/-- POLICY_UPDATE (R179): at the anchor only; replicated and announced, and inadmissible members are excluded. -/
def execPolicyUpdate (p : Policy) (s : State) : Host.Outcome State Fault Refusal :=
  done <| whenUp s fun s =>
    match s.dom.policy with
    | some old =>
      if s.dom.role ≠ 1 then answerWrite s 0x2201 4 cDomainNotMember
      else if !policyOk p || p.ownerKey ≠ old.ownerKey || p.domainId ≠ old.domainId || p.anchor ≠ old.anchor ||
          p.sequence ≤ old.sequence then answerWrite s 0x2201 4 cDomainPolicyInvalid
      else
        let s1 : State := { s with dom.policy := some p, dom.policyDigest := policyDigest p }
        let s2 := memberUpdate (anchorState s1) [] [] [] (some p)
        let s3 := ((others s2).filter (inadmissible s2 p)).foldl epochTrigger s2
        let s4 := if policyNarrows old p && s3.dom.triggers == s.dom.triggers then epochTrigger s3 0 else s3
        answerWrite s4 0x2201 4 cOk
    | none => answerWrite s 0x2201 4 cDomainNotMember

/-- A host member record that the policy's host-admission key signed (R176, R178 key 8). -/
def hostOk (p : Policy) (h : HostRec) : Bool :=
  left256 (keyDigest h.admKey) == p.hostKeyDigest && hybOk h.admKey (hostMsg h) h.signature && bit h.hostId 63 &&
    decide (h.hostId < 2 ^ 64)

/-- Admit a host at the anchor (R176): at most 1,024; members learn of it. One more is refused DOMAIN_FULL, which R201 gives for the policy's member
limit: no code is named for hosts. DESIGN CHOICE (log 97). -/
def admitHost (s : State) (p : Policy) (h : HostRec) : State × Code :=
  if !hostOk p h then (s, cDomainEvidenceRefused)
  else
    let rest := s.dom.hosts.filter fun x => x.hostId != h.hostId
    if 1024 ≤ rest.length then (s, cDomainFull)
    else (anchorState (memberUpdate { s with dom.hosts := rest ++ [h] } [] [] [h] none), cOk)

/-- HOST_MEMBER (R176, R203): a record is forwarded to the anchor, which admits the host. -/
def execHostMember (h : HostRec) (s : State) : Host.Outcome State Fault Refusal :=
  done <| whenUp s fun s =>
    match s.dom.policy with
    | some p =>
      if !isMember s then answerWrite s 0x2201 5 cDomainNotMember
      else if s.dom.role = 1 then
        let r := admitHost s p h
        answerWrite r.1 0x2201 5 r.2
      else answerWrite (sendDom s mMemberUpdate s.dom.anchor 0 cOk (hostBytes h)) 0x2201 5 cOk
    | none => answerWrite s 0x2201 5 cDomainNotMember

/-- HALLMARK_NONCE (R182): the write starts a hallmark, which HALLMARK then reads. -/
def execHallmarkNonce (nonce : BitVec 256) (s : State) : Host.Outcome State Fault Refusal :=
  done <| whenUp s fun s =>
    match makeHallmark s nonce none false with
    | (s1, some h) =>
      answerWrite { s1 with dom.hallmark := some h, dom.hallmarkNonce := some nonce } 0x2202 2 cOk
    | (s1, none) => answer s1 0x82 0x2202 2 0xB cOk 0 []

/-- DOMAIN_LEAVE (R192, R203): writing 1 leaves, from quiescence. -/
def execDomainLeave (value : Nat) (s : State) : Host.Outcome State Fault Refusal :=
  done <| whenUp s fun s =>
    if value ≠ 1 then answer s 0x82 0x2201 3 4 cOk 0 []
    else if !isMember s then answerWrite s 0x2201 3 cDomainNotMember
    else if !quiescent s then answerWrite s 0x2201 3 cBusyQuiesce
    else answerWrite (leaveDomain (sendDom s mMemberLeave s.dom.anchor 0 cOk [])) 0x2201 3 cOk

/-- MEMBER_DOWN_RECEIVED (R192): the anchor accepts the notice without authentication, because it can only remove; a member notes
the loss of its anchor or a deputy (R197).
A nonzero reserved field makes it no notice (R13, R453). -/
def execMemberDownReceived (n : Notice) (s : State) : Host.Outcome State Fault Refusal :=
  done <| whenUp s fun s =>
    if n.reserved ≠ 0 || 4 ≤ n.flags then s
    else if s.dom.role = 1 && n.unitId ≠ unitId && member s n.unitId then epochTrigger s n.unitId
    else if s.dom.role = 3 && (n.unitId = s.dom.anchor || s.dom.deputies.contains n.unitId) then unitDown s n.unitId
    else s

/-- MEMBER_LEAVE at the anchor (R192). -/
def execMemberLeave (m : DomHdr) (s : State) : Host.Outcome State Fault Refusal :=
  done <| whenUp s fun s => anchorTake s mMemberLeave m true fun s =>
    if m.sender = unitId then domDiscard s else epochTrigger s m.sender

/-- What a MEMBER_UPDATE changes at a member (R179, R186). -/
def applyUpdate (s : State) (added : List Member) (removed : List Nat) (hosts : List HostRec) (policy : Option Policy) :
    State :=
    let s1 := (added.filter fun x => x.unit != unitId).foldl addPeer s
    let s2 := removed.foldl dropMember s1
    let s3 : State := match policy, s2.dom.policy with
      | some p, some old =>
        if policyOk p && p.ownerKey = old.ownerKey && p.domainId = old.domainId && old.sequence < p.sequence then
          { s2 with dom.policy := some p, dom.policyDigest := policyDigest p }
        else s2
      | _, _ => s2
    let s4 : State := { s3 with
      dom.hosts := hosts.foldl (fun l h => l.filter (fun x => x.hostId != h.hostId) ++ [h]) s3.dom.hosts
      dom.deputies := match s3.dom.policy with
        | some p => added.foldl (fun l x => if l.contains x.unit then l else withDeputy l p x.unit) s3.dom.deputies
        | none => s3.dom.deputies
      dom.join := if added.any (fun x => x.unit == unitId) then JoinState.reset else s3.dom.join }
    { s4 with dom.role := roleNow s4 }

/-- What a member takes from a MEMBER_UPDATE of its anchor (R186): one whose digest is not that of the list it leaves is discarded
(log 65). -/
def takeUpdate (s : State) (added : List Member) (removed : List Nat) (hosts : List HostRec) (policy : Option Policy)
    (digest : BitVec 256) : State :=
  if removed.contains unitId then leaveDomain s
  else
    let s1 := applyUpdate s added removed hosts policy
    if memberDigest s1 = digest then s1 else domDiscard s

/-- MEMBER_UPDATE (R179, R186, R192). At the anchor it brings a host member record that a member forwards (R203). -/
def execMemberUpdate (m : DomHdr) (added : List Member) (removed : List Nat) (hosts : List HostRec)
    (after : AfterUpdate) (s : State) : Host.Outcome State Fault Refusal :=
  done <| whenUp s fun s => domTake s mMemberUpdate m true fun s =>
    if s.dom.role = 1 then
      match s.dom.policy, hosts with
      | some p, [h] => (admitHost s p h).1
      | _, _ => domDiscard s
    else if m.sender = s.dom.anchor then takeUpdate s added removed hosts after.policy after.digest
    else domDiscard s

/-- ROLE_HANDOFF at the partner (R200): its runtime learns which unit takes the role, and hands on the state that it has at the step
boundary before. -/
def execRoleHandoff (m : DomHdr) (role joiner step : Nat) (s : State) : Host.Outcome State Fault Refusal :=
  done <| whenUp s fun s => fromAnchor s mRoleHandoff m fun s =>
    { s with
      dom.handoff := some
        { role := role, joiner := joiner, step := step - 1, queue := none, bytes := 0, windows := [] } }

/-- STATE_MANIFEST at the joiner (R200): the state is accepted when its byte count matches and a fence over the transfer
completed OK; any other outcome voids the transfer. -/
def execStateManifest (m : DomHdr) (role step bytes regions received : Nat) (fence : Code) (s : State) :
    Host.Outcome State Fault Refusal :=
  done <| whenUp s fun s => domTake s mStateManifest m true fun s =>
    match s.dom.roleGrant with
    | some g =>
      if g.partner ≠ m.sender || g.role ≠ role then domDiscard s
      else if received = bytes && fence = cOk then { s with dom.manifest := some (role, step, bytes, regions) }
      else { s with dom.manifest := none }
    | none => domDiscard s

end Sys2Proof.Machine
end

