-- ==== Sys2Proof/Machine/TierB.lean ====
section
/-!
DEFINITION. TierB.lean: the commands of the pewter engines and of the tier-A checkers (R276 to R301).
-/
namespace Sys2Proof.Machine

/-- PEWTER_READ (R280). -/
def execPewterRead (r : PewReq) (s : State) : Host.Outcome State Fault Refusal :=
  done <| whenUp s fun s => remoteSettle (pewSubmit s r .read .engine)

/-- PEWTER_FULL_WRITE (R281). -/
def execPewterFullWrite (r : PewReq) (data : BitVec 2048) (s : State) : Host.Outcome State Fault Refusal :=
  done <| whenUp s fun s => remoteSettle (pewSubmit s r (.full data) .engine)

/-- PEWTER_PARTIAL_WRITE (R282). -/
def execPewterPartialWrite (r : PewReq) (mask : BitVec 256) (data : BitVec 2048) (s : State) :
    Host.Outcome State Fault Refusal :=
  done <| whenUp s fun s => remoteSettle (pewSubmit s r (.part mask data) .engine)

/-- A completed read for its reason (R276): status 0 clean, else poison or a lost region. -/
def poolTake (s : State) (q : Nat) (r : PoolReq) (bad : Bool) (data : Bytes) : State :=
  match r.why with
  | .granule id =>
    let p := pewAt s q
    setPew s q { p with jobs := tmod p.jobs id fun j => { j with slot := some (b2n bad, data) } }
  | .node region level index =>
    let parent : Option (Nat × Bool) :=
      if level = 3 then (tget s.mem.roots region).map fun c => (c.1.toNat, true)
      else (nodeAt s region (level + 1) (if level = 2 then 0 else index / 64)).map fun n =>
        (n.counter (index % 64), n.minor (index % 64) != 0)
    match parent with
    | none => s
    | some (ctr, _) =>
      if bad then loseRegion s region (levelIndex region level index)
      else if data.drop 120 ≠ nodeMac s region level index ctr (data.take 120) then
        breach s q 4 (levelIndex region level index)
      else putNode s (nodeOf region level index data)
  | .respan region level index child =>
    match (pewAt s q).respans.find? fun x => x.region == region && x.level == level && x.index == index with
    | none => s
    | some sp => (respanChild s sp child (b2n bad) data).getD s

/-- POOL_READ_COMPLETION (R276, R280, R282, R285 to R287): a completion with no outstanding tag is ignored, and the data of one that an
overflow made stale is not used; status 2 or 3 ends the read, and a parity error on other data is read again once. -/
def execPoolReadCompletion (port tag status : Nat) (data : Bytes) (parityOk : Bool) (s : State) :
    Host.Outcome State Fault Refusal :=
  done <| whenUp s fun s =>
    match (pewAt s port).reads.find? fun r => r.tag == tag with
    | none => s
    | some r =>
      let p := pewAt s port
      let s := s.intake (64 + port) ((data.length + 31) / 32)
      let s1 := setPew s port { p with reads := p.reads.filter fun x => x.tag != tag }
      if r.stale then remoteSettle (pewPump s1 port)
      else if !parityOk && status < 2 && !r.retried then
        let s2 := parityError s1 (uPewter port) 1 280 r.offset 0 .wire
        let p2 := pewAt s2 port
        remoteSettle (pewPump (setPew s2 port { p2 with again := p2.again ++ [r] }) port)
      else
        let s2 := if status = 3 then notice s1 1 276 (uPewter port) r.offset
          else if !parityOk && status < 2 then parityError s1 (uPewter port) 1 280 r.offset 0 .wire else s1
        remoteSettle (pewPump (poolTake s2 port r (!parityOk || decide (2 ≤ status)) (fit r.bytes data)) port)

/-- POOL_WACK (R277): the oldest writes are persisted and leave the buffer. -/
def execPoolWack (port count : Nat) (s : State) : Host.Outcome State Fault Refusal :=
  done <| whenUp s fun s =>
    let p := pewAt s port
    let r := ccEvents s (64 + port) (64 + port) count
    settleClose (remoteSettle (pewPump (setPew r.1 port { p with writes := p.writes.drop r.2 }) port)) port

/-- POOL_TIMEOUT (R278): a read or a write without its answer for POOL_TIMEOUT resets the port's pool crossing, S1. -/
def execPoolTimeout (port : Nat) (s : State) : Host.Outcome State Fault Refusal :=
  done <| whenUp s fun s =>
    let p := pewAt s port
    let limit := setting s 0x5100 5 * 1000
    if p.reads.any (fun r => decide (r.sent + limit ≤ s.ns)) || p.writes.any fun w => decide (w.sent + limit ≤ s.ns) then
      let s1 := notice (crossReset s port) 1 278 (uPewter port) 0
      remoteSettle (pewPump (assertVrst s1 [64 + port]) port)
    else s

/-- REGION_ROTATE (R289, R302): FREE regions are refused FAULT_UNMAPPED, and one beyond the port's limit REFUSED_QUEUE. -/
def execRegionRotate (region : Nat) (s : State) : Host.Outcome State Fault Refusal :=
  done <| whenUp s fun s =>
    match (tget s.mem.regions region).filter fun g => g.state == 1 || g.state == 2 with
    | none => answerWrite s 0x5102 1 cFaultUnmapped
    | some g =>
      if g.state = 1 && 256 ≤ (pewAt s (region % 4)).rotating.length then answerWrite s 0x5102 1 cRefusedQueue
      else answerWrite (queueRotation s region g.ownerKind) 0x5102 1 cOk

/-- ROTATION_SWEEP (R289, R291): what waits at the port starts, and the next span of a rotating region is swept as the system share
allows. -/
def execRotationSweep (region : Nat) (s : State) : Host.Outcome State Fault Refusal :=
  done <| whenUp s fun s =>
    let s := rotateWake s (region % 4)
    match tget s.mem.regions region with
    | none => s
    | some g =>
      let busy := (pewAt s (region % 4)).jobs.any fun j => j.2.r.region == region && j.2.op == .sweep
      if g.state = 2 && decide (262144 ≤ g.sweep) && !busy && !(pewAt s (region % 4)).assayed.contains region then
        rotateDone s region
      else if g.state ≠ 2 || busy || (pewAt s (region % 4)).assayed.contains region then s
      else remoteSettle (pewPump (pewOwn s region g.sweep .sweep) (region % 4))

/-- The outcome that the requester of an access to tier A has, where it is not performed (R66, R72). -/
def stackOutcome (s : State) (stack ctx gen page : Nat) (code : Code) : State := s.emit (.stackOutcome stack ctx gen page code)

/-- STK_REQUEST (R66, R72, R295, R296): the checker grants or denies; a denial is FAULT_PERMISSION, S2 for the stamped context. A request
made while the stack controller is in reset fails with TARGET_RESET. -/
def execStkRequest (stack page : Nat) (isWrite : Bool) (ctx gen : Nat) (s : State) :
    Host.Outcome State Fault Refusal :=
  done <| whenUp s fun s =>
    if s.cross.nrst.contains (96 + stack) then stackOutcome s stack ctx gen page cTargetReset
    else
    let ok := checkerGrants s stack page isWrite ctx gen
    let s1 := (s.intake (96 + stack) 1).emit (.verdict stack ok)
    if ok then bumpUnit s1 (uStack stack) 0 1
    else denyTierA (stackOutcome s1 stack ctx gen page cFaultPermission) stack page ctx

/-- SCRUB_DONE (R297, R40): all 16 replicas had revoked the page, all 16 engines have scrubbed it, and it is free. -/
def execScrubDone (page : Nat) (s : State) : Host.Outcome State Fault Refusal :=
  done <| whenUp s fun s =>
    match tget s.gate.scrubs page with
    | none => s
    | some x =>
      if x.withheld || x.acks.length < 16 then s
      else
        let s1 := tierAScrub s page
        setPage (scrubLevels { s1 with gate.scrubs := tdel s1.gate.scrubs page }) page ⟨0, 0, 0, 0, 0⟩

/-- SCRUB_WRITE_FAIL (R297): repeated once; a second failure withholds the page for the session, S1, with one capacity
change. -/
def execScrubWriteFail (page stack : Nat) (s : State) : Host.Outcome State Fault Refusal :=
  done <| whenUp s fun s =>
    match tget s.gate.scrubs page with
    | none => s
    | some x =>
      if x.withheld then s
      else if !x.failed.contains stack then
        { (s.emit (.scrub stack page)) with gate.scrubs := tset s.gate.scrubs page { x with failed := insertN x.failed stack } }
      else
        let s1 := scrubLevels { s with gate.scrubs := tset s.gate.scrubs page { x with withheld := true } }
        capacity (notice s1 1 297 (uStack stack) page) 5 (uStack stack)
          ((s1.gate.scrubs.filter fun p => p.2.withheld).length)

end Sys2Proof.Machine
end

