-- ==== Sys2Proof/Machine/Dict.lean ====
section
/-!
DEFINITION. Dict.lean: the Mukor dictionary's transfers, its writes, its frames, and the mailbox's view of it (chapter 19).
-/
namespace Sys2Proof.Machine

/-- Eight shifts of the reflected CRC-32 polynomial (R532). -/
def crcShift : Nat → BitVec 32 → BitVec 32
  | 0, c => c
  | n + 1, c => crcShift n (if c.getLsbD 0 then (c >>> 1) ^^^ 0xEDB88320#32 else c >>> 1)

/-- The CRC-32 of ISO/IEC 3309 (R532). -/
def crc32 (b : Bytes) : BitVec 32 :=
  ~~~b.foldl (fun c x => crcShift 8 (c ^^^ x.setWidth 32)) (BitVec.allOnes 32)

/-- Frames pass: the dictionary is served and the CAN FD controller is neither in bus-off nor in reset (R66, R531). -/
def canUp (s : State) : Bool := dictMode s != 0 && !s.cross.busOff && !s.cross.nrst.contains 224

/-- This unit's node address. -/
def nodeAddr (s : State) : Nat := setting s 0x1100 1

/-- A response to a requester (R533). -/
def canReply (s : State) (requester txn op index sub result : Nat) (data : Bytes) : State :=
  s.emit (.mukor (0x280 + nodeAddr s) requester txn op index sub result cOk 0 data)

/-- Too many transfers are open, or this requester's transaction is (R535). A write that waits for its answer is open too. -/
def transfersFull (s : State) (requester txn : Nat) : Bool :=
  decide (4 ≤ s.dict.transfers.length + s.dict.answering.length) ||
    s.dict.transfers.any (fun t => t.requester == requester && t.txn == txn) ||
    s.dict.answering.any fun w => w.requester == requester && w.txn == txn

/-- An entry is served in the unit's present state (R543). -/
def served (s : State) (index sub : Nat) : Bool := dictMode s == 2 || reducedEntry index sub

/-- A write is served in the unit's present state: R155, R447 and R464 permit these. -/
def servedWrite (s : State) (index sub : Nat) : Bool :=
  dictMode s == 2 || ([0x200004, 0x200005, 0x7F0003] : List Nat).contains (ekey index sub) ||
    (ekey index sub == 0x201001 && s.boot.loader && !s.pow.quenched)

/-- Why an INITIATE is refused before its entry is looked at in detail: too many transfers, not served, or no entry. -/
def initiateCheck (s : State) (requester txn index sub : Nat) (serves : Bool) : Option Nat :=
  if transfersFull s requester txn then some 7
  else if !serves then some 0xB
  else if (canEntry index sub).isNone then some 1 else none

/-- Segments of a read that its requester's acknowledgements allow: at most 16 beyond the latest (R534). -/
def sendSegments : Nat → State → Transfer → State × Transfer
  | 0, s, t => (s, t)
  | n + 1, s, t =>
    if 44 + 56 * t.segno < t.data.length ∧ t.segno < t.acked + 16 then
      let f := le 1 3 ++ le 1 t.txn ++ le 1 t.requester ++ le 1 0 ++ le 2 (t.segno + 1) ++ le 2 0 ++
        fit 56 (t.data.drop (44 + 56 * t.segno))
      sendSegments n (s.emit (.can (0x280 + t.node) f)) { t with segno := t.segno + 1 }
    else (s, t)

/-- Answer a read, and open a transfer where its value is longer than 44 bytes (R533). -/
def answerRead (s : State) (op requester txn index sub : Nat) (v : Bytes) : State :=
  let s1 := canReply s requester txn op index sub 0 v
  if v.length ≤ 44 then s1
  else
    let t : Transfer := { node := nodeAddr s, requester := requester, txn := txn, write := false, index := index, sub := sub
                          total := v.length, crc := crc32 v, data := v, segno := 0, acked := 0, lastAt := s.ns }
    let r := sendSegments 16 s1 t
    { r.1 with dict.transfers := r.1.dict.transfers ++ [r.2] }

/-- INITIATE_READ (R532, R540): a read of the value in force, or with SHADOW of the pending value. A read of LC_NONCE issues a
fresh nonce (R159); without a random source it is refused EXECUTOR_RESET (R88), DESIGN CHOICE (log 60). -/
def execInitiateRead (requester txn index sub : Nat) (shadow : Bool) (s : State) :
    Host.Outcome State Fault Refusal :=
  done <| if canUp s then
      (let s := s.heldIn 224
       (let op := if shadow then 0x91 else 0x81
        match initiateCheck s requester txn index sub (served s index sub) with
        | some r => canReply s requester txn op index sub r []
        | none =>
          if ((canEntry index sub).map (·.access)) = some .wo then canReply s requester txn op index sub 2 []
          else if ekey index sub = 0x200003 && !s.vault.entropyOk then
            s.emit (.mukor (0x280 + nodeAddr s) requester txn op index sub 8 cExecutorReset 0 [])
          else if ekey index sub = 0x200003 then
            let n := s.drawn 256
            answerRead { s.drew with lc.nonce := some (n, s.ns) } op requester txn index sub (be 32 n.toNat)
          else
            let r := if shadow then readShadow s index sub else readValue s index sub
            answerRead r.1 op requester txn index sub r.2))
    else s

/-- INITIATE_DESCRIBE (R538). -/
def execInitiateDescribe (requester txn index sub : Nat) (s : State) : Host.Outcome State Fault Refusal :=
  done <| if canUp s then
      (let s := s.heldIn 224
       match initiateCheck s requester txn index sub (served s index sub), canEntry index sub with
       | some r, _ => canReply s requester txn 0x87 index sub r []
       | none, some e => canReply s requester txn 0x87 index sub 0 (describeBytes index sub e)
       | none, none => s)
    else s

/-- The state that a meaning leaves. -/
def after (o : Host.Outcome State Fault Refusal) (s : State) : State :=
  match o with
  | .next t => t
  | _ => s

/-- A signed request as its bytes spell it (R157). -/
def parseRequest (b : Bytes) : SignedReq :=
  let big (off n : Nat) : Nat := beNat (fit n (b.drop off))
  { length := b.length, format := fld b 0 2, kind := fld b 2 1, signer := fld b 3 1
    fromCode := BitVec.ofNat 16 (fld b 4 2), toCode := BitVec.ofNat 16 (fld b 6 2), unitId := fld b 8 8
    sessionId := BitVec.ofNat 64 (fld b 16 8), nonce := BitVec.ofNat 256 (big 24 32)
    newBinding := BitVec.ofNat 256 (big 56 32), scope := BitVec.ofNat 16 (fld b 88 2), opens := fld b 90 2
    reserved := fld b 92 4, signerKey := BitVec.ofNat 21512 (big 96 2689)
    signature := ⟨BitVec.ofNat 768 (big 2785 96), BitVec.ofNat 37016 (big 2881 4627)⟩, overCan := true }

/-- Writes that the life cycle, the image path and the domain take as a whole (R541); none for an entry that is none of theirs. -/
def writeA (s : State) (key : Nat) (b : Bytes) : Option State :=
  let index := key / 256
  let sub := key % 256
  if key = 0x200004 then some (after (execLcRequest (parseRequest b) s) s)
  else if key = 0x200005 then
    if b.length = 18 then some (after (execLcToken (BitVec.ofNat 16 (fld b 0 2)) (BitVec.ofNat 128 (beNat (b.drop 2))) true s) s)
    else some (lcResult s index sub ((lcEarly s true false).getD 9))
  else if key = 0x200101 then some (after (execDebugRequest (parseRequest b) s) s)
  else if key = 0x200103 then some (after (execDebugGrant (parseRequest b) s) s)
  else if key = 0x7F0003 then some (after (execQuenchRelease (parseRequest b) s) s)
  else if key = 0x201001 then some (after (execFwImage (parseImage b) s) s)
  else if key = 0x220101 then
    match policyOf b with
    | some p => some (after (execDomainCreate p s) s)
    | none => some (answerWrite s index sub
        (if !quiescent s || s.dom.role ≠ 0 then cBusyQuiesce else cDomainPolicyInvalid))
  else if key = 0x220104 then
    match policyOf b with
    | some p => some (after (execPolicyUpdate p s) s)
    | none => some (answerWrite s index sub (if s.dom.role ≠ 1 then cDomainNotMember else cDomainPolicyInvalid))
  else if key = 0x220105 then
    match Config.hostRecOf b with
    | some h => some (after (execHostMember h s) s)
    | none => some (answerWrite s index sub (if !isMember s then cDomainNotMember else cDomainEvidenceRefused))
  else if key = 0x220201 then
    match endorsementOf b with
    | some e => some (after (execIdentityEndorsement e s) s)
    | none => some (answerWrite s index sub cDomainEvidenceRefused)
  else none

/-- Actions of fixed length (R541) and settings with a command of their own. -/
def writeB (s : State) (key : Nat) (b : Bytes) : Option State :=
  let v := leNat b
  if key = 0x220102 then
    some (after (execDomainJoin (fld b 0 8) (fld b 8 8) (BitVec.ofNat 256 (beNat (b.drop 16))) s) s)
  else if key = 0x220103 then some (after (execDomainLeave v s) s)
  else if key = 0x220106 && s.dom.role ≠ 1 then some (answerWrite s (key / 256) (key % 256) cDomainNotMember)
  else if key = 0x220202 then some (after (execHallmarkNonce (BitVec.ofNat 256 (beNat b)) s) s)
  else if key = 0x300201 then some (after (execCommitAt v s) s)
  else if key = 0x300202 then some (after (execFreezeAt v s) s)
  else if key = 0x400001 then some (after (execTenantSlices v s) s)
  else if key = 0x402003 then some (after (execMapFill (fld b 0 2) (fld b 2 8) s) s)
  else if key = 0x510201 then some (after (execRegionRotate v s) s)
  else if key = 0x601001 then some (after (execRetrain (BitVec.ofNat 32 v) s) s)
  else if key = 0x700002 then some (after (execLbxCursor v s) s)
  else none

/-- The length of a value suits its entry (R537); the requests that carry their own checks of length are judged there. -/
def lengthOk (index sub : Nat) (e : Entry) (b : Bytes) : Bool :=
  if e.type.bytes ≠ 0 then b.length == e.type.bytes
  else
    let own := ([0x200004, 0x200005, 0x200101, 0x200103, 0x7F0003, 0x201001] : List Nat).contains (ekey index sub)
    let l := octetLen index sub
    own || (decide (l.1 ≤ b.length) && decide (b.length ≤ l.2))

/-- A write of an entry under the signed envelope (R539). -/
def writeSigned (s : State) (index sub : Nat) (b : Bytes) : State :=
  let e := parseEnvelope b
  if ekey index sub = 0x7F0101 then after (execResetRequest e s) s
  else if ekey index sub = 0x720002 then after (execDumpEnable e s) s
  else signedWrite s index sub e (writeSetting index sub)

/-- The last segment of a write has arrived and its CRC matches: it is applied, and answered there or later (R535, R536). -/
def applyWrite (s : State) (t : Transfer) : State :=
  let s1 : State := { s with dict.answering := s.dict.answering ++ [⟨t.node, t.requester, t.txn, t.index, t.sub⟩] }
  match canEntry t.index t.sub with
  | none => answer s1 0x82 t.index t.sub 1 cOk 0 []
  | some e =>
    let signed := e.access == .rws && !([0x7F0003, 0x220101] : List Nat).contains (ekey t.index t.sub)
    if signed then writeSigned s1 t.index t.sub t.data
    else if !lengthOk t.index t.sub e t.data then answer s1 0x82 t.index t.sub 3 cOk 0 []
    else
      match writeA s1 (ekey t.index t.sub) t.data with
      | some s2 => s2
      | none =>
        match writeB s1 (ekey t.index t.sub) t.data with
        | some s2 => s2
        | none =>
          if e.access == .rwp && !present s1 then answer s1 0x82 t.index t.sub 5 cOk 0 []
          else
            let r := writeSetting t.index t.sub s1 t.data
            answer r.1 0x82 t.index t.sub r.2.1 r.2.2 0 []

/-- A write transfer is whole: its CRC is judged, then it is applied (R534). -/
def endWrite (s : State) (t : Transfer) : State :=
  if crc32 t.data ≠ t.crc then
    { (s.emit (.mukor (0x280 + t.node) t.requester t.txn 0x82 t.index t.sub 9 cOk 0 [])) with
      dict.abandoned := s.dict.abandoned + 1 }
  else applyWrite s t

/-- Why a write is refused at its INITIATE: as a read is, and ACCESS and LENGTH (R532, R536). -/
def writeCheck (s : State) (requester txn index sub total : Nat) : Option Nat :=
  match initiateCheck s requester txn index sub (servedWrite s index sub) with
  | some r => some r
  | none =>
    if ((canEntry index sub).map (·.access)) = some .ro then some 2
    else if 3670008 < total then some 3 else none

/-- INITIATE_WRITE (R532): a write of up to 48 bytes is whole; a longer one opens a transfer. -/
def execInitiateWrite (requester txn index sub total : Nat) (crc : BitVec 32) (data : Bytes) (s : State) :
    Host.Outcome State Fault Refusal :=
  done <| if canUp s then
      (let s := s.heldIn 224
       (match writeCheck s requester txn index sub total with
        | some r => canReply s requester txn 0x82 index sub r []
        | none =>
          let t : Transfer := { node := nodeAddr s, requester := requester, txn := txn, write := true, index := index
                                sub := sub, total := total, crc := crc, data := fit (min total 48) data, segno := 0
                                acked := 0, lastAt := s.ns }
          if total ≤ 48 then endWrite s t else { s with dict.transfers := s.dict.transfers ++ [t] }))
    else s

/-- The open transfer of a requester's transaction. -/
def transferOf (s : State) (requester txn : Nat) : Option Transfer :=
  s.dict.transfers.find? fun t => t.requester == requester && t.txn == txn

/-- Close a requester's transfer. -/
def dropTransfer (s : State) (requester txn : Nat) : State :=
  { s with dict.transfers := s.dict.transfers.filter fun t => !(t.requester == requester && t.txn == txn) }

/-- Keep a transfer as it now stands. -/
def setTransfer (s : State) (t : Transfer) : State :=
  { s with dict.transfers := s.dict.transfers.map fun u => if u.requester == t.requester && u.txn == t.txn then t else u }

/-- End a transfer with a result, and count it where R546 counts that result. -/
def endTransfer (s : State) (t : Transfer) (result : Nat) (answers : Bool) : State :=
  let s1 := dropTransfer s t.requester t.txn
  let s2 := if answers then
      s1.emit (.mukor (0x280 + t.node) t.requester t.txn (if t.write then 0x82 else 0x81) t.index t.sub result cOk 0 [])
    else s1
  if result = 9 ∨ result = 0xA then { s2 with dict.abandoned := s2.dict.abandoned + 1 } else s2

/-- An ACK frame for the segments received so far (R532, R534): NEXT is the next segment expected. -/
def ackFrame (s : State) (t : Transfer) : State :=
  s.emit (.can (0x280 + t.node) (le 1 5 ++ le 1 t.txn ++ le 1 t.requester ++ le 1 0 ++ le 2 (t.segno + 1) ++ le 10 0))

/-- MDT_SEGMENT (R532, R534): the next 56 bytes of a write, acknowledged in blocks of 16; the last one completes it. -/
def execMdtSegment (requester txn segno : Nat) (data : Bytes) (s : State) : Host.Outcome State Fault Refusal :=
  done <| if canUp s then
      (let s := s.heldIn 224
       match (transferOf s requester txn).filter (·.write) with
       | none => canReply s requester txn 0x83 0 0 9 []
       | some t =>
         if segno ≠ t.segno + 1 then endTransfer s t 9 true
         else
           let t1 : Transfer := { t with
             data := t.data ++ fit (min 56 (t.total - t.data.length)) data, segno := segno, lastAt := s.ns }
           if t1.data.length = t.total then endWrite (dropTransfer s requester txn) t1
           else if segno % 16 = 0 then ackFrame (setTransfer s t1) t1
           else setTransfer s t1)
    else s

/-- MDT_ACK (R534): the segments of a read up to NEXT are acknowledged, and more follow; the last one closes the transfer. -/
def execMdtAck (requester txn next : Nat) (s : State) : Host.Outcome State Fault Refusal :=
  done <| if canUp s then
      (let s := s.heldIn 224
       match (transferOf s requester txn).filter fun t => !t.write with
       | none => s
       | some t =>
         if next = 0 ∨ t.segno + 1 < next ∨ next < t.acked + 1 then s
         else
           let t1 : Transfer := { t with acked := next - 1, lastAt := s.ns }
           if t1.data.length ≤ 44 + 56 * t1.acked then dropTransfer s requester txn
           else
             let r := sendSegments 16 s t1
             setTransfer r.1 r.2)
    else s

/-- MDT_ABORT (R534): it ends a transfer whose last segment has not come, with the result that it carries. -/
def execMdtAbort (requester txn result : Nat) (s : State) : Host.Outcome State Fault Refusal :=
  done <| if canUp s then
      (let s := s.heldIn 224
       match transferOf s requester txn with
       | none => s
       | some t => endTransfer s t result false)
    else s

/-- TRANSFER_TIMEOUT (R534): no frame of the transfer for 100 ms. -/
def execTransferTimeout (requester txn : Nat) (s : State) : Host.Outcome State Fault Refusal :=
  done <| if dictMode s = 0 then s else
    match transferOf s requester txn with
    | some t => if t.lastAt + 100000000 ≤ s.ns then endTransfer s t 0xA true else s
    | none => s

/-- ADDRESS_ASSIGN (R530): the unit that it names writes NODE_ADDR, and answers from the old address. In the reduced service no rule
permits the write (R543). -/
def execAddressAssign (unit address : Nat) (s : State) : Host.Outcome State Fault Refusal :=
  done <| if canUp s && unit == unitId then
      (let s := s.heldIn 224
       (if !servedWrite s 0x1100 1 then canReply s 0 0 0x82 0x1100 1 0xB []
        else if address = 0 ∨ 63 < address then canReply s 0 0 0x82 0x1100 1 4 []
        else (writeSetting 0x1100 1 (canReply s 0 0 0x82 0x1100 1 0 []) (le 1 address)).1))
    else s

/-- The 16 bytes of a STATUS frame (R529). -/
def statusBytes (s : State) : Bytes :=
  let flags := b2n s.pow.quenched + 2 * b2n (isMember s) + 4 * b2n (s.lc.scope != 0) + 8 * b2n s.health.armed
  le 8 unitId ++ le 1 (lcStateOf s.lc.code) ++ le 1 s.boot.phase ++ le 1 flags ++ le 1 s.arb.throttle ++
    le 4 s.dict.statusSeq.toNat

/-- STATUS_FRAME (R529): one every 25 ms from VTC ready on, from the recovery loader too. -/
def execStatusFrame (s : State) : Host.Outcome State Fault Refusal :=
  done <| if canUp s then
      { (s.emit (.can (0x080 + nodeAddr s) (statusBytes s))) with dict.statusSeq := s.dict.statusSeq + 1 }
    else s

/-- MGT_BUSOFF (R531): every open transfer is abandoned, and the bus-off is counted. -/
def execMgtBusoff (s : State) : Host.Outcome State Fault Refusal :=
  done <| if s.aon && s.pow.iod && !s.cross.busOff then
      (let s1 := abandonTransfers s
       { s1 with cross.busOff := true, dict.busOffCount := s1.dict.busOffCount + 1 })
    else s

/-- BUS_OFF_RECOVERY (R531): a notice whose sending fell within the bus-off is sent once, as its repeat (R453). -/
def execBusOffRecovery (s : State) : Host.Outcome State Fault Refusal :=
  done <| if s.cross.busOff then
      (let s1 : State := { s with cross.busOff := false, dict.noticeInBusOff := false }
       if s.dict.noticeInBusOff && s.err.lastNotice != [] then
         canNotice s1 (s.err.noticePending.head?.getD s.err.lastNotice)
       else s1)
    else s

/-- The configuration in force differs from the copy that a start would apply (R541). -/
def configStale (s : State) : Bool :=
  match bestCopy s with
  | some c => c.settings != changed s.dict.force || c.pending != s.dict.boot
  | none => changed s.dict.force != [] || s.dict.boot != []

/-- CONFIG_STORE (R541, R542): settings that differ from their defaults are stored within 100 ms of taking effect. -/
def execConfigStore (s : State) : Host.Outcome State Fault Refusal :=
  done <| whenUp s fun s => if configStale s then storeConfig s else s

/-- The entry that a mailbox page may read, as index and sub over CAN FD name it (R544); none beyond the permitted set. -/
def mbxEntry (h : MbxHdr) (index sub slice : Nat) : Option (Nat × Nat) :=
  if h.page = 0 then
    if index = 0x4040 ∧ slice < 32 ∧ 1 ≤ sub ∧ sub ≤ 0xB then some (0x4060 + slice, sub)
    else if slice = 0 ∧ 0x4060 ≤ index ∧ index ≤ 0x407F ∧ 1 ≤ sub ∧ sub ≤ 0xB then some (index, sub)
    else if slice = 0 ∧ (index = 0x1000 ∨ index = 0x1001) ∧ 1 ≤ sub ∧ sub ≤ 4 then some (index, sub) else none
  else if index = 0x4040 ∧ 1 ≤ sub ∧ sub ≤ 0xB then some (0x4060 + hslice h, sub)
  else if index = 0x4060 + hslice h ∧ 1 ≤ sub ∧ sub ≤ 0xB then some (index, sub)
  else if index = 0x4015 ∧ sub = 5 then some (index, sub) else none

/-- A slice page's command with SLICE other than 0 breaks R544. -/
def mbxSliceBad (h : MbxHdr) (slice : Nat) : Bool := h.page != 0 && slice != 0

/-- DICT_READ (R544): type code, length, and up to 960 bytes of value. -/
def execDictRead (h : MbxHdr) (index sub slice : Nat) (s : State) : Host.Outcome State Fault Refusal :=
  done <| mailbox s h 0x0801 (decide (h.page = 0)) (le 2 index ++ le 1 sub ++ le 1 slice) fun s =>
    if mbxSliceBad h slice then (s, cHostRecordRejected, reason 1)
    else
      match mbxEntry h index sub slice with
      | none => fail s cFaultPermission
      | some (i, b) =>
        let r := readValue s i b
        let v := r.2.take 960
        (r.1, cOk, le 1 (((canEntry i b).map (·.type.code)).getD 0) ++ le 2 v.length ++ v)

/-- DICT_DESCRIBE (R538, R544). -/
def execDictDescribe (h : MbxHdr) (index sub slice : Nat) (s : State) : Host.Outcome State Fault Refusal :=
  done <| mailbox s h 0x0802 (decide (h.page = 0)) (le 2 index ++ le 1 sub ++ le 1 slice) fun s =>
    if mbxSliceBad h slice then (s, cHostRecordRejected, reason 1)
    else
      match mbxEntry h index sub slice with
      | none => fail s cFaultPermission
      | some (i, b) =>
        match canEntry i b with
        | some e => (s, cOk, describeBytes i b e)
        | none => fail s cFaultPermission

end Sys2Proof.Machine
end

