-- ==== Sys2Proof/Machine/Pk.lean ====
section
/-!
DEFINITION. Pk.lean: the meanings of the public-key engine's commands (R141 to R150).
-/
namespace Sys2Proof.Machine

/-- The engine's answer to a request: its result code in the vault's result register, and one more operation done. -/
def pkEnd (s : State) (code : Code) : State :=
  { (bumpUnit s uPk 0 1) with vault.result := code, cipher.pkDone := s.cipher.pkDone + 1 }

/-- Sign for a requester (R143, R145). Without an identity key or a random source the request completes EXECUTOR_RESET: the manual
names no code. DESIGN CHOICE (log 60). -/
def pkSign (s : State) (cls slice : Nat) (msg : Bytes) (corrupted : Bool) : State :=
  match signWith s msg corrupted with
  | (s1, some sig) =>
    { (s1.emit (.signature cls slice sig)) with
      vault.result := cOk, cipher.signed := s1.cipher.signed ++ [(slice, sig)] }
  | (s1, none) => { s1 with vault.result := cExecutorReset }

/-- Verify for a requester (R144, R147): lengths and the point first, then both parts. -/
def pkVerify (s : State) (keyLen sigLen : Nat) (key : HybKey) (msg : Bytes) (sig : HybSig) : State :=
  if keyLen ≠ 2689 || sigLen ≠ 4723 || !pointValid (hybPoint key) then pkEnd s cPkInputInvalid
  else pkEnd s (if hybOk key msg sig then cOk else cSignatureInvalid)

/-- The initiator's offer (R146): its ephemeral private keys are kept for the end of the agreement. -/
def pkInitiate (s : State) (dest : KeyPath) : State :=
  if !s.vault.entropyOk then pkEnd s cExecutorReset
  else
    let r := kaKeys s
    let s1 := pkEnd (r.1.emit (.agreed (Config.ecPoint r.2.1) (Config.kemKey r.2.2))) cOk
    { s1 with cipher.agreed := (dest, r.2.1, r.2.2) :: s1.cipher.agreed.filter fun a => a.1 != dest }

/-- End an agreement whose secret went to the vault (R146): OK, or why no slot holds it (R88, R100). -/
def pkHold (s : State) (dest : KeyPath) : State := pkEnd s ((notHeld s dest).getD cOk)

/-- One step of a hybrid key agreement (R146, R147); ss goes to the vault slot that the request names. A completing step with no offer open
for it is answered PK_INPUT_INVALID: the manual names no code. DESIGN CHOICE (log 85). -/
def pkAgree (s : State) (step : KaStep) (dest : KeyPath) : State :=
  match step with
  | .initiate => pkInitiate s dest
  | .respond q ek len =>
    if len ≠ 1568 then pkEnd s cPkInputInvalid
    else if !s.vault.entropyOk then pkEnd s cExecutorReset
    else
      match kaRespond s q ek with
      | (s1, some (qr, ct, ss)) =>
        let s2 := putSecret (s1.emit (.agreed qr ct)) dest ss
        { s2 with vault.result := (notHeld s2 dest).getD cOk }
      | (s1, none) => pkEnd s1 cPkInputInvalid
  | .complete q ct len =>
    match s.cipher.agreed.find? fun a => a.1 == dest with
    | none => pkEnd s cPkInputInvalid
    | some (_, priv, kem) =>
      let s1 : State := { s with cipher.agreed := s.cipher.agreed.filter fun a => a.1 != dest }
      if len ≠ 1568 then pkEnd s1 cPkInputInvalid
      else
        match kaFinish priv kem q ct with
        | some ss => pkHold (putSecret s1 dest ss) dest
        | none => pkEnd s1 cPkInputInvalid

/-- Carry out a request (R141). -/
def pkDo (s : State) (cls slice : Nat) (j : PkJob) : State :=
  match j with
  | .sign msg corrupted => pkSign s cls slice msg corrupted
  | .verify keyLen sigLen key msg sig => pkVerify s keyLen sigLen key msg sig
  | .agree step dest => pkAgree s step dest

/-- Serve the waiting requests of one slice as far as its part goes (R150). The fuel is the number that wait. -/
def pkServeSlice : Nat → State → Nat → State
  | 0, s, _ => s
  | n + 1, s, slice =>
    match tgetD s.cipher.pkQueue slice [] with
    | [] => s
    | j :: rest =>
      if pkReady s slice j then
        pkServeSlice n (pkDo (limHit { s with cipher.pkQueue := tset s.cipher.pkQueue slice rest } (pkLimit j.op.1 slice)) 2 slice j)
          slice
      else s

/-- Serve what waits in the slices' queues (R150). -/
def pkServe (s : State) : State := (List.range 17).foldl (fun s n => pkServeSlice 16 s n) s

/-- Take a request (R150): domain and SPDM work and attestation are served before served commands that wait; a tenant's request beyond its
part waits in its slice's queue of 16, and one beyond that completes REFUSED_QUEUE. -/
def pkSubmit (s : State) (cls slice : Nat) (j : PkJob) : State :=
  if cls = 2 ∧ 1 ≤ slice ∧ slice ≤ 16 then
    let s1 := pkServe s
    let q := tgetD s1.cipher.pkQueue slice []
    if q = [] && pkReady s1 slice j then pkDo (limHit s1 (pkLimit j.op.1 slice)) cls slice j
    else if 16 ≤ q.length then { s1 with vault.result := cRefusedQueue }
    else { s1 with cipher.pkQueue := tset s1.cipher.pkQueue slice (q ++ [j]) }
  else pkServe (pkDo s cls slice j)

/-- HYBRID_SIGN (R143, R145, R150). -/
def execHybridSign (cls slice : Nat) (msg : Bytes) (corrupted : Bool) (s : State) :
    Host.Outcome State Fault Refusal :=
  done <| whenUp s fun s => pkSubmit s cls slice (.sign msg corrupted)

/-- HYBRID_VERIFY (R144, R147, R150). -/
def execHybridVerify (cls slice keyLen sigLen : Nat) (key : HybKey) (msg : Bytes) (sig : HybSig) (s : State) :
    Host.Outcome State Fault Refusal :=
  done <| whenUp s fun s => pkSubmit s cls slice (.verify keyLen sigLen key msg sig)

/-- HYBRID_KEY_AGREEMENT (R146, R147, R150): the initiator's offer, the responder's answer, or the initiator's end. -/
def execHybridKeyAgreement (cls slice : Nat) (step : KaStep) (dest : KeyPath) (s : State) :
    Host.Outcome State Fault Refusal :=
  done <| whenUp s fun s => pkSubmit s cls slice (.agree step dest)

end Sys2Proof.Machine
end

