-- ==== Sys2Proof/Machine/Registers.lean ====
section
/-!
DEFINITION. Registers.lean: a write of a register acts by the access codes of its fields (R13, R14). Addresses are those of the
register window (R26); the mailbox BAR (R315) follows it from 2^24 on (log 8).
-/
namespace Sys2Proof.Machine

/-- Masters of a register write (log 8). -/
abbrev byTcu : Nat := 0
abbrev byDebug : Nat := 1
abbrev byMgmt : Nat := 2
abbrev byTest : Nat := 3
abbrev byHost : Nat := 4

/-- An unsigned field of a register: bits [hi:lo] of a word, as a number. -/
def field (v : BitVec 32) (hi lo : Nat) : Nat := bits v.toNat hi lo

/-- Registers of the TCU window (R68, R173, R449, R481). GO of AFW_CTRL starts a broadcast, and is ignored while BUSY. -/
def writeTcu (s : State) (off : Nat) (v : BitVec 32) (master : Nat) : State :=
  if off = 0x400 then { s with cross.late := s.cross.late && !v.getLsbD 31 }
  else if off = 0x808 then { s with lc.viol := s.lc.viol && !v.getLsbD 31 }
  else if off = 0x1004 then
    after (execHbTcu (master == byTcu) (v.extractLsb' 0 16) (v.extractLsb' 16 16) s) s
  else if off = 0x1008 then
    after (execHbMgmt (master == byMgmt) (v.extractLsb' 0 16) (v.extractLsb' 16 16) s) s
  else if off = 0x1408 then { s with boot.afwSrc := field v 13 0 }
  else if off = 0x140C then
    { s with boot.afwBusy := s.boot.afwBusy || (v.getLsbD 31 && s.boot.fillArmed.isNone) }
  else if off = 0x1414 then
    if field v 31 30 = 1 then after (execTrainSave (master == byMgmt) s) s
    else if field v 31 30 = 2 then after (execTrainLoad s) s
    else { s with boot.trainCmd := field v 31 30, boot.trainCursor := 0 }
  else if off = 0x1418 then after (execTrainData (some v) s) s
  else s

/-- One byte lane of a register pair or quad replaced: word k of a value, the low word 0. -/
def putWord (old k : Nat) (v : BitVec 32) : Nat :=
  old / 2 ^ (32 * (k + 1)) * 2 ^ (32 * (k + 1)) + v.toNat * 2 ^ (32 * k) + old % 2 ^ (32 * k)

/-- Word k of 16 bytes whose first byte is the most significant of the value (R139): register CH_IVk holds bytes 4 k to 4 k + 3. -/
def putBytes (old : BitVec 128) (k : Nat) (v : BitVec 32) : BitVec 128 :=
  toBlock ((ofBlock old).take (4 * k) ++ le 4 v.toNat ++ (ofBlock old).drop (4 * k + 4))

/-- The operand words that a channel's registers hold (R139). -/
def chanBody (c : Channel) : CipherBody :=
  { jobId := c.jobId, ctrl := c.ctrl, src := c.src, dst := c.dst, len := c.len, aadLen := c.aadLen, iv := c.iv, tag := c.tag }

/-- The operation that GO starts (R139). RESTORE internal takes its record's number from CH_SRC, RESTORE blob its bytes from there, and
ATTACH its label from CH_IV and CH_TAG (R128). DESIGN CHOICE (log 61) for the record's number. -/
def chanGo (s : State) (c : Channel) (op : Nat) : Option CipherOp :=
  if op = 0 then some .job
  else if op = 1 then some .save
  else if op = 2 then some (.restoreRecord c.src)
  else if op = 3 then some (.exportTo none)
  else if op = 4 then some (.restoreBlob (chanBlobOf (tierABytes s (c.src % 2 ^ 40) 168)))
  else if op = 5 then some (.attach c.keyRef (c.iv ++ c.tag))
  else if op = 6 then some .detach
  else none

/-- A register of a channel or privileged page (R139). GO queues the operation that OP names; an OP that is none of them completes
CHAN_PARAM. -/
def writeChannel (s : State) (n off : Nat) (v : BitVec 32) : State :=
  let c := chanAt s n
  let put (c : Channel) : State := setChan s n c
  if off = 0x000 then
    let c1 : Channel := { c with ctrl := v &&& 0x6FF000FF#32 }
    if !v.getLsbD 31 then put c1
    else
      match chanGo s c1 (field v 7 0) with
      | some op => chanSubmit (put c1) n 0 0 op (chanBody c1)
      | none => put { c1 with code := cChanParam, done := c1.done + 1 }
  else if off = 0x010 then put { c with keyRef := field v 12 0 }
  else if 0x014 ≤ off ∧ off ≤ 0x020 then put { c with iv := putBytes c.iv ((off - 0x014) / 4) v }
  else if off = 0x024 ∨ off = 0x028 then put { c with src := putWord c.src ((off - 0x024) / 4) v }
  else if off = 0x02C ∨ off = 0x030 then put { c with dst := putWord c.dst ((off - 0x02C) / 4) v }
  else if off = 0x034 then put { c with len := field v 26 0 }
  else if off = 0x038 then put { c with aadLen := field v 20 0 }
  else if 0x040 ≤ off ∧ off ≤ 0x04C then put { c with tag := putBytes c.tag ((off - 0x040) / 4) v }
  else if off = 0x050 then put { c with jobId := field v 15 0 }
  else s

/-- The cipher window (R137, R139): TCU firmware writes its system channels and page 2; a write to another privileged page is a
violation of that page, counted and recorded S0. -/
def writeCipher (s : State) (off : Nat) (v : BitVec 32) (master : Nat) : State :=
  let page := off / 0x1000 - 0x80
  if off < 0x40000 then
    if master = byTcu ∧ off / 0x1000 < 4 then writeChannel s (off / 0x1000) (off % 0x1000) v else s
  else if 0x80000 ≤ off ∧ off < 0x84000 then
    if master = byTcu ∧ page = 2 then writeChannel s 66 (off % 0x1000) v
    else after (execPageAccessViolation page master s) s
  else if off = 0xF0008 then { s with cipher.selfFail := s.cipher.selfFail && !v.getLsbD 30 }
  else s

/-- The leadbox window (R510). -/
def writeLeadbox (s : State) (off : Nat) (v : BitVec 32) : State :=
  if off = 0x08 then { s with lbx.dropFlag := s.lbx.dropFlag && !v.getLsbD 30 }
  else if off = 0x10 then { s with lbx.cursorLo := v }
  else if off = 0x14 then after (execLbxCursorHi v s) s
  else if off = 0x20 then { s with lbx.auto := v.getLsbD 31 }
  else s

/-- A register of the window, by its unit window (R26). A reserved offset ignores writes (R13, R26). -/
def writeWindow (s : State) (addr : Nat) (v : BitVec 32) (master : Nat) : State :=
  let off := addr % 0x100000
  let unit := addr / 0x100000
  if unit = 0 then writeTcu s off v master
  else if unit = 1 then
    (if off = 0x30 then { s with vault.mismatch := s.vault.mismatch && !v.getLsbD 31 } else s)
  else if unit = 2 then writeCipher s off v master
  else if unit = 3 then
    (if off = 0x08 then { s with gate.failFlag := s.gate.failFlag && !v.getLsbD 31 } else s)
  else if unit = 5 then
    (if off = 0xF0000 then { s with link.winFull := s.link.winFull && !v.getLsbD 18 } else s)
  else if unit = 9 then writeLeadbox s off v
  else if unit = 10 ∧ 0x400 ≤ off ∧ off < 0x448 then
    after (execOpticsIn (master == byMgmt) ((off - 0x400) / 4) v s) s
  else s

/-- MBX_STATUS of a page (R315): RESP_READY and EVT_OVF are cleared by writing 1. Clearing EVT_OVF says that the ring has been read
(log 16). -/
def writeMbxStatus (s : State) (page : Nat) (v : BitVec 32) : State :=
  if page = 0 || sliceInService s (page - 1) then
    let m := mbxPage s page
    let m1 : MbxPage := { m with
      respReady := m.respReady && !v.getLsbD 30, evtOvf := m.evtOvf && !v.getLsbD 29
      unread := if v.getLsbD 29 then 0 else m.unread }
    { s with mbx := tset s.mbx page m1 }
  else s

/-- The mailbox BAR (R315): of its registers, MBX_STATUS has no command of its own; a GO is the mailbox command that the command area holds. -/
def writeBar (s : State) (off : Nat) (v : BitVec 32) : State :=
  let page := off / 0x1000
  let at_ := off % 0x1000
  if 32 < page then s
  else if at_ = 4 then writeMbxStatus s page v
  else if 0x800 ≤ at_ ∧ at_ < 0xC00 ∧ (page = 0 ∨ sliceInService s (page - 1)) then
    let m := mbxPage s page
    { s with mbx := tset s.mbx page { m with command := tset m.command ((at_ - 0x800) / 4) v } }
  else s

/-- REGISTER_WRITE (R13, R14): by the access codes of the register's fields. The host reaches the mailbox BAR alone (R26); the debug port
and the test DMA engine may not write engine control state (R172, R173). -/
def execRegisterWrite (addr : Nat) (value : BitVec 32) (master : Nat) (s : State) :
    Host.Outcome State Fault Refusal :=
  done <| if s.aon && s.pow.iod && addr % 4 == 0 then
      (if 2 ^ 24 ≤ addr then (if master = byHost then writeBar s (addr - 2 ^ 24) value else s)
       else if master = byHost then s
       else if master = byDebug ∨ master = byTest then
         (if 0x280000 ≤ addr ∧ addr < 0x284000 then after (execPageAccessViolation (addr / 0x1000 - 0x280) master s) s
          else protectViolation s master 2 addr)
       else writeWindow s addr value master)
    else s

end Sys2Proof.Machine
end

