-- ==== Sys2Proof/Machine/Spdm.lean ====
section
/-!
DEFINITION. Spdm.lean: the SPDM 1.3 responder (R198), its key updates (R304, R305) and the rekey event (R306).
-/
namespace Sys2Proof.Machine

/-- Response codes of SPDM 1.3: its message codes are outside the manual (PRESUMED, log 22). -/
abbrev rError : Nat := 0x7F
abbrev rVersion : Nat := 0x04
abbrev rCapabilities : Nat := 0x61
abbrev rAlgorithms : Nat := 0x63
abbrev rKeyExchange : Nat := 0x64
abbrev rFinish : Nat := 0x65
abbrev rKeyUpdateAck : Nat := 0x69
abbrev rHeartbeatAck : Nat := 0x68
abbrev rEndSessionAck : Nat := 0x6C
abbrev rVendor : Nat := 0x7E

/-- SPDM 1.3's codes of the errors that R198 and R304 name, and of a message out of its order (PRESUMED, log 22). -/
abbrev eInvalidRequest : Byte := 1
abbrev eBusy : Byte := 3
abbrev eUnexpected : Byte := 4
abbrev eDecrypt : Byte := 6
abbrev eSessionLimit : Byte := 10

/-- Answer with ERROR. -/
def spdmError (s : State) (e : Byte) : State := s.emit (.spdm rError [e])

/-- A message that needs an open session. -/
def inSession (s : State) (f : State → State) : State := if s.host.session = 2 then f s else spdmError s eUnexpected

/-- GET_VERSION (R198): version 1.3 only; negotiation starts afresh. -/
def execGetVersion (s : State) : Host.Outcome State Fault Refusal :=
  done <| fromHost s 130 fun s =>
    ({ s with host.negotiated := 1, host.transcript := [] } : State).emit (.spdm rVersion [0x13])

/-- The capabilities that R198 sets, at SPDM 1.3's places (PRESUMED, log 22): ENCRYPT 6, MAC 7, MUT_AUTH 8, KEY_EX 9, HBEAT 13,
KEY_UPD 14, PUB_KEY_ID 16. -/
abbrev spdmCaps : BitVec 32 := 0x163C0

/-- GET_CAPABILITIES (R198): the fixed set, CTExponent 16, and the sizes. -/
def execGetCapabilities (requested : BitVec 32) (s : State) : Host.Outcome State Fault Refusal :=
  done <| fromHost s 130 fun s =>
    if s.host.negotiated = 0 then spdmError s eUnexpected
    else
      ({ s with host.negotiated := 2, host.caps := requested &&& spdmCaps } : State).emit
        (.spdm rCapabilities (le 4 spdmCaps.toNat ++ le 1 16 ++ le 4 16384 ++ le 4 16384))

/-- The one extended asymmetric algorithm and the one external key exchange of R198: vendor and algorithm number. -/
def spdmSig : BitVec 16 × BitVec 16 := (Config.vendorId, 0x0001)
def spdmKex : BitVec 16 × BitVec 16 := (Config.vendorId, 0x0002)

/-- An offer has what the VTC supports (R198): SHA-384, the hybrid signature, the hybrid key agreement, AES-256-GCM. -/
def offerOk (o : SpdmOffer) : Bool := o.sha384 && o.sigs.contains spdmSig && o.kexs.contains spdmKex && o.gcm256

/-- The selection that ALGORITHMS answers (R198). -/
def spdmSelection : Bytes :=
  le 2 spdmSig.1.toNat ++ le 2 spdmSig.2.toNat ++ le 2 spdmKex.1.toNat ++ le 2 spdmKex.2.toNat

/-- NEGOTIATE_ALGORITHMS (R198): the one set that the VTC supports, or InvalidRequest where the requester lacks one of it. -/
def execNegotiateAlgorithms (offered : SpdmOffer) (s : State) : Host.Outcome State Fault Refusal :=
  done <| fromHost s 130 fun s =>
    if s.host.negotiated < 2 then spdmError s eUnexpected
    else if !offerOk offered then spdmError s eInvalidRequest
    else ({ s with host.negotiated := 3 } : State).emit (.spdm rAlgorithms spdmSelection)

/-- An admitted host's key (R176). -/
def hostKey (s : State) (host : Nat) : Option HybKey := (s.dom.hosts.find? fun h => h.hostId == host).map (·.key)

/-- KEY_EXCHANGE (R198): with an admitted host of the domain, while no session is open; the secret goes to slot 18. -/
def execKeyExchange (host : Nat) (q : Point) (ek : KemBlob) (s : State) : Host.Outcome State Fault Refusal :=
  done <| fromHost s 130 fun s =>
    if s.host.session ≠ 0 then spdmError s eSessionLimit
    else if !isMember s || (hostKey s host).isNone then spdmError (notice s 0 198 uTcu 0) eInvalidRequest
    else if s.host.negotiated ≠ 3 then spdmError s eUnexpected
    else
      match kaRespond s q ek with
      | (s1, none) => spdmError s1 eInvalidRequest
      | (s1, some (qr, ct, ss)) =>
        let t := s1.host.transcript ++ be 97 q.toNat ++ be 1568 ek.toNat ++ be 97 qr.toNat ++ be 1568 ct.toNat
        match signId (putSecret s1 .spdmHandshake ss) t with
        | (s2, none) => spdmError (dropKeys s2 isSessionKey) eUnexpected
        | (s2, some g) =>
          ({ s2 with host.session := 1, host.requester := host, host.transcript := t } : State).emit
            (.spdm rKeyExchange (be 97 qr.toNat ++ be 1568 ct.toNat ++ be 96 g.ecdsa.toNat ++ be 4627 g.mldsa.toNat))

/-- FINISH is signed under the key of an admitted host's member record (R198). -/
def finishSigned (s : State) (sig : HybSig) : Bool :=
  (hostKey s s.host.requester).any fun hk => hybOk hk s.host.transcript sig

/-- The handshake secret in slot 18, when FINISH carries its MAC (R103, R198). -/
def finishOk (s : State) (mac : BitVec 384) : Option (BitVec 384) :=
  (keyWide s .spdmHandshake).bind fun k =>
    if mac = Config.spdmFinished (k.setWidth 384) s.host.transcript then some (k.setWidth 384) else none

/-- Open the session (R103, R303, R322): secrets, generations at 0, every page's SEQ at 1, and the bounce keys of every slice
in service. -/
def openSession (s : State) (ss : BitVec 384) : State :=
  let master := Config.spdmMaster ss
  let secrets := Config.spdmSecrets master
  let s1 := putAppSecret (putAppSecret (putSecret s .spdmMaster master) 0 secrets.1) 1 secrets.2
  let s2 : State := { s1 with
    host.session := 2, host.genIn := 0, host.genOut := 0
    host.updIn := false, host.marksIn := none, host.sealedOut := [], host.marksOut := none, host.updateIn := s1.ns, host.updateOut := s1.ns
    host.period := setting s1 0x5200 1, host.rekeyPosted := false
    mbx := s1.mbx.map fun p => (p.1, { p.2 with nextSeq := 1 }) }
  (servingSlices s2).foldl hostSliceIn s2

/-- FINISH (R198): the session opens, or the handshake ends with ERROR; one that no admitted host's key signed is refused with S0. A
session whose secrets find no slot (R100) does not open: the manual gives the message no code, and the ERROR says Busy. DESIGN CHOICE
(log 82). -/
def execFinish (mac : BitVec 384) (sig : HybSig) (s : State) : Host.Outcome State Fault Refusal :=
  done <| fromHost s 130 fun s =>
    if s.host.session ≠ 1 then spdmError s eUnexpected
    else if !isMember s || !finishSigned s sig then spdmError (notice (spdmClear s) 0 198 uTcu 0) eInvalidRequest
    else
      match finishOk s mac with
      | none => spdmError (spdmClear s) eDecrypt
      | some ss =>
        if (secretRefused s (2 + 2 * (servingSlices s).length)).isSome then spdmError (spdmClear s) eBusy
        else (openSession s ss).emit (.spdm rFinish [])

/-- The start of a direction's next generation (R304): its secret advances, and every slice in service gets its key. -/
def advanceIn (s : State) : State :=
  let s1 : State := { (updateSecret s 0) with
    host.genIn := s.host.genIn + 1, host.updIn := true
    host.marksIn := none, host.updateIn := s.ns }
  (servingSlices s1).foldl (fun s n => deriveBounce s n 0) s1

/-- The outbound direction's next generation (R304, R305): both are held until the descriptors with a record under the old one have
completed. -/
def advanceOut (s : State) : State :=
  let s1 : State := { (updateSecret s 1) with
    host.genOut := s.host.genOut + 1, host.updateOut := s.ns, host.marksOut := some s.host.sealedOut, host.sealedOut := [] }
  (servingSlices s1).foldl (fun s n => deriveBounce s n 1) s1

/-- A direction holds two generations (R304). -/
def updating (s : State) : Bool := s.host.updIn || s.host.marksOut.isSome

/-- An accepted KEY_UPDATE (R304, R306, R325). -/
def keyUpdated (s : State) : State :=
  ({ s with host.keyUpdates := s.host.keyUpdates + 1, host.period := setting s 0x5200 1, host.rekeyPosted := false } : State).emit
    (.spdm rKeyUpdateAck [])

/-- UpdateKey (R304): the inbound generation only; Busy while a direction holds two, or, for want of a code, while the new keys find no
slots (R100). DESIGN CHOICE (log 82) for the latter. -/
def execUpdateKey (s : State) : Host.Outcome State Fault Refusal :=
  done <| fromHost s 130 fun s => inSession s fun s =>
    if updating s || (secretRefused s (servingSlices s).length).isSome then spdmError s eBusy else keyUpdated (advanceIn s)

/-- UpdateAllKeys (R304): both generations, otherwise as UpdateKey. -/
def execUpdateAllKeys (s : State) : Host.Outcome State Fault Refusal :=
  done <| fromHost s 130 fun s => inSession s fun s =>
    if updating s || (secretRefused s (2 * (servingSlices s).length)).isSome then spdmError s eBusy
    else retireOutbound (keyUpdated (advanceOut (advanceIn s)))

/-- The host-inbound descriptors of which the gate has sealed a piece (R305). -/
def inboundDescs (s : State) : List Nat :=
  (s.gate.descs.filter fun p => dClass p.2.raw == kHostDma && !bit (dBody p.2.raw 0 1) 0 && decide (0 < p.2.nextElem)).map (·.1)

/-- VerifyNewKey (R305): the inbound descriptors sealed before it are marked; the old generation retires with the last. -/
def execVerifyNewKey (s : State) : Host.Outcome State Fault Refusal :=
  done <| fromHost s 130 fun s => inSession s fun s =>
    let s1 : State := if s.host.updIn && s.host.marksIn.isNone then { s with host.marksIn := some (inboundDescs s) } else s
    (retireInbound s1).emit (.spdm rKeyUpdateAck [])

/-- HEARTBEAT (R198). -/
def execHeartbeat (s : State) : Host.Outcome State Fault Refusal :=
  done <| fromHost s 130 fun s => inSession s fun s => s.emit (.spdm rHeartbeatAck [])

/-- END_SESSION (R198, R322): descriptors not started complete KEY_DESTROYED, records in progress complete, and the keys go. S0. -/
def execEndSession (s : State) : Host.Outcome State Fault Refusal :=
  done <| fromHost s 130 fun s => inSession s fun s =>
    endSpdm ((notice s 0 322 uHse 0).emit (.spdm rEndSessionAck [])) cKeyDestroyed none

/-- GET_HALLMARK (R182, R198): the one vendor-defined request, answered with a hallmark on its nonce. -/
def execGetHallmark (nonce : BitVec 256) (s : State) : Host.Outcome State Fault Refusal :=
  done <| fromHost s 130 fun s =>
    if s.host.negotiated ≠ 3 then spdmError s eUnexpected
    else
      match makeHallmark s nonce none false with
      | (s1, some h) => s1.emit (.spdm rVendor (hallBytes h))
      | (s1, none) => spdmError s1 eUnexpected

/-- REKEY_DUE (R306): HOST_REKEY_PERIOD after the last update of a direction, or after the session's start. -/
def execRekeyDue (s : State) : Host.Outcome State Fault Refusal :=
  done <| whenUp s fun s =>
    let due (t : Nat) : Bool := decide (t + s.host.period * 1000000 ≤ s.ns)
    let data := b2n (due s.host.updateIn) + 2 * b2n (due s.host.updateOut)
    if data = 0 then s else rekeyEvent s data

end Sys2Proof.Machine
end

