-- ==== Sys2Proof/Machine/Dispatch.lean ====
section
/-!
DEFINITION. Dispatch.lean: one arm for each constructor of Instr, each a direct call of its meaning.
-/
namespace Sys2Proof.Machine

def exec (i : Instr) (s : State) : Host.Outcome State Fault Refusal :=
  match i with
  | .sessionStart => Sys2Proof.Machine.execSessionStart s
  | .sessionEnd => Sys2Proof.Machine.execSessionEnd s
  | .start x1 => Sys2Proof.Machine.execStart x1 s
  | .accelReady x1 x2 x3 => Sys2Proof.Machine.execAccelReady x1 x2 x3 s
  | .entropyHealthFail => Sys2Proof.Machine.execEntropyHealthFail s
  | .drbgReseed => Sys2Proof.Machine.execDrbgReseed s
  | .keyDerivation x1 => Sys2Proof.Machine.execKeyDerivation x1 s
  | .replace x1 x2 x3 => Sys2Proof.Machine.execReplace x1 x2 x3 s
  | .replaceComplete x1 => Sys2Proof.Machine.execReplaceComplete x1 s
  | .destroy x1 => Sys2Proof.Machine.execDestroy x1 s
  | .keyExport x1 x2 => Sys2Proof.Machine.execKeyExport x1 x2 s
  | .keyImport x1 x2 x3 => Sys2Proof.Machine.execKeyImport x1 x2 x3 s
  | .annealCycle x1 => Sys2Proof.Machine.execAnnealCycle x1 s
  | .usageReport x1 x2 x3 x4 => Sys2Proof.Machine.execUsageReport x1 x2 x3 x4 s
  | .keyUsageNotice x1 => Sys2Proof.Machine.execKeyUsageNotice x1 s
  | .keyUsageLimit x1 => Sys2Proof.Machine.execKeyUsageLimit x1 s
  | .vaultComplementMismatch x1 => Sys2Proof.Machine.execVaultComplementMismatch x1 s
  | .channelAllocate x1 x2 => Sys2Proof.Machine.execChannelAllocate x1 x2 s
  | .channelFree x1 x2 => Sys2Proof.Machine.execChannelFree x1 x2 s
  | .chJob x1 x2 x3 x4 => Sys2Proof.Machine.execChJob x1 x2 x3 x4 s
  | .chJobDone x1 => Sys2Proof.Machine.execChJobDone x1 s
  | .chSave x1 x2 x3 => Sys2Proof.Machine.execChSave x1 x2 x3 s
  | .chExport x1 x2 x3 x4 => Sys2Proof.Machine.execChExport x1 x2 x3 x4 s
  | .chRestoreInternal x1 x2 x3 x4 => Sys2Proof.Machine.execChRestoreInternal x1 x2 x3 x4 s
  | .chRestoreBlob x1 x2 x3 x4 => Sys2Proof.Machine.execChRestoreBlob x1 x2 x3 x4 s
  | .chAttach x1 x2 x3 x4 x5 => Sys2Proof.Machine.execChAttach x1 x2 x3 x4 x5 s
  | .chDetach x1 x2 x3 => Sys2Proof.Machine.execChDetach x1 x2 x3 s
  | .coreParityMispredict x1 x2 => Sys2Proof.Machine.execCoreParityMispredict x1 x2 s
  | .coreKatTest x1 x2 x3 => Sys2Proof.Machine.execCoreKatTest x1 x2 x3 s
  | .bucketRefill => Sys2Proof.Machine.execBucketRefill s
  | .pageAccessViolation x1 x2 => Sys2Proof.Machine.execPageAccessViolation x1 x2 s
  | .hybridSign x1 x2 x3 x4 => Sys2Proof.Machine.execHybridSign x1 x2 x3 x4 s
  | .hybridVerify x1 x2 x3 x4 x5 x6 x7 => Sys2Proof.Machine.execHybridVerify x1 x2 x3 x4 x5 x6 x7 s
  | .hybridKeyAgreement x1 x2 x3 x4 => Sys2Proof.Machine.execHybridKeyAgreement x1 x2 x3 x4 s
  | .lcNonce => Sys2Proof.Machine.execLcNonce s
  | .nonceExpire => Sys2Proof.Machine.execNonceExpire s
  | .lcRequest x1 => Sys2Proof.Machine.execLcRequest x1 s
  | .lcToken x1 x2 x3 => Sys2Proof.Machine.execLcToken x1 x2 x3 s
  | .debugRequest x1 => Sys2Proof.Machine.execDebugRequest x1 s
  | .challengeExpire => Sys2Proof.Machine.execChallengeExpire s
  | .debugGrant x1 => Sys2Proof.Machine.execDebugGrant x1 s
  | .debugScrubDone => Sys2Proof.Machine.execDebugScrubDone s
  | .presenceEdge => Sys2Proof.Machine.execPresenceEdge s
  | .presenceWindowEnd => Sys2Proof.Machine.execPresenceWindowEnd s
  | .protectViolation x1 x2 x3 => Sys2Proof.Machine.execProtectViolation x1 x2 x3 s
  | .identityEndorsement x1 => Sys2Proof.Machine.execIdentityEndorsement x1 s
  | .domainCreate x1 => Sys2Proof.Machine.execDomainCreate x1 s
  | .domainJoin x1 x2 x3 => Sys2Proof.Machine.execDomainJoin x1 x2 x3 s
  | .joinHello x1 x2 x3 x4 x5 => Sys2Proof.Machine.execJoinHello x1 x2 x3 x4 x5 s
  | .joinChallenge x1 x2 x3 x4 x5 => Sys2Proof.Machine.execJoinChallenge x1 x2 x3 x4 x5 s
  | .joinEvidence x1 x2 => Sys2Proof.Machine.execJoinEvidence x1 x2 s
  | .joinAdmit x1 x2 x3 x4 x5 x6 x7 x8 x9 => Sys2Proof.Machine.execJoinAdmit x1 x2 x3 x4 x5 x6 x7 x8 x9 s
  | .joinDone x1 x2 x3 x4 => Sys2Proof.Machine.execJoinDone x1 x2 x3 x4 s
  | .joinRefuse x1 => Sys2Proof.Machine.execJoinRefuse x1 s
  | .joinTimeout x1 => Sys2Proof.Machine.execJoinTimeout x1 s
  | .policyUpdate x1 => Sys2Proof.Machine.execPolicyUpdate x1 s
  | .hostMember x1 => Sys2Proof.Machine.execHostMember x1 s
  | .hallmarkNonce x1 => Sys2Proof.Machine.execHallmarkNonce x1 s
  | .domainLeave x1 => Sys2Proof.Machine.execDomainLeave x1 s
  | .memberDownReceived x1 => Sys2Proof.Machine.execMemberDownReceived x1 s
  | .memberLeave x1 => Sys2Proof.Machine.execMemberLeave x1 s
  | .epochCoalesceExpire => Sys2Proof.Machine.execEpochCoalesceExpire s
  | .epochAgeLimit => Sys2Proof.Machine.execEpochAgeLimit s
  | .epochPrepare x1 x2 => Sys2Proof.Machine.execEpochPrepare x1 x2 s
  | .epochShare x1 x2 x3 => Sys2Proof.Machine.execEpochShare x1 x2 x3 s
  | .epochKey x1 x2 x3 x4 => Sys2Proof.Machine.execEpochKey x1 x2 x3 x4 s
  | .epochAck x1 x2 => Sys2Proof.Machine.execEpochAck x1 x2 s
  | .epochCommit x1 x2 => Sys2Proof.Machine.execEpochCommit x1 x2 s
  | .epochAckTimeout x1 => Sys2Proof.Machine.execEpochAckTimeout x1 s
  | .epochGraceEnd => Sys2Proof.Machine.execEpochGraceEnd s
  | .memberUpdate x1 x2 x3 x4 x5 => Sys2Proof.Machine.execMemberUpdate x1 x2 x3 x4 x5 s
  | .anchorBeatTimer => Sys2Proof.Machine.execAnchorBeatTimer s
  | .anchorBeat x1 => Sys2Proof.Machine.execAnchorBeat x1 s
  | .anchorState x1 x2 x3 x4 x5 => Sys2Proof.Machine.execAnchorState x1 x2 x3 x4 x5 s
  | .anchorProbe x1 => Sys2Proof.Machine.execAnchorProbe x1 s
  | .anchorSilence x1 => Sys2Proof.Machine.execAnchorSilence x1 s
  | .claimWaitExpire => Sys2Proof.Machine.execClaimWaitExpire s
  | .anchorClaim x1 x2 x3 => Sys2Proof.Machine.execAnchorClaim x1 x2 x3 s
  | .domainTermStale x1 => Sys2Proof.Machine.execDomainTermStale x1 s
  | .roleHandoff x1 x2 x3 x4 => Sys2Proof.Machine.execRoleHandoff x1 x2 x3 x4 s
  | .stateManifest x1 x2 x3 x4 x5 x6 x7 => Sys2Proof.Machine.execStateManifest x1 x2 x3 x4 x5 x6 x7 s
  | .getVersion => Sys2Proof.Machine.execGetVersion s
  | .getCapabilities x1 => Sys2Proof.Machine.execGetCapabilities x1 s
  | .negotiateAlgorithms x1 => Sys2Proof.Machine.execNegotiateAlgorithms x1 s
  | .keyExchange x1 x2 x3 => Sys2Proof.Machine.execKeyExchange x1 x2 x3 s
  | .finish x1 x2 => Sys2Proof.Machine.execFinish x1 x2 s
  | .updateKey => Sys2Proof.Machine.execUpdateKey s
  | .updateAllKeys => Sys2Proof.Machine.execUpdateAllKeys s
  | .verifyNewKey => Sys2Proof.Machine.execVerifyNewKey s
  | .heartbeat => Sys2Proof.Machine.execHeartbeat s
  | .endSession => Sys2Proof.Machine.execEndSession s
  | .getHallmark x1 => Sys2Proof.Machine.execGetHallmark x1 s
  | .frameSeal x1 => Sys2Proof.Machine.execFrameSeal x1 s
  | .frameEgress x1 x2 x3 => Sys2Proof.Machine.execFrameEgress x1 x2 x3 s
  | .frameReceive x1 x2 x3 => Sys2Proof.Machine.execFrameReceive x1 x2 x3 s
  | .ackSend x1 => Sys2Proof.Machine.execAckSend x1 s
  | .ack x1 x2 => Sys2Proof.Machine.execAck x1 x2 s
  | .retransmitTimer x1 x2 => Sys2Proof.Machine.execRetransmitTimer x1 x2 s
  | .keyMissFill x1 x2 x3 x4 => Sys2Proof.Machine.execKeyMissFill x1 x2 x3 x4 s
  | .flowEpochSwitch x1 => Sys2Proof.Machine.execFlowEpochSwitch x1 s
  | .flowKeyRetire x1 => Sys2Proof.Machine.execFlowKeyRetire x1 s
  | .fence x1 x2 x3 x4 => Sys2Proof.Machine.execFence x1 x2 x3 x4 s
  | .fenceTimeout x1 x2 => Sys2Proof.Machine.execFenceTimeout x1 x2 s
  | .nodeBinding x1 x2 x3 => Sys2Proof.Machine.execNodeBinding x1 x2 x3 s
  | .fabLanemap x1 x2 => Sys2Proof.Machine.execFabLanemap x1 x2 s
  | .fabLaneup x1 x2 x3 => Sys2Proof.Machine.execFabLaneup x1 x2 x3 s
  | .stepStage x1 x2 => Sys2Proof.Machine.execStepStage x1 x2 s
  | .chunkEmit x1 x2 => Sys2Proof.Machine.execChunkEmit x1 x2 s
  | .stepTimeout x1 x2 => Sys2Proof.Machine.execStepTimeout x1 x2 s
  | .stepSlotRelease x1 x2 => Sys2Proof.Machine.execStepSlotRelease x1 x2 s
  | .alloyLaneTest x1 x2 x3 => Sys2Proof.Machine.execAlloyLaneTest x1 x2 x3 s
  | .pewterRead x1 => Sys2Proof.Machine.execPewterRead x1 s
  | .pewterFullWrite x1 x2 => Sys2Proof.Machine.execPewterFullWrite x1 x2 s
  | .pewterPartialWrite x1 x2 x3 => Sys2Proof.Machine.execPewterPartialWrite x1 x2 x3 s
  | .poolReadCompletion x1 x2 x3 x4 x5 => Sys2Proof.Machine.execPoolReadCompletion x1 x2 x3 x4 x5 s
  | .poolWack x1 x2 => Sys2Proof.Machine.execPoolWack x1 x2 s
  | .poolTimeout x1 => Sys2Proof.Machine.execPoolTimeout x1 s
  | .regionRotate x1 => Sys2Proof.Machine.execRegionRotate x1 s
  | .rotationSweep x1 => Sys2Proof.Machine.execRotationSweep x1 s
  | .stkRequest x1 x2 x3 x4 x5 => Sys2Proof.Machine.execStkRequest x1 x2 x3 x4 x5 s
  | .scrubDone x1 => Sys2Proof.Machine.execScrubDone x1 s
  | .scrubWriteFail x1 x2 => Sys2Proof.Machine.execScrubWriteFail x1 x2 s
  | .hostInbound x1 => Sys2Proof.Machine.execHostInbound x1 s
  | .hostRecordArrive x1 x2 x3 => Sys2Proof.Machine.execHostRecordArrive x1 x2 x3 s
  | .hostOutbound x1 x2 => Sys2Proof.Machine.execHostOutbound x1 x2 s
  | .bounceState x1 => Sys2Proof.Machine.execBounceState x1 s
  | .rekeyDue => Sys2Proof.Machine.execRekeyDue s
  | .msixUnmask x1 => Sys2Proof.Machine.execMsixUnmask x1 s
  | .atsInvalidate x1 x2 x3 => Sys2Proof.Machine.execAtsInvalidate x1 x2 x3 s
  | .atsCompletion x1 x2 x3 => Sys2Proof.Machine.execAtsCompletion x1 x2 x3 s
  | .prgResponse x1 x2 x3 => Sys2Proof.Machine.execPrgResponse x1 x2 x3 s
  | .submit x1 x2 x3 x4 x5 => Sys2Proof.Machine.execSubmit x1 x2 x3 x4 x5 s
  | .pendingPieceSeal x1 x2 => Sys2Proof.Machine.execPendingPieceSeal x1 x2 s
  | .translationWalk x1 x2 => Sys2Proof.Machine.execTranslationWalk x1 x2 s
  | .check x1 x2 x3 x4 => Sys2Proof.Machine.execCheck x1 x2 x3 x4 s
  | .pieceRetire x1 x2 x3 => Sys2Proof.Machine.execPieceRetire x1 x2 x3 s
  | .cpqDone x1 x2 => Sys2Proof.Machine.execCpqDone x1 x2 s
  | .doorbell x1 x2 x3 => Sys2Proof.Machine.execDoorbell x1 x2 x3 s
  | .cqHead x1 x2 x3 => Sys2Proof.Machine.execCqHead x1 x2 x3 s
  | .faultHoldLimit x1 x2 => Sys2Proof.Machine.execFaultHoldLimit x1 x2 s
  | .alloc x1 => Sys2Proof.Machine.execAlloc x1 s
  | .free x1 => Sys2Proof.Machine.execFree x1 s
  | .objectRelease x1 x2 => Sys2Proof.Machine.execObjectRelease x1 x2 s
  | .eventCreate x1 => Sys2Proof.Machine.execEventCreate x1 s
  | .eventFree x1 => Sys2Proof.Machine.execEventFree x1 s
  | .queueCreate x1 x2 x3 x4 x5 x6 x7 x8 => Sys2Proof.Machine.execQueueCreate x1 x2 x3 x4 x5 x6 x7 x8 s
  | .queueDestroy x1 x2 x3 x4 => Sys2Proof.Machine.execQueueDestroy x1 x2 x3 x4 s
  | .windowExport x1 x2 x3 x4 => Sys2Proof.Machine.execWindowExport x1 x2 x3 x4 s
  | .objectInfo x1 x2 => Sys2Proof.Machine.execObjectInfo x1 x2 s
  | .pasidBind x1 x2 x3 => Sys2Proof.Machine.execPasidBind x1 x2 x3 s
  | .contextCreate x1 x2 x3 x4 => Sys2Proof.Machine.execContextCreate x1 x2 x3 x4 s
  | .contextDestroy x1 x2 x3 => Sys2Proof.Machine.execContextDestroy x1 x2 x3 s
  | .eventShare x1 x2 x3 => Sys2Proof.Machine.execEventShare x1 x2 x3 s
  | .memoryShare x1 x2 x3 x4 x5 => Sys2Proof.Machine.execMemoryShare x1 x2 x3 x4 x5 s
  | .eventQuery x1 x2 => Sys2Proof.Machine.execEventQuery x1 x2 s
  | .ctxUsage x1 x2 => Sys2Proof.Machine.execCtxUsage x1 x2 s
  | .sliceFreeze x1 x2 x3 => Sys2Proof.Machine.execSliceFreeze x1 x2 x3 s
  | .sliceThaw x1 x2 => Sys2Proof.Machine.execSliceThaw x1 x2 s
  | .sliceOffer x1 x2 x3 => Sys2Proof.Machine.execSliceOffer x1 x2 x3 s
  | .offerExpire x1 => Sys2Proof.Machine.execOfferExpire x1 s
  | .sliceSave x1 x2 x3 x4 x5 x6 => Sys2Proof.Machine.execSliceSave x1 x2 x3 x4 x5 x6 s
  | .sliceRestore x1 x2 x3 => Sys2Proof.Machine.execSliceRestore x1 x2 x3 s
  | .tenantSlices x1 => Sys2Proof.Machine.execTenantSlices x1 s
  | .arrayClean => Sys2Proof.Machine.execArrayClean s
  | .arrTileevt x1 => Sys2Proof.Machine.execArrTileevt x1 s
  | .arrFaultevt x1 x2 x3 => Sys2Proof.Machine.execArrFaultevt x1 x2 x3 s
  | .arrayCleanTimeout => Sys2Proof.Machine.execArrayCleanTimeout s
  | .arrayRecoveryTimeout => Sys2Proof.Machine.execArrayRecoveryTimeout s
  | .deferralExpire x1 => Sys2Proof.Machine.execDeferralExpire x1 s
  | .deadlineWithdraw x1 => Sys2Proof.Machine.execDeadlineWithdraw x1 s
  | .throttleWindow => Sys2Proof.Machine.execThrottleWindow s
  | .capacityChange => Sys2Proof.Machine.execCapacityChange s
  | .trefLock => Sys2Proof.Machine.execTrefLock s
  | .trefLoss => Sys2Proof.Machine.execTrefLoss s
  | .tpulseEdge x1 => Sys2Proof.Machine.execTpulseEdge x1 s
  | .tpulseMissing => Sys2Proof.Machine.execTpulseMissing s
  | .tpulseSilence => Sys2Proof.Machine.execTpulseSilence s
  | .virtualEdge => Sys2Proof.Machine.execVirtualEdge s
  | .timeLo => Sys2Proof.Machine.execTimeLo s
  | .castArm x1 x2 x3 x4 x5 => Sys2Proof.Machine.execCastArm x1 x2 x3 x4 x5 s
  | .castStageAck x1 x2 => Sys2Proof.Machine.execCastStageAck x1 x2 s
  | .castCancel x1 x2 x3 => Sys2Proof.Machine.execCastCancel x1 x2 x3 s
  | .timeNow x1 => Sys2Proof.Machine.execTimeNow x1 s
  | .castFire x1 => Sys2Proof.Machine.execCastFire x1 s
  | .commitAt x1 => Sys2Proof.Machine.execCommitAt x1 s
  | .freezeAt x1 => Sys2Proof.Machine.execFreezeAt x1 s
  | .clkdStop x1 => Sys2Proof.Machine.execClkdStop x1 s
  | .clkdResume x1 => Sys2Proof.Machine.execClkdResume x1 s
  | .neighbourRst x1 x2 => Sys2Proof.Machine.execNeighbourRst x1 x2 s
  | .neighbourRstRelease x1 x2 => Sys2Proof.Machine.execNeighbourRstRelease x1 x2 s
  | .neighbourFlush x1 x2 => Sys2Proof.Machine.execNeighbourFlush x1 x2 s
  | .nflushLate x1 x2 => Sys2Proof.Machine.execNflushLate x1 x2 s
  | .networkResend x1 => Sys2Proof.Machine.execNetworkResend x1 s
  | .errorLatch x1 x2 x3 x4 x5 => Sys2Proof.Machine.execErrorLatch x1 x2 x3 x4 x5 s
  | .errorClose x1 => Sys2Proof.Machine.execErrorClose x1 s
  | .handlerDeadlineMiss x1 => Sys2Proof.Machine.execHandlerDeadlineMiss x1 s
  | .lockstepMismatch => Sys2Proof.Machine.execLockstepMismatch s
  | .engineReset x1 x2 => Sys2Proof.Machine.execEngineReset x1 x2 s
  | .partitionReset x1 => Sys2Proof.Machine.execPartitionReset x1 s
  | .tcuRestart x1 => Sys2Proof.Machine.execTcuRestart x1 s
  | .chipWarmReset x1 => Sys2Proof.Machine.execChipWarmReset x1 s
  | .noticeRepeat => Sys2Proof.Machine.execNoticeRepeat s
  | .quench x1 x2 x3 => Sys2Proof.Machine.execQuench x1 x2 x3 s
  | .quenchRelease x1 => Sys2Proof.Machine.execQuenchRelease x1 s
  | .hbTcu x1 x2 x3 => Sys2Proof.Machine.execHbTcu x1 x2 x3 s
  | .hbMgmt x1 x2 x3 => Sys2Proof.Machine.execHbMgmt x1 x2 x3 s
  | .tcuBeatTimeout5ms => Sys2Proof.Machine.execTcuBeatTimeout5ms s
  | .tcuBeatTimeout50ms => Sys2Proof.Machine.execTcuBeatTimeout50ms s
  | .mgmtHbTimeout => Sys2Proof.Machine.execMgmtHbTimeout s
  | .mgmtHbNotArmed => Sys2Proof.Machine.execMgmtHbNotArmed s
  | .startBeatTimeout => Sys2Proof.Machine.execStartBeatTimeout s
  | .sentinelSilent x1 => Sys2Proof.Machine.execSentinelSilent x1 s
  | .resetRequest x1 => Sys2Proof.Machine.execResetRequest x1 s
  | .fwImage x1 => Sys2Proof.Machine.execFwImage x1 s
  | .fwChunk x1 x2 x3 => Sys2Proof.Machine.execFwChunk x1 x2 x3 s
  | .fwCommit x1 x2 => Sys2Proof.Machine.execFwCommit x1 x2 s
  | .afwLoad x1 x2 => Sys2Proof.Machine.execAfwLoad x1 x2 s
  | .afwCtrlGo x1 x2 => Sys2Proof.Machine.execAfwCtrlGo x1 x2 s
  | .mapFill x1 x2 => Sys2Proof.Machine.execMapFill x1 x2 s
  | .spareCheckDone x1 => Sys2Proof.Machine.execSpareCheckDone x1 s
  | .mapRole x1 x2 x3 => Sys2Proof.Machine.execMapRole x1 x2 x3 s
  | .mapVacant x1 => Sys2Proof.Machine.execMapVacant x1 s
  | .trainSave x1 => Sys2Proof.Machine.execTrainSave x1 s
  | .trainLoad => Sys2Proof.Machine.execTrainLoad s
  | .trainData x1 => Sys2Proof.Machine.execTrainData x1 s
  | .retrain x1 => Sys2Proof.Machine.execRetrain x1 s
  | .healthPlan x1 => Sys2Proof.Machine.execHealthPlan x1 s
  | .creepRecord => Sys2Proof.Machine.execCreepRecord s
  | .opticsIn x1 x2 x3 => Sys2Proof.Machine.execOpticsIn x1 x2 x3 s
  | .opticsStale x1 => Sys2Proof.Machine.execOpticsStale x1 s
  | .vholdSample x1 => Sys2Proof.Machine.execVholdSample x1 s
  | .pfailN x1 => Sys2Proof.Machine.execPfailN x1 s
  | .leadboxRecord => Sys2Proof.Machine.execLeadboxRecord s
  | .nextComplementMismatch => Sys2Proof.Machine.execNextComplementMismatch s
  | .summaryFold => Sys2Proof.Machine.execSummaryFold s
  | .lbxCursorHi x1 => Sys2Proof.Machine.execLbxCursorHi x1 s
  | .lbxWindowAuto => Sys2Proof.Machine.execLbxWindowAuto s
  | .lbxVerify => Sys2Proof.Machine.execLbxVerify s
  | .lbxNextLo => Sys2Proof.Machine.execLbxNextLo s
  | .lbxRecord => Sys2Proof.Machine.execLbxRecord s
  | .lbxCursor x1 => Sys2Proof.Machine.execLbxCursor x1 s
  | .freezeIn => Sys2Proof.Machine.execFreezeIn s
  | .frzTimeLo => Sys2Proof.Machine.execFrzTimeLo s
  | .liveCounterLo x1 => Sys2Proof.Machine.execLiveCounterLo x1 s
  | .watchArm x1 x2 => Sys2Proof.Machine.execWatchArm x1 x2 s
  | .watchCancel x1 x2 => Sys2Proof.Machine.execWatchCancel x1 x2 s
  | .digestRotate x1 => Sys2Proof.Machine.execDigestRotate x1 s
  | .watchTimeout x1 => Sys2Proof.Machine.execWatchTimeout x1 s
  | .dumpEnable x1 => Sys2Proof.Machine.execDumpEnable x1 s
  | .initiateRead x1 x2 x3 x4 x5 => Sys2Proof.Machine.execInitiateRead x1 x2 x3 x4 x5 s
  | .initiateWrite x1 x2 x3 x4 x5 x6 x7 => Sys2Proof.Machine.execInitiateWrite x1 x2 x3 x4 x5 x6 x7 s
  | .initiateDescribe x1 x2 x3 x4 => Sys2Proof.Machine.execInitiateDescribe x1 x2 x3 x4 s
  | .mdtSegment x1 x2 x3 x4 => Sys2Proof.Machine.execMdtSegment x1 x2 x3 x4 s
  | .mdtAck x1 x2 x3 => Sys2Proof.Machine.execMdtAck x1 x2 x3 s
  | .mdtAbort x1 x2 x3 => Sys2Proof.Machine.execMdtAbort x1 x2 x3 s
  | .transferTimeout x1 x2 => Sys2Proof.Machine.execTransferTimeout x1 x2 s
  | .addressAssign x1 x2 => Sys2Proof.Machine.execAddressAssign x1 x2 s
  | .statusFrame => Sys2Proof.Machine.execStatusFrame s
  | .mgtBusoff => Sys2Proof.Machine.execMgtBusoff s
  | .configStore => Sys2Proof.Machine.execConfigStore s
  | .dictRead x1 x2 x3 x4 => Sys2Proof.Machine.execDictRead x1 x2 x3 x4 s
  | .dictDescribe x1 x2 x3 x4 => Sys2Proof.Machine.execDictDescribe x1 x2 x3 x4 s
  | .registerWrite x1 x2 x3 => Sys2Proof.Machine.execRegisterWrite x1 x2 x3 s
  | .busOffRecovery => Sys2Proof.Machine.execBusOffRecovery s
  | .recordLimitWindow => Sys2Proof.Machine.execRecordLimitWindow s

end Sys2Proof.Machine
end

