-- ==== Sys2Proof/Machine/Tick.lean ====
section
/-!
DEFINITION. Tick.lean: the passing of time on an empty queue.
-/
namespace Sys2Proof.Machine

/-- The deviation of the free-running clock in NO_REF (R417), in ppm: any value within ±50 for the first 10 ms after the
loss and within ±1,000 after them (log 4). -/
def freeRun (s : State) : Int :=
  let b : Nat := if s.time.now / 2 ^ 32 < s.time.lostAt + 10000000 then 50 else 1000
  ((Config.freeBits 16 s.free).toNat % (2 * b + 1) : Nat) - (b : Int)

/-- Session time advances by 1 ms at the rate in force, in units of 2^-32 ns (R415, R417). -/
def passTick (s : State) : State :=
  if !s.time.trefLocked then
    { s with time.now := s.time.now + Int.toNat ((2 ^ 32 + s.time.rate) * (1000000 + freeRun s)), free := s.free + 1 }
  else { s with time.now := s.time.now + Int.toNat ((2 ^ 32 + s.time.rate) * 1000000) }

/-- One tick: while a session is open, time advances, and requests that waited for a new second's rate are served (R102, R150), and a
pewter reset waits for its write-backs no longer than 100 µs (R300), and a gate reset for its pieces no longer than 1 ms (R357);
otherwise the block idles (log 9). -/
def tick (s : State) : State :=
  if s.pow.sessionOpen then whenUp (passTick s) fun s => settleResets ((List.range 4).foldl settleClose (pkServe (serveQueue 256 s))) else s

end Sys2Proof.Machine
end

