-- ==== Sys2Proof/Machine/Step.lean ====
section
/-!
DEFINITION. Step.lean: a step takes the command at the front of the queue, or lets a tick pass on an empty queue.
-/
namespace Sys2Proof.Machine

/-- One step: the front command's effect on the state with the rest of the queue; with no command waiting, one
tick of the time clock (log 9). -/
def step (s : State) : Host.Outcome State Fault Refusal :=
  match s.pending with
  | c :: rest => exec c { s with pending := rest }
  | [] => .next (Sys2Proof.Machine.tick s)

/-- The state with the command that a word spells put at the front of its queue; unchanged where it spells none. -/
def State.withFetchWord (s : State) (nbits w : Nat) : State :=
  match decodeTableWord nbits w with
  | some c => { s with pending := c :: s.pending }
  | none => s

end Sys2Proof.Machine
end

