-- ==== Sys2Proof/Safety.lean ====
section
/-!
DEFINITION. Safety.lean: what a run must keep, in the terms that claims use.
-/
namespace Sys2Proof.Machine

/-- Both copies of the life-cycle record are valid: one of the six codes, each complement its inverse (R153). -/
def State.recordValid (s : State) : Prop := s.lc.primary.valid = true ∧ s.lc.mirror.valid = true

/-- Commands that may write the life-cycle record: the transitions and the debug grant, the same requests through the
dictionary, a start's settling and entry actions, and the ends of a session, which keep only NVM (R153, R162, R163, R167). -/
def writesRecord : Instr → Bool
  | .lcRequest _ | .lcToken _ _ _ | .debugGrant _ | .initiateWrite _ _ _ _ _ _ _ | .mdtSegment _ _ _ _ | .start _
  | .sessionStart | .sessionEnd => true
  | _ => false

/-- Commands that may move session time or change its state: TREF and the TPULSE input, and the ends of a session. -/
def movesTime : Instr → Bool
  | .trefLock | .trefLoss | .tpulseEdge _ | .tpulseMissing | .tpulseSilence | .sessionStart | .sessionEnd => true
  | _ => false

/-- Commands that may change whether a session is open, which rails are up, and the session identifier (a failing supply takes
the IOD and CDIE rails with it, R54, R493). -/
def changesRails : Instr → Bool
  | .sessionStart | .sessionEnd | .start _ | .pfailN _ => true
  | _ => false

/-- Commands that may change a pool's good members: a start, a pool's own test, and those that may complete a reset, which assays
again (R445, R446, R62), or a pewter's reset that waits for its write-backs (R300). -/
def changesPools : Instr → Bool
  | .sessionStart | .sessionEnd | .start _ | .chipWarmReset _ | .engineReset _ _ | .coreParityMispredict _ _
  | .coreKatTest _ _ _ | .tcuRestart _ | .lockstepMismatch | .tcuBeatTimeout5ms | .handlerDeadlineMiss _ | .neighbourRst _ _
  | .neighbourFlush _ _ | .nflushLate _ _ | .poolWack _ _ => true
  | _ => false

/-- Commands that may change the stored operator configuration. -/
def storesConfig : Instr → Bool
  | .sessionStart | .sessionEnd | .start _ | .configStore | .addressAssign _ _ | .initiateWrite _ _ _ _ _ _ _
  | .mdtSegment _ _ _ _ => true
  | _ => false

/-- Commands that may change the helper data of the device secret. -/
def writesHelper : Instr → Bool
  | .sessionStart | .sessionEnd | .start _ => true
  | _ => false

/-- Commands that may change the stored identity endorsement. -/
def writesEndorsement : Instr → Bool
  | .sessionStart | .sessionEnd | .start _ | .identityEndorsement _ | .initiateWrite _ _ _ _ _ _ _
  | .mdtSegment _ _ _ _ => true
  | _ => false

/-- A domain message that its receiver takes (R186, R191): the unit is a member, the header is one it takes, the domain is its own, and,
for a message of a sealed type, the sender is a member whose term is not stale. -/
abbrev State.takesDomain (s : State) (m : DomHdr) (sealedType : Bool) : Prop :=
  isMember s = true ∧ hdrOk m = true ∧ m.domainId = s.dom.domainId ∧
    (sealedType = true → member s m.sender = true ∧ s.dom.term ≤ m.term)

/-- A join message that the joining unit takes in a step of its join (R186 to R190). -/
abbrev State.takesJoin (s : State) (m : DomHdr) (step : Nat) : Prop :=
  s.dom.role = 4 ∧ s.dom.join.step = step ∧ hdrOk m = true ∧ m.domainId = s.dom.join.domainId ∧
    m.sender = s.dom.join.anchor ∧ m.txn = s.dom.join.txn

/-- A channel command that runs at once (R127, R129, R369): the VTC is up, the context is current or is that of no context, the channel is
its own, one of 64, and its queue is empty. -/
abbrev State.channelIdle (s : State) (ch ctx gen : Nat) : Prop :=
  s.up = true ∧ ch < 64 ∧ (ctx = 0 ∨ ctxCurrent s ctx gen = true) ∧ chanOwn s ch ctx gen = true ∧ (chanAt s ch).queue = []

/-- The operation that a channel command queues (R32, R33): TCU firmware's own, context 0, or what a dispatched sealed piece brings. -/
def State.brings (s : State) (ch ctx gen : Nat) (op : CipherOp) (body : CipherBody) : Option CipherJob :=
  if ctx = 0 then some ⟨0, 0, op, { body with src := body.src % 2 ^ 40, dst := body.dst % 2 ^ 40 }, none⟩
  else
    match jobSlot s ch ctx gen op with
    | none => none
    | some k => (tget s.gate.seals k).map fun l => ⟨ctx, gen, sealedOp op (sealedBody l), sealedBody l, some k⟩

/-- The state in which an operation heads an idle channel, its registers loaded (R129, R139). -/
def State.heads (s : State) (ch : Nat) (j : CipherJob) : State :=
  chanLoadHead (setChan s ch { chanAt s ch with queue := [j] }) ch

/-- A request that the public-key engine carries out at once (R150): the VTC is up, none waits, and a tenant slice has a request left. -/
abbrev State.pkTakes (s : State) (cls slice : Nat) (j : PkJob) : Prop :=
  s.up = true ∧ s.cipher.pkQueue = [] ∧ (cls = 2 ∧ 1 ≤ slice ∧ slice ≤ 16 → pkReady s slice j = true)

/-- A mailbox command that is performed (R315, R316): its page answers, and no check refuses it. -/
abbrev State.takesMailbox (s : State) (h : MbxHdr) (opcode : Nat) (driver : Bool) (body : Bytes) : Prop :=
  mbxPresent s h = true ∧ mbxCheck s h opcode driver body = none

end Sys2Proof.Machine
end

