-- ==== Sys2Proof/WellFormed.lean ====
section
/-!
DEFINITION. WellFormed.lean: which commands have operands that their sources can form at all: numbers that fit
the field or signal that carries them, and byte strings of the length that their format fixes.
-/
namespace Sys2Proof

/-- A fabric port, 0 to 17 (R69). -/
def portOk (p : Nat) : Bool := decide (p < 18)

/-- A pool port, 0 to 3 (R70). -/
def poolOk (p : Nat) : Bool := decide (p < 4)

/-- A context id of 12 bits and a queue of 6 bits (R326). -/
def queueOk (ctx queue : Nat) : Bool := decide (ctx < 4096) && decide (queue < 64)

/-- The header of a mailbox command fits its fields (R316): page 0 is the driver page, s + 1 slice page s. -/
def MbxHdr.ok (h : MbxHdr) : Bool :=
  decide (h.page ≤ 32) && decide (h.length < 2 ^ 16) && decide (h.seq < 2 ^ 32) && decide (h.ctxId < 2 ^ 16) && decide (h.reserved < 2 ^ 40)

/-- A frame fits its header fields (R207). -/
def Frame.ok (f : Frame) : Bool :=
  decide (f.dstNode < 8192) && decide (f.srcNode < 8192) && decide (f.seq < 2 ^ 48) &&
    decide (f.payload.length = f.payloadLen) && decide (f.payloadLen ≤ 4096)

/-- A tier-B request names a region and a granule of it (R262). -/
def PewReq.ok (r : PewReq) : Bool :=
  decide (r.region < 32768) && decide (r.granule < 262144) && decide (r.ctx < 4096) && decide (r.gen < 65536)

/-- The operands of a command are ones its source can form. -/
def Instr.wf : Instr → Bool
  | .frameSeal r => decide (r.node < 8192) && decide (r.slice ≤ 32)
  | .frameEgress port _ seq => portOk port && decide (seq < 2 ^ 48)
  | .frameReceive port f _ => portOk port && f.ok
  | .fabLanemap port _ => portOk port
  | .fabLaneup port lane _ => portOk port && decide (lane < 5)
  | .stepStage port _ => portOk port
  | .chunkEmit port slot => portOk port && decide (slot < 64)
  | .stepTimeout port slot => portOk port && decide (slot < 64)
  | .stepSlotRelease port slot => portOk port && decide (slot < 64)
  | .alloyLaneTest port lane _ => portOk port && decide (lane < 256)
  | .pewterRead r => r.ok
  | .pewterFullWrite r _ => r.ok
  | .pewterPartialWrite r _ _ => r.ok
  | .poolReadCompletion port _ status _ _ => poolOk port && decide (status < 4)
  | .poolWack port count => poolOk port && decide (count ≤ 32767)
  | .poolTimeout port => poolOk port
  | .stkRequest stack page _ ctx gen =>
    decide (stack < 16) && decide (page < 12288) && decide (ctx < 4096) && decide (gen < 65536)
  | .submit cp ctx queue raw _ => decide (cp < 8) && queueOk ctx queue && decide (raw.length = 96)
  | .check cp _ queueId desc =>
    decide (cp < 8) && decide (queueId < 2 ^ 18) && decide (desc.length = 160)
  | .cpqDone cp count => decide (cp < 8) && decide (count ≤ 32767)
  | .doorbell ctx queue tail => queueOk ctx queue && decide (tail < 65536)
  | .cqHead ctx queue head => queueOk ctx queue && decide (head < 65536)
  | .bounceState h => h.ok
  | .castArm (.mailbox h r) _ _ _ _ => h.ok && decide (r < 2 ^ 16)
  | .castArm .arbiter _ _ _ _ | .castArm .tcu _ _ _ _ => true
  | .msixUnmask m => decide (m.vector < 2048)
  | .arrTileevt count => decide (count ≤ 32767)
  | .neighbourRst _ index => decide (index < 32)
  | .neighbourRstRelease _ index => decide (index < 32)
  | .neighbourFlush _ index => decide (index < 32)
  | .nflushLate _ index => decide (index < 32)
  | .networkResend r =>
    decide (r.leaf < 18) || (decide (0x20 ≤ r.leaf) && decide (r.leaf ≤ 0x23)) || r.leaf == 0x30 ||
      (decide (0x40 ≤ r.leaf) && decide (r.leaf ≤ 0x4F))
  | .opticsIn _ port _ => portOk port
  | .opticsStale port => portOk port
  | .registerWrite addr _ _ => decide (addr < 2 ^ 26)
  | .mdtSegment _ _ _ data => decide (data.length ≤ 56)
  | .channelAllocate h _ => h.ok
  | .channelFree h _ => h.ok
  | .queueCreate h _ _ _ _ _ _ _ => h.ok
  | .queueDestroy h _ _ _ => h.ok
  | .windowExport h _ _ _ => h.ok
  | .objectInfo h _ => h.ok
  | .pasidBind h _ _ => h.ok
  | .contextCreate h _ _ _ => h.ok
  | .contextDestroy h _ _ => h.ok
  | .eventShare h _ _ => h.ok
  | .memoryShare h _ _ _ _ => h.ok
  | .eventQuery h _ => h.ok
  | .ctxUsage h _ => h.ok
  | .sliceFreeze h _ _ => h.ok
  | .sliceThaw h _ => h.ok
  | .sliceOffer h _ _ => h.ok
  | .sliceSave h _ _ _ _ _ => h.ok
  | .sliceRestore h _ _ => h.ok
  | .castCancel h _ _ => h.ok
  | .timeNow h => h.ok
  | .fwChunk h _ _ => h.ok
  | .fwCommit h _ => h.ok
  | .afwLoad h _ => h.ok
  | .mapRole h _ _ => h.ok
  | .mapVacant h => h.ok
  | .watchArm h _ => h.ok
  | .watchCancel h _ => h.ok
  | .digestRotate h => h.ok
  | .dictRead h _ _ _ => h.ok
  | .dictDescribe h _ _ _ => h.ok
  | .sessionStart | .sessionEnd | .start _ | .accelReady _ _ _ | .entropyHealthFail | .drbgReseed | .keyDerivation _
  | .replace _ _ _ | .replaceComplete _ | .destroy _ | .keyExport _ _ | .keyImport _ _ _ | .annealCycle _
  | .usageReport _ _ _ _ | .keyUsageNotice _ | .keyUsageLimit _ | .vaultComplementMismatch _ | .chJob _ _ _ _ | .chJobDone _
  | .chSave _ _ _ | .chExport _ _ _ _ | .chRestoreInternal _ _ _ _ | .chRestoreBlob _ _ _ _ | .chAttach _ _ _ _ _
  | .chDetach _ _ _ | .coreParityMispredict _ _ | .coreKatTest _ _ _ | .bucketRefill | .pageAccessViolation _ _
  | .hybridSign _ _ _ _ | .hybridVerify _ _ _ _ _ _ _ | .hybridKeyAgreement _ _ _ _ | .lcNonce | .nonceExpire | .lcRequest _
  | .lcToken _ _ _ | .debugRequest _ | .challengeExpire | .debugGrant _ | .debugScrubDone | .presenceEdge
  | .presenceWindowEnd | .protectViolation _ _ _ | .identityEndorsement _ | .domainCreate _ | .domainJoin _ _ _
  | .joinHello _ _ _ _ _ | .joinChallenge _ _ _ _ _ | .joinEvidence _ _ | .joinAdmit _ _ _ _ _ _ _ _ _ | .joinDone _ _ _ _
  | .joinRefuse _ | .joinTimeout _ | .policyUpdate _ | .hostMember _ | .hallmarkNonce _ | .domainLeave _
  | .memberDownReceived _ | .memberLeave _ | .epochCoalesceExpire | .epochAgeLimit | .epochPrepare _ _ | .epochShare _ _ _
  | .epochKey _ _ _ _ | .epochAck _ _ | .epochCommit _ _ | .epochAckTimeout _ | .epochGraceEnd | .memberUpdate _ _ _ _ _
  | .anchorBeatTimer | .anchorBeat _ | .anchorState _ _ _ _ _ | .anchorProbe _ | .anchorSilence _ | .claimWaitExpire
  | .anchorClaim _ _ _ | .domainTermStale _ | .roleHandoff _ _ _ _ | .stateManifest _ _ _ _ _ _ _ | .getVersion
  | .getCapabilities _ | .negotiateAlgorithms _ | .keyExchange _ _ _ | .finish _ _ | .updateKey | .updateAllKeys
  | .verifyNewKey | .heartbeat | .endSession | .getHallmark _ | .ackSend _ | .ack _ _ | .retransmitTimer _ _
  | .keyMissFill _ _ _ _ | .flowEpochSwitch _ | .flowKeyRetire _ | .fence _ _ _ _ | .fenceTimeout _ _ | .nodeBinding _ _ _
  | .regionRotate _ | .rotationSweep _ | .scrubDone _ | .scrubWriteFail _ _ | .hostInbound _ | .hostRecordArrive _ _ _
  | .hostOutbound _ _ | .rekeyDue | .atsInvalidate _ _ _ | .atsCompletion _ _ _ | .prgResponse _ _ _ | .pendingPieceSeal _ _
  | .translationWalk _ _ | .pieceRetire _ _ _ | .faultHoldLimit _ _ | .alloc _ | .free _ | .objectRelease _ _
  | .eventCreate _ | .eventFree _ | .offerExpire _ | .tenantSlices _ | .arrayClean | .arrFaultevt _ _ _ | .arrayCleanTimeout
  | .arrayRecoveryTimeout | .deferralExpire _ | .deadlineWithdraw _ | .throttleWindow | .capacityChange | .trefLock
  | .trefLoss | .tpulseEdge _ | .tpulseMissing | .tpulseSilence | .virtualEdge | .timeLo | .castStageAck _ _ | .castFire _
  | .commitAt _ | .freezeAt _ | .clkdStop _ | .clkdResume _ | .errorLatch _ _ _ _ _ | .errorClose _ | .handlerDeadlineMiss _
  | .lockstepMismatch | .engineReset _ _ | .partitionReset _ | .tcuRestart _ | .chipWarmReset _ | .noticeRepeat
  | .quench _ _ _ | .quenchRelease _ | .hbTcu _ _ _ | .hbMgmt _ _ _ | .tcuBeatTimeout5ms | .tcuBeatTimeout50ms
  | .mgmtHbTimeout | .mgmtHbNotArmed | .startBeatTimeout | .sentinelSilent _ | .resetRequest _ | .fwImage _ | .afwCtrlGo _ _
  | .mapFill _ _ | .spareCheckDone _ | .trainSave _ | .trainLoad | .trainData _ | .retrain _ | .healthPlan _ | .creepRecord
  | .vholdSample _ | .pfailN _ | .leadboxRecord | .nextComplementMismatch | .summaryFold | .lbxCursorHi _ | .lbxWindowAuto
  | .lbxVerify | .lbxNextLo | .lbxRecord | .lbxCursor _ | .freezeIn | .frzTimeLo | .liveCounterLo _ | .watchTimeout _
  | .dumpEnable _ | .initiateRead _ _ _ _ _ | .initiateWrite _ _ _ _ _ _ _ | .initiateDescribe _ _ _ _ | .mdtAck _ _ _
  | .mdtAbort _ _ _ | .transferTimeout _ _ | .addressAssign _ _ | .statusFrame | .mgtBusoff | .configStore | .busOffRecovery
  | .recordLimitWindow => true

end Sys2Proof
end

