-- ==== Sys2Proof/Certificates/Slice0/Obligations.lean ====
section
/-!
DEFINITION. Obligations.lean: what is claimed of the model, each statement naming the rules of spec/ that it formalises.
-/
open Sys2Proof Sys2Proof.Machine

/-- For every command c, every rest of the queue and every state, a step with c at the front of the queue is exec of c on the
state whose queue is the rest. The queue is the model's own (log 1). -/
def Obligations.StepRunsTheFrontCommand : Prop :=
  ∀ (c : Instr) (rest : List Instr) (s : State), step { s with pending := c :: rest } = exec c { s with pending := rest }

/-- The model's choice of log 9: with an empty queue a step answers the state after one tick; with a session open and TREF locked
the tick moves session time by 1 ms at the rate in force (R415, R417) and, while the unit is not up, changes nothing else; on
a unit that is up it then serves the waiting key derivations and public-key requests and settles the resets that waited for
time (R102, R150, R300, R357); with no session open nothing changes. -/
def Obligations.IdleStepLetsTimePass : Prop :=
  (∀ s : State, s.pending = [] → step s = .next (tick s)) ∧
  (∀ s : State, s.pow.sessionOpen = false → s.pending = [] → step s = .next s) ∧
  (∀ s : State, s.pow.sessionOpen = true → s.time.trefLocked = true → s.pending = [] → s.up = false →
    step s = .next { s with time.now := s.time.now + Int.toNat ((2 ^ 32 + s.time.rate) * 1000000) }) ∧
  (∀ s m : State, s.pow.sessionOpen = true → s.time.trefLocked = true → s.pending = [] → s.up = true →
    m = { s with time.now := s.time.now + Int.toNat ((2 ^ 32 + s.time.rate) * 1000000) } →
    step s = .next (settleResets ((List.range 4).foldl settleClose (pkServe (serveQueue 256 m)))))

/-- No command stops the machine, and none changes which commands wait (log 1, log 11): for every command and every state exec
answers a next state with the same queue. -/
def Obligations.EveryCommandCompletesAndKeepsTheQueue : Prop :=
  ∀ (c : Instr) (s : State), ∃ t, exec c s = .next t ∧ t.pending = s.pending

/-- R153, R155, R162, R163, R167: from every state in which both copies of the life-cycle record are valid (one of the six codes,
every complement its inverse), whatever command a step takes, both copies are valid after it. No transition leads to a code
outside R151. -/
def Obligations.LifeCycleRecordStaysValid : Prop :=
  ∀ s t : State, s.recordValid → step s = .next t → t.recordValid

/-- The unit leaves wafer sort with both copies valid in state BLANK; that the machine after reset is such a unit is the model's
choice (log 12). -/
def Obligations.LifeCycleRecordValidAtReset : Prop :=
  State.reset.recordValid ∧ State.reset.lc.primary.state = 0x96A5 ∧ State.reset.pending = []

/-- R153, R162, R163, R167: every command but LC_REQUEST, LC_TOKEN, DEBUG_GRANT (the three also as dictionary writes), START,
SESSION_START and SESSION_END leaves both copies of the life-cycle record and the used tokens as they are. -/
def Obligations.OnlyLifeCycleCommandsWriteTheRecord : Prop :=
  ∀ (c : Instr) (s t : State), writesRecord c = false → exec c s = .next t →
    t.lc.primary = s.lc.primary ∧ t.lc.mirror = s.lc.mirror ∧ t.lc.tokensUsed = s.lc.tokensUsed

/-- R7, R415, R417, R418: session time and the state of the time base change only with TREF_LOCK, TREF_LOSS, TPULSE_EDGE,
TPULSE_MISSING, TPULSE_SILENCE, SESSION_START and SESSION_END (and with the tick of an idle step). -/
def Obligations.OnlyTimeCommandsMoveSessionTime : Prop :=
  ∀ (c : Instr) (s t : State), movesTime c = false → exec c s = .next t →
    t.time.now = s.time.now ∧ t.time.state = s.time.state

/-- R7, R54, R458, R493: whether a session is open, whether the IOD and CDIE rails are up, and the session identifier change only
with SESSION_START, SESSION_END, START and a failing supply (PFAIL_N): no request from a host, a member or the network
changes them. -/
def Obligations.OnlySessionsAndStartsChangeRails : Prop :=
  ∀ (c : Instr) (s t : State), changesRails c = false → exec c s = .next t →
    t.pow.sessionOpen = s.pow.sessionOpen ∧ t.pow.iod = s.pow.iod ∧ t.pow.cdieA = s.pow.cdieA ∧ t.pow.cdieB = s.pow.cdieB ∧ t.pow.sessionId = s.pow.sessionId

/-- R46, R47, R445, R460: the good members of every cipher pool change only with a parity mispredict, a known-answer test, an
engine reset, a chip warm reset, the last write-back of a pewter that resets (POOL_WACK, R300), a start or the ends of a
session. -/
def Obligations.OnlyTestsAndResetsChangePools : Prop :=
  ∀ (c : Instr) (s t : State), changesPools c = false → exec c s = .next t → t.pools = s.pools

/-- R92, R178, R541, R542, R163: the stored operator configuration changes only with a store or an erasure (CONFIG_STORE,
ADDRESS_ASSIGN, a dictionary write, a start, the ends of a session), the PUF helper data only with a start and the ends of a
session, and the stored endorsement only with its own write, a start and the ends of a session. -/
def Obligations.OnlyTheseCommandsChangeStoredSettings : Prop :=
  ∀ (c : Instr) (s t : State), exec c s = .next t →
    (storesConfig c = false → t.dict.copies = s.dict.copies) ∧
    (writesHelper c = false → t.vault.helperA = s.vault.helperA ∧ t.vault.helperB = s.vault.helperB) ∧
    (writesEndorsement c = false → t.dom.endorsement = s.dom.endorsement)

/-- R151: the six codes have weight 8, any two differ in at least 6 bits, each differs from 0x0000 and 0xFFFF in 8 bits, and a
copy whose STATE and STATE_INV are not bitwise complements is not valid. -/
def Obligations.LifeCycleCodesAreFarApart : Prop :=
  let weight (b : BitVec 16) : Nat := ((List.range 16).filter fun i => b.getLsbD i).length
  lcCodes = [0x96A5, 0x6C3A, 0x39C6, 0xC35A, 0x5F05, 0xA0F5] ∧
  (∀ a ∈ lcCodes, weight a = 8 ∧ weight (a ^^^ 0) = 8 ∧ weight (a ^^^ 0xFFFF) = 8) ∧
  (∀ a ∈ lcCodes, ∀ b ∈ lcCodes, a ≠ b → 6 ≤ weight (a ^^^ b)) ∧
  (∀ c : LcCopy, c.stateInv ≠ ~~~c.state → c.valid = false)

/-- R501: the area has 32,768 slots; record n below 4,096 stands in head slot n, and a later one in tail slot 4,096 + ((n -
4,096) mod 28,672) at lap (n - 4,096) div 28,672. Two records share a slot only when both are of the tail and their numbers
differ by a multiple of 28,672: a head slot is written once, and a record stays readable until the record 28,672 numbers
later. -/
def Obligations.RecordSlotAndLap : Prop :=
  (∀ n : Nat, lbxSlotOf n < 32768) ∧
  (∀ n : Nat, n < 4096 → lbxSlotOf n = n ∧ lbxSlotOf n < 4096) ∧
  (∀ n : Nat, 4096 ≤ n → lbxSlotOf n = 4096 + (n - 4096) % 28672 ∧ lbxLapOf n = (n - 4096) / 28672) ∧
  (∀ m n : Nat, m < n → lbxSlotOf m = lbxSlotOf n → 4096 ≤ m ∧ m + 28672 ≤ n ∧ (n - m) % 28672 = 0)

/-- R297: writing bytes to tier A changes exactly the bytes from the address on, a scrub of a 64 MiB page makes its bytes read 0
and leaves every other byte, and both keep the canonical form of the memory; that an unwritten byte reads 0 follows the scrub
of start-up (log 15). -/
def Obligations.TierAReadAfterWrite : Prop :=
  (∀ (s : State) (a : Nat) (b : Bytes) (i : Nat), i < b.length → tierARead (tierAWrite s a b) (a + i) = b.getD i 0) ∧
  (∀ (s : State) (a : Nat) (b : Bytes) (j : Nat), j < a ∨ a + b.length ≤ j → tierARead (tierAWrite s a b) j = tierARead s j) ∧
  (∀ (s : State) (p j : Nat), tierARead (tierAScrub s p) j = if j / 2 ^ 26 = p then 0 else tierARead s j) ∧
  (∀ (s : State) (a p : Nat) (b : Bytes), Memory.wf s.tierA = true →
    Memory.wf (tierAWrite s a b).tierA = true ∧ Memory.wf (tierAScrub s p).tierA = true)

/-- R7, R54, R415, R505: SESSION_START opens a session at session time 0 in time state 1 with both sentinels running and NEXT
found by the scan, and keeps the leadbox, the life-cycle record and the ingots; SESSION_END leaves no key and no tier-A byte
and keeps NVM. R458 to R461: START with good entropy, outside a hold in reset, counts the start and ends at VTC ready (phase
4) or in the recovery loader (phase 1), or stops where no draw gave a nonzero session identifier (R7, log 4); ACCEL_READY
after VTC ready moves the start to phase 5. -/
def Obligations.SessionAndStartComplete : Prop :=
  (∀ s : State, s.pow.sessionOpen = false →
    ∃ t, exec .sessionStart s = .next t ∧ t.pow.sessionOpen = true ∧ t.time.now = 0 ∧ t.time.state = 1 ∧
      t.time.trefLocked = true ∧ t.err.sentA = true ∧ t.err.sentB = true ∧ t.lbx.ready = true ∧
      t.lbx.nextInv = ~~~t.lbx.next ∧ t.lbx.slots = s.lbx.slots ∧ t.lc.primary = s.lc.primary ∧
      t.lc.mirror = s.lc.mirror ∧ t.health.ingots = s.health.ingots ∧ t.vault.slots = []) ∧
  (∀ s : State, s.pow.sessionOpen = true →
    ∃ t, exec .sessionEnd s = .next t ∧ t.pow = Power.reset ∧ t.vault.slots = [] ∧ t.tierA = [] ∧
      t.lbx.slots = s.lbx.slots ∧ t.lc.primary = s.lc.primary ∧ t.lc.mirror = s.lc.mirror ∧
      t.health.ingots = s.health.ingots ∧ t.dict.copies = s.dict.copies) ∧
  (∀ (s : State) (e : StartEnv), s.pow.sessionOpen = true → s.pow.heldInReset = false → e.entropyOk = true →
    ∃ t, exec (.start e) s = .next t ∧
      t.boot.starts = (if s.boot.starts = 255 then 255 else s.boot.starts + 1) ∧
      (t.boot.phase = 4 ∨ t.boot.phase = 1 ∧ t.boot.loader = true ∨
        s.pow.sessionId = 0 ∧ t.pow.sessionId = 0 ∧ t.boot.phase = 0 ∧ t.vault.entropyOk = false)) ∧
  (∀ (s : State) (cores lanes : List Nat) (tr : List (BitVec 32)), s.up = true → s.boot.phase = 4 →
    ∃ t, exec (.accelReady cores lanes tr) s = .next t ∧ t.boot.phase = 5)

/-- R97, R100, R101, R102: with the queue empty and budget left, a request that matches its row of the tree, for a key not held
whose parent is held and whose partition has room, by an engine with the USE bit, puts the key derived from the parent with
the row's label, context and length into the key's slot. R107: a replacement whose key has the expected check value is staged
beside the old key; when the engines have switched, its completion makes the staged key the slot's key. R109: a destroyed key
is in no slot. R104, R112: an allowed export gives out the key's blob. R105: a blob that opens, with room in the slice's
share, fills a service slot with its key. -/
def Obligations.VaultKeysComeAndGo : Prop :=
  (∀ (s : State) (r : DeriveReq) (p q : KeyPath) (row : TreeRow) (v : BitVec 512),
    vaultServes s = true → s.vault.queue = [] → reqReady s r = true → reqTenant r = none →
    reqPath s r = some p → (∀ n k, p ≠ .chan n k) → treeRow s p = some row → row.parent = some q → reqOk s r p = true →
    pathLive s p = true → findKey s p = none → (findKey s q).isSome = true → deriveFrom s q row.label row.ctx row.len = some v →
    slotRoom s p row.part 32 = true → flowRoom s p = true → r.engine < 8 → bit (attrOf s q row.use).toNat r.engine = true →
    ∃ t, exec (.keyDerivation r) s = .next t ∧ t.vault.result = cOk ∧ keyWide t p = some v) ∧
  (∀ (s : State) (p : KeyPath) (src : ReplaceSrc) (want : BitVec 32) (k : KeySlot) (n : FreshKey),
    s.pow.iod = true → s.vault.rootState = 2 → s.pow.quenched = false → s.vault.entropyOk = true → findKey s p = some k →
    (s.vault.replacing.any fun r => r.path == p) = false → freshKey s k src = some n → kcvOf k.width n.value = want →
    ∃ t r, exec (.replace p src want) s = .next t ∧ t.vault.result = cOk ∧ t.vault.replacing = r :: s.vault.replacing ∧
      r.path = p ∧ r.key.read = some n.value ∧ r.attr = n.attr ∧ r.items = n.items) ∧
  (∀ (s : State) (p : KeyPath) (r : Replacing) (k : KeySlot),
    s.pow.iod = true → s.pow.quenched = false → (switchReg s p).vault.replacing.find? (fun r => r.path == p) = some r →
    findKey (switchReg s p) p = some k → ((findReg (switchReg s p) p).any fun g => g.shadow.isSome) = false → r.queued = [] →
    ∃ t, exec (.replaceComplete p) s = .next t ∧ keyWide t p = r.key.read ∧
      t.vault.replacing = (switchReg s p).vault.replacing.filter fun r => r.path != p) ∧
  (∀ (s : State) (p : KeyPath), s.pow.iod = true → s.pow.quenched = false →
    ∃ t, exec (.destroy p) s = .next t ∧ t.vault.result = cOk ∧
      ((∀ n, p ≠ .slcmem n) ∨ (∀ q < 4, (tgetD s.mem.ports q Pewter.reset).rotQueue = []) → findKey t p = none)) ∧
  (∀ (s : State) (p q : KeyPath) (wrapper : Nat) (k : KeySlot) (v own : Key),
    s.pow.iod = true → s.vault.rootState = 2 → s.pow.quenched = false → findKey s p = some k → wrapperPath wrapper = some q →
    neverOut p = false → bit k.attr.toNat 15 = false → bit k.attr.toNat (if wrapper = 14 then 14 else 13) = true →
    key256 s p = some own → wrapRefused s q = none → key256 s q = some v →
    ∃ t, exec (.keyExport p wrapper) s = .next t ∧ t.vault.result = cOk ∧
      t.out = s.out ++ [.wrapped (wrapBlob (reportKey s p) ((findKey (reportKey s p) p).getD k) own wrapper v)]) ∧
  (∀ (s : State) (slice ctx used : Nat) (b : WrappedBlob) (k : Key),
    s.up = true → sliceInService s slice = true → (ctxAt s ctx).slice = slice → unwrap s 3 b = some (k, used) →
    s.vault.entropyOk = true → slotRoom s (.chan slice (freeSlotIn s 3)) 3 slice = true →
    ∃ t, exec (.keyImport slice ctx b) s = .next t ∧ t.vault.result = cOk ∧
      keyWide t (.chan slice (freeSlotIn s 3)) = some (k.setWidth 512))

/-- R88: a failed entropy test stops the random source and raises S3. R87: a reseed that is due starts the request count and the
time again and changes nothing else. R110, R111: an anneal cycle that is due, with the random source good, keeps every key's
value and counts the cycle. R112: a usage report, after the engine's own report, raises the key's counts. R112, R113: a key
at its notice is marked and recorded and its class's renewal starts (a flow's next key, a region's rotation, a bounce key's
event, a page key's replacement); one at its limit is marked with an S1 record. R114, R118: a mismatch is counted with its
place, has the outcome of its kind, and beyond 16 in a second is S3. -/
def Obligations.VaultUpkeepCompletes : Prop :=
  (∀ s : State, s.pow.sessionOpen = true → s.pow.iod = true →
    exec .entropyHealthFail s = .next (raiseS3 { s with vault.entropyOk := false } uVault 88 0)) ∧
  (∀ s : State, s.pow.iod = true → s.vault.seeded = true → s.vault.entropyOk = true →
    (2 ^ 20 ≤ s.vault.requests ∨ s.vault.reseedAt + 10000000000 ≤ s.ns) →
    exec .drbgReseed s = .next { s with vault.requests := 0, vault.reseedAt := s.ns }) ∧
  (∀ (s : State) (d : Nat), s.pow.iod = true → s.pow.quenched = false → s.vault.seeded = true → s.vault.entropyOk = true →
    s.vault.annealAt + s.vault.annealPeriod * 1000000 ≤ s.ns →
    ∃ t, exec (.annealCycle d) s = .next t ∧ t.vault.cycles = s.vault.cycles + 1 ∧ t.vault.annealAt = s.ns ∧
      t.vault.missedCycles = 0 ∧ t.vault.lastCycleMs = min d 20 ∧
      (t.vault.slots.map fun k => (k.path, k.value)) = s.vault.slots.map fun k => (k.path, k.value)) ∧
  (∀ (s : State) (e : Nat) (p : KeyPath) (items bytes : Nat), s.pow.iod = true → s.pow.quenched = false →
    exec (.usageReport e p items bytes) s =
      .next (modKey (reportKey s p) p fun k => k.used (max k.usedItems items) (max k.usedBytes bytes))) ∧
  (∀ (s : State) (p : KeyPath) (k : KeySlot) (ni li nb lb : Nat), s.up = true → findKey s p = some k →
    keyLimits p = some (ni, li, nb, lb) → k.notice = false → (ni ≤ k.usedItems ∨ nb ≤ k.usedBytes) →
    let u := latch (modKey s p fun k => { k with notice := true })
      { unit := uVault, cls := 0, cause := 113, kind := 0x0061, detail := some (keyDetail s 0 p) }
    (∀ peer de fe, p = .flow peer de fe → exec (.keyUsageNotice p) s = .next (flowNotice u peer de fe)) ∧
    (∀ r g, p = .region r g → exec (.keyUsageNotice p) s =
      .next (queueRotation u r ((tget u.mem.regions r).map (·.ownerKind) |>.getD 0))) ∧
    (∀ sl d g, p = .bounce sl d g → exec (.keyUsageNotice p) s = .next (rekeyEvent u (if d = 0 then 1 else 2))) ∧
    (∀ n v, p = .page n → freshKey { u with vault.pageGen := genNext u.vault.pageGen n } k .derived = some v →
      exec (.keyUsageNotice p) s = .next
        (startReplace { u with vault.pageGen := genNext u.vault.pageGen n } p .derived (kcv (v.value.setWidth 256)))) ∧
    ((p = .wrap ∨ p = .oper ∨ (∃ a, p = .store a) ∨ ∃ a b, p = .chan a b) → exec (.keyUsageNotice p) s = .next u)) ∧
  (∀ (s : State) (p : KeyPath) (k : KeySlot) (ni li nb lb : Nat), s.up = true → findKey s p = some k →
    keyLimits p = some (ni, li, nb, lb) → k.limit = false → (li ≤ k.usedItems ∨ lb ≤ k.usedBytes) →
    exec (.keyUsageLimit p) s = .next (latch (modKey s p fun k => { k with limit := true })
      { unit := uVault, cls := 1, cause := 113, kind := 0x0061, detail := some (keyDetail s 1 p) })) ∧
  (∀ (s : State) (w : MismatchOf), s.pow.iod = true → s.pow.quenched = false → s.vault.seeded = true →
    let u := bumpUnit (mismatchOutcome (countMismatch s (mismatchPlace s w)) w) uVault 12 1
    exec (.vaultComplementMismatch w) s = .next (if 16 < limCount u .vaultMismatch then raiseS3 u uVault 114 0 else u))

/-- An accepted CHANNEL_ALLOCATE for a live context gives it the first free channel of its slice's part, blank, with the
context's slice and generation, and answers its number (log 59); CHANNEL_FREE leaves the channel listed nowhere. A CH_JOB on
an idle channel of its own heads the channel with its registers loaded; one job of a mode without a tag to compare, whose
blocks are taken, with its key loaded, valid parameters, tier A granted and budget left ends with code OK, one job counted
and the running message kept unless the job is final. On an idle channel CH_SAVE puts the channel's stream into the first
free record and clears key and message, CH_EXPORT answers OK, CH_RESTORE (internal or blob) puts the stream's key and message
back, CH_ATTACH attaches a vault key that has the channels' USE bit, and CH_DETACH clears key and message. -/
def Obligations.CipherChannelsDoTheirJobs : Prop :=
  (∀ (s : State) (h : MbxHdr) (ctx n : Nat), s.takesMailbox h (Config.chanOpcode 0) true (le 2 ctx) →
    let u := mbxTaken s h
    (ctxAt u ctx).mode = .live → (chanPart u (ctxAt u ctx).slice).find? (fun n => !(chanAt u n).allocated) = some n →
    exec (.channelAllocate h ctx) s = .next (mbxAnswer
      (setChan u n { chanBlank n with allocated := true, slice := (ctxAt u ctx).slice, ctx := ctx, gen := (ctxAt u ctx).gen })
      h (Config.chanOpcode 0) cOk (le 1 n))) ∧
  (∀ (s : State) (h : MbxHdr) (ch : Nat), s.takesMailbox h (Config.chanOpcode 1) true (le 1 ch) → ch < 64 →
    (chanAt s ch).allocated = true →
    ∃ t, exec (.channelFree h ch) s = .next t ∧ tget t.cipher.channels ch = none) ∧
  (∀ (s : State) (ch ctx gen : Nat) (b : CipherBody) (j : CipherJob), s.channelIdle ch ctx gen →
    s.brings ch ctx gen .job b = some j →
    exec (.chJob ch ctx gen b) s = .next (s.heads ch j) ∧ (chanAt (s.heads ch j) ch).queue = [j]) ∧
  (∀ (s : State) (ch : Nat) (j : CipherJob) (p : KeyPath) (k : Shares) (v : BitVec 512), s.up = true → ch < 64 → (chanAt s ch).queue = [j] →
    j.op = .job → (chanAt s ch).left = 0 → (chanAt s ch).key = some p → (chanAt s ch).loaded = some k → k.read = some v →
    (chanAt s ch).refusal = none → jobOk j.body (chanAt s ch).message = true → jobVerdict s j = none →
    isVerify (cMode j.body) = false →
    ∃ t, exec (.chJobDone ch) s = .next t ∧ (chanAt t ch).queue = [] ∧ (chanAt t ch).code = cOk ∧
      (chanAt t ch).done = (chanAt s ch).done + 1 ∧ (chanAt t ch).loaded = none ∧
      (chanAt t ch).message.isNone = cFinal j.body) ∧
  (∀ (s : State) (ch ctx gen i : Nat) (j : CipherJob), s.channelIdle ch ctx gen →
    s.brings ch ctx gen .save (noBody 0 0) = some j →
    (s.cipher.store.filter fun r => r.2.slice == chanShare s ch).length < storePart s (chanShare s ch) →
    ((List.range 1024).find? fun i => (tget s.cipher.store i).isNone) = some i →
    ∃ t, exec (.chSave ch ctx gen) s = .next t ∧ tget t.cipher.store i = some (streamOf s ch) ∧
      t.cipher.nextRecord = i ∧ (chanAt t ch).key = none ∧ (chanAt t ch).message = none ∧ (chanAt t ch).code = cOk) ∧
  (∀ (s : State) (ch ctx gen dst : Nat) (record : Option Nat) (j : CipherJob) (st : SavedState) (k : Key),
    s.channelIdle ch ctx gen → s.brings ch ctx gen (.exportTo record) (noBody 0 dst) = some j →
    exported s ch j record = some st → tierAVerdict s j.ctx j.gen j.body.dst 168 true = none →
    (findKey s .wrap).isSome = true → wrapRefused s .wrap = none → key256 s .wrap = some k →
    ∃ t, exec (.chExport ch ctx gen ⟨dst, record⟩) s = .next t ∧ (chanAt t ch).code = cOk ∧ (chanAt t ch).queue = [] ∧
      (chanAt t ch).key = (chanAt s ch).key) ∧
  (∀ (s : State) (ch ctx gen record : Nat) (j : CipherJob) (r : SavedState) (p : KeyPath), s.channelIdle ch ctx gen →
    s.brings ch ctx gen (.restoreRecord record) (noBody 0 0) = some j → tget s.cipher.store record = some r →
    (chanAt s ch).key = none → (chanAt s ch).message = none → r.slice = chanShare s ch → r.ctx = ctx → r.gen = j.gen →
    r.key = some p → (findKey s p).isSome = true → keyKcv s p = r.kcv → keyUsed s p = r.used →
    ∃ t, exec (.chRestoreInternal ch ctx gen record) s = .next t ∧ (chanAt t ch).code = cOk ∧
      tget t.cipher.store record = none ∧ (chanAt t ch).key = some p ∧ (chanAt t ch).message = r.message) ∧
  (∀ (s : State) (ch ctx gen : Nat) (b : ChanBlob) (j : CipherJob) (k : Key) (pt : Bytes) (ks : KeySlot),
    s.channelIdle ch ctx gen → s.brings ch ctx gen (.restoreBlob b) (noBody 0 0) = some j → key256 s .wrap = some k →
    gcmOpen k b.iv (chanBlobHead b) b.body b.tag = some pt → b.format = 2 → b.reserved = 0 → (chanAt s ch).key = none →
    (chanAt s ch).message = none → (s.vault.slots.find? fun k => k.part == 3 && k.slot == b.keySlot) = some ks →
    attached s ks.path = false → keyKcv s ks.path = b.kcv → keyUsed s ks.path = fld pt 0 8 →
    b.slice = (chanAt s ch).slice → b.ctxId = ctx → b.ctxGen = j.gen →
    ∃ t, exec (.chRestoreBlob ch ctx gen b) s = .next t ∧ (chanAt t ch).code = cOk ∧
      (chanAt t ch).key = some ks.path ∧ (chanAt t ch).message = stateOf (pt.drop 8)) ∧
  (∀ (s : State) (ch ctx gen slot : Nat) (label : BitVec 256) (j : CipherJob) (k : KeySlot), s.channelIdle ch ctx gen →
    s.brings ch ctx gen (.attach slot label) (noBody 0 0) = some j → attachKey s ch slot = some k →
    bit k.attr.toNat 4 = true → attached s k.path = false →
    ∃ t, exec (.chAttach ch ctx gen slot label) s = .next t ∧ (chanAt t ch).key = some k.path ∧
      (chanAt t ch).message = none ∧ (chanAt t ch).code = cOk) ∧
  (∀ (s : State) (ch ctx gen : Nat) (j : CipherJob), s.channelIdle ch ctx gen →
    s.brings ch ctx gen .detach (noBody 0 0) = some j →
    ∃ t, exec (.chDetach ch ctx gen) s = .next t ∧ (chanAt t ch).key = none ∧ (chanAt t ch).message = none ∧
      (chanAt t ch).code = cOk ∧ (chanAt t ch).done = (chanAt s ch).done + 1)

/-- A page access violation is counted, saturating at FFFFH, and noticed as S0 cause 137. A parity mispredict is counted and maps
the core out of its pool. A known-answer test of the next good core moves the rotation past it, and a failing one also maps
it out. BUCKET_REFILL refills the gate's share of every owner. RECORD_LIMIT_WINDOW drops the ended windows of the recorded
limits and writes their records. For a requester whose turn it is, HYBRID_SIGN with the identity held and the random source
good emits the signature and answers OK; HYBRID_VERIFY of a key and a signature of the right lengths, the key's point valid,
answers OK exactly when both parts verify; HYBRID_KEY_AGREEMENT that initiates keeps its fresh secrets under the destination
key, emits its public values and answers OK. (The shares follow log entries of the model where chapter 04 names only rates.) -/
def Obligations.CoresBucketsAndKeyEngineComplete : Prop :=
  (∀ (s : State) (page master : Nat), s.up = true →
    exec (.pageAccessViolation page master) s = .next (notice
      { s with cipher.violations := min (s.cipher.violations + 1) 0xFFFF } 0 137 uCipher (page * 2 ^ 32 + master))) ∧
  (∀ (s : State) (unit pool core : Nat), s.up = true → core < poolFitted unit pool →
    exec (.coreParityMispredict unit ⟨pool, core⟩) s = .next (loseCore (bumpUnit s unit 15 1) unit pool core) ∧
    ((poolAt s unit pool).out.contains core = false → ∀ t, exec (.coreParityMispredict unit ⟨pool, core⟩) s = .next t →
      t.pools = tset s.pools (unit * 32 + pool) { poolAt s unit pool with out := insertN (poolAt s unit pool).out core })) ∧
  (∀ (s : State) (unit pool c : Nat), s.up = true → nextTested s unit pool = some c →
    let u := setPool s unit pool { poolAt s unit pool with rotation := (c + 1) % poolFitted unit pool }
    exec (.coreKatTest unit pool true) s = .next u ∧ exec (.coreKatTest unit pool false) s = .next (loseCore u unit pool c)) ∧
  (∀ s : State, s.up = true → ∃ t, exec .bucketRefill s = .next t ∧
      t.gate.sealLevel = refillAll s ⟨fun w => w, fun w => enginePart s uGate 0 (scaled s w (gateRate s w)), 1⟩
        s.gate.sealLevel) ∧
  (∀ s : State, s.up = true → exec .recordLimitWindow s = .next ((s.err.limits.filter (windowEnded s)).foldl windowRecord
      { s with err.limits := s.err.limits.filter fun l => !windowEnded s l })) ∧
  (∀ (s : State) (cls slice : Nat) (msg : Bytes) (k : HybKey), s.pkTakes cls slice (.sign msg false) → identity s = some k →
    s.vault.entropyOk = true →
    ∃ t, exec (.hybridSign cls slice msg false) s = .next t ∧ t.vault.result = cOk ∧
      t.out = s.out ++ [.signature cls slice (hybSign k msg (s.drawn 384) (s.drew.drawn 256))] ∧
      t.cipher.pkDone = s.cipher.pkDone + 1) ∧
  (∀ (s : State) (cls slice : Nat) (key : HybKey) (msg : Bytes) (sig : HybSig),
    s.pkTakes cls slice (.verify 2689 4723 key msg sig) → pointValid (hybPoint key) = true →
    ∃ t, exec (.hybridVerify cls slice 2689 4723 key msg sig) s = .next t ∧
      t.vault.result = (if hybOk key msg sig then cOk else cSignatureInvalid) ∧ t.cipher.pkDone = s.cipher.pkDone + 1 ∧
      t.out = s.out) ∧
  (∀ (s : State) (cls slice : Nat) (dest : KeyPath), s.pkTakes cls slice (.agree .initiate dest) → s.vault.entropyOk = true →
    ∃ t, exec (.hybridKeyAgreement cls slice .initiate dest) s = .next t ∧ t.vault.result = cOk ∧
      t.cipher.agreed = (dest, s.drawn 384, s.drew.drawn 512) :: s.cipher.agreed.filter (fun a => a.1 != dest) ∧
      t.out = s.out ++ [.agreed (Config.ecPoint (s.drawn 384)) (Config.kemKey (s.drew.drawn 512))])

/-- While a session is open and the random source good LC_NONCE holds a fresh nonce with the session time and answers it; the
nonce voids after 60 s. A signed request that passes every check, and a token whose digest matches an unused entry, write
both copies of the record with the target state, the entry actions pending and the sequence number advanced, and leave a chip
warm reset due; the request uses its nonce up and the token is marked used. A debug request that passes leaves the challenge
with its scope, nonce and time; a grant that passes counts one open, drops the keys below the session key and leaves the
scrub pending; DEBUG_SCRUB_DONE then empties tier A and opens the scope. An unanswered challenge voids after 600 s.
PRESENCE_EDGE turns the pin and marks the assertion at the session time, and it ends 30 s after a falling edge. An access
that the protection matrix refuses is counted up to 7FFFH, names its master and range, and a refused read returns zeros. -/
def Obligations.LifeCycleCommandsComplete : Prop :=
  (∀ s : State, s.pow.sessionOpen = true → s.vault.entropyOk = true → exec .lcNonce s = .next (answer { s.drew with
    lc.nonce := some (s.drawn 256, s.ns) } 0x81 0x2000 3 0 cOk 0 (be 32 (s.drawn 256 : BitVec 256).toNat))) ∧
  (∀ (s : State) (n : BitVec 256) (t : Nat), s.lc.nonce = some (n, t) → t + 60000000000 ≤ s.ns →
    exec .nonceExpire s = .next { s with lc.nonce := none }) ∧
  (∀ (s : State) (r : SignedReq), s.pow.sessionOpen = true → r.kind = 1 →
    (signersOf s.lc.code r.toCode).contains r.signer = true →
    reqCheck s r true (nonceNow s) 0 true = none →
    ∃ t, exec (.lcRequest r) s = .next t ∧ t.lc.mirror = t.lc.primary ∧ t.lc.primary.state = r.toCode ∧
      t.lc.primary.stateInv = ~~~r.toCode ∧ t.lc.primary.flags = 1 ∧ t.lc.primary.seq = s.lc.primary.seq + 1 ∧
      t.lc.primary.operBinding = (if r.toCode = lcProvisioned then r.newBinding else s.lc.primary.operBinding) ∧
      t.lc.code = s.lc.code ∧ t.lc.nonce = none ∧ t.lc.result = 1 ∧ t.lc.busy = true ∧ t.pow.pendingChip = some resetByLc) ∧
  (∀ (s : State) (target : BitVec 16) (tok : BitVec 128) (i : Nat), s.pow.sessionOpen = true → lcEarly s true true = none →
    tokenOf s.lc.code target = some i → s.lc.tokensUsed.contains i = false →
    Config.sha384 (be 16 tok.toNat) = Config.sha384 (be 16 (Config.token i).toNat) → quiescent s = true → isMember s = false →
    ∃ t, exec (.lcToken target tok true) s = .next t ∧ t.lc.mirror = t.lc.primary ∧ t.lc.primary.state = target ∧
      t.lc.primary.flags = 1 ∧ t.lc.primary.seq = s.lc.primary.seq + 1 ∧ t.lc.tokensUsed = i :: s.lc.tokensUsed ∧
      t.lc.nonce = s.lc.nonce ∧ t.pow.pendingChip = some resetByLc) ∧
  (∀ (s : State) (r : SignedReq) (k : HybKey), s.pow.sessionOpen = true → r.kind = 2 → r.signer = 3 → debugStates s = true →
    r.toCode = r.fromCode → reqCheck { s with lc.challenge := none, lc.challengeBytes := [] } r true (nonceNow s)
      s.pow.sessionId true = none → identity s = some k → s.vault.entropyOk = true →
    ∃ t, exec (.debugRequest r) s = .next t ∧ t.lc.challenge = some (r.scope, s.drawn 256, s.ns) ∧ t.lc.nonce = none ∧
      t.lc.result = 1 ∧ t.lc.primary = s.lc.primary) ∧
  (∀ (s : State) (q : BitVec 16 × BitVec 256 × Nat), s.lc.challenge = some q → q.2.2 + 600000000000 ≤ s.ns →
    exec .challengeExpire s = .next { s with lc.challenge := none, lc.challengeBytes := [] }) ∧
  (∀ (s : State) (r : SignedReq) (scope : BitVec 16) (n : BitVec 256) (t0 : Nat), s.pow.sessionOpen = true → r.kind = 3 →
    r.signer = 2 → debugStates s = true → r.toCode = r.fromCode → s.lc.challenge = some (scope, n, t0) →
    s.ns < t0 + 600000000000 → r.scope &&& ~~~scope = 0 → reqCheck s r true (some n) s.pow.sessionId true = none →
    ∃ t, exec (.debugGrant r) s = .next t ∧ t.lc.primary.debugOpens = min (s.lc.primary.debugOpens + 1) 0xFFFF ∧
      t.lc.mirror = t.lc.primary ∧ t.lc.scrubPending = true ∧ t.lc.pendingScope = some (r.scope, true) ∧
      t.lc.challenge = none ∧ t.vault.debugMark = true) ∧
  (∀ (s : State) (scope : BitVec 16) (grant : Bool), s.pow.sessionOpen = true → s.lc.scrubPending = true →
    s.lc.pendingScope = some (scope, grant) →
    exec .debugScrubDone s = .next (record { s with
      tierA := [], lc.scrubPending := false, lc.pendingScope := none, lc.scope := scope, lc.byGrant := grant }
      0x0021 0 uTcu (le 2 scope.toNat ++ le 2 s.lc.primary.debugOpens))) ∧
  (∀ s : State, s.pow.sessionOpen = true → exec .presenceEdge s = .next { s with
    pins.presence := !s.pins.presence, pins.asserted := true, pins.presenceAt := some s.ns }) ∧
  (∀ (s : State) (t0 : Nat), s.pow.sessionOpen = true → s.pins.presence = false → s.pins.presenceAt = some t0 →
    t0 + 30000000000 ≤ s.ns → exec .presenceWindowEnd s = .next { s with pins.asserted := false }) ∧
  (∀ (s : State) (master range addr len : Nat) (w : Bool) (data : Bytes), s.pow.sessionOpen = true → debugMay s master range addr w = false →
    ∃ t, exec (.protectViolation master range ⟨addr, len, w, data⟩) s = .next t ∧ (w = false → .debugData master (List.replicate len 0) ∈ t.out) ∧ t.lc.viol = true ∧
      t.lc.violCount = min (s.lc.violCount + 1) 0x7FFF ∧ t.lc.violMaster = master ∧ t.lc.violRange = range ∧
      t.lc.primary = s.lc.primary)

/-- R177, R185, R187 to R190. IDENTITY_ENDORSEMENT by the manufacturing key for this unit and its key is kept. DOMAIN_CREATE at a
quiescent unit in no domain with a policy that verifies, names it and admits its hallmark founds the domain. DOMAIN_JOIN at
such a unit in a joining state starts the join. At the anchor JOIN_HELLO with valid public values keeps JK and the admission
and sends JOIN_CHALLENGE with this unit's hallmark; JOIN_EVIDENCE that passes every check sends JOIN_ADMIT; JOIN_DONE in time
with the KCVs makes the joiner a member. At the joiner JOIN_CHALLENGE whose hallmark verifies sends JOIN_EVIDENCE; JOIN_ADMIT
whose policy, digest and envelopes verify takes up the membership; JOIN_REFUSE ends the join with its code. JOIN_TIMEOUT of
the joiner starts the join afresh (or ends it after three tries); at the anchor it refuses an admitted unit. -/
def Obligations.JoinCompletes : Prop :=
  (∀ (s : State) (e : Endorsement) (k : HybKey), s.up = true → identity s = some k → endorseOk e unitId k = true →
    exec (.identityEndorsement e) s = .next (answerWrite { s with dom.endorsement := some e } 0x2202 1 cOk)) ∧
  (∀ (s : State) (p : Policy) (k : HybKey), s.up = true → quiescent s = true → s.dom.role = 0 → policyOk p = true →
    p.anchor = unitId → identity s = some k → policyRefuses p (hallClaims s k 0 none false) = none →
    s.vault.entropyOk = true →
    exec (.domainCreate p) s = .next (answerWrite (foundDomain s p) 0x2201 1 cOk) ∧
      (foundDomain s p).dom.role = 1 ∧ (foundDomain s p).dom.epoch = 1 ∧ (foundDomain s p).dom.term = 1 ∧
      (foundDomain s p).dom.domainId = p.domainId ∧ (foundDomain s p).dom.policy = some p) ∧
  (∀ (s : State) (domainId anchor : Nat) (owner : BitVec 256), s.up = true → quiescent s = true → s.dom.role = 0 →
    joinState s.lc.code = true → s.vault.entropyOk = true →
    exec (.domainJoin domainId anchor owner) s = .next (startJoin s domainId anchor owner) ∧
      (startJoin s domainId anchor owner).dom.role = 4 ∧ (startJoin s domainId anchor owner).dom.join.step = 1) ∧
  (∀ (s s1 s3 : State) (m : DomHdr) (nonce : BitVec 256) (q qr : Point) (ek ct : KemBlob) (role : Nat) (ss : BitVec 384)
      (h : Hallmark), s.up = true → s.takesDomain m false → s.dom.role = 1 → kaRespond s q ek = (s1, some (qr, ct, ss)) →
    let na := s1.drawn 256
    let th := joinHash (be 32 nonce.toNat ++ be 97 q.toNat ++ be 1568 ek.toNat ++ le 4 role) na qr ct
    notHeld (keepJk s1.drew m.sender ss) (.joinKey m.sender) = none →
    makeHallmark (keepJk s1.drew m.sender ss) nonce (some th) false = (s3, some h) →
    exec (.joinHello m nonce q ek role) s = .next (sendDom { s3 with
      dom.admissions := tset s3.dom.admissions m.sender
        { unit := m.sender, txn := m.txn, nonce := na, hash := th, startedAt := s3.ns, admitted := false, role := role,
          hall := none, grant := ⟨role, 0, 0⟩, kcvs := [] } }
      mJoinChallenge m.sender m.txn cOk (be 32 na.toNat ++ be 97 qr.toNat ++ be 1568 ct.toNat ++ hallBytes h))) ∧
  (∀ (s s1 : State) (m : DomHdr) (nonce : BitVec 256) (q : Point) (ct : KemBlob) (hall h : Hallmark) (d : DomClaim)
      (ss : BitVec 384), s.up = true → s.takesJoin m 1 →
    let th := joinHash s.dom.join.hash nonce q ct
    hallOk hall s.dom.join.nonce = true → hall.bind = some th → hall.unitId = m.sender → hall.domain = some d →
    d.domainId = s.dom.join.domainId → kaFinish s.dom.join.ecPriv s.dom.join.kemPriv q ct = some ss →
    notHeld (keepJk s m.sender ss) (.joinKey m.sender) = none →
    makeHallmark (keepJk s m.sender ss) nonce (some th) false = (s1, some h) →
    exec (.joinChallenge m nonce q ct hall) s = .next (sendDom { s1 with
      dom.join := { s1.dom.join with step := 2, policyDigest := d.policyDigest, ecPriv := 0, kemPriv := 0, lastAt := s1.ns } }
      mJoinEvidence m.sender m.txn cOk (hallBytes h))) ∧
  (∀ (s : State) (m : DomHdr) (hall : Hallmark) (a : Admission) (p : Policy) (jk : Key), s.up = true →
    s.takesDomain m false → s.dom.role = 1 → tget s.dom.admissions m.sender = some a → s.dom.policy = some p →
    key256 s (.joinKey m.sender) = some jk → a.admitted = false → admitCheck s p a m.sender hall = none →
    exec (.joinEvidence m hall) s = .next (sendAdmit s m p a hall jk)) ∧
  (∀ (s s1 : State) (m : DomHdr) (p : Policy) (members : List Member) (deputies : List Nat) (aEdge : Int) (aAge : Nat)
      (role : RoleGrant) (envs : List KeyEnvelope) (switchAt : Nat) (jk : Key), s.up = true → s.takesJoin m 2 →
    ownerDigest p = s.dom.join.owner → policyOk p = true → policyDigest p = s.dom.join.policyDigest →
    key256 s (.joinKey m.sender) = some jk → openEnvs s jk m envs = some s1 → (key256 s1 .domainKey).isSome = true →
    exec (.joinAdmit m p ⟨members, digestOf (members.map (·.unit))⟩ deputies aEdge aAge role envs switchAt) s =
      .next (takeMembership s1 m p members deputies aEdge aAge role envs switchAt)) ∧
  (∀ (s : State) (m : DomHdr) (node port : Nat) (a : Admission) (p : Policy), s.up = true → s.takesDomain m false →
    s.dom.role = 1 → tget s.dom.admissions m.sender = some a → s.dom.policy = some p → a.admitted = true →
    s.ns ≤ a.startedAt + 800000 →
    let u := dropKeys s fun k => k == .joinKey m.sender
    exec (.joinDone m node port a.kcvs) s =
      .next (addMember { u with dom.admissions := tdel u.dom.admissions m.sender } a node port p)) ∧
  (∀ (s : State) (m : DomHdr), s.up = true → s.dom.role = 4 → hdrOk m = true → m.domainId = s.dom.join.domainId →
    m.sender = s.dom.join.anchor → m.txn = s.dom.join.txn →
    exec (.joinRefuse m) s = .next (endJoin s m.status) ∧ (endJoin s m.status).dom.role = 0) ∧
  (∀ s : State, s.up = true → s.dom.role = 4 → s.dom.join.lastAt + 100000000 ≤ s.ns →
    exec (.joinTimeout s.dom.join.anchor) s = .next (retryJoin s)) ∧
  (∀ (s : State) (peer : Nat) (a : Admission), s.up = true → s.dom.role = 1 → tget s.dom.admissions peer = some a →
    a.startedAt + 100000000 ≤ s.ns → a.admitted = true →
    exec (.joinTimeout peer) s = .next (refuseUnit s peer a.txn cDomainTimeout))

/-- R176, R179, R182, R186, R192, R200, R203. POLICY_UPDATE at the anchor, of a later policy of the same owner, domain and
anchor, is put in force, replicated and announced; a member that it no longer admits is excluded. HOST_MEMBER at the anchor
admits the host; a member forwards the record. HALLMARK_NONCE makes the hallmark that HALLMARK then reads. DOMAIN_LEAVE of a
quiescent member sends MEMBER_LEAVE and ends the membership. MEMBER_DOWN_RECEIVED of a member other than the anchor itself,
and MEMBER_LEAVE, are triggers of an epoch change at the anchor. MEMBER_UPDATE from the anchor, with the digest of the list
it leaves, is applied. ROLE_HANDOFF tells the partner which unit takes the role and from which step; STATE_MANIFEST with its
bytes received and its fence completed OK is accepted, and else voids the transfer. (The host record that the anchor admits
is one that its key signed; its format is log 6.) -/
def Obligations.DomainUpkeepCompletes : Prop :=
  (∀ (s : State) (p old : Policy), s.up = true → s.dom.policy = some old → s.dom.role = 1 → policyOk p = true →
    p.ownerKey = old.ownerKey → p.domainId = old.domainId → p.anchor = old.anchor → old.sequence < p.sequence →
    let u := memberUpdate (anchorState { s with dom.policy := some p, dom.policyDigest := policyDigest p }) [] [] [] (some p)
    let v := ((others u).filter (inadmissible u p)).foldl epochTrigger u
    exec (.policyUpdate p) s = .next (answerWrite
      (if policyNarrows old p && v.dom.triggers == s.dom.triggers then epochTrigger v 0 else v) 0x2201 4 cOk)) ∧
  (∀ (s : State) (p : Policy) (h : HostRec), s.up = true → s.dom.policy = some p → s.dom.role = 1 → hostOk p h = true →
    (s.dom.hosts.filter fun x => x.hostId != h.hostId).length < 1024 →
    exec (.hostMember h) s = .next (answerWrite (anchorState (memberUpdate { s with
      dom.hosts := (s.dom.hosts.filter fun x => x.hostId != h.hostId) ++ [h] } [] [] [h] none)) 0x2201 5 cOk)) ∧
  (∀ (s : State) (p : Policy) (h : HostRec), s.up = true → s.dom.policy = some p → s.dom.role = 2 ∨ s.dom.role = 3 →
    exec (.hostMember h) s = .next (answerWrite (sendDom s mMemberUpdate s.dom.anchor 0 cOk (hostBytes h)) 0x2201 5 cOk)) ∧
  (∀ (s s1 : State) (nonce : BitVec 256) (h : Hallmark), s.up = true → makeHallmark s nonce none false = (s1, some h) →
    exec (.hallmarkNonce nonce) s = .next (answerWrite { s1 with
      dom.hallmark := some h, dom.hallmarkNonce := some nonce } 0x2202 2 cOk)) ∧
  (∀ s : State, s.up = true → isMember s = true → quiescent s = true →
    exec (.domainLeave 1) s = .next (answerWrite (leaveDomain (sendDom s mMemberLeave s.dom.anchor 0 cOk [])) 0x2201 3 cOk) ∧
      (leaveDomain (sendDom s mMemberLeave s.dom.anchor 0 cOk [])).dom.role = 0) ∧
  (∀ (s : State) (n : Notice), s.up = true → n.reserved = 0 → n.flags < 4 → s.dom.role = 1 → n.unitId ≠ unitId →
    member s n.unitId = true → exec (.memberDownReceived n) s = .next (epochTrigger s n.unitId)) ∧
  (∀ (s : State) (m : DomHdr), s.up = true → s.takesDomain m true → s.dom.role = 1 → m.sender ≠ unitId →
    exec (.memberLeave m) s = .next (epochTrigger s m.sender)) ∧
  (∀ (s : State) (m : DomHdr) (added : List Member) (removed : List Nat) (hosts : List HostRec) (policy : Option Policy),
    s.up = true → s.takesDomain m true → s.dom.role = 2 ∨ s.dom.role = 3 → m.sender = s.dom.anchor →
    removed.contains unitId = false →
    let u := applyUpdate s added removed hosts policy
    exec (.memberUpdate m added removed hosts ⟨policy, memberDigest u⟩) s = .next u) ∧
  (∀ (s : State) (m : DomHdr) (role joiner step : Nat), s.up = true → s.takesDomain m true → m.sender = s.dom.anchor →
    s.dom.role ≠ 1 → exec (.roleHandoff m role joiner step) s = .next { s with
      dom.handoff := some { role := role, joiner := joiner, step := step - 1, queue := none, bytes := 0, windows := [] } }) ∧
  (∀ (s : State) (m : DomHdr) (g : RoleGrant) (step bytes regions received : Nat) (fence : Code), s.up = true →
    s.takesDomain m true → s.dom.roleGrant = some g → g.partner = m.sender →
    exec (.stateManifest m g.role step bytes regions received fence) s = .next (
      if received = bytes ∧ fence = cOk then { s with dom.manifest := some (g.role, step, bytes, regions) }
      else { s with dom.manifest := none }))

/-- R178 key 13, R184, R190, R192 to R197. When the window after a trigger has passed the anchor starts the change; at the
policy's age it triggers one. EPOCH_PREPARE of the next epoch is answered with EPOCH_SHARE; a share with valid values is
answered with EPOCH_KEY; a key whose envelope opens goes to slot 17 and its KCV to the anchor; an acknowledgement with the
right KCV is counted and may commit; a commit arms the key switch. A member without its acknowledgement after 500 ms is
excluded. When the grace has passed the change ends: the anchor announces the epoch, a member is done. Every 10 ms the anchor
beats to its deputies; a beat restarts a deputy's timing; ANCHOR_STATE replaces a deputy's copy; a probe is answered by a
beat. A deputy probes after 100 ms of silence, and deputy 1 claims where the loss is reported; a waiting deputy claims when
its wait ends; a claim of a listed deputy with a higher term is taken; an anchor that hears of a higher term leaves. -/
def Obligations.EpochAndAnchorCommandsComplete : Prop :=
  (∀ (s : State) (t : Nat), s.up = true → s.dom.role = 1 → s.dom.coalesceAt = some t →
    t + setting s 0x2201 6 * 1000000 ≤ s.ns → s.dom.changing = false →
    exec .epochCoalesceExpire s = .next (startChange s)) ∧
  (∀ (s : State) (p : Policy), s.up = true → s.dom.role = 1 → s.dom.policy = some p → p.maxAge ≠ 0 →
    s.dom.epochAt + p.maxAge * 1000000000 ≤ s.ns → exec .epochAgeLimit s = .next (epochTrigger s 0)) ∧
  (∀ (s : State) (m : DomHdr), s.up = true → s.takesDomain m true → m.sender = s.dom.anchor → s.dom.role ≠ 1 →
    s.dom.grace = none → s.dom.committed = false →
    exec (.epochPrepare m (s.dom.epoch + 1)) s = .next (sendShare s m (s.dom.epoch + 1))) ∧
  (∀ (s s1 : State) (m : DomHdr) (q qr : Point) (ek ct : KemBlob) (p : EpochPart) (next : Key) (ss : BitVec 384),
    s.up = true → s.takesDomain m true → s.dom.role = 1 → tget s.dom.parts m.sender = some p →
    key256 s .nextDomainKey = some next → s.dom.changing = true → s.dom.committed = false →
    kaRespond s q ek = (s1, some (qr, ct, ss)) →
    exec (.epochShare m q ek) s = .next (sendDom { s1 with
      dom.parts := tset s1.dom.parts m.sender { p with shared := true } } mEpochKey m.sender m.txn cOk
      (be 97 qr.toNat ++ be 1568 ct.toNat ++ envBytes (sealEnv (left256 ss) next 1 s1.dom.nextEpoch s1.dom.domainId)))) ∧
  (∀ (s : State) (m : DomHdr) (q : Point) (ct : KemBlob) (env : KeyEnvelope) (k : Key), s.up = true →
    s.takesDomain m true → m.sender = s.dom.anchor → s.dom.role ≠ 1 → s.dom.changing = true → s.dom.committed = false →
    (epochPriv s m.sender).isSome = true → epochKeyOf s m q ct env = some k →
    exec (.epochKey m q ct env) s = .next (sendDom (putDomainKey (dropPriv s m.sender) true k) mEpochAck m.sender m.txn cOk
      (be 4 (kcv k).toNat))) ∧
  (∀ (s : State) (m : DomHdr) (p : EpochPart) (next : Key), s.up = true → s.takesDomain m true → s.dom.role = 1 →
    tget s.dom.parts m.sender = some p → key256 s .nextDomainKey = some next → s.dom.changing = true → p.shared = true →
    exec (.epochAck m (kcv next)) s = .next (tryCommit { s with
      dom.parts := tset s.dom.parts m.sender { p with acked := true } })) ∧
  (∀ (s s1 : State) (m : DomHdr) (switchAt : Nat), s.up = true → s.takesDomain m true → m.sender = s.dom.anchor →
    s.dom.role ≠ 1 → s.dom.committed = false → s.dom.grace = none → s.dom.changing = true →
    (findKey s .nextDomainKey).isSome = true → armSwitch s switchAt = (s1, true) →
    exec (.epochCommit m switchAt) s = .next s1) ∧
  (∀ (s : State) (unit t : Nat) (p : EpochPart), s.up = true → s.dom.role = 1 → s.dom.changing = true →
    s.dom.committed = false → s.dom.prepareAt = some t → t + 500000000 ≤ s.ns → tget s.dom.parts unit = some p →
    p.acked = false →
    exec (.epochAckTimeout unit) s = .next (tryCommit (sendNotice (epochTrigger s unit) 1 6 unit))) ∧
  (∀ (s : State) (t : Nat), s.up = true → s.dom.grace = some t → t ≤ s.ns → (endGrace s).dom.role = 1 →
    let u := endGrace s
    let gone := u.dom.triggers.filter (member u)
    let v := anchorState (memberUpdate (gone.foldl dropMember u) [] gone [] none)
    exec .epochGraceEnd s = .next (if v.dom.triggers = [] then v else { v with dom.coalesceAt := some v.ns })) ∧
  (∀ (s : State) (t : Nat), s.up = true → s.dom.grace = some t → t ≤ s.ns → (endGrace s).dom.role ≠ 1 →
    (endGrace s).dom.heldPrepare = none → exec .epochGraceEnd s = .next (endGrace s)) ∧
  (∀ s : State, s.up = true → s.dom.role = 1 → s.dom.beatSentAt + 10000000 ≤ s.ns →
    let u := (otherDeputies s).foldl (fun s d => sendDom s mAnchorBeat d 0 cOk []) s
    exec .anchorBeatTimer s = .next { u with dom.beatSentAt := u.ns }) ∧
  (∀ (s : State) (m : DomHdr), s.up = true → s.takesDomain m true → m.sender = s.dom.anchor → s.dom.role ≠ 1 →
    exec (.anchorBeat m) s = .next { s with dom.beatAt := s.ns, dom.probes := [], dom.claimAt := none }) ∧
  (∀ (s : State) (m : DomHdr) (members : List Member) (hosts : List HostRec) (policy : Policy) (anchor term : Nat)
      (pending : Option (Nat × Option Nat)), s.up = true → s.takesDomain m true → m.sender = s.dom.anchor →
    s.dom.role ≠ 1 → policyOk policy = true →
    ∃ t, exec (.anchorState m members hosts policy ⟨anchor, term, pending⟩) s = .next t ∧ t.dom.hosts = hosts ∧
      t.dom.policy = some policy ∧ t.dom.policyDigest = policyDigest policy ∧ t.dom.anchor = anchor ∧
      t.dom.pending = pending ∧ ∀ x ∈ t.dom.members, members.any (fun y => y.unit == x.unit) = true) ∧
  (∀ (s : State) (m : DomHdr), s.up = true → s.takesDomain m true → s.dom.role = 1 →
    exec (.anchorProbe m) s = .next (sendDom s mAnchorBeat m.sender m.txn cOk [])) ∧
  (∀ s : State, s.up = true → s.dom.role = 2 → deputyNo s = 1 → exec (.anchorSilence true) s = .next (claimAnchor s)) ∧
  (∀ s : State, s.up = true → s.dom.role = 2 → s.dom.beatAt + 100000000 ≤ s.ns → s.dom.probes = [] →
    exec (.anchorSilence false) s = .next (sendDom { s with dom.probes := [s.ns] } mAnchorProbe s.dom.anchor 0 cOk [])) ∧
  (∀ (s : State) (t : Nat), s.up = true → s.dom.role = 2 → s.dom.claimAt = some t → t ≤ s.ns →
    exec .claimWaitExpire s = .next (claimAnchor s)) ∧
  (∀ (s : State) (m : DomHdr) (term : Nat) (deputies : List Nat), s.up = true → s.takesDomain m true → s.dom.role ≠ 1 →
    s.dom.deputies.contains m.sender = true → s.dom.term < term →
    ∃ t, exec (.anchorClaim m term deputies) s = .next t ∧ t.dom.deputies = deputies ∧
      (t.dom.role = 1 ∨ t.dom.role = 2 ∨ t.dom.role = 3)) ∧
  (∀ (s : State) (m : DomHdr), s.up = true → s.dom.role = 1 → hdrOk m = true → m.domainId = s.dom.domainId →
    member s m.sender = true → s.dom.term < m.term → exec (.domainTermStale m) s = .next (leaveDomain s))

/-- R182, R198, R303 to R306, R322, while the host's group is open; u is the state that has taken the held value. GET_VERSION
answers version 1.3 and starts negotiation afresh; GET_CAPABILITIES after it answers the fixed set and sizes;
NEGOTIATE_ALGORITHMS of an offer that has all the VTC supports answers the selection. KEY_EXCHANGE with an admitted host, no
session open, puts the secret in slot 18 and answers the signed values; FINISH with the right MAC, signed by that host, opens
the session where its secrets find slots (R100; what else happens is log 82). With one generation held in each direction and
slots for the new keys UpdateKey starts the next inbound generation, UpdateAllKeys both, the old outbound one retiring once
no descriptor has a record under it; VerifyNewKey marks the inbound descriptors sealed before it; HEARTBEAT is answered;
END_SESSION ends the session with KEY_DESTROYED and S0; GET_HALLMARK answers a hallmark on its nonce. REKEY_DUE after a
period records which directions are due. (The codes of the messages are SPDM's own, log 22.) -/
def Obligations.SpdmCommandsComplete : Prop :=
  (∀ s : State, s.up = true → s.crossOpen 128 = true →
    let u := s.heldIn 130
    exec .getVersion s = .next
      (({ u with host.negotiated := 1, host.transcript := [] } : State).emit (.spdm rVersion [0x13]))) ∧
  (∀ (s : State) (requested : BitVec 32), s.up = true → s.crossOpen 128 = true → s.host.negotiated ≠ 0 →
    let u := s.heldIn 130
    exec (.getCapabilities requested) s = .next
      (({ u with host.negotiated := 2, host.caps := requested &&& spdmCaps } : State).emit
        (.spdm rCapabilities (le 4 spdmCaps.toNat ++ le 1 16 ++ le 4 16384 ++ le 4 16384)))) ∧
  (∀ (s : State) (o : SpdmOffer), s.up = true → s.crossOpen 128 = true → 2 ≤ s.host.negotiated → offerOk o = true →
    let u := s.heldIn 130
    exec (.negotiateAlgorithms o) s = .next
      (({ u with host.negotiated := 3 } : State).emit (.spdm rAlgorithms spdmSelection))) ∧
  (∀ (s s1 s2 : State) (host : Nat) (q qr : Point) (ek ct : KemBlob) (ss : BitVec 384) (g : HybSig), s.up = true →
    s.crossOpen 128 = true → s.host.session = 0 → isMember s = true → (hostKey s host).isSome = true →
    s.host.negotiated = 3 → kaRespond (s.heldIn 130) q ek = (s1, some (qr, ct, ss)) →
    let t := s1.host.transcript ++ be 97 q.toNat ++ be 1568 ek.toNat ++ be 97 qr.toNat ++ be 1568 ct.toNat
    signId (putSecret s1 .spdmHandshake ss) t = (s2, some g) →
    exec (.keyExchange host q ek) s = .next
      (({ s2 with host.session := 1, host.requester := host, host.transcript := t } : State).emit
        (.spdm rKeyExchange (be 97 qr.toNat ++ be 1568 ct.toNat ++ be 96 g.ecdsa.toNat ++ be 4627 g.mldsa.toNat)))) ∧
  (∀ (s : State) (mac ss : BitVec 384) (g : HybSig), s.up = true → s.crossOpen 128 = true → s.host.session = 1 →
    isMember s = true → finishSigned s g = true → finishOk s mac = some ss →
    secretRefused (s.heldIn 130) (2 + 2 * (servingSlices s).length) = none →
    let u := openSession (s.heldIn 130) ss
    exec (.finish mac g) s = .next (u.emit (.spdm rFinish [])) ∧ u.host.session = 2 ∧ u.host.genIn = 0 ∧
      u.host.genOut = 0) ∧
  (∀ s : State, s.up = true → s.crossOpen 128 = true → s.host.session = 2 → updating s = false →
    let h := s.heldIn 130
    let u := advanceIn h
    (secretRefused h (servingSlices h).length = none →
      exec .updateKey s = .next (keyUpdated u) ∧ u.host.genIn = s.host.genIn + 1 ∧ u.host.genOut = s.host.genOut) ∧
    (secretRefused h (2 * (servingSlices h).length) = none →
      exec .updateAllKeys s = .next (retireOutbound (keyUpdated (advanceOut u))) ∧
      (advanceOut u).host.genIn = s.host.genIn + 1 ∧ (advanceOut u).host.genOut = s.host.genOut + 1)) ∧
  (∀ s : State, s.up = true → s.crossOpen 128 = true → s.host.session = 2 → s.host.updIn = true → s.host.marksIn = none →
    let u := s.heldIn 130
    exec .verifyNewKey s = .next
      ((retireInbound { u with host.marksIn := some (inboundDescs u) }).emit (.spdm rKeyUpdateAck []))) ∧
  (∀ s : State, s.up = true → s.crossOpen 128 = true → s.host.session = 2 →
    let u := s.heldIn 130
    exec .heartbeat s = .next (u.emit (.spdm rHeartbeatAck [])) ∧
    exec .endSession s = .next (endSpdm ((notice u 0 322 uHse 0).emit (.spdm rEndSessionAck [])) cKeyDestroyed none)) ∧
  (∀ (s s1 : State) (nonce : BitVec 256) (h : Hallmark), s.up = true → s.crossOpen 128 = true → s.host.negotiated = 3 →
    makeHallmark (s.heldIn 130) nonce none false = (s1, some h) →
    exec (.getHallmark nonce) s = .next (s1.emit (.spdm rVendor (hallBytes h)))) ∧
  (∀ s : State, s.up = true →
    let due (t : Nat) : Bool := decide (t + s.host.period * 1000000 ≤ s.ns)
    let data := b2n (due s.host.updateIn) + 2 * b2n (due s.host.updateOut)
    data ≠ 0 → exec .rekeyDue s = .next (rekeyEvent s data))

/-- R69, R206, R212 to R225, R227, R229. FRAME_SEAL sends work that a data-space frame can carry (log 92), CONTROL frames as the
system's; a sealed frame whose turn and bucket allow it leaves by its port, its send time noted. A frame for another node
takes the pass path; one for this node, legal, of an epoch in force, ahead of the window, whose key is held and whose tag
verifies, is delivered; one with bad parity is counted as such. A due ACK of the pending entries, its key held, is sealed in
its own space and sent; an ACK's entries retire frames. A frame unacknowledged for its wait is sent again, its wait doubled
up to 32 times the first. A key that the vault has fills the misses that await it. A flow at its switch point rolls over; its
old key is retired after FENCE_TIMEOUT. A dispatched fence with fewer than four before it is issued, and at its timeout
completes with what it still awaits abandoned. Nodes, lane maps and lane levels are taken as they are given. -/
def Obligations.LinkCommandsComplete : Prop :=
  (∀ (s : State) (r : SealReq), s.up = true → sealable r = true →
    let r' : SealReq := if r.ftype = ftControl then { r with slice := whoSys } else r
    exec (.frameSeal r) s = .next (sendFrame (handoffWrite s r') r')) ∧
  (∀ (s : State) (port peer seq : Nat) (o : Sent) (f : Flow), s.up = true → sentAt s peer seq = some o →
    flowAt s peer = some f → (portAt s port).egress.contains (peer, seq) = true → portOpen s port = true →
    egressReady s port (peer, seq) = true → o.issuer.slice = whoSys ∨ systemReady s port = false →
    let b := portAt s port
    let u := setFlow (fabricTake (setPort s port { b with egress := b.egress.filter (· != (peer, seq)) }) port o.issuer.slice o.wire)
      peer { f with
        outstanding := tset f.outstanding seq
          { o with firstAt := some (o.firstAt.getD s.ns), lastAt := s.ns, sends := o.sends + 1, port := port } }
    exec (.frameEgress port peer seq) s =
      .next (passPump (ackEvent ((if o.firstAt.isNone then countSend u o else u).emit (.frame port o.frame)) port) port)) ∧
  (∀ (s : State) (port : Nat) (f : Frame), s.up = true → portOpen s port = true →
    let u := s.intake (32 + port) ((40 + f.payload.length + 31) / 32)
    exec (.frameReceive port f false) s = .next (parityError u port 1 231 f.srcNode 0 .wire) ∧
    (ownNode s ≠ some f.routeDst → exec (.frameReceive port f true) s = .next (takePass u port f))) ∧
  (∀ (s u1 : State) (port unit de fe : Nat) (f : Frame) (w0 w : Flow) (k : Key) (pt : Bytes), s.up = true →
    portOpen s port = true → frameLegal f = true → f.ftype ≠ ftJoin →
    f.ftype ≠ ftAck → f.routeDst = f.dstNode → f.routeSrc = f.srcNode → ownNode s = some f.dstNode →
    flowAt s f.srcNode = some w0 → nodeUnit s f.srcNode = some unit → memberNode s f.srcNode = true →
    frameEpochs s w0 f.flags = some (de, fe) → keyCached s port whoSys unit de fe = true →
    engKey s (.flow unit de fe) = some k →
    gcmOpen k (frameIv unit unitId false f.seq) (frameHead f) f.payload f.tag = some pt →
    let u := s.intake (32 + port) ((40 + f.payload.length + 31) / 32)
    activeFlow (touchKey u port whoSys unit de fe) f.srcNode = some (u1, w) → seqKind w f.seq = .newAhead →
    exec (.frameReceive port f true) s = .next (remoteSettle (linkPump (takeData u1 port f.srcNode unit f de fe pt)))) ∧
  (∀ (s : State) (peer u own : Nat) (f : Flow) (k : Key), s.up = true →
    let v := switchFlow s peer
    let port := nodePort v peer
    let pt := ackPayload (f.pendingAcks.take 16)
    flowAt v peer = some f → nodeUnit v peer = some u → ownNode v = some own → f.pendingAcks ≠ [] →
    16 ≤ f.pendingAcks.length ∨ f.ackAt + 1000 ≤ v.ns → f.held = false → f.awaitKey = false →
    portOpen v port = true →
    wireOf pt.length ≤ fabricLevel v port whoSys → keyCached v port whoSys u f.domainEpoch f.flowEpoch = true →
    engKey v (sendKey u f) = some k → keyAllows v (sendKey u f) 1 pt.length = true →
    let x := countKey (fabricTake (touchKey v port whoSys u f.domainEpoch f.flowEpoch) port whoSys (wireOf pt.length)) peer
      ({ f with pendingAcks := f.pendingAcks.drop 16, ackAt := v.ns }.ackFrom (nextSeq f.nextAck)) pt.length (sendKey u f)
    exec (.ackSend peer) s = .next ((bumpUnit (bumpUnit x port 0 1) port 2 pt.length).emit
      (.frame port (makeFrame own peer u f k ftAck true f.nextAck pt)))) ∧
  (∀ (s : State) (peer : Nat) (entries : List (Nat × Code)), s.up = true →
    exec (.ack peer entries) s = .next (applyAck s peer entries)) ∧
  (∀ (s : State) (peer seq first : Nat) (o : Sent) (f : Flow), s.up = true → sentAt s peer seq = some o →
    flowAt s peer = some f → o.firstAt = some first → o.lastAt + o.waitUs * 1000 ≤ s.ns → retxOver s peer seq first = false →
    let port := nodePort s peer
    portOpen s port = true → o.wire ≤ fabricLevel s port whoTransit →
    let u := setFlow (fabricTake s port whoTransit o.wire) peer { f with
      outstanding := tset f.outstanding seq
        { o with lastAt := s.ns, sends := o.sends + 1, waitUs := min (2 * o.waitUs) (32 * setting s 0x5000 2) } }
    exec (.retransmitTimer peer seq) s =
      .next ((bumpUnit { u with link.retx := u.link.retx + 1 } port 15 1).emit (.frame port o.frame))) ∧
  (∀ (s : State) (port peer de fe unit : Nat), s.up = true → nodeUnit s peer = some unit →
    let named (m : MissEntry) : Bool := m.peer == peer && m.domEpoch == de && m.flowEpoch == fe
    let mine := (portAt s port).misses.filter named
    let u := needKey s (.flow unit de fe)
    mine ≠ [] → (findKey u (.flow unit de fe)).isSome = true →
    let v := setPort u port { portAt u port with misses := (portAt u port).misses.filter fun m => !named m }
    let x := match flowAt v peer with
      | some f => if de = f.domainEpoch ∧ fe = f.recvEpoch + 1 then setFlow v peer { f with nextKey := true } else v
      | none => v
    exec (.keyMissFill port peer de fe) s = .next (remoteSettle (linkPump ((mine.flatMap (·.inbound)).foldl
      (fun s f => receiveFrame s port f) (mine.foldl (fun s m => loadKey s port m.who unit de fe) x))))) ∧
  (∀ (s : State) (peer : Nat), s.up = true → exec (.flowEpochSwitch peer) s = .next (linkPump (switchFlow s peer))) ∧
  (∀ (s : State) (peer t : Nat) (f : Flow), s.up = true → flowAt s peer = some f → f.rolloverAt = some t →
    t + setting s 0x5000 1 * 1000000 ≤ s.ns → exec (.flowKeyRetire peer) s = .next (retireKey s peer)) ∧
  (∀ (s : State) (ctx queue report slot : Nat) (l : LiveSeal), s.up = true → tget s.gate.seals slot = some l →
    l.cls = kFence → l.dispatched = true → l.ctx = ctx → l.queue = queue →
    s.link.fences.any (fun f => f.slot == slot) = false → s.link.fenceWaits.any (fun w => w.2.2.2 == slot) = false →
    exec (.fence ctx queue report slot) s = .next (if fencesOf s ctx queue < 4 then
      fenceSettle (issueFence s ctx l.gen queue report slot)
      else { s with link.fenceWaits := s.link.fenceWaits ++ [(ctx, queue, report, slot)] })) ∧
  (∀ (s : State) (ctx queue : Nat) (f : FenceRec), s.up = true →
    s.link.fences.find? (fun f => f.ctx == ctx && f.queue == queue) = some f → f.startedAt + f.timeoutMs * 1000000 ≤ s.ns →
    let late := s.link.waiting.filter fun w => f.unsent.contains w.1
    let given := loseNodes s f (nodesOf (f.waits ++ late.map fun w => (w.2.node, 0)))
    exec (.fenceTimeout ctx queue) s = .next (fenceSettle (linkPump (fenceSettle (stepsGiveUp
      { s with link.fences := s.link.fences.map fun g => if g.slot = f.slot then given else g } f.waits))))) ∧
  (∀ (s : State) (node unit port : Nat), s.up = true →
    exec (.nodeBinding node unit port) s = .next (linkPump (bindNode s node unit port))) ∧
  (∀ (s : State) (port : Nat) (map : BitVec 15), s.pow.iod = true →
    let u := s.heldIn (32 + port)
    let v : State := { u with cross.laneMap := tset u.cross.laneMap port map }
    exec (.fabLanemap port map) s = .next (refreshLanes (if 1 < (lentLanes v port).length then notice v 1 470 port 0 else v) port)) ∧
  (∀ (s : State) (port lane : Nat) (up : Bool), s.pow.iod = true →
    let v := tgetD s.cross.laneUp port 0
    exec (.fabLaneup port lane up) s = .next (refreshLanes { s with
      cross.laneUp := tset s.cross.laneUp port (v - 2 ^ lane * b2n (bit v lane) + 2 ^ lane * b2n up) } port))

/-- R236 to R239, R254 to R257. A dispatched step piece of this port, legal, its peers members, its key held where it rounds (and
delivered to this port's alloy), is staged in the first free step slot of its slice, RUNNING unless it starts by a cast, with
its body, translated addresses and timeout, and its local operand is read ahead (R244). A step whose turn it is, with an
output chunk ready and its bucket full enough, sends that chunk once it can be sealed, and goes on folding what its input
buffer holds. A step without progress for its timeout, all its chunks acknowledged in time, fails STEP_INCOMPLETE with what
it still awaits. A FAILED step's slot is freed after its timeout. A lane that fails its test is mapped out with S1 and every
RUNNING step of the alloy completes EXECUTOR_RESET; a lane that passes changes nothing. -/
def Obligations.AlloyCommandsComplete : Prop :=
  (∀ (s : State) (port slot k : Nat) (l : LiveSeal), s.up = true → tget s.gate.seals slot = some l → l.dispatched = true →
    l.cls = kStep → bits (dBody l.raw 4 1) 4 0 = port → (stepsWhere s fun t => t.slot == slot && t.state != 3) = [] →
    let b := l.raw.drop 32
    let u := if stRound b then deliverTo (needKey s (.ctxaux l.ctx l.gen)) (.ctxaux l.ctx l.gen) port else s
    stepInvalid b = false → (stRound b = true → (engKey u (.ctxaux l.ctx l.gen)).isSome = true) →
    (∀ n ∈ stepIns b ++ stepOuts b, memberNode u n = true) → freeStep u port l.slice = some k →
    exec (.stepStage port slot) s = .next (prefetch (bumpUnit (setStep u port k
      { slot := slot, ctx := l.ctx, gen := l.gen, slice := l.slice, queue := l.queue, body := b,
        localA := (l.trs.getD 0 0) % 2 ^ 48, destA := (l.trs.getD 1 0) % 2 ^ 48, state := if stStart b then 1 else 2,
        code := cOk, timeoutMs := setting u 0x5010 1, taken := [], acc := [], input := [], fetched := [], owed := [],
        outQueued := [], outData := [], emitted := 0, outSent := [], outDone := 0, aborts := [], progressAt := u.ns, failAt := 0 })
      port 0 1) port k)) ∧
  (∀ (s u : State) (port k c i seq : Nat) (t : StepRec) (rest : List (Nat × Nat)), s.up = true →
    stepAt s port k = some t → t.state = 2 → t.outQueued = (c, i) :: rest → stepTurn (alloyAt s port) t.slice k = true →
    let payload := tgetD t.outData c []
    wireOf payload.length ≤ fabricLevel s port t.slice →
    sealNow s s.link.nextReq (chunkFrame t port ((stepOuts t.body).getD i 0) payload) = (u, .sealed seq) →
    let v := setStep u port k { t with
      outQueued := rest, outSent := t.outSent ++ [((stepOuts t.body).getD i 0, seq)]
      outData := if rest.any fun q => q.1 == c then t.outData else tdel t.outData c }
    exec (.chunkEmit port k) s = .next (stepOn (setAlloy v port { alloyAt v port with
      served := tset (alloyAt s port).served t.slice k }) port k)) ∧
  (∀ (s : State) (port k : Nat) (t : StepRec), s.up = true → stepAt s port k = some t → t.state ≠ 3 → stepLate s t = [] →
    t.progressAt + t.timeoutMs * 1000000 ≤ s.ns → stepAwaits t ≠ 0 →
    exec (.stepTimeout port k) s =
      .next (failStep (stepNote s port t cStepIncomplete) port k cStepIncomplete (stepAwaits t) 0)) ∧
  (∀ (s : State) (port k : Nat) (t : StepRec), s.up = true → stepAt s port k = some t → t.state = 3 →
    t.failAt + t.timeoutMs * 1000000 ≤ s.ns →
    exec (.stepSlotRelease port k) s =
      .next (setAlloy s port { alloyAt s port with steps := tdel (alloyAt s port).steps k })) ∧
  (∀ (s : State) (port lane : Nat), s.up = true → (alloyAt s port).lanesOut.contains lane = false →
    let a : Alloy := { alloyAt s port with
      lanesOut := (alloyAt s port).lanesOut ++ [lane], lanesGood := (alloyAt s port).lanesGood - 1 }
    let u := failSteps (notice (setAlloy s port a) 1 257 port lane) (fun p t => p == port && t.state == 2) cExecutorReset
    exec (.alloyLaneTest port lane true) s = .next s ∧
    exec (.alloyLaneTest port lane false) s = .next (if a.lanesGood < 196 then raiseS3 u port 48 lane else u))

/-- R72, R276 to R282, R289, R291, R295 to R297. A read, full write or partial write of a region that is LIVE or ROTATING enters
its port's jobs in order and the port goes on; one of any other region is answered FAULT_UNMAPPED. The completion of an
outstanding pool read that is not stale, its parity good, leaves the reads and is taken for its reason. An acknowledgement
drops as many of the oldest writes as its counter says, and a reset that waited for them alone goes on (R300). A read that
has waited POOL_TIMEOUT resets the crossing, S1, and asserts its VRST. REGION_ROTATE of a LIVE region with room queues the
rotation. A sweep of a ROTATING region takes its next granule, where nothing waits at its port. A granted request is answered
yes and counted; a denied one is answered no, its requester has FAULT_PERMISSION, and it is S2. The last scrub of a page
revoked everywhere leaves its bytes zero and frees it. A first failed scrub write is repeated, a second withholds the page,
S1, with one capacity change. -/
def Obligations.TierBAndTierACommandsComplete : Prop :=
  (∀ (s : State) (r : PewReq) (op : PewOp) (g : Region), s.up = true → tget s.mem.regions r.region = some g →
    g.state = 1 ∨ g.state = 2 →
    let p := pewAt s (r.region % 4)
    let u := remoteSettle (pewPump (setPew s (r.region % 4) { p with
      jobs := tset p.jobs p.nextJob { r := r, op := op, src := .engine, slot := none }, nextJob := p.nextJob + 1 }) (r.region % 4))
    (op = .read → exec (.pewterRead r) s = .next u) ∧
    (∀ data, op = .full data → exec (.pewterFullWrite r data) s = .next u) ∧
    (∀ mask data, op = .part mask data → exec (.pewterPartialWrite r mask data) s = .next u)) ∧
  (∀ (s : State) (port tag status : Nat) (data : Bytes) (r : PoolReq), s.up = true →
    (pewAt s port).reads.find? (fun r => r.tag == tag) = some r → r.stale = false →
    let p := pewAt s port
    let u := setPew (s.intake (64 + port) ((data.length + 31) / 32)) port { p with reads := p.reads.filter fun x => x.tag != tag }
    exec (.poolReadCompletion port tag status data true) s = .next (remoteSettle (pewPump (poolTake
      (if status = 3 then notice u 1 276 (uPewter port) r.offset else u) port r (decide (2 ≤ status)) (fit r.bytes data)) port))) ∧
  (∀ (s : State) (port count : Nat), s.up = true →
    let e := ccEvents s (64 + port) (64 + port) count
    exec (.poolWack port count) s = .next (settleClose (remoteSettle (pewPump (setPew e.1 port { pewAt s port with
      writes := (pewAt s port).writes.drop e.2 }) port)) port)) ∧
  (∀ (s : State) (port : Nat) (r : PoolReq), s.up = true → r ∈ (pewAt s port).reads →
    r.sent + setting s 0x5100 5 * 1000 ≤ s.ns →
    exec (.poolTimeout port) s = .next (remoteSettle (pewPump (assertVrst
      (notice (crossReset s port) 1 278 (uPewter port) 0) [64 + port]) port))) ∧
  (∀ (s : State) (region : Nat) (g : Region), s.up = true → tget s.mem.regions region = some g → g.state = 1 →
    (pewAt s (region % 4)).rotating.length < 256 →
    exec (.regionRotate region) s = .next (answerWrite (queueRotation s region g.ownerKind) 0x5102 1 cOk)) ∧
  (∀ (s : State) (region : Nat) (g : Region), s.up = true → (pewAt s (region % 4)).rotQueue = [] →
    tget s.mem.regions region = some g → g.state = 2 →
    g.sweep < 262144 → (pewAt s (region % 4)).jobs.any (fun j => j.2.r.region == region && j.2.op == .sweep) = false →
    (pewAt s (region % 4)).assayed.contains region = false →
    exec (.rotationSweep region) s =
      .next (remoteSettle (pewPump (pewOwn s region g.sweep .sweep) (region % 4)))) ∧
  (∀ (s : State) (stack page : Nat) (isWrite : Bool) (ctx gen : Nat), s.up = true →
    s.cross.nrst.contains (96 + stack) = false →
    let ok := checkerGrants s stack page isWrite ctx gen
    let u := (s.intake (96 + stack) 1).emit (.verdict stack ok)
    exec (.stkRequest stack page isWrite ctx gen) s = .next (if ok then bumpUnit u (uStack stack) 0 1
      else denyTierA (stackOutcome u stack ctx gen page cFaultPermission) stack page ctx)) ∧
  (∀ (s : State) (page : Nat) (x : Scrub), s.up = true → tget s.gate.scrubs page = some x → x.withheld = false →
    16 ≤ x.acks.length →
    let u := tierAScrub s page
    exec (.scrubDone page) s =
      .next (setPage (scrubLevels { u with gate.scrubs := tdel u.gate.scrubs page }) page ⟨0, 0, 0, 0, 0⟩)) ∧
  (∀ (s : State) (page stack : Nat) (x : Scrub), s.up = true → tget s.gate.scrubs page = some x → x.withheld = false →
    (x.failed.contains stack = false → exec (.scrubWriteFail page stack) s = .next
      { (s.emit (.scrub stack page)) with gate.scrubs := tset s.gate.scrubs page { x with failed := insertN x.failed stack } }) ∧
    (x.failed.contains stack = true →
      let u := scrubLevels { s with gate.scrubs := tset s.gate.scrubs page { x with withheld := true } }
      exec (.scrubWriteFail page stack) s = .next (capacity (notice u 1 297 (uStack stack) page) 5 (uStack stack)
        ((u.gate.scrubs.filter fun p => p.2.withheld).length))))

/-- R310, R311, R313, R317, R319. An inbound piece of a current context, in an open session, with room in the verify buffer and
its class's buckets, is charged and its DMA read starts. A record of a started piece that passes every check, within its
key's limit, whose tag verifies, is taken. An outbound piece with room, its range readable under its stamp, its key held and
within its limit, is sealed with the next SEQ and written. BOUNCE_STATE for a context of the page's slice answers its window
and generations (what stands for a generation not held is free, log 23). MSIX_UNMASK unmasks the vector and sends its pending
message. -/
def Obligations.HostSealingCommandsComplete : Prop :=
  (∀ (s : State) (slot : Nat) (l : LiveSeal), s.up = true → hostPiece s slot false = some l → hostStarted s slot = false →
    s.crossOpen 128 = true → ctxCurrent s l.ctx l.gen = true → s.host.session = 2 →
    verifyUsed s + hdLen l.raw ≤ 4194304 → hostRoom s l.slice 0 (48 + hdLen l.raw) = true →
    let u := hostCharge s l.slice 0 (48 + hdLen l.raw)
    exec (.hostInbound slot) s = .next (({ u with host.work := u.host.work ++ [⟨slot, hdLen l.raw⟩] } : State).emit
      (.hostRead (hdPlaces s l)))) ∧
  (∀ (s : State) (slot g : Nat) (l : LiveSeal) (r : BounceRec) (k : Key) (data : Bytes), s.up = true →
    hostPiece s slot false = some l → hostStarted s slot = true → s.crossOpen 128 = true → ctxCurrent s l.ctx l.gen = true →
    recordRefuses s l r = none → inboundGen s l.slice r.keyGen = some g → engKey s (.bounce l.slice 0 g) = some k →
    keyAllows s (.bounce l.slice 0 g) 1 0 = true →
    gcmOpen k (recordIv r.ctxId r.ctxGen r.seq) (recordAad r) r.payload r.tag = some data →
    exec (.hostRecordArrive slot r true) s =
      .next (takeRecord (s.intake 128 ((48 + r.payload.length + 127) / 128)) slot l r (.bounce l.slice 0 g) data)) ∧
  (∀ (s : State) (slot : Nat) (l : LiveSeal) (k : Key), s.up = true → hostPiece s slot true = some l →
    ctxCurrent s l.ctx l.gen = true → s.host.session = 2 → s.crossOpen 128 = true →
    hostRoom s l.slice 1 (48 + hdLen l.raw) = true → hostDenied s l (hdTierA l) (hdLen l.raw) false = none →
    engKey s (bounceNow s l.slice 1) = some k → keyAllows s (bounceNow s l.slice 1) 1 0 = true →
    exec (.hostOutbound slot true) s = .next (sendRecord s slot l k true)) ∧
  (∀ (s : State) (h : MbxHdr), s.takesMailbox h 0x0101 false [] →
    let u := mbxTaken s h
    ctxExists u h.ctxId = true → (ctxAt u h.ctxId).slice = hslice h →
    exec (.bounceState h) s = .next (mbxAnswer (bounceState u h.ctxId).1 h 0x0101 cOk (bounceState u h.ctxId).2)) ∧
  (∀ (s : State) (vector : Nat), s.up = true →
    let u : State := { s with host.masked := eraseN s.host.masked vector }
    (s.host.msixPending.contains vector = true → exec (.msixUnmask ⟨vector, false⟩) s =
      .next (msix { u with host.msixPending := eraseN u.host.msixPending vector } vector)) ∧
    (s.host.msixPending.contains vector = false → exec (.msixUnmask ⟨vector, false⟩) s = .next u))

/-- R328, R330, R336 to R344, R348, R349. A raw descriptor of a bound queue that is not stopped, of a context not frozen,
advances the queue's head and enters the descriptors under the next number, and its queue goes on. A piece that waits for
room is tried again, or the queue goes on; a walk fills the cache and its descriptor goes on; an ATS span with the right that
the access needs enters the host cache with its rights, and its descriptor goes on; a successful page response repeats the
ATS request. An invalidation drops the range from the cache, advances the PASID's epoch, and translates stale undispatched
pieces again. A piece whose tag, SERIAL and executor match, current and with a current host entry, passes its check. An
executor's report retires its dispatched piece; a CPQ sample retires the pieces that the port has run, in order. Doorbells
and completion heads are taken modulo their rings. A held fault past its limit completes FAULT_UNMAPPED. -/
def Obligations.GateTranslationAndCheckComplete : Prop :=
  (∀ (s : State) (cp ctx queue : Nat) (raw : Bytes) (q : Queue), s.up = true → s.crossOpen (160 + cp) = true →
    tget s.gate.queues (qid ctx queue) = some q → q.stopped = false → (ctxAt s ctx).mode ≠ .frozen →
    let u := s.intake (160 + cp) 1
    let v : State := { u with gate.queues := tset u.gate.queues (qid ctx queue) { q with head := (q.head + 1) % max 1 q.ringSize } }
    exec (.submit cp ctx queue raw true) s = .next (queueOn { v with
      gate.nextDid := v.gate.nextDid + 1
      gate.descs := tset v.gate.descs v.gate.nextDid (newDesc v cp ctx queue q raw) } ctx queue)) ∧
  (∀ (s : State) (ctx queue : Nat), s.up = true →
    exec (.pendingPieceSeal ctx queue) s = .next (match waitingDesc s ctx queue Hold.isRoom with
      | some (did, d) => goOn s did d
      | none => queueOn s ctx queue)) ∧
  (∀ (s : State) (ctx queue did : Nat) (d : Desc), s.up = true → waitingDesc s ctx queue Hold.isWalk = some (did, d) →
    exec (.translationWalk ctx queue) s = .next (resumeDesc (walkFill s d) did true)) ∧
  (∀ (s : State) (ctx queue did p v hpa log2 : Nat) (d : Desc) (retried read write : Bool), s.up = true → s.crossOpen 128 = true →
    waitingDesc s ctx queue Hold.isAts = some (did, d) → slicePasid s d.slice = some p → d.hold = .ats retried false →
    hostNext d = some v → (if hostWrites d.raw then write else read) = true →
    exec (.atsCompletion ctx queue (.span hpa log2 read write)) s =
      .next (goOn (hostCacheAdd (s.heldIn 128) ⟨p, v / 2 ^ log2 * 2 ^ log2, hpa, log2, read, write, d.slice⟩) did d)) ∧
  (∀ (s : State) (ctx queue did p : Nat) (d : Desc) (right : Bool), s.up = true → s.crossOpen 128 = true →
    waitingDesc s ctx queue Hold.isPrg = some (did, d) → slicePasid s d.slice = some p →
    d.hold = .prg right →
    exec (.prgResponse ctx queue true) s =
      .next (holdDesc ((s.heldIn 129).emit (.atsRequest p ((hostNext d).getD 0))) did (.ats true false))) ∧
  (∀ (s : State) (pasid addr size : Nat), s.up = true → s.crossOpen 128 = true →
    let ep := (tgetD s.gate.pasidEpoch pasid 0 + 1) % 256
    let u := s.heldIn 128
    let v : State := { u with
      gate.hostCache := u.gate.hostCache.filter fun e =>
        !(e.pasid == pasid && decide (e.va < addr + size) && decide (addr < e.va + 2 ^ e.log2))
      gate.pasidEpoch := tset u.gate.pasidEpoch pasid ep
      gate.invalidations := u.gate.invalidations ++ [(pasid, addr, size)]
      gate.descs := u.gate.descs.map fun p =>
        if slicePasid u p.2.slice == some pasid && recordIn p.2 addr size then
          (p.1, { p.2 with
            host := if p.2.nextElem < p.2.total || p.2.reseal.isSome then [] else p.2.host
            hold := match p.2.hold with
              | .ats retried _ => .ats retried true
              | h => h })
        else p }
    exec (.atsInvalidate pasid addr size) s = .next (settle ((v.gate.seals.filter fun l => !l.2.dispatched &&
      (l.2.hostEntry.bind fun h => tget v.gate.hostList h).any fun e => e.pasid == pasid && e.epoch.toNat == ep).foldl
        (fun s l => resealStart s l.1 255) v))) ∧
  (∀ (s : State) (cp queueId : Nat) (desc : Bytes) (l : LiveSeal), s.up = true → s.crossOpen (160 + cp) = true →
    (s.gate.lostSeals.find? fun p => p.1 == fld desc 96 8) = none →
    tget s.gate.seals (fld desc 96 8 % 2 ^ 18) = some l → l.serial.toNat = fld desc 96 8 →
    desc.drop 144 = be 16 (sealTag s (desc.take 144) l.wrap (BitVec.ofNat 64 (fld desc 96 8))).toNat →
    l.dispatched = false → l.port = none → ctxCurrent s l.ctx l.gen = true →
    (tget s.gate.descs l.did).bind (·.reseal) = none → staleHost s l = false →
    exec (.check cp (execOf l.raw) queueId desc) s = .next (passCheck s (fld desc 96 8 % 2 ^ 18) cp)) ∧
  (∀ (s : State) (slot detail : Nat) (code : Code) (l : LiveSeal), s.up = true → tget s.gate.seals slot = some l →
    l.dispatched = true → execOf l.raw ≠ 5 → exec (.pieceRetire slot code detail) s = .next (retire s slot code detail)) ∧
  (∀ (s : State) (cp count : Nat), s.up = true →
    let q := tgetD s.gate.order cp []
    let e := ccEvents s (160 + cp) (160 + cp) count
    exec (.cpqDone cp count) s = .next ((q.take e.2).foldl (fun s serial =>
      match tget s.gate.seals (serial % 2 ^ 18) with
      | some l => if l.serial.toNat = serial ∧ l.dispatched = true then retire s (serial % 2 ^ 18) cOk 0
        else lateReport s (· == serial)
      | none => lateReport s (· == serial)) { e.1 with gate.order := tset s.gate.order cp (q.drop e.2) })) ∧
  (∀ (s : State) (ctx queue tail : Nat) (q : Queue), s.up = true → tget s.gate.queues (qid ctx queue) = some q →
    exec (.doorbell ctx queue tail) s = .next { s with
      gate.queues := tset s.gate.queues (qid ctx queue) { q with tail := tail % max 1 q.ringSize } } ∧
    exec (.cqHead ctx queue tail) s = .next { s with
      gate.queues := tset s.gate.queues (qid ctx queue) { q with chead := tail % max 1 q.cringSize } }) ∧
  (∀ (s : State) (ctx queue did since addr limit : Nat) (d : Desc), s.up = true →
    waitingDesc s ctx queue Hold.isFault = some (did, d) → d.hold = .fault since addr limit → since + limit * 1000000 ≤ s.ns →
    exec (.faultHoldLimit ctx queue) s = .next (queueOn (endDesc s did cFaultUnmapped 0 addr) ctx queue))

/-- R326, R350 to R355, R360, R371. QUEUE_CREATE of an unbound queue of a live context binds it to the context's generation and
slice with the rings and vector given. QUEUE_DESTROY stops the queue, drains its ring and, once no descriptor of it is left,
unbinds it and answers OK. WINDOW_EXPORT of a slice's object gives it remote rights that its own rights cover, and the least
free peer-set index with the nodes given. OBJECT_INFO answers the object's kind, size, holders and references and the
context's use of the tiers. A dispatched allocator descriptor of a current context, when it is its turn: ALLOC runs, ends and
lets held remainders resume; FREE of an object that the context holds drops the hold and marks its entries; EVENT_CREATE
within the slice's part makes an unsignalled event held by its creator; EVENT_FREE drops the context from the event's
holders. An idle object or event is released. -/
def Obligations.GateMailboxAndAllocatorComplete : Prop :=
  (∀ (s : State) (h : MbxHdr) (ctx queue ring ringSize cring cringSize vector : Nat),
    s.takesMailbox h 0x0301 true (le 2 ctx ++ le 1 queue ++ le 8 ring ++ le 4 ringSize ++ le 8 cring ++ le 4 cringSize ++
      le 2 vector) → queue < 64 → vector = 0 ∨ 33 ≤ vector ∧ vector ≤ 2047 →
    let u := mbxTaken s h
    (ctxAt u ctx).mode = .live → tget u.gate.queues (qid ctx queue) = none →
    exec (.queueCreate h ctx queue ring ringSize cring cringSize vector) s = .next (mbxAnswer { u with
      gate.queues := tset u.gate.queues (qid ctx queue)
        { gen := (ctxAt u ctx).gen, slice := (ctxAt u ctx).slice, ring := ring, ringSize := ringSize, head := 0, tail := 0,
          cring := cring, cringSize := cringSize, chead := 0, ctail := 0, vector := vector, stopped := false } }
      h 0x0301 cOk [])) ∧
  (∀ (s : State) (h : MbxHdr) (ctx queue : Nat) (undrained : List Bytes) (q : Queue),
    s.takesMailbox h 0x0302 true (le 2 ctx ++ le 1 queue) →
    let u := mbxTaken s h
    tget u.gate.queues (qid ctx queue) = some q →
    let v := drainRing (ringCount q) undrained
      { u with gate.queues := tset u.gate.queues (qid ctx queue) { q with stopped := true } } ctx queue
    let w := settle { v with gate.queues := tmod v.gate.queues (qid ctx queue) fun q => { q with head := q.tail } }
    w.gate.descs.any (fun d => d.2.ctx == ctx && d.2.queue == queue) = false →
    exec (.queueDestroy h ctx queue undrained) s =
      .next (mbxAnswer { w with gate.queues := tdel w.gate.queues (qid ctx queue) } h 0x0302 cOk [])) ∧
  (∀ (s : State) (h : MbxHdr) (handle rights i : Nat) (nodes : List Nat) (o : MemObj),
    s.takesMailbox h 0x0303 false (le 4 handle ++ le 1 rights ++ nodes.flatMap (le 2)) →
    let u := mbxTaken s h
    let r := bits rights 4 2
    sliceObj u (hslice h) handle = .ok (i, o) → (bit r 0 = true → bit o.rights 0 = true) →
    (bits r 2 1 ≠ 0 → bit o.rights 1 = true) → r ≠ 0 → o.peers = none →
    ((peerSets u).filter fun p => p.2.slice == hslice h).length < peerPart u (hslice h) →
    exec (.windowExport h handle rights nodes) s = .next (mbxAnswer { u with gate.objs := tset u.gate.objs i { o with
      rights := o.rights % 4 + 4 * r, peers := some (freePeer u, (nodes.take 240).foldl insertN []) } }
      h 0x0303 cOk (le 1 (freePeer u)))) ∧
  (∀ (s : State) (h : MbxHdr) (handle i : Nat) (o : MemObj), s.takesMailbox h 0x0304 false (le 4 handle) →
    let u := mbxTaken s h
    sliceObj u (hslice h) handle = .ok (i, o) →
    exec (.objectInfo h handle) s = .next (mbxAnswer u h 0x0304 cOk (le 1 o.kind ++ le 8 o.size ++ le 4 o.holders.length ++
      le 4 (objRefs u i o) ++ le 4 (ctxPages u h.ctxId) ++ le 4 (ctxRegions u h.ctxId)))) ∧
  (∀ (s : State) (slot : Nat) (l : LiveSeal), s.up = true → allocPiece s slot kAlloc = some l →
    exec (.alloc slot) s = .next (resumeHeld (endAlloc (runAlloc (allocServed s l) l) slot l) l.ctx)) ∧
  (∀ (s : State) (slot : Nat) (l : LiveSeal), s.up = true → allocPiece s slot kFree = some l →
    let i := objIndex (dBody l.raw 0 4)
    let u := dropHold (allocServed s l) l.ctx i
    objCheck (allocServed s l) l.ctx l.slice (dBody l.raw 0 4) = none →
    let freed : Table Mapping → Table Mapping := fun t =>
      t.map fun m => if m.2.kind ≠ 3 ∧ m.2.obj = i then (m.1, { m.2 with freeing := true }) else m
    exec (.free slot) s = .next (retire (countAlloc { u with
      gate.tops := tmod u.gate.tops l.ctx freed
      gate.maps := tmod u.gate.maps l.ctx freed
      gate.devCache := u.gate.devCache.filter fun e => !(e.1 == l.ctx && keyObj u l.ctx e.2.1 == some i) } cOk) slot cOk 0)) ∧
  (∀ (s : State) (index : Nat) (o : MemObj), s.up = true → tget s.gate.objs index = some o → objIdle s index o = true →
    exec (.objectRelease false index) s = .next (releaseObj s index)) ∧
  (∀ (s : State) (index : Nat) (e : EvtObj), s.up = true → tget s.gate.evts index = some e → evtIdle s index e = true →
    exec (.objectRelease true index) s = .next (releaseEvt s index)) ∧
  (∀ (s : State) (slot : Nat) (l : LiveSeal), s.up = true → allocPiece s slot kEventCreate = some l →
    let u := allocServed s l
    evtsUsed u l.slice < evtPart u l.slice →
    exec (.eventCreate slot) s =
      .next (endAlloc ((newEvent u l.slice l.ctx).1, ⟨cOk, 0, (newEvent u l.slice l.ctx).2, 0⟩) slot l)) ∧
  (∀ (s : State) (slot : Nat) (l : LiveSeal), s.up = true → allocPiece s slot kEventFree = some l →
    let u := allocServed s l
    evtCheck u l.ctx l.slice (dBody l.raw 0 4) = none →
    exec (.eventFree slot) s = .next (retire (countAlloc { u with
      gate.evts := tmod u.gate.evts (evtIndex (dBody l.raw 0 4)) fun e => { e with holders := eraseN e.holders l.ctx } } cOk)
      slot cOk 0))

/-- R363 to R368, R372 to R378, R316. On a page that takes the command: PASID_BIND of an existing slice with no PASID or no
context, and a PASID of fewer than 2^20 that no other slice has, with its bounce keys to be had where it comes into service
in a session, binds it. CONTEXT_CREATE below the quota of a slice with a PASID that is not frozen brings the picked id to
life and answers it with its generation. CONTEXT_DESTROY of a context that exists tears it down. EVENT_SHARE adds a live
context of the slice to the event's holders; EVENT_QUERY answers the event's state and code. MEMORY_SHARE of rights the
object has, at a VA that is free, puts the context into the object's group, rotates the regions that a context owned, and is
answered when that has ended. CTX_USAGE answers the counters of one context of the slice, or of the slice for CTX_ID 0.
SLICE_FREEZE of a tenant slice in service with no live alloy step freezes it and is answered when it has settled; SLICE_THAW
of a frozen slice thaws it. TENANT_SLICES of a legal value with no tenant context or object takes the value, the slices above
it leave service with their memory and digest keys (R98, R303), and the write is answered OK. -/
def Obligations.ContextAndSliceCommandsComplete : Prop :=
  (∀ (s : State) (h : MbxHdr) (slice pasid : Nat), s.takesMailbox h 0x0401 true (le 1 slice ++ le 4 pasid) →
    let u := mbxTaken s h
    sliceExists u slice = true → pasid < 2 ^ 20 → slicePasid u slice = none ∨ sliceCtxs u slice = 0 → pasidTaken u slice pasid = false →
    bounceRefused u slice = none →
    exec (.pasidBind h slice pasid) s = .next (mbxAnswer (bindPasid u slice pasid) h 0x0401 cOk [])) ∧
  (∀ (s : State) (h : MbxHdr) (slice id flags c : Nat), s.takesMailbox h 0x0402 true (le 1 slice ++ le 2 id ++ le 1 flags) →
    let u := mbxTaken s h
    sliceExists u slice = true → (slicePasid u slice).isSome = true → sliceFrozen u slice = false →
    sliceCtxs u slice < ctxQuota u slice → ctxPick u id = some c →
    exec (.contextCreate h slice id flags) s = .next (mbxAnswer (newContext u slice c flags) h 0x0402 cOk
      (le 2 c ++ le 2 (ctxAt u c).gen))) ∧
  (∀ (s : State) (h : MbxHdr) (id : Nat) (undrained : List (Nat × Bytes)), s.takesMailbox h 0x0403 true (le 2 id) →
    ctxExists (mbxTaken s h) id = true →
    exec (.contextDestroy h id undrained) s = .next (mbxAnswer
      (teardown (mbxTaken s h) id fun q => (undrained.filter fun u => u.1 == q).map (·.2)) h 0x0403 cOk [])) ∧
  (∀ (s : State) (h : MbxHdr) (handle other i : Nat) (e : EvtObj), s.takesMailbox h 0x0404 false (le 4 handle ++ le 2 other) →
    let u := mbxTaken s h
    sliceEvt u (hslice h) handle = .ok (i, e) → shareTarget u (hslice h) other = none →
    exec (.eventShare h handle other) s = .next (mbxAnswer
      { u with gate.evts := tset u.gate.evts i { e with holders := insertN e.holders other } } h 0x0404 cOk [])) ∧
  (∀ (s : State) (h : MbxHdr) (handle i : Nat) (e : EvtObj), s.takesMailbox h 0x0406 false (le 4 handle) →
    let u := mbxTaken s h
    sliceEvt u (hslice h) handle = .ok (i, e) →
    exec (.eventQuery h handle) s = .next (mbxAnswer u h 0x0406 cOk (le 1 e.state ++ [e.code]))) ∧
  (∀ (s u1 : State) (h : MbxHdr) (handle other va rights i g : Nat) (o : MemObj),
    s.takesMailbox h 0x0405 false (le 4 handle ++ le 2 other ++ le 8 va ++ le 1 rights) →
    let u := mbxTaken s h
    sliceObj u (hslice h) handle = .ok (i, o) → shareTarget u (hslice h) other = none →
    rights < 4 → (bit rights 0 = true → bit o.rights 0 = true) → (bit rights 1 = true → bit o.rights 1 = true) →
    shareVa u other va o = none → shareGroup u i o = some (u1, g) →
    ((tgetD u1.gate.groups g []).filter fun m => m.1 != other).length < 16 →
    let u2 := shareJoin u1 i g other rights
    let u3 := ((objRegions o).filter fun r => ((tget u2.mem.regions r).map (·.ownerKind)) == some 0).foldl
      (fun s r => queueRotation s r 1) u2
    exec (.memoryShare h handle other va rights) s = .next (settle
      { u3 with
        gate.sharing := u3.gate.sharing ++ [⟨i, other, va, rights, h⟩]
        mbx := tset u3.mbx h.page { mbxPage u3 h.page with busy := true } })) ∧
  (∀ (s : State) (h : MbxHdr) (id : Nat), s.takesMailbox h 0x0407 false (le 2 id) →
    let u := mbxTaken s h
    (id = 0 → exec (.ctxUsage h id) s = .next (mbxAnswer u h 0x0407 cOk
      (usageBody (fun i => tcount u.ctxs.sliceUsage (hslice h * 16 + i))
        (addAll (((u.ctxs.table.filter fun c => c.2.mode != .free && c.2.slice == hslice h).map (·.1)).map (ctxHolds u)))))) ∧
    (id ≠ 0 → ctxExists u id = true → (ctxAt u id).slice = hslice h → exec (.ctxUsage h id) s =
      .next (mbxAnswer u h 0x0407 cOk (usageBody (fun i => tcount u.ctxs.usage (id * 16 + i)) (ctxHolds u id))))) ∧
  (∀ (s : State) (h : MbxHdr) (slice tilesDone : Nat), s.takesMailbox h 0x0408 true (le 1 slice) →
    let u := mbxTaken s h
    sliceExists u slice = true → slice ≠ 0 → slice ≠ 31 → (tget u.ctxs.slices slice).map (·.state) = some 1 →
    sliceSteps u slice = false →
    let v := freezeWatches (freezeSlice u slice tilesDone) slice
    exec (.sliceFreeze h slice tilesDone) s = .next (settle
      { v with
        ctxs.freezing := v.ctxs.freezing ++ [(slice, h)]
        mbx := tset v.mbx h.page { mbxPage v h.page with busy := true } })) ∧
  (∀ (s : State) (h : MbxHdr) (slice : Nat), s.takesMailbox h 0x0409 true (le 1 slice) →
    let u := mbxTaken s h
    sliceExists u slice = true → (tget u.ctxs.slices slice).map (·.state) = some 3 →
    exec (.sliceThaw h slice) s = .next (mbxAnswer (thawSlice u slice) h 0x0409 cOk [])) ∧
  (∀ (s : State) (n : Nat), s.up = true → n ∈ ([1, 2, 4, 8, 16] : List Nat) → tenantsEmpty s = true →
    exec (.tenantSlices n) s = .next (answerWrite (capacity (rearm
      (((List.range 17).filter fun k => decide (n < k)).foldl sliceOut
        { s with
          dict.force := tset s.dict.force (ekey 0x4000 1) n
          ctxs.slices := s.ctxs.slices.filter fun x => x.1 == 0 || x.1 == 31 || decide (x.1 ≤ n)
          arb.rotBase := 0 })) 7 255 0) 0x4000 1 cOk))

/-- R379 to R384, R104, R112. SLICE_OFFER of a tenant slice, with fewer than four offers open, a healthy random source (R88) and
a hallmark made over the offer's digest, opens the offer with fresh ephemeral keys, writes it with its hallmark to host
memory, and answers its length. OFFER_EXPIRE of an offer past OFFER_LIFETIME removes it. SLICE_SAVE to this unit of a frozen
tenant slice whose tier-A objects its holders may read, whose image key and stored channel keys can be wrapped under the
operator key, signs and writes the image with those wrapped keys; SLICE_SAVE to a member, from an offer whose hallmark,
domain and policy pass and whose agreement completes, writes the image under the agreed key; each answers what writing it
answers. SLICE_RESTORE into an empty tenant slice in service that is not frozen, of an image that passes every check,
restores all of it and answers OK. -/
def Obligations.SliceMigrationCommandsComplete : Prop :=
  (∀ (s s1 : State) (h : MbxHdr) (slice hostAddr : Nat) (hall : Hallmark), s.takesMailbox h 0x040A true (le 1 slice ++ le 8 hostAddr) →
    let u := mbxTaken s h
    let nonce := u.drawn 256
    let k := kaKeys u.drew
    let body := offerBody unitId u.pow.sessionId slice nonce (Config.ecPoint k.2.1) (Config.kemKey k.2.2)
    notTenant u slice = none → (u.ctxs.offers.filter fun o => offerLive u o.2).length < 4 → u.vault.entropyOk = true → makeHallmark k.1 (offerDigest body) none true = (s1, some hall) →
    exec (.sliceOffer h slice hostAddr) s = .next (mbxAnswer
      (({ s1 with
          ctxs.offers := tset s1.ctxs.offers (leastFree s1.ctxs.offers 0)
            ({ slice := slice, body := body, nonce := nonce, ecPriv := k.2.1, kemPriv := k.2.2, madeAt := s1.ns,
               lifetime := setting s1 0x4002 1 } : Offer) } : State).emit (.hostWrite hostAddr (body ++ hallBytes hall)))
      h 0x040A cOk (le 4 (body ++ hallBytes hall).length))) ∧
  (∀ (s : State) (offer : Nat) (o : Offer), s.up = true → tget s.ctxs.offers offer = some o →
    o.madeAt + o.lifetime * 1000000000 ≤ s.ns →
    exec (.offerExpire offer) s = .next { s with ctxs.offers := tdel s.ctxs.offers offer }) ∧
  (∀ (s : State) (h : MbxHdr) (slice extents : Nat) (offer : Option (Nat × BitVec 64 × Nat × BitVec 256 × Point × KemBlob))
    (hall : Option Hallmark) (ks : KeySlot) (w : Key), s.takesMailbox h 0x040B true (le 1 slice ++ le 1 0 ++ le 8 extents) →
    let u := mbxTaken s h
    let u1 := needKey (putImageKey u.drew slice (u.drawn 256)) .oper
    let c := saveChans (spendKey u1.drew .oper 1 0) slice w
    notTenant u slice = none → (tget u.ctxs.slices slice).map (·.state) = some 3 → saveDenied u slice = none → u.vault.entropyOk = true →
    findKey u1 (.imageKey slice) = some ks → saveRefused u1 slice = none → key256 u1 .oper = some w →
    let r := writeImage c.1 slice extents (u.drawn 256)
      { saveContent u1 slice with blob := some (wrapBlob u1 ks (u.drawn 256) 8 w), chans := c.2 }
    exec (.sliceSave h slice 0 offer hall extents) s = .next (mbxAnswer r.1 h 0x040B r.2.1 r.2.2)) ∧
  (∀ (s s1 s2 : State) (h : MbxHdr) (slice extents : Nat) (o : Nat × BitVec 64 × Nat × BitVec 256 × Point × KemBlob)
    (hall own : Hallmark) (qr : Point) (ct : KemBlob) (ss : BitVec 384),
    s.takesMailbox h 0x040B true (le 1 slice ++ le 1 1 ++ le 8 extents) →
    let u := mbxTaken s h
    let body := offerBody o.1 o.2.1 o.2.2.1 o.2.2.2.1 o.2.2.2.2.1 o.2.2.2.2.2
    notTenant u slice = none → (tget u.ctxs.slices slice).map (·.state) = some 3 → saveDenied u slice = none → peerOk u o.1 body hall = true →
    kaRespond u o.2.2.2.2.1 o.2.2.2.2.2 = (s1, some (qr, ct, ss)) →
    let u0 := putImageKey s1 slice (left256 ss)
    (findKey u0 (.imageKey slice)).isSome = true → makeHallmark u0 o.2.2.2.1 none true = (s2, some own) →
    let r := writeImage s2 slice extents (left256 ss) { saveContent s2 slice with
      target := 1, dstUnit := o.1, domainId := s2.dom.domainId, offerDigest := offerDigest body, q := qr, ct := ct,
      hallmark := some own }
    exec (.sliceSave h slice 1 (some o) (some hall) extents) s = .next (mbxAnswer r.1 h 0x040B r.2.1 r.2.2)) ∧
  (∀ (s s1 : State) (slice extents : Nat) (k : Key) (m : SliceImage) (g : HybSig), signId s (imageHeader m) = (s1, some g) →
    let b := imageBytes k { m with signature := g }
    let t := dropKeys ((bumpSlice (hostCharge (saveReads s1 slice) slice 1 b.length) slice 10 b.length).emit (.hostWrite extents b))
      fun p => p == .imageKey slice
    writeImage s slice extents k m = ({ t with ctxs.imagesSaved := t.ctxs.imagesSaved + 1 }, cOk, le 8 b.length)) ∧
  (∀ (s : State) (h : MbxHdr) (slice : Nat) (image : SliceImage), s.takesMailbox h 0x040C true (le 1 slice) →
    let u := mbxTaken s h
    notTenant u slice = none → (slicePasid u slice).isSome = true → sliceCtxs u slice = 0 → sliceFrozen u slice = false →
    imageGood u slice image = true → imageFits u slice image = true → image.recordsOk = true →
    (∀ c ∈ image.chans, (unwrap u 3 c.2.2.2).isSome = true) →
    exec (.sliceRestore h slice image) s = .next (mbxAnswer (restoreAll u slice image) h 0x040C cOk []))

/-- R36, R37, R77, R395, R402 to R404, R407 to R409, R412, R422 to R427, R435, R437, R441. ARRAY_CLEAN in time raises the level
and the arbiter goes on. Tile events are counted for the running piece and, where the span is its slice's own, for the span.
1 ms after ARR_CUT without ARRAY_CLEAN is S3; 10 ms after the arbiter's reset is S4. An elapsed deferral lets its piece go
on; a tenant's or the operator's piece not started at its DEADLINE is completed REFUSED_DEADLINE. Each throttle window takes
the highest request, capped at 12, and posts a changed level. Capacity changes are posted and recorded in order. A cast is
armed through the arbiter, the TCU or a page; a stage acknowledgement before the fire time is held; a cancel before the
launch ends the cast CAST_CANCELLED. TIME_NOW answers session and domain time. COMMIT_AT and FREEZE_AT arm their casts. A
cast whose targets have all acknowledged fires at its time: strobe, report, watches and action; any other fails. -/
def Obligations.AdmissionAndCastCommandsComplete : Prop :=
  (∀ s : State, s.up = true → s.cross.arrayClean = false → s.crossOpen 192 = true → s.arb.paused = false →
    (s.arb.cutAt.any fun t => decide (t + 1500 < s.ns)) = false →
    exec .arrayClean s = .next (arbWake { s with
      cross.arrayClean := true, arb.cutAt := none, arb.cutSlot := none, arb.lateClean := false })) ∧
  (∀ (s : State) (count k : Nat), s.up = true → s.arb.runSlot = some k →
    let r := ccEvents s 192 192 count
    ((tget s.gate.seals k).map (·.slice) = spanOwner s → exec (.arrTileevt count) s = .next { r.1 with
      arb.pieceTiles := tbump r.1.arb.pieceTiles k r.2, arb.tiles := r.1.arb.tiles + r.2 }) ∧
    ((tget s.gate.seals k).map (·.slice) ≠ spanOwner s → exec (.arrTileevt count) s = .next { r.1 with
      arb.pieceTiles := tbump r.1.arb.pieceTiles k r.2 })) ∧
  (∀ (s : State) (t : Nat), s.up = true → s.cross.arrayClean = false → s.arb.cutAt = some t → t + 1000000 ≤ s.ns →
    exec .arrayCleanTimeout s = .next (raise
      (if s.arb.lateClean then s else notice { s with arb.lateClean := true } 1 77 uArb 0)
      { unit := uArb, cls := 3, cause := 441, aux := [47, 48] } 0 0)) ∧
  (∀ (s : State) (t : Nat), s.up = true → s.cross.arrayClean = false → s.err.arbResetAt = some t → t + 10000000 ≤ s.ns →
    exec .arrayRecoveryTimeout s =
      .next (raise { s with err.arbResetAt := none } { unit := uArb, cls := 4, cause := 441, aux := [47, 48] } 0 0)) ∧
  (∀ (s : State) (slot cp t : Nat) (l : LiveSeal), s.up = true → tget s.gate.seals slot = some l → l.deferUntil = some t → t ≤ s.ns →
    l.port = some cp → l.dispatched = false → l.waiting = false →
    exec (.deferralExpire slot) s =
      .next (passCheck { s with gate.seals := tset s.gate.seals slot { l with deferUntil := none } } slot cp)) ∧
  (∀ (s : State) (slot d : Nat) (l : LiveSeal), s.up = true → tget s.gate.seals slot = some l → l.slice ≠ 0 →
    started s slot l = false → l.deadline = some d → d < s.domNs →
    exec (.deadlineWithdraw slot) s = .next (retire (failHeld s l cRefusedDeadline) slot cRefusedDeadline 0)) ∧
  (∀ s : State, s.up = true →
    let u := bump s s.arb.throttle 1
    let v := if s.arb.throttle = s.arb.throttlePrev then u
      else postAll u evThrottle ((u.domNs / 1000000 - 1) % 65536 * 65536 + s.arb.throttle * 4096 + s.arb.throttleCause)
    let t := min 12 (max u.health.throttleReq (setting u 0x4014 3))
    let w : State := { v with
      arb.levelAt := if t = s.arb.throttle then s.arb.levelAt else u.domNs / 1000000 * 1000000
      arb.throttlePrev := s.arb.throttle, arb.throttle := t, arb.throttleCause := throttleCause u t }
    exec .throttleWindow s =
      .next (if w.domNs < usableEnd w then arbWake w else cutArray w fun l => l.slice != 0)) ∧
  (∀ s : State, s.up = true → exec .capacityChange s = .next (s.arb.capacityPending.foldl
    (fun s w => record { (bump (postAll s evCapacity w) 16 1) with dict.capacityLast := w } 0x0062 7 srcDevice (le 4 w))
    { s with arb.capacityPending := [] })) ∧
  (∀ (s : State) (kind flags fire param : Nat), s.up = true →
    exec (.castArm .arbiter kind flags fire param) s = .next (armCast s ownArb kind flags fire param none).1 ∧
    exec (.castArm .tcu kind flags fire param) s = .next (armCast s ownTcu kind flags fire param none).1) ∧
  (∀ (s : State) (h : MbxHdr) (kind flags fire param : Nat), s.up = true →
    s.takesMailbox h 0x0501 false (le 1 kind ++ le 1 flags ++ le 2 0 ++ le 8 fire ++ le 8 param) →
    let u := mbxTaken s h
    let r := armCast u (hslice h) kind flags fire param (some (h.ctxId, (ctxAt u h.ctxId).gen))
    flags < 2 → headerCtx u h = true → r.2.1 = cOk →
    exec (.castArm (.mailbox h 0) kind flags fire param) s =
      .next (mbxAnswer r.1 h 0x0501 cOk (le 2 r.2.2.1 ++ le 2 r.2.2.2.1 ++ le 8 r.2.2.2.2))) ∧
  (∀ (s : State) (number target : Nat) (c : Cast), s.aon = true → tget s.casts.table number = some c →
    c.targets.contains target = true → c.resting = false → s.ns < c.fire →
    exec (.castStageAck number target) s = .next { (netAck s target .stage (le 2 number)) with
      casts.table := tset (netAck s target .stage (le 2 number)).casts.table number { c with acked := insertN c.acked target } }) ∧
  (∀ (s : State) (h : MbxHdr) (number seq : Nat) (c : Cast), s.takesMailbox h 0x0502 false (le 2 number ++ le 2 seq) →
    let u := mbxTaken s h
    tget u.casts.table number = some c → c.owner = hslice h → c.seq = seq → c.resting = false →
    exec (.castCancel h number seq) s =
      .next (mbxAnswer (castReport u number c cCastCancelled) h 0x0502 cCastCancelled [])) ∧
  (∀ (s : State) (h : MbxHdr), s.takesMailbox h 0x0503 false [] →
    let u := mbxTaken s h
    exec (.timeNow h) s = .next (mbxAnswer u h 0x0503 cOk (le 8 u.pow.sessionId.toNat ++ le 8 u.ns ++ le 8 u.domNs))) ∧
  (∀ (s : State) (time : Nat), s.up = true →
    (let r := armCast s ownTcu 6 1 (castWhen s time) 0 none
     exec (.commitAt time) s = .next (answerWrite r.1 0x3002 1 r.2.1)) ∧
    (let r := armCast s ownTcu 3 1 (castWhen s time) 0 none
     exec (.freezeAt time) s = .next (answerWrite r.1 0x3002 2 r.2.1))) ∧
  (∀ (s : State) (number : Nat) (c : Cast), s.up = true → tget s.casts.table number = some c → c.resting = false → c.fire ≤ s.ns →
    ((c.fireInv = 2 ^ 64 - 1 - c.fire ∧ ∀ t ∈ c.targets, t ∈ c.acked) → exec (.castFire number) s = .next (castAction
      (openWatches (castReport (s.emit (.castStrobe number)) number c cOk) number c.seq) number c)) ∧
    (¬ (c.fireInv = 2 ^ 64 - 1 - c.fire ∧ ∀ t ∈ c.targets, t ∈ c.acked) →
      exec (.castFire number) s = .next (castMissed (castReport s number c cCastFailed) c)))

/-- R76, R409, R473 to R478, R480. An array fault that marks a core failed vacates it. MAP_FILL of a vacant core with a spare on
its die has the spare tested; a spare that passes is staged and its cast armed; a spare that fails is marked and the next one
tested, or NO_SPARE. MAP_ROLE of the granted role after STATE_MANIFEST stages it. MAP_VACANT answers the generation and the
vacancies. -/
def Obligations.UnitMapCommandsComplete : Prop :=
  (∀ (s : State) (code core : Nat), s.up = true → code < 256 → core < 4608 →
    let r := ccEvents (s.heldIn 194) 193 192 1
    r.2 ≠ 0 → exec (.arrFaultevt code core true) s = .next (vacateCore r.1 core (some (eventStamp s 192)))) ∧
  (∀ (s : State) (core time spare : Nat), s.up = true → s.boot.testing = none → s.boot.stagedFill = none →
    s.boot.vacant.contains core = true → pickSpare s core = some spare →
    exec (.mapFill core time) s = .next { s.emit (.mapCoreLoad spare) with
      boot.testing := some (core, spare, time) }) ∧
  (∀ (s : State) (l c t : Nat), s.up = true → s.boot.testing = some (l, c, t) →
    let u : State := { s with boot.testing := none }
    (s.boot.spares.contains c = true →
      let r := stageMap { u with boot.stagedFill := some (l, c) } t
      r.2.1 = cOk → exec (.spareCheckDone true) s = .next (answerWrite r.1 0x4020 3 cOk)) ∧
    (exec (.spareCheckDone false) s = .next (match pickSpare (markFailed u c) l with
      | none => answerWrite (markFailed u c) 0x4020 3 cNoSpare
      | some c' => testSpare (markFailed u c) l c' t))) ∧
  (∀ (s : State) (h : MbxHdr) (role time : Nat) (d : Nat × Nat × Nat) (g : RoleGrant), s.takesMailbox h 0x0604 true (le 4 role ++ le 8 time) →
    let u := mbxTaken s h
    u.dom.manifest = some (role, d) → u.dom.roleGrant = some g →
    let r := stageMap { u with boot.stagedRole := some role } time
    r.2.1 = cOk → exec (.mapRole h role time) s = .next (mbxAnswer r.1 h 0x0604 cOk (le 2 r.2.2))) ∧
  (∀ (s : State) (h : MbxHdr), s.takesMailbox h 0x0605 false [] →
    let u := mbxTaken s h
    exec (.mapVacant h) s = .next (mbxAnswer u h 0x0605 cOk (le 4 u.boot.mapGen.toNat ++
      le 512 (packBits ((List.range 4096).map fun i => u.boot.vacant.contains i)))))

/-- R467 to R470, R481. TRAIN_SAVE of whole entries by the management processor writes them into the start record; TRAIN_LOAD
opens the record; TRAIN_DATA advances the cursor and takes a written word. RETRAIN of ports whose spares are free is noted
and answered. -/
def Obligations.TrainingCommandsComplete : Prop :=
  (∀ s : State, s.up = true →
    let words := s.boot.trainWords.take s.boot.trainCursor
    4 * words.length ≤ 163840 → trainOk (4 * words.length) (wordBytes words) = true →
    exec (.trainSave true) s =
      .next (writeStart { s with boot.trainCmd := 1, boot.trainCursor := 0, boot.trainWords := [] } words)) ∧
  (∀ s : State, s.aon = true → s.pow.iod = true →
    exec .trainLoad s = .next { s with
      boot.trainCmd := 2, boot.trainCursor := 0, boot.trainReady := (startNow s).isSome } ∧
    exec (.trainData none) s = .next { s with boot.trainCursor := (s.boot.trainCursor + 1) % 2 ^ 18 } ∧
    ∀ w, s.boot.trainCmd ≠ 2 → exec (.trainData (some w)) s = .next { s with
      boot.trainCursor := (s.boot.trainCursor + 1) % 2 ^ 18
      boot.trainWords := s.boot.trainWords.take s.boot.trainCursor ++
        List.replicate (s.boot.trainCursor - s.boot.trainWords.length) 0 ++ [w] ++
        s.boot.trainWords.drop (s.boot.trainCursor + 1) }) ∧
  (∀ (s : State) (ports : BitVec 32), s.up = true →
    (∀ p < 18, ports.getLsbD p = true → (portAt s p).spareState ≠ 1 ∧ (portAt s p).spareState ≠ 3) →
    exec (.retrain ports) s =
      .next (answerWrite { s with boot.retrain := s.boot.retrain ||| ports, boot.retrainReq := true } 0x6010 1 cOk))

/-- R80, R417 to R419. TREF locked with no edge accepted in the last second is FREE; its loss is NO_REF. A TPULSE edge is ignored
until TREF is locked; then an accepted edge is taken and any other is rejected. -/
def Obligations.TimeReferenceCommandsComplete : Prop :=
  (∀ s : State, s.aon = true → s.time.trefLocked = false →
    (s.time.lastEdge.any fun e => decide (s.ns < e / 1000 + 1000000000)) = false →
    exec .trefLock s = .next (timeTo { s with time.trefLocked := true } 1)) ∧
  (∀ s : State, s.aon = true → s.time.trefLocked = true →
    exec .trefLoss s = .next (timeTo { s with time.trefLocked := false, time.lostAt := s.ns } 0)) ∧
  (∀ (s : State) (at125ps : Nat), s.aon = true →
    let e := at125ps * 125
    let u : State := { s with time.now := max s.time.now (e * 2 ^ 32 / 1000) }
    (s.time.trefLocked = false → exec (.tpulseEdge at125ps) s = .next s) ∧
    (s.time.trefLocked = true → edgeOk u.time e = true → exec (.tpulseEdge at125ps) s = .next (takeEdge u e)) ∧
    (s.time.trefLocked = true → edgeOk u.time e = false → exec (.tpulseEdge at125ps) s = .next (rejectEdge u e)))

/-- R416, R417, R420. In LOCKED, three expected edges without an accepted one are HOLDOVER; 1 s without an accepted edge, TREF
locked, is FREE; the virtual edge is the last whole millisecond; TIME_LO latches the rest of the same tick. -/
def Obligations.TimeBaseCommandsComplete : Prop :=
  (∀ (s : State) (e : Nat), s.aon = true → s.time.lastEdge = some e →
    (s.time.state = 3 → e / 1000 + 3002000 ≤ s.ns → exec .tpulseMissing s = .next (timeTo s 4)) ∧
    (s.time.trefLocked = true → e / 1000 + 1000000000 ≤ s.ns → exec .tpulseSilence s = .next (timeTo s 1))) ∧
  (∀ s : State, s.aon = true → s.time.virtual = true →
    exec .virtualEdge s = .next { s with time.virtualEdge := s.ns / 1000000 * 1000000 }) ∧
  (∀ s : State, s.aon = true → exec .timeLo s = .next { s with
    time.latchHi := BitVec.ofNat 32 (s.ns / 2 ^ 32)
    time.latchFrac := BitVec.ofNat 32 (s.time.now % 2 ^ 32 / 2 ^ 16 * 2 ^ 16) })

/-- R432. A clock domain, not in reset, whose heartbeat has not advanced for 1 µs is STOPPED, with a STOP record of the last
advance and of the sample that declared it; the first sample that shows an advance ends the stop, with a RESUME record of its
time and the stop's length. -/
def Obligations.ClockDomainCommandsComplete : Prop :=
  (∀ (s : State) (i : Nat), s.aon = true → i < 50 → tget s.casts.stopped i = none → domainInReset s i = false →
    exec (.clkdStop i) s = .next (record { s with
      casts.stopped := tset s.casts.stopped i (s.ns - 1000, s.ns)
      casts.stops := tset s.casts.stops i (tgetD s.casts.stops i 0 + 1)
      casts.lastAdvance := tset s.casts.lastAdvance i (s.ns - 1000) }
      0x0044 7 srcTime (le 1 i ++ le 8 (s.ns - 1000) ++ le 8 s.ns ++ le 8 0))) ∧
  (∀ (s : State) (i last since : Nat), s.aon = true → tget s.casts.stopped i = some (last, since) →
    exec (.clkdResume i) s = .next (record { s with
      casts.stopped := tdel s.casts.stopped i, casts.lastAdvance := tset s.casts.lastAdvance i s.ns }
      0x0045 7 srcTime (le 1 i ++ le 8 last ++ le 8 s.ns ++ le 8 (s.ns - last))))

/-- R17, R38, R39, R60 to R66, R68, R439 to R447, R453. A neighbour's RST settles its items, empties the VTC's half and raises
VFLUSH; its release drops both and items resume. A FLUSH of an asserted VRST flushes the crossing; 1 ms without it the VTC
records the late flush and goes on. The oldest unacknowledged network message of a link's direction, rejected or 2 µs old, is
sent again, its third failure is S3 or S4. An error latched by a unit, with no rule of its own, is raised with its class,
cause and scope; closing an S0 to S2 error closes its bank. A TCU restart, a lockstep mismatch (S3) and a handler's missed
deadline restart the TCU. An engine reset begins with its VRST, a pewter engine's with the write-back of its dirty nodes; a
partition reset resets its slice, the third within 60 s not caused by an open error being S4. A chip warm reset begins unless
it is the third error-caused one in 10 minutes (one that comes before the levels of the first have dropped merges with it,
R62), which asks for a power cycle. A due notice repeats. A quench is S5. A release that every check passes clears the quench
and makes a chip reset due. -/
def Obligations.ResetNoticeErrorAndResetCommandsComplete : Prop :=
  (∀ (s : State) (g : Group) (index : Nat), s.up = true → s.pow.iod = true → index < groupSize g →
    let n := groupLevel g index
    (s.cross.nrst.contains n = false →
      let u := neighbourDown { s with
        cross.nrst := insertN s.cross.nrst n, cross.vflush := insertN s.cross.vflush n } g index
      exec (.neighbourRst g index) s = .next (settleResets { u with cross := u.cross.empty n })) ∧
    (s.cross.nrst.contains n = true → exec (.neighbourRstRelease g index) s = .next (neighbourUp (presentHeld { s with
      cross.nrst := eraseN s.cross.nrst n, cross.vflush := eraseN s.cross.vflush n }) g index))) ∧
  (∀ (s : State) (g : Group) (index : Nat), s.aon = true → index < groupSize g → s.cross.vrst.contains (groupLevel g index) = true →
    exec (.neighbourFlush g index) s = .next (flushed s g index) ∧
    ∀ t, levelFlushed s (groupLevel g index) = false → tget s.cross.vrstAt (groupLevel g index) = some t → t + 1000000 ≤ s.ns →
      exec (.nflushLate g index) s = .next (flushed (record
        { s with
          cross.late := true, cross.lateCount := sat 15 (s.cross.lateCount + 1), cross.lateIndex := index
          cross.lateGroup := groupCode g }
        1 0 (groupUnit g index) (errDetail 61 (groupUnit g index) index (le 1 (groupCode g) ++ le 1 index))) g index)) ∧
  (∀ (s : State) (r : Resend) (m : NetMsg) (rest : List NetMsg), s.up = true →
    let l := netLink s r.leaf
    (l.dir r.fromLeaf).sent = m :: rest → l.failed = false → (r.rejected = true ∨ m.sentAt + 2000 ≤ s.ns) →
    (m.tries + 1 < 3 → exec (.networkResend r) s = .next { s.emit (.networkMessage r.leaf m.seq.toNat) with
      net := tset s.net r.leaf (l.setDir r.fromLeaf (NetDir.take { (l.dir r.fromLeaf) with
        sent := { m with tries := m.tries + 1, sentAt := s.ns } :: rest } m.seq)) }) ∧
    (3 ≤ m.tries + 1 → exec (.networkResend r) s = .next (raise
      { s with net := tset s.net r.leaf { l with
          down := { l.down with sent := [] }, up := { l.up with sent := [] }, failed := true, failedBefore := true } }
      { unit := r.leaf, cls := if 0x40 ≤ r.leaf || l.failedBefore then 4 else 3, cause := 39 } 0 0))) ∧
  (∀ (s : State) (unit cls cause whereAt : Nat) (scope : ErrScope), s.up = true → unitExists unit = true → cls ≤ 5 →
    cause ∉ ([49, 231, 272, 286, 299] : List Nat) →
    exec (.errorLatch unit cls cause whereAt scope) s = .next (raise s
      { unit := unit, cls := cls, cause := cause, whereAt := whereAt, scope := scope
        slice := match scope with
          | .partition n => some n
          | .context c => some (ctxAt s c).slice
          | _ => none
        ctx := match scope with
          | .context c => some (c, (ctxAt s c).gen)
          | _ => none }
      (latchKill unit cause) (checkCode cause))) ∧
  (∀ (s : State) (unit : Nat) (o : OpenErr), s.up = true → s.pow.tcuDown = false → tget s.err.banks unit = some o → o.cls ≤ 2 →
    exec (.errorClose unit) s = .next (closeBank s unit (if o.cls = 2 then 1 else 0) false)) ∧
  (∀ s : State, s.up = true →
    (∀ c, c ≠ .exception → exec (.tcuRestart c) s = .next (tcuRestart s c)) ∧
    exec (.tcuRestart .exception) s = .next (tcuRestart (raiseS3 s uTcu 440 0) .exception) ∧
    exec .lockstepMismatch s = .next (tcuRestart (raise s { unit := uTcu, cls := 3, cause := 440 } 0 0) .lockstep)) ∧
  (∀ (s : State) (unit d : Nat) (o : OpenErr), s.up = true → tget s.err.banks unit = some o → handlerDeadline o = some d →
    o.latchedAt + d ≤ s.ns →
    (o.cls = 4 → exec (.handlerDeadlineMiss unit) s = .next (chipDue { s with pow.tcuDown := true } unit)) ∧
    (o.cls ≠ 4 → 1 ≤ o.restarts → exec (.handlerDeadlineMiss unit) s = .next (raiseS4 s unit 439 o.whereAt)) ∧
    (o.cls ≠ 4 → o.restarts = 0 → exec (.handlerDeadlineMiss unit) s = .next (tcuRestart (sentinelError s 3 450) .deadline))) ∧
  (∀ (s : State) (unit : Nat) (pools : List (Nat × List Nat)), s.up = true → unitExists unit = true → unit ≠ uTcu → resetting s unit = false →
    (¬ (0x20 ≤ unit ∧ unit < 0x24) → exec (.engineReset unit pools) s = .next (beginReset s (.engine unit pools))) ∧
    (0x20 ≤ unit ∧ unit < 0x24 → exec (.engineReset unit pools) s = .next (pewterClose s (unit - 0x20) pools))) ∧
  (∀ (s : State) (slice : Nat), s.up = true → sliceExists s slice = true →
    (s.err.banks.any (fun b => b.2.cls == 3 && b.2.scope == .partition slice) = true →
      exec (.partitionReset slice) s = .next (partitionReset s slice)) ∧
    (s.err.banks.any (fun b => b.2.cls == 3 && b.2.scope == .partition slice) = false →
      let u : State := { s with err.partitionTimes := (slice, s.ns) :: s.err.partitionTimes }
      exec (.partitionReset slice) s = .next
        (if 3 ≤ recent u u.err.partitionTimes slice then raiseS4 u uTcu 440 slice else partitionReset u slice))) ∧
  (∀ (s : State) (c : ChipCause), s.aon = true → s.pow.heldInReset = false → s.pow.iod = true → chipWaits s = false →
    s.boot.wasReset = false →
    exec (.chipWarmReset c) s = .next (if errorCaused c = true ∧ 2 ≤ chipWindow s then powerCycle s else chipReset s c)) ∧
  (∀ (s : State) (b : Bytes) (rest : List Bytes), s.aon = true → s.err.noticePending = b :: rest → s.err.noticeAt + 10000000 ≤ s.ns →
    exec .noticeRepeat s = .next (canNotice { s with
      err.noticePending := rest, err.noticeAt := s.err.noticeAt + 10000000, err.noticeRepeats := s.err.noticeRepeats - 1
      err.lastNotice := b } b)) ∧
  (∀ (s : State) (unit check whereAt : Nat), s.up = true → unitExists unit = true →
    exec (.quench unit check whereAt) s = .next (raise s
      { unit := unit, cls := 5, cause := if check = 5 ∨ check = 6 then 272 else 287, whereAt := whereAt } 0 check)) ∧
  (∀ (s : State) (r : SignedReq), s.aon = true → lcBusy s = false → s.lc.lockout = false →
    (r.length = 7508 ∧ r.format = 0x20 ∧ r.reserved = 0 ∧ r.opens = 0 ∧ r.newBinding = 0 ∧ r.scope = 0) →
    releaseSigner r = true → s.pow.quenched = true → r.unitId = unitId → r.fromCode = s.lc.code → r.sessionId = s.pow.sessionId →
    nonceNow s = some r.nonce → signerOk s r = true → hybOk r.signerKey (reqBytes r) r.signature = true →
    exec (.quenchRelease r) s = .next { lcResult s 0x7F00 3 1 with
      pow.quenched := false, pow.ready := false, err.coldForced := true, pow.pendingChip := some 0x100 })

/-- R444, R449, R450, R457. A TCU beat that is the next number with its complement, from TCU firmware and with no restart
waiting, is taken; one of the management processor likewise; any other is counted as ignored. With the sentinels watching: 5
ms without a TCU beat restarts the TCU with the sentinel's S3; 50 ms, counted from the last beat, the management processor's
missing beat, its heartbeat not armed 10 s after ready, and a start with no beat 5 s after its t0, each make the sentinel's
chip warm reset due, S4. One sentinel that finds the other silent records S1 and goes on alone. -/
def Obligations.HeartbeatAndSentinelCommandsComplete : Prop :=
  (∀ (s : State) (beat : BitVec 16), s.aon = true → s.pow.iod = true →
    (beat = s.err.hbTcu + 1 → tcuWaits s = false → exec (.hbTcu true beat (~~~beat)) s = .next (tcuBeat s beat)) ∧
    (beat = s.err.hbMgmt + 1 → exec (.hbMgmt true beat (~~~beat)) s = .next { s with
      err.hbMgmt := beat, err.mgmtBeatAt := some s.ns, err.armMgmt := true }) ∧
    (∀ inv, exec (.hbTcu false beat inv) s = .next { s with err.ignoredBeats := s.err.ignoredBeats + 1 } ∧
      exec (.hbMgmt false beat inv) s = .next { s with err.ignoredBeats := s.err.ignoredBeats + 1 }) ∧
    (∀ inv, inv ≠ ~~~beat → exec (.hbTcu true beat inv) s = .next { s with err.ignoredBeats := s.err.ignoredBeats + 1 } ∧
      exec (.hbMgmt true beat inv) s = .next { s with err.ignoredBeats := s.err.ignoredBeats + 1 })) ∧
  (∀ (s : State) (t : Nat), watched s = true → s.err.tcuBeatAt = some t →
    (s.err.arm5 = true → t + 5000000 ≤ s.ns → exec .tcuBeatTimeout5ms s = .next (tcuRestart (sentinelError s 3 450) .sentinel)) ∧
    (s.err.arm50 = true → t + 50000000 ≤ s.ns → exec .tcuBeatTimeout50ms s =
      .next (sentinelChip { s with pow.tcuDown := true, err.arm50 := false, err.arm5 := false }))) ∧
  (∀ (s : State) (t : Nat), watched s = true → s.err.armMgmt = true → s.err.mgmtBeatAt = some t →
    t + setting s 0x7F01 2 * 1000000 ≤ s.ns →
    exec .mgmtHbTimeout s = .next (sentinelChip { s with err.armMgmt := false })) ∧
  (∀ s : State, watched s = true → s.pow.pendingChip = none →
    (s.pow.ready = true → s.err.armMgmt = false → s.err.readyAt + 10000000000 ≤ s.ns →
      exec .mgmtHbNotArmed s = .next (sentinelChip s)) ∧
    (s.boot.starts ≠ 0 → s.boot.wasReset = false → s.err.startBeat = false → s.err.startAt + 5000000000 ≤ s.ns →
      exec .startBeatTimeout s = .next (sentinelChip { s with pow.tcuDown := true }))) ∧
  (∀ s : State, s.aon = true →
    (s.err.sentB = true → exec (.sentinelSilent true) s = .next (sentinelError { s with err.sentB := false } 1 450)) ∧
    (s.err.sentA = true → exec (.sentinelSilent false) s = .next (sentinelError { s with err.sentA := false } 1 450)))

/-- R457, R462 to R465, R471, R480, R485, R486, R490, R492, R493, R498, R526, R539. RESET_REQUEST and DUMP_ENABLE in an envelope
that passes every check set LC_RESULT 1, apply their value and are answered with its verdict. An image that passes every
check of R463 becomes the patch area's and is answered DONE; an image chunk within the buffer is put into it; a commit
presents the assembled image and answers its reason; AFW_LOAD of a page below 16,384 with no broadcast and no fill armed
begins one; AFW_CTRL_GO of an image that passes write-locks its pages, switches the loader in and hands it place, length and
CRC. A health plan reads the gauges, acts, raises what it finds in the order of R18 and counts itself. A creep record that is
due is written. A management write of OPTICS_IN is taken; a word not written for 1 s is stale, once. A VHOLD sample sets the
level, the mode and the arming. PFAIL_N freezes, writes the ingot of its mode under the storage key, or none, zeroises, and
saves, the IOD and CDIE rails taken as falling (log 87). -/
def Obligations.EnvelopeFirmwareAndHealthCommandsComplete : Prop :=
  (∀ (s : State) (e : Envelope), s.up = true ∨ dictMode s = 1 → envCheck s 0x7F01 1 e = 1 →
    let a := resetValue (lcSet s 1 true) e.value
    exec (.resetRequest e) s = .next (answer a.1 0x82 0x7F01 1 a.2.1 a.2.2 (if a.2.1 = 0 then 1 else 0) [])) ∧
  (∀ (s : State) (e : Envelope), s.up = true → envCheck s 0x7200 2 e = 1 →
    let a := dumpValue (lcSet s 1 true) e.value
    exec (.dumpEnable e) s = .next (answer a.1 0x82 0x7200 2 a.2.1 a.2.2 (if a.2.1 = 0 then 1 else 0) [])) ∧
  (∀ (s : State) (i : Image), takesImage s = true → imageCheck s i 1 = 0 →
    let u := imageRecord { s with boot.fwResult := 0 } i 0
    exec (.fwImage i) s = .next (answer { u with
      boot.area := some i, boot.areaValid := true, boot.pending := u.boot.running != some i
      pow.pendingChip := if s.boot.loader then some 0x100 else u.pow.pendingChip } 0x82 0x2010 1 0 cOk 0 [])) ∧
  (∀ (s : State) (h : MbxHdr) (offset : Nat) (data : Bytes), s.boot.loader = false →
    s.takesMailbox h 0x0601 true (le 4 offset ++ data) → data.length ≤ 960 → offset + data.length ≤ 2097152 →
    let u := mbxTaken s h
    exec (.fwChunk h offset data) s = .next (mbxAnswer { u with
      boot.chunkBuf := fit offset u.boot.chunkBuf ++ data ++ u.boot.chunkBuf.drop (offset + data.length) } h 0x0601 cOk [])) ∧
  (∀ (s : State) (h : MbxHdr) (total : Nat), s.boot.loader = false → s.takesMailbox h 0x0602 true (le 4 total) →
    let r := presentImage (mbxTaken s h) (parseImage (fit (min total 2097153) (mbxTaken s h).boot.chunkBuf))
    exec (.fwCommit h total) s = .next (mbxAnswer { r.1 with boot.chunkBuf := [] } h 0x0602
      (if r.2 = 0 then cOk else cImageInvalid) (le 4 r.2))) ∧
  (∀ (s : State) (h : MbxHdr) (page : Nat), s.takesMailbox h 0x0603 true (le 2 page) → page < 16384 →
    (mbxTaken s h).boot.afwBusy = false → (mbxTaken s h).boot.fillArmed = none →
    exec (.afwLoad h page) s = .next (mbxAnswer { mbxTaken s h with
      boot.afwSrc := page, boot.afwBusy := true } h 0x0603 cOk [])) ∧
  (∀ (s : State) (i : Image) (coresFailed : List Nat), s.up = true → s.boot.fillArmed = none →
    let u := lockPages (unlockPages { s with boot.afwBusy := false }) (7552 + i.bodyLen)
    let v := (arrayCut (imageRecord u i 0)).emit (.arrSwitch 0 0 0)
    imageCheck u i 2 = 0 → exec (.afwCtrlGo i coresFailed) s = .next (loadFailures
      { (v.emit (.afwBroadcast (v.boot.afwSrc * 2 ^ 26 + 7552) i.bodyLen (crc64 i.body))) with
        boot.afwResult := 0, boot.afwFailed := coresFailed.length, boot.afwDigest := i.bodyDigest
        boot.afwVersion := i.version } coresFailed)) ∧
  (∀ (s : State) (gauges : List GaugeRead), s.up = true →
    let gs := (gauges.take 64).zipIdx
    let u := excludeGauges s gs
    let fs := usedGauges u.1 gs
    let f := healthFlags (publishGauges u.1 fs) fs
    let p := allUnits.foldl (planUnit fs) (publishMargins f.1 fs, [])
    let v := planOptics (planThrottle p.1 (throttleLevels p.1 fs (!p.2.isEmpty)), u.2 ++ f.2 ++ p.2)
    let w : State := { raiseAll v.1 v.2 with health.plans := (s.health.plans + 1) % 256, health.raiseOnly := false }
    exec (.healthPlan gauges) s = .next (if planOutputs w = planOutputs s then w else planRecord w)) ∧
  (∀ s : State, s.up = true → s.health.creepAt ≤ s.ns →
    exec .creepRecord s = .next (record { s with health.creepAt := s.ns + 86400000000000 } 0x0050 7 srcHealth
      (le 2 s.health.maxCreep ++ le 2 (median ((s.health.gauges.filter fun g => !g.2.excluded).map (·.2.creep))) ++
        le 1 s.health.worst))) ∧
  (∀ (s : State) (port : Nat) (word : BitVec 32), s.up = true → port < 18 →
    (let u : State := { s with
       health.optics := tset s.health.optics port (word &&& 0x3FFFFFFF#32), health.opticsAt := tset s.health.opticsAt port s.ns
       health.opticsRec := tdel s.health.opticsRec (staleKey port) }
     exec (.opticsIn true port word) s = .next { u with health.opticsStale := (List.range 18).any (opticsStaleAt u) }) ∧
    (opticsStaleAt s port = false → tgetD s.health.opticsAt port s.err.readyAt + 1000000000 ≤ s.ns →
      exec (.opticsStale port) s = .next (latch { s with
        health.opticsRec := tset s.health.opticsRec (staleKey port) s.ns, health.opticsStale := true }
        { unit := port, cls := 0, cause := 490, whereAt := port, source := some srcHealth }))) ∧
  (∀ (s : State) (mv : Nat), s.aon = true →
    let armed := decide (4800 ≤ mv)
    let u : State := { s with health.vholdMv := mv, health.modeAvail := holdMode mv, health.armed := armed }
    exec (.vholdSample mv) s = .next
      (if armed = s.health.armed ∨ (s.health.vholdMv = 0 ∧ s.health.armed = false) then u
       else latch u { unit := uTcu, cls := if armed then 0 else 1, cause := 492, whereAt := mv, source := some srcHold })) ∧
  (∀ (s : State) (e : SaveEnv), s.aon = true → s.pow.saving = false → s.pow.iod = true →
    let u := freezeNow (memberDown { s with pins.pfailLow := true } 5 s.pow.tcuDown) 3
    let ends (r : State × Nat) (mode : Nat) : State :=
      let v := resetRec (zeroiseKeys (dropCasts r.1)) 5 0xFF 7 none
      { v with
        pow.saving := true, pow.iod := false, pow.cdieA := false, pow.cdieB := false
        cross.vrst := [], cross.vflush := [], cross.vrstAt := [], cross.resets := [], cross.held := []
        err.arm5 := false, err.arm50 := false, health.saves := v.health.saves + 1
        health.lastMode := mode, health.lastResult := r.2, health.lastDuration := e.durationUs / 10
        health.lastEndMv := e.endMv }
    (∀ key, canSave s = some key → 4200 ≤ e.startMv →
      exec (.pfailN e) s = .next (ends (writeIngot u (holdMode e.startMv) e key) (holdMode e.startMv))) ∧
    (canSave s = none ∨ e.startMv < 4200 →
      exec (.pfailN e) s = .next (ends ({ u with health.unsaved := some 3 }, 3) 0)))

/-- R425, R501 to R510, R543. With NEXT and its complement in agreement and the leadbox ready, the oldest queued record is
written under the next number, and a DROP record follows where records were dropped. A mismatch of NEXT is S1, and the scan
rebuilds it. The folds and cast counts of seconds that have ended become their records. A write of LBX_CURSOR_HI applies both
halves; with AUTO set the last window word advances the cursor. LBX_VERIFY notes result, state and number of the slot under
the cursor, a failed tag being S1. LBX_NEXT_LO latches the high half. Over the dictionary, while it is served, LBX_RECORD
returns the record at its cursor and LBX_CURSOR sets that cursor. -/
def Obligations.LeadboxCommandsComplete : Prop :=
  (∀ (s : State) (r : LbxRec) (rest : List LbxRec), s.aon = true → s.lbx.queue = r :: rest → nextOk s = true → s.lbx.ready = true →
    exec .leadboxRecord s = .next (dropRecord (writeRec { s with lbx.queue := rest } r false)) ∧
    tget (writeRec { s with lbx.queue := rest } r false).lbx.slots (lbxSlotOf s.lbx.next.toNat) = some (recSlot { s with lbx.queue := rest } r false)) ∧
  (∀ s : State, s.aon = true →
    exec .nextComplementMismatch s = .next (runScan (latch s { unit := uTcu, cls := 1, cause := 505, source := some srcLbx }))) ∧
  (∀ s : State, s.aon = true → exec .summaryFold s = .next (castSummaries
    ((s.lbx.folds.filter fun f => decide (f.first / 1000000000 < s.ns / 1000000000)).foldl foldRecord
      { s with lbx.folds := s.lbx.folds.filter fun f => !(decide (f.first / 1000000000 < s.ns / 1000000000)) }))) ∧
  (∀ (s : State) (hi : BitVec 32), s.pow.iod = true →
    exec (.lbxCursorHi hi) s = .next { s with lbx.cursor := hi ++ s.lbx.cursorLo } ∧
    (s.lbx.auto = true → exec .lbxWindowAuto s = .next { s with lbx.cursor := s.lbx.cursor + 1 }) ∧
    exec .lbxNextLo s = .next { s with lbx.nextHi := BitVec.ofNat 32 (s.lbx.next.toNat / 2 ^ 32) } ∧
    (let n := s.lbx.cursor.toNat
     let u : State := { s with
       lbx.verifyResult := recVerify s n, lbx.verifyState := recState s n
       lbx.verifySeq := (slotUnder s n).seq.toNat % 65536 }
     exec .lbxVerify s = .next (if recVerify s n = 3 then
       latch u { unit := uTcu, cls := 1, cause := 508, whereAt := n, source := some srcLbx } else u))) ∧
  (∀ (s : State) (n : Nat), dictMode s ≠ 0 →
    exec .lbxRecord s = .next (answer (lbxRead s).1 0x81 0x7000 3 0 cOk 0 (lbxRead s).2) ∧
    exec (.lbxCursor n) s = .next (answerWrite { s with lbx.dictCursor := BitVec.ofNat 64 n } 0x7000 2 cOk))

/-- R85, R511 to R513, R515, R516, R518, R522, R524. With the counters powered, FREEZE_IN is a freeze trigger, and a read of
FRZ_TIME_LO or of a live counter's low word latches its high word. On a page that takes it, WATCH_ARM below the slice's
share, with rights to its context, event and cast, a dump only where the context is debuggable and dumps are enabled, its VAs
mapped and its fields valid, arms the watch under the least free number. WATCH_CANCEL of a watch of the header's own context
removes it, counts it closed, and signals its event CAST_CANCELLED. DIGEST_ROTATE with no digest watch open advances the
digest generation and answers it; with one open it waits. A watch open for its timeout closes. -/
def Obligations.FreezeAndWatchCommandsComplete : Prop :=
  (∀ s : State, countersUp s = true →
    exec .freezeIn s = .next (freezeTrigger s 1) ∧
    exec .frzTimeLo s = .next { s with cnt.freezeHi := BitVec.ofNat 32 (s.cnt.freezeTime.toNat / 2 ^ 32) } ∧
    ∀ i < 1040, exec (.liveCounterLo (64 + 8 * i)) s =
      .next { s with cnt.latchHi := BitVec.ofNat 32 (tcount s.cnt.live i / 2 ^ 32) }) ∧
  (∀ (s : State) (h : MbxHdr) (b : WatchBody), s.takesMailbox h 0x0701 false (watchBytes b) →
    let u := mbxTaken s h
    watchUse u (hslice h) < watchQuota u (hslice h) → u.watch.table.length < 256 → watchRights u h b = none →
    (bit b.modes 2 = true → (ctxAt u h.ctxId).debuggable = true ∧ setting u 0x7200 2 = 1) → watchMapped u h.ctxId b = true →
    watchValid b = true →
    exec (.watchArm h b) s = .next (mbxAnswer (armWatch u h b).1 h 0x0701 cOk (le 2 (leastFree u.watch.table 0))) ∧
    (tget (armWatch u h b).1.watch.table (leastFree u.watch.table 0)).map (·.body) = some b) ∧
  (∀ (s : State) (h : MbxHdr) (n : Nat) (w : Watch), s.takesMailbox h 0x0702 false (le 2 n) →
    let u := mbxTaken s h
    tget u.watch.table n = some w → w.slice = hslice h → w.ctx = h.ctxId →
    exec (.watchCancel h n) s = .next (mbxAnswer (settle (signal { u with
      watch.table := tdel u.watch.table n, watch.closed := u.watch.closed + 1 } w.body.event cCastCancelled)) h 0x0702 cOk [])) ∧
  (∀ (s : State) (h : MbxHdr), s.takesMailbox h 0x0703 false [] →
    let u := mbxTaken s h
    (digestOpen u (hslice h) = false →
      let v := rotateDigest u (hslice h)
      exec (.digestRotate h) s = .next (mbxAnswer v h 0x0703 cOk (le 4 (genAt v.vault.digestGen (hslice h)).toNat))) ∧
    (digestOpen u (hslice h) = true →
      let v : State := { u with watch.rotateWaiting := u.watch.rotateWaiting ++ [h] }
      exec (.digestRotate h) s = .next { v with mbx := tset v.mbx h.page { mbxPage v h.page with busy := true } })) ∧
  (∀ (s : State) (n t : Nat) (w : Watch), s.up = true → tget s.watch.table n = some w → w.openAt = some t →
    t + w.timeoutMs * 1000000 ≤ s.ns → exec (.watchTimeout n) s = .next (closeWatch s n w))

/-- R532, R533, R535 to R538, R540, R159, R88. While frames pass: a read of an entry that is served, exists and may be read
answers its value, and one of LC_NONCE a fresh nonce while the random source is good; a description answers the entry's
bytes; a write that its INITIATE admits is whole at 48 bytes or fewer, else opens a transfer. -/
def Obligations.DictionaryInitiatesComplete : Prop :=
  (∀ (s : State) (rq txn index sub : Nat) (shadow : Bool) (e : Entry), canUp s = true →
    let u := s.heldIn 224
    initiateCheck u rq txn index sub (served u index sub) = none → canEntry index sub = some e → e.access ≠ .wo →
    (ekey index sub ≠ 0x200003 →
      let r := if shadow then readShadow u index sub else readValue u index sub
      exec (.initiateRead rq txn index sub shadow) s =
        .next (answerRead r.1 (if shadow then 0x91 else 0x81) rq txn index sub r.2)) ∧
    (ekey index sub = 0x200003 → u.vault.entropyOk = true → exec (.initiateRead rq txn index sub shadow) s = .next (answerRead
      { u.drew with lc.nonce := some (u.drawn 256, u.ns) } (if shadow then 0x91 else 0x81) rq txn index sub (be 32 (u.drawn 256).toNat)))) ∧
  (∀ (s : State) (rq txn index sub : Nat) (e : Entry), canUp s = true →
    let u := s.heldIn 224
    initiateCheck u rq txn index sub (served u index sub) = none → canEntry index sub = some e →
    exec (.initiateDescribe rq txn index sub) s = .next (canReply u rq txn 0x87 index sub 0 (describeBytes index sub e))) ∧
  (∀ (s : State) (rq txn index sub total : Nat) (crc : BitVec 32) (data : Bytes), canUp s = true →
    let u := s.heldIn 224
    writeCheck u rq txn index sub total = none →
    let t : Transfer := ⟨nodeAddr u, rq, txn, true, index, sub, total, crc, fit (min total 48) data, 0, 0, u.ns⟩
    exec (.initiateWrite rq txn index sub total crc data) s =
      .next (if total ≤ 48 then endWrite u t else { u with dict.transfers := u.dict.transfers ++ [t] }))

/-- R532 to R535. The next segment of a write goes in, acknowledged in blocks of 16, and the last one ends it; an acknowledgement
of a read moves it on and the last one closes it; an abort ends its transfer with the result it carries; 100 ms without a
frame end it abandoned. -/
def Obligations.DictionaryTransferFramesComplete : Prop :=
  (∀ (s : State) (rq txn : Nat) (data : Bytes) (t : Transfer), canUp s = true →
    let u := s.heldIn 224
    transferOf u rq txn = some t → t.write = true →
    let t1 : Transfer := { t with
      data := t.data ++ fit (min 56 (t.total - t.data.length)) data, segno := t.segno + 1, lastAt := u.ns }
    exec (.mdtSegment rq txn (t.segno + 1) data) s =
      .next (if t1.data.length = t.total then endWrite (dropTransfer u rq txn) t1
        else if (t.segno + 1) % 16 = 0 then ackFrame (setTransfer u t1) t1 else setTransfer u t1)) ∧
  (∀ (s : State) (rq txn next : Nat) (t : Transfer), canUp s = true →
    let u := s.heldIn 224
    transferOf u rq txn = some t → t.write = false → t.acked + 1 ≤ next → next ≤ t.segno + 1 →
    let t1 : Transfer := { t with acked := next - 1, lastAt := u.ns }
    exec (.mdtAck rq txn next) s =
      .next (if t1.data.length ≤ 44 + 56 * t1.acked then dropTransfer u rq txn
        else setTransfer (sendSegments 16 u t1).1 (sendSegments 16 u t1).2)) ∧
  (∀ (s : State) (rq txn result : Nat) (t : Transfer), canUp s = true → transferOf (s.heldIn 224) rq txn = some t →
    exec (.mdtAbort rq txn result) s = .next (endTransfer (s.heldIn 224) t result false)) ∧
  (∀ (s : State) (rq txn : Nat) (t : Transfer), dictMode s ≠ 0 → transferOf s rq txn = some t → t.lastAt + 100000000 ≤ s.ns →
    exec (.transferTimeout rq txn) s = .next (endTransfer s t 0xA true))

/-- R529 to R531, R541, R542. ADDRESS_ASSIGN of this unit in full service writes the address and answers from the old one; a
status frame is sent and numbered. Bus-off abandons the transfers and is counted; recovery sends one missed notice. A
configuration that differs from its copy is stored. -/
def Obligations.ManagementNetworkCommandsComplete : Prop :=
  (∀ (s : State) (address : Nat), canUp s = true → 1 ≤ address → address ≤ 63 → servedWrite (s.heldIn 224) 0x1100 1 = true →
    exec (.addressAssign unitId address) s =
      .next (writeSetting 0x1100 1 (canReply (s.heldIn 224) 0 0 0x82 0x1100 1 0 []) (le 1 address)).1) ∧
  (∀ s : State, canUp s = true → exec .statusFrame s = .next { s.emit (.can (0x080 + nodeAddr s) (statusBytes s)) with
    dict.statusSeq := s.dict.statusSeq + 1 }) ∧
  (∀ s : State, s.aon = true → s.pow.iod = true → s.cross.busOff = false →
    exec .mgtBusoff s = .next { abandonTransfers s with
      cross.busOff := true, dict.busOffCount := (abandonTransfers s).dict.busOffCount + 1 }) ∧
  (∀ s : State, s.cross.busOff = true →
    let u : State := { s with cross.busOff := false, dict.noticeInBusOff := false }
    (s.dict.noticeInBusOff = true ∧ s.err.lastNotice ≠ [] →
      exec .busOffRecovery s = .next (canNotice u (s.err.noticePending.head?.getD s.err.lastNotice))) ∧
    (¬ (s.dict.noticeInBusOff = true ∧ s.err.lastNotice ≠ []) → exec .busOffRecovery s = .next u)) ∧
  (∀ s : State, s.up = true → configStale s = true → exec .configStore s = .next (storeConfig s))

/-- R13, R14, R26, R137, R172, R544. Over a page, a permitted entry is read or described. A register write by the host goes to
the mailbox BAR, one by the TCU or the management processor to its unit window, and one by the debug port or the test DMA
engine outside the cipher pages is a violation. -/
def Obligations.PageAndRegisterAccessesComplete : Prop :=
  (∀ (s : State) (h : MbxHdr) (index sub slice i b : Nat) (e : Entry), mbxSliceBad h slice = false →
    mbxEntry h index sub slice = some (i, b) → canEntry i b = some e →
    let u := mbxTaken s h
    (s.takesMailbox h 0x0801 (decide (h.page = 0)) (le 2 index ++ le 1 sub ++ le 1 slice) →
      exec (.dictRead h index sub slice) s = .next (mbxAnswer (readValue u i b).1 h 0x0801 cOk
        (le 1 e.type.code ++ le 2 ((readValue u i b).2.take 960).length ++ (readValue u i b).2.take 960))) ∧
    (s.takesMailbox h 0x0802 (decide (h.page = 0)) (le 2 index ++ le 1 sub ++ le 1 slice) →
      exec (.dictDescribe h index sub slice) s = .next (mbxAnswer u h 0x0802 cOk (describeBytes i b e)))) ∧
  (∀ (s : State) (addr : Nat) (value : BitVec 32), s.aon = true → s.pow.iod = true → addr % 4 = 0 →
    (2 ^ 24 ≤ addr → exec (.registerWrite addr value byHost) s = .next (writeBar s (addr - 2 ^ 24) value)) ∧
    (addr < 2 ^ 24 → ∀ m, m = byTcu ∨ m = byMgmt → exec (.registerWrite addr value m) s = .next (writeWindow s addr value m)) ∧
    (addr < 2 ^ 24 → ¬ (0x280000 ≤ addr ∧ addr < 0x284000) → ∀ m, m = byDebug ∨ m = byTest →
      exec (.registerWrite addr value m) s = .next (protectViolation s m 2 addr)))
end

