-- ==== Sys2Proof/Laws/Bytes.lean ====
section
/-!
SUPPORT. Laws/Bytes.lean: what the byte strings, the counter mode, GCM, the domain-key envelopes, the hybrid signatures and the hallmarks
do: what was written is read back, what was sealed opens, and what a key signed verifies.
-/
namespace Sys2Proof.Machine

theorem le_length (n v : Nat) : (le n v).length = n := by induction n generalizing v <;> simp [le, *]

@[simp] theorem be_length (n v : Nat) : (be n v).length = n := by simp [be, le_length]

theorem leNat_le (n v : Nat) : leNat (le n v) = v % 256 ^ n := by
  induction n generalizing v with
  | zero => simp [le, leNat]; omega
  | succ n ih =>
    simp only [le, leNat, ih, BitVec.toNat_ofNat]
    have e : v % (2 ^ 8) = v % 256 := rfl
    rw [e, Nat.pow_succ', ← Nat.mod_mul]

/-- A number written most significant byte first is read back (R12). -/
theorem beNat_be (n v : Nat) (h : v < 256 ^ n) : beNat (be n v) = v := by
  simp [beNat, be, leNat_le, Nat.mod_eq_of_lt h]

theorem ctrBytes_length (k : Key) (c : BitVec 128) (n : Nat) : (ctrBytes k c n).length = n := by
  have h : ∀ l : List Nat, (l.flatMap fun i => ofBlock (aesBlock k (inc32 c i))).length = l.length * 16 := by
    intro l; induction l with
    | nil => rfl
    | cons a l ih => rw [List.flatMap_cons, List.length_append, ih, List.length_cons, ofBlock, be_length]; omega
  rw [ctrBytes, List.length_take, h, List.length_range]; omega

theorem xorBytes_back (a b : Bytes) (h : a.length ≤ b.length) : xorBytes (xorBytes a b) b = a := by
  induction a generalizing b with
  | nil => simp [xorBytes]
  | cons x a ih =>
    cases b with
    | nil => simp at h
    | cons y b =>
      have := ih b (by simpa using h)
      simp [xorBytes] at *
      rw [this]

/-- What GCM sealed, it opens (R28). -/
theorem gcmOpen_seal (k : Key) (iv : BitVec 96) (aad pt : Bytes) :
    gcmOpen k iv aad (gcmSeal k iv aad pt).1 (gcmSeal k iv aad pt).2 = some pt := by
  have l : (xorBytes pt (ctrStream k iv pt.length)).length = pt.length := by
    unfold ctrStream; simp [xorBytes, ctrBytes_length]
  simp only [gcmOpen, gcmSeal, l, if_true]
  rw [xorBytes_back _ _ (by unfold ctrStream; simp [ctrBytes_length])]

/-- A ciphertext opens under its own tag. -/
theorem gcmOpen_own (k : Key) (iv : BitVec 96) (aad ct : Bytes) :
    gcmOpen k iv aad ct (gcmTag k iv aad ct) = some (xorBytes ct (ctrStream k iv ct.length)) := if_pos rfl

/-- A domain-key envelope opens under the key that sealed it (R190). -/
theorem openEnv_seal (w k : Key) (i e d : Nat) (h : i ≤ 1) : openEnv w (sealEnv w k i e d) = some k := by
  have g : gcmOpen w (envIv (sealEnv w k i e d).index) (envHead (sealEnv w k i e d)) (sealEnv w k i e d).body
      (sealEnv w k i e d).tag = some (be 32 k.toNat ++ be 4 (kcv k).toNat) := gcmOpen_seal w (envIv i) _ _
  unfold openEnv
  rw [if_neg (by simp [sealEnv]; omega), g]
  simp
  rw [beNat_be 4 _ (by have := (kcv k).isLt; omega), beNat_be 32 _ (by have := k.isLt; omega)]
  simp

theorem append_low {n m : Nat} (a : BitVec n) (b : BitVec m) : (a ++ b).setWidth m = b := by
  ext i h; simp [BitVec.getLsbD_append, h]

theorem append_high {n m : Nat} (a : BitVec n) (b : BitVec m) : (a ++ b).extractLsb' m n = a := by
  ext i h; simp [BitVec.getLsbD_append, BitVec.getLsbD_eq_getElem h]

/-- The base point is on the curve. -/
theorem onCurve_base : Config.onCurve Config.basePoint = true := by decide +kernel

/-- The point of a private key passes the checks of R147. -/
@[simp] theorem onCurve_ecPoint (d : BitVec 384) : Config.onCurve (Config.ecPoint d) = true := by
  unfold Config.ecPoint; split
  · assumption
  · exact onCurve_base

/-- So does the point of a key that the boot ROM's digests name. -/
@[simp] theorem pointValid_hybOnCurve (k : HybKey) : pointValid (hybPoint (Config.hybOnCurve k)) = true := by
  unfold Config.hybOnCurve pointValid hybPoint; split
  · assumption
  · rw [append_high]; exact onCurve_base

/-- And that of an identity key. -/
@[simp] theorem pointValid_pub (k : IdentKeys) : pointValid (hybPoint k.pub) = true := by
  simp only [pointValid, hybPoint, IdentKeys.pub, append_high, onCurve_ecPoint]

/-- What the holder of a key with a valid point signed verifies (R143, R144, R147). -/
theorem hybOk_sign (k : HybKey) (m : Bytes) (secret : BitVec 384) (hedge : BitVec 256) (hp : pointValid (hybPoint k) = true) :
    hybOk k m (hybSign k m secret hedge) = true := by
  simp only [hybOk, ecdsaOk, mldsaOk, hybSign, hp]
  generalize Config.mldsaC k hybCtx (hybMsg m) hedge = c
  generalize Config.ecdsaR secret = r
  rw [append_low, append_high, append_low, append_high]; simp

theorem cHead_len (j n : Nat) : (cHead j n).length ≤ 9 := by
  unfold cHead; (repeat' split) <;> simp [be_length]

theorem cMap_len (l : List (Bytes × Bytes)) : (cMap l).length ≤ 9 + (l.map fun p => p.1.length + p.2.length).sum := by
  have h : ∀ l : List (Bytes × Bytes), (l.flatMap fun p => p.1 ++ p.2).length = (l.map fun p => p.1.length + p.2.length).sum := by
    intro l; induction l <;> simp [List.flatMap_cons, *]; omega
  rw [cMap, List.length_append, h]; exact Nat.add_le_add_right (cHead_len _ _) _

theorem cArr_len (l : List Bytes) (n : Nat) (h : ∀ b ∈ l, b.length ≤ n) : (cArr l).length ≤ 9 + l.length * n := by
  have g : l.flatten.length ≤ l.length * n := by
    induction l with
    | nil => simp
    | cons a l ih =>
      have := h a (by simp); have := ih fun b m => h b (by simp [m])
      simp only [List.flatten_cons, List.length_append, List.length_cons, Nat.succ_mul]; omega
  have := cHead_len 4 l.length
  rw [cArr, List.length_append]; omega

/-- A hallmark without an endorsement is far below the 13,312 bytes of R181. -/

theorem hall_short (h : Hallmark) (he : h.endorse = none) (hs : h.stepping.length = 2) : (hallBytes h).length ≤ 13312 := by
  have cu : ∀ n, (cUint n).length ≤ 60 := fun n => Nat.le_trans (cHead_len 0 n) (by decide)
  have cn : ∀ n, (cNeg n).length ≤ 9 := fun n => cHead_len 1 _
  have cb : ∀ (b : Bytes) n, b.length ≤ n → (cBytes b).length ≤ 9 + n := fun b n e => by
    rw [cBytes, List.length_append]; exact Nat.add_le_add (cHead_len _ _) e
  have ct : ∀ (b : Bytes) n, b.length ≤ n → (cText b).length ≤ 9 + n := fun b n e => by
    rw [cText, List.length_append]; exact Nat.add_le_add (cHead_len _ _) e
  have b48 : ∀ v, (cBytes (be 48 v)).length ≤ 60 := fun v => Nat.le_trans (cb _ 48 (by simp [be_length])) (by decide)
  have b32 : ∀ v, (cBytes (be 32 v)).length ≤ 60 := fun v => Nat.le_trans (cb _ 32 (by simp [be_length])) (by decide)
  have pl : (hallPayload h).length ≤ 6500 := by
    unfold hallPayload
    refine Nat.le_trans (cMap_len _) ?_
    have a1 := cArr_len [cText h.stepping, cUint 1] 60 (by simp [cu]; exact Nat.le_trans (ct _ 2 (by omega)) (by decide))
    have a2 := cArr_len [cUint h.session.toNat, cUint h.signTime] 60 (by simp [cu])
    have a3 := cArr_len [cUint h.lcCode.toNat, cUint h.debugMark, cUint h.scope.toNat, cUint h.debugOpens] 60 (by simp [cu])
    have a4 := cArr_len [cUint h.fwCounter, cBytes (be 48 h.fwDigest.toNat), cBytes (be 48 h.patchDigest.toNat),
      cBytes (be 48 h.afwDigest.toNat)] 60 (by simp [cu, b48])
    have a5 := cArr_len [cUint h.shareMode, cUint h.tenants, cBytes (be 32 h.schedDigest.toNat), cUint h.mapGen,
      cUint h.coresInService] 60 (by simp [cu, b32])
    have k := cb (be 2689 h.idKey.toNat) 2689 (by simp [be_length])
    have e0 := cb [] 0 (by simp)
    have t1 := ct (ascii "tag:gyondist.invalid,2029:vtc/hallmark/1") 40 (by decide)
    have t2 := cb (ascii "SHUSEL-9/VTC") 12 (by decide)
    have n1 := b32 h.nonce.toNat
    have m : ((h.bind.map fun b => (cNeg 70009, cBytes (be 48 b.toNat))).toList.map fun p => p.1.length + p.2.length).sum ≤ 69 := by
      cases h.bind with
      | none => simp
      | some b => have := cn 70009; have := b48 b.toNat; simp; omega
    rw [List.map_append, List.sum_append]
    simp only [List.map_cons, List.map_nil, List.sum_cons, List.sum_nil, he, Option.map_none, Option.getD_none]
    simp only [List.length_cons, List.length_nil] at a1 a2 a3 a4 a5
    have := cu 10; have := cu 265; have := cu 259; have := cu 260; have := cu 261; have := cu 263
    have := cu h.uptime; have := cu h.dbgstat; have := cu h.unitId
    have := cn 70001; have := cn 70002; have := cn 70003; have := cn 70004; have := cn 70005; have := cn 70006
    have := cn 70007; have := cn 70008
    cases h.domain with
    | none => have n := (show cNull.length ≤ 1 by decide); dsimp only; omega
    | some d =>
      have a6 := cArr_len [cUint d.domainId, cUint d.epoch, cUint d.term, cUint d.role, cBytes (be 32 d.policyDigest.toNat)] 60
        (by simp [cu, b32])
      simp only [List.length_cons, List.length_nil] at a6
      dsimp only; omega
  have pr : (hallProt h).length ≤ 300 := by
    unfold hallProt
    refine Nat.le_trans (cMap_len _) ?_
    have := cu 1; have := cn 70100; have := cu 4; have := cb (be 8 h.unitId) 8 (by simp [be_length])
    simp; omega
  have sg : (sigBytes h.signature).length ≤ 4723 := by simp [sigBytes, be_length]
  have := cb _ _ pl; have := cb _ _ pr; have := cb _ _ sg; have := cMap_len []
  have := cHead_len 6 18; have := cHead_len 4 4
  simp [hallBytes, coseSign1, cArr] at *; omega

/-- A unit with its identity and a random source, and no endorsement, makes any hallmark. -/

theorem makeHallmark_met (s : State) (k : HybKey) (nonce : BitVec 256) (bind : Option Dig384) (tenant : Bool)
    (hk : identity s = some k) (he : s.dom.endorsement = none) (hr : s.vault.entropyOk = true) :
    ∃ t h, makeHallmark s nonce bind tenant = (t, some h) := by
  have hp : pointValid (hybPoint k) = true := by
    simp only [identity] at hk
    split at hk
    · obtain ⟨i, -, rfl⟩ := Option.map_eq_some_iff.mp hk; exact pointValid_pub i
    · cases hk
  have sh := hall_short (hallClaims s k nonce bind tenant) he (by simp [hallClaims, be_length])
  unfold makeHallmark
  simp only [hk, Nat.not_lt.mpr sh, if_false]
  simp [signId, signWith, hk, hr, hybOk_sign k _ _ _ hp]

end Sys2Proof.Machine
end

