-- ==== Sys2Proof/Laws/Held.lean ====
section
/-!
SUPPORT. Held.lean: for every operation that the commands share, one lemma: it leaves the parts of the state that few commands
change as they are.
-/
namespace Sys2Proof.Machine

/-- The parts of the state that few commands change: the queue, both copies of the life-cycle record and the used tokens, the
session and its rails, session time and its state, the stored configuration, helper data and endorsement;
and, beside these, the pools. -/
def State.held (s : State) :
    ((List Instr × LcCopy × LcCopy × List Nat) × (Bool × Bool × Bool × Bool × BitVec 64) × (Nat × Nat) ×
      (Table ConfigCopy × Option Helper × Option Helper × Option Endorsement)) × Table Pool :=
  (((s.pending, s.lc.primary, s.lc.mirror, s.lc.tokensUsed),
    (s.pow.sessionOpen, s.pow.iod, s.pow.cdieA, s.pow.cdieB, s.pow.sessionId),
    (s.time.now, s.time.state), (s.dict.copies, s.vault.helperA, s.vault.helperB, s.dom.endorsement)), s.pools)

@[simp] theorem held_mk (t : State) (f o pw pi cr ne er lb cn wa di mb ho ga ct va ci lc dm li al me ta ar tm ca bo he)
    (h1 : pw.sessionOpen = t.pow.sessionOpen) (h2 : pw.iod = t.pow.iod) (h3 : pw.cdieA = t.pow.cdieA)
    (h4 : pw.cdieB = t.pow.cdieB) (h5 : pw.sessionId = t.pow.sessionId) (h6 : tm.now = t.time.now)
    (h7 : tm.state = t.time.state) (h9 : di.copies = t.dict.copies)
    (h10 : va.helperA = t.vault.helperA) (h11 : va.helperB = t.vault.helperB) (h12 : dm.endorsement = t.dom.endorsement)
    (h13 : lc.primary = t.lc.primary) (h14 : lc.mirror = t.lc.mirror) (h15 : lc.tokensUsed = t.lc.tokensUsed) :
    State.held ⟨t.pending, f, o, pw, pi, cr, t.pools, ne, er, lb, cn, wa, di, mb, ho, ga, ct, va, ci, lc, dm, li, al, me, ta,
      ar, tm, ca, bo, he⟩ = t.held := by
  simp only [State.held, h1, h2, h3, h4, h5, h6, h7, h9, h10, h11, h12, h13, h14, h15]

@[simp] theorem kept_mk (t : State) (f o pw pi cr po ne er lb cn wa di mb ho ga ct va ci lc dm li al me ta ar tm ca bo he)
    (h1 : pw.sessionOpen = t.pow.sessionOpen) (h2 : pw.iod = t.pow.iod) (h3 : pw.cdieA = t.pow.cdieA)
    (h4 : pw.cdieB = t.pow.cdieB) (h5 : pw.sessionId = t.pow.sessionId) (h6 : tm.now = t.time.now)
    (h7 : tm.state = t.time.state) (h9 : di.copies = t.dict.copies)
    (h10 : va.helperA = t.vault.helperA) (h11 : va.helperB = t.vault.helperB) (h12 : dm.endorsement = t.dom.endorsement)
    (h13 : lc.primary = t.lc.primary) (h14 : lc.mirror = t.lc.mirror) (h15 : lc.tokensUsed = t.lc.tokensUsed) :
    (State.held ⟨t.pending, f, o, pw, pi, cr, po, ne, er, lb, cn, wa, di, mb, ho, ga, ct, va, ci, lc, dm, li, al, me, ta,
      ar, tm, ca, bo, he⟩).1 = t.held.1 := by
  simp only [State.held, h1, h2, h3, h4, h5, h6, h7, h9, h10, h11, h12, h13, h14, h15]

@[simp] theorem foldl_kept {α : Type} (f : State → α → State) (h : ∀ s a, (f s a).held.1 = s.held.1) (l : List α) (s : State) :
    (l.foldl f s).held.1 = s.held.1 := by
  induction l generalizing s with
  | nil => rfl
  | cons a l ih => simp [ih, h]

@[simp] theorem foldl_held {α : Type} (f : State → α → State) (h : ∀ s a, (f s a).held = s.held) (l : List α) (s : State) :
    (l.foldl f s).held = s.held := by
  induction l generalizing s with
  | nil => rfl
  | cons a l ih => simp [ih, h]

@[simp] theorem foldr_held {α : Type} (f : α → State → State) (h : ∀ a s, (f a s).held = s.held) (l : List α) (s : State) :
    (l.foldr f s).held = s.held := by
  induction l with
  | nil => rfl
  | cons a l ih => simp [ih, h]

theorem fst_held {α : Type} {p : State × α} {t : State} {x : α} (h : p = (t, x)) : t.held = p.1.held := by rw [h]

@[simp] theorem after_done (t s : State) : after (done t) s = t := rfl

@[simp] theorem State_emit_held (s : State) (a1 : Output) :
    (State.emit s a1).held = s.held := by unfold State.emit; (repeat' split) <;> simp [apply_ite State.held]
@[simp] theorem presentHeld_held (s : State) :
    (presentHeld s).held = s.held := by simp [presentHeld]
@[simp] theorem State_intake_held (s : State) (a1 : Nat) (a2 : Nat) :
    (State.intake s a1 a2).held = s.held := id rfl
@[simp] theorem State_heldIn_held (s : State) (a1 : Nat) :
    (State.heldIn s a1).held = s.held := id rfl
@[simp] theorem assertVrst_held (s : State) (a1 : List Nat) :
    (assertVrst s a1).held = s.held := by simp [assertVrst, apply_ite State.held]
@[simp] theorem ccEvents_held (s : State) (a1 : Nat) (a2 : Nat) (a3 : Nat) :
    (ccEvents s a1 a2 a3).1.held = s.held := by unfold ccEvents; (repeat' split) <;> simp [apply_ite State.held]
@[simp] theorem netSend_held (s : State) (a1 : Nat) (a2 : Nat) (a3 : NetKind) (a4 : Bytes) :
    (netSend s a1 a2 a3 a4).held = s.held := by simp [netSend, apply_ite State.held]
@[simp] theorem netReport_held (s : State) (a1 : Nat) (a2 : Bytes) :
    (netReport s a1 a2).held = s.held := by simp [netReport, apply_ite State.held]
@[simp] theorem netAck_held (s : State) (a1 : Nat) (a2 : NetKind) (a3 : Bytes) :
    (netAck s a1 a2 a3).held = s.held := id rfl
@[simp] theorem castStageAt_held (s : State) (a1 : Nat) (a2 : Nat) :
    (castStageAt s a1 a2).held = s.held := by simp [castStageAt]
@[simp] theorem castRest_held (s : State) (a1 : Nat) (a2 : Cast) :
    (castRest s a1 a2).held = s.held := by simp [castRest, apply_ite State.held]
@[simp] theorem setPage_held (s : State) (a1 : Nat) (a2 : PageOwner) :
    (setPage s a1 a2).held = s.held := by simp [setPage, apply_ite State.held]
@[simp] theorem setGroup_held (s : State) (a1 : Nat) (a2 : List (Nat × Nat × Bool)) :
    (setGroup s a1 a2).held = s.held := by simp [setGroup, apply_ite State.held]
@[simp] theorem scrubLevels_held (s : State) :
    (scrubLevels s).held = s.held := id rfl
@[simp] theorem State_spend_held (s : State) :
    (State.spend s).held = s.held := id rfl
@[simp] theorem State_drew_held (s : State) :
    (State.drew s).held = s.held := id rfl
@[simp] theorem whenUp_held (s : State) (a1 : State → State) (h1 : ∀ s, (a1 s).held = s.held) :
    (whenUp s a1).held = s.held := by simp [whenUp, h1, apply_ite State.held]
@[simp] theorem fromHost_held (s : State) (a1 : Nat) (a2 : State → State) (h2 : ∀ s, (a2 s).held = s.held) :
    (fromHost s a1 a2).held = s.held := by simp [fromHost, h2, apply_ite State.held]
@[simp] theorem whenAon_held (s : State) (a1 : State → State) (h1 : ∀ s, (a1 s).held = s.held) :
    (whenAon s a1).held = s.held := by simp [whenAon, h1, apply_ite State.held]
@[simp] theorem modKey_held (s : State) (a1 : KeyPath) (a2 : KeySlot → KeySlot) :
    (modKey s a1 a2).held = s.held := id rfl
@[simp] theorem modReg_held (s : State) (a1 : KeyPath) (a2 : KeyReg → KeyReg) :
    (modReg s a1 a2).held = s.held := id rfl
@[simp] theorem dropKeys_held (s : State) (a1 : KeyPath → Bool) :
    (dropKeys s a1).held = s.held := id rfl
@[simp] theorem reportKey_held (s : State) (a1 : KeyPath) :
    (reportKey s a1).held = s.held := by unfold reportKey; (repeat' split) <;> simp [apply_ite State.held]
@[simp] theorem spendKey_held (s : State) (a1 : KeyPath) (a2 : Nat) (a3 : Nat) :
    (spendKey s a1 a2 a3).held = s.held := by unfold spendKey; (repeat' split) <;> simp [apply_ite State.held]
@[simp] theorem answer_held (s : State) (a1 : Nat) (a2 : Nat) (a3 : Nat) (a4 : Nat) (a5 : Code) (a6 : Nat) (a7 : Bytes) :
    (answer s a1 a2 a3 a4 a5 a6 a7).held = s.held := by unfold answer; (repeat' split) <;> simp [apply_ite State.held]
@[simp] theorem endUnserved_held (s : State) :
    (endUnserved s).held = s.held := by simp [endUnserved]
@[simp] theorem answerWrite_held (s : State) (a1 : Nat) (a2 : Nat) (a3 : Code) :
    (answerWrite s a1 a2 a3).held = s.held := by simp [answerWrite]
@[simp] theorem limHit_held (s : State) (a1 : LimKey) :
    (limHit s a1).held = s.held := id rfl
@[simp] theorem bump_held (s : State) (a1 : Nat) (a2 : Nat) :
    (bump s a1 a2).held = s.held := id rfl
@[simp] theorem bumpUnit_held (s : State) (a1 : Nat) (a2 : Nat) (a3 : Nat) :
    (bumpUnit s a1 a2 a3).held = s.held := id rfl
@[simp] theorem bumpSlice_held (s : State) (a1 : Nat) (a2 : Nat) (a3 : Nat) :
    (bumpSlice s a1 a2 a3).held = s.held := id rfl
@[simp] theorem bumpStat_held (s : State) (a1 : Nat) (a2 : Nat) (a3 : Nat) :
    (bumpStat s a1 a2 a3).held = s.held := id rfl
@[simp] theorem dropRec_held (s : State) (a1 : LbxRec) :
    (dropRec s a1).held = s.held := id rfl
@[simp] theorem foldRec_held (s : State) (a1 : LbxRec) :
    (foldRec s a1).held = s.held := by unfold foldRec; dsimp only; (repeat' split) <;> simp [apply_ite State.held]
@[simp] theorem putRec_held (s : State) (a1 : LbxRec) :
    (putRec s a1).held = s.held := by simp [putRec, apply_ite State.held]
@[simp] theorem record_held (s : State) (a1 : Nat) (a2 : Nat) (a3 : Nat) (a4 : Bytes) :
    (record s a1 a2 a3 a4).held = s.held := by simp [record]
@[simp] theorem closeBank_held (s : State) (a1 : Nat) (a2 : Nat) (a3 : Bool) :
    (closeBank s a1 a2 a3).held = s.held := by unfold closeBank; (repeat' split) <;> simp [apply_ite State.held]
@[simp] theorem bankTake_held (s : State) (a1 : ErrIn) :
    (bankTake s a1).1.held = s.held := by unfold bankTake; dsimp only; (repeat' split) <;> simp [apply_ite State.held]
@[simp] theorem openBank_held (s : State) (a1 : ErrIn) (a2 : Nat) :
    (openBank s a1 a2).held = s.held := id rfl
@[simp] theorem hubNote_held (s : State) (a1 : Nat) :
    (hubNote s a1).held = s.held := by simp [hubNote, apply_ite State.held]
@[simp] theorem latch_held (s : State) (a1 : ErrIn) :
    (latch s a1).held = s.held := by unfold latch; dsimp only; (repeat' split) <;> simp [apply_ite State.held]
@[simp] theorem notice_held (s : State) (a1 : Nat) (a2 : Nat) (a3 : Nat) (a4 : Nat) :
    (notice s a1 a2 a3 a4).held = s.held := by simp [notice]
@[simp] theorem tierAWrite_held (s : State) (a1 : Nat) (a2 : Bytes) :
    (tierAWrite s a1 a2).held = s.held := id rfl
@[simp] theorem tierAScrub_held (s : State) (a1 : Nat) :
    (tierAScrub s a1).held = s.held := id rfl
@[simp] theorem msix_held (s : State) (a1 : Nat) :
    (msix s a1).held = s.held := by simp [msix, apply_ite State.held]
@[simp] theorem postEvent_held (s : State) (a1 : Nat) (a2 : Nat) (a3 : Nat) :
    (postEvent s a1 a2 a3).held = s.held := by simp [postEvent, apply_ite State.held]
@[simp] theorem postAll_held (s : State) (a1 : Nat) (a2 : Nat) :
    (postAll s a1 a2).held = s.held := by simp [postAll]
@[simp] theorem capacity_held (s : State) (a1 : Nat) (a2 : Nat) (a3 : Nat) :
    (capacity s a1 a2 a3).held = s.held := id rfl
@[simp] theorem quietS0_held (s : State) (a1 : Nat) :
    (quietS0 s a1).held = s.held := id rfl
@[simp] theorem useCtx_held (s : State) (a1 : Nat) (a2 : Nat) (a3 : Nat) :
    (useCtx s a1 a2 a3).held = s.held := id rfl
@[simp] theorem genDiscard_held (s : State) (a1 : Nat) :
    (genDiscard s a1).held = s.held := by simp [genDiscard]
@[simp] theorem writeRec_held (s : State) (a1 : LbxRec) (a2 : Bool) :
    (writeRec s a1 a2).held = s.held := id rfl
@[simp] theorem sentinelPut_held (s : State) (a1 : LbxRec) :
    (sentinelPut s a1).held = s.held := by simp [sentinelPut, apply_ite State.held]
@[simp] theorem sentinelRec_held (s : State) (a1 : Nat) (a2 : Nat) (a3 : Nat) (a4 : Bytes) :
    (sentinelRec s a1 a2 a3 a4).held = s.held := by simp [sentinelRec, apply_ite State.held]
@[simp] theorem sentinelError_held (s : State) (a1 : Nat) (a2 : Nat) :
    (sentinelError s a1 a2).held = s.held := by simp [sentinelError, apply_ite State.held]
@[simp] theorem dropRecord_held (s : State) :
    (dropRecord s).held = s.held := by simp [dropRecord, apply_ite State.held]
@[simp] theorem runScan_held (s : State) :
    (runScan s).held = s.held := id rfl
@[simp] theorem foldRecord_held (s : State) (a1 : Fold) :
    (foldRecord s a1).held = s.held := by simp [foldRecord]
@[simp] theorem summaryRecord_held (s : State) (a1 : Nat × Nat × Nat × Nat) :
    (summaryRecord s a1).held = s.held := by simp [summaryRecord]
@[simp] theorem castSummaries_held (s : State) :
    (castSummaries s).held = s.held := by simp [castSummaries]
@[simp] theorem lbxRead_held (s : State) :
    (lbxRead s).1.held = s.held := by simp [lbxRead, apply_ite State.held]
@[simp] theorem countAdmit_held (s : State) (a1 : Code) :
    (countAdmit s a1).held = s.held := by simp [countAdmit, apply_ite State.held]
@[simp] theorem arrayLeaves_held (s : State) :
    (arrayLeaves s).held = s.held := id rfl
@[simp] theorem arrayCut_held (s : State) :
    (arrayCut s).held = s.held := by simp [arrayCut, apply_ite State.held]
@[simp] theorem arrayNote_held (s : State) (a1 : Nat) :
    (arrayNote s a1).held = s.held := by simp [arrayNote]
@[simp] theorem quantumUse_held (s : State) (a1 : Nat) :
    (quantumUse s a1).held = s.held := by unfold quantumUse; (repeat' split) <;> simp [apply_ite State.held]
@[simp] theorem arbWake_held (s : State) :
    (arbWake s).held = s.held := by unfold arbWake; (repeat' split) <;> simp [apply_ite State.held]
@[simp] theorem cutArray_held (s : State) (a1 : LiveSeal → Bool) :
    (cutArray s a1).held = s.held := by unfold cutArray; (repeat' split) <;> simp [apply_ite State.held]
@[simp] theorem mbxPut_held (s : State) (a1 : Nat) (a2 : Nat) (a3 : Nat) (a4 : Nat) (a5 : Code) (a6 : Bytes) (a7 : Option Tag) :
    (mbxPut s a1 a2 a3 a4 a5 a6 a7).held = s.held := by simp [mbxPut]
@[simp] theorem mbxPost_held (s : State) (a1 : Nat) (a2 : Nat) (a3 : Nat) (a4 : Nat) (a5 : Code) (a6 : Bytes) (a7 : Option Tag) :
    (mbxPost s a1 a2 a3 a4 a5 a6 a7).held = s.held := by simp [mbxPost, apply_ite State.held]
@[simp] theorem mbxResume_held (s : State) :
    (mbxResume s).held = s.held := by
  unfold mbxResume
  apply foldl_held; intro s a
  (repeat' split) <;> simp
@[simp] theorem mbxRefuse_held (s : State) (a1 : MbxHdr) (a2 : Nat) (a3 : Code) (a4 : Bytes) :
    (mbxRefuse s a1 a2 a3 a4).held = s.held := by simp [mbxRefuse]
@[simp] theorem mbxAnswer_held (s : State) (a1 : MbxHdr) (a2 : Nat) (a3 : Code) (a4 : Bytes) :
    (mbxAnswer s a1 a2 a3 a4).held = s.held := by unfold mbxAnswer; dsimp only; (repeat' split) <;> simp [apply_ite State.held]
@[simp] theorem mbxTaken_held (s : State) (a1 : MbxHdr) :
    (mbxTaken s a1).held = s.held := by simp [mbxTaken, apply_ite State.held]
@[simp] theorem mailboxLater_held (s : State) (a1 : MbxHdr) (a2 : Nat) (a3 : Bool) (a4 : Bytes) (a5 : State → State × Option (Code × Bytes)) (h5 : ∀ s, (a5 s).1.held = s.held) :
    (mailboxLater s a1 a2 a3 a4 a5).held = s.held := by unfold mailboxLater; dsimp only; (repeat' split) <;> simp [h5, apply_ite State.held]
@[simp] theorem mailbox_held (s : State) (a1 : MbxHdr) (a2 : Nat) (a3 : Bool) (a4 : Bytes) (a5 : State → State × Code × Bytes) (h5 : ∀ s, (a5 s).1.held = s.held) :
    (mailbox s a1 a2 a3 a4 a5).held = s.held := by unfold mailbox; (repeat' split) <;> simp [h5, apply_ite State.held]
@[simp] theorem fail_held (s : State) (a1 : Code) :
    (fail s a1).1.held = s.held := id rfl
@[simp] theorem postEntry_held (s : State) (a1 : Nat) (a2 : Nat) (a3 : Nat) (a4 : Bytes) (a5 : Code) (a6 : Bool) (a7 : Nat) (a8 : Nat) (a9 : Nat) :
    (postEntry s a1 a2 a3 a4 a5 a6 a7 a8 a9).held = s.held := by unfold postEntry; (repeat' split) <;> simp [apply_ite State.held]
@[simp] theorem signal_held (s : State) (a1 : Nat) (a2 : Code) :
    (signal s a1 a2).held = s.held := by unfold signal; (repeat' split) <;> simp [apply_ite State.held]
@[simp] theorem completeRaw_held (s : State) (a1 : Nat) (a2 : Nat) (a3 : Nat) (a4 : Bytes) (a5 : Code) (a6 : Nat) (a7 : Nat) (a8 : Nat) :
    (completeRaw s a1 a2 a3 a4 a5 a6 a7 a8).held = s.held := by simp [completeRaw, apply_ite State.held]
@[simp] theorem refuseRaw_held (s : State) (a1 : Nat) (a2 : Nat) (a3 : Nat) (a4 : Nat) (a5 : Bytes) (a6 : Code) (a7 : Nat) (a8 : Nat) :
    (refuseRaw s a1 a2 a3 a4 a5 a6 a7 a8).held = s.held := by simp [refuseRaw, apply_ite State.held]
@[simp] theorem checkFail_held (s : State) (a1 : Nat) (a2 : Nat) (a3 : Code) (a4 : Nat) (a5 : Bytes) :
    (checkFail s a1 a2 a3 a4 a5).held = s.held := by simp [checkFail]
@[simp] theorem failHeld_held (s : State) (a1 : LiveSeal) (a2 : Code) :
    (failHeld s a1 a2).held = s.held := by unfold failHeld; (repeat' split) <;> simp [apply_ite State.held]
@[simp] theorem evtUnref_held (s : State) (a1 : Nat) :
    (evtUnref s a1).held = s.held := id rfl
@[simp] theorem objUnref_held (s : State) (a1 : Nat) :
    (objUnref s a1).held = s.held := id rfl
@[simp] theorem evtRef_held (s : State) (a1 : Nat) :
    (evtRef s a1).held = s.held := id rfl
@[simp] theorem objRef_held (s : State) (a1 : Nat) :
    (objRef s a1).held = s.held := id rfl
@[simp] theorem releaseSlot_held (s : State) (a1 : Nat) :
    (releaseSlot s a1).held = s.held := by unfold releaseSlot; (repeat' split) <;> simp [apply_ite State.held]
@[simp] theorem finishDesc_held (s : State) (a1 : Nat) :
    (finishDesc s a1).held = s.held := by unfold finishDesc; (repeat' split) <;> simp [apply_ite State.held]
@[simp] theorem retirePiece_held (s : State) (a1 : Nat) (a2 : Code) (a3 : Nat) :
    (retirePiece s a1 a2 a3).held = s.held := by unfold retirePiece; (repeat' split) <;> simp [apply_ite State.held]
@[simp] theorem endDesc_held (s : State) (a1 : Nat) (a2 : Code) (a3 : Nat) (a4 : Nat) :
    (endDesc s a1 a2 a3 a4).held = s.held := by simp [endDesc]
@[simp] theorem sendWork_held (s : State) (a1 : Nat) (a2 : Bytes) :
    (sendWork s a1 a2).held = s.held := by simp [sendWork, apply_ite State.held]
@[simp] theorem dispatch_held (s : State) (a1 : Nat) (a2 : Nat) :
    (dispatch s a1 a2).held = s.held := by unfold dispatch; (repeat' split) <;> simp [apply_ite State.held]
@[simp] theorem settleWaits_held (a0 : Nat) (s : State) :
    (settleWaits a0 s).held = s.held := by fun_induction settleWaits <;> simp_all [apply_ite State.held]
@[simp] theorem answerDestroyed_held (s : State) :
    (answerDestroyed s).held = s.held := by simp [answerDestroyed]
@[simp] theorem answerInvalidates_held (s : State) :
    (answerInvalidates s).held = s.held := by simp [answerInvalidates]
@[simp] theorem spdmClear_held (s : State) :
    (spdmClear s).held = s.held := id rfl
@[simp] theorem finishSpdm_held (s : State) :
    (finishSpdm s).held = s.held := by simp [finishSpdm, apply_ite State.held]
@[simp] theorem retireOutbound_held (s : State) :
    (retireOutbound s).held = s.held := by simp [retireOutbound, apply_ite State.held]
@[simp] theorem retireInbound_held (s : State) :
    (retireInbound s).held = s.held := by simp [retireInbound, apply_ite State.held]
@[simp] theorem setTop_held (s : State) (a1 : Nat) (a2 : Nat) (a3 : Mapping) :
    (setTop s a1 a2 a3).held = s.held := id rfl
@[simp] theorem needLevel_held (s : State) (a1 : Nat) (a2 : Nat) :
    (needLevel s a1 a2).held = s.held := by simp [needLevel, apply_ite State.held]
@[simp] theorem mapUnits_held (s : State) (a1 : Nat) (a2 : Nat) (a3 : Nat) (a4 : Nat) (a5 : Nat) (a6 : Bool) (a7 : List Nat) :
    (mapUnits s a1 a2 a3 a4 a5 a6 a7).held = s.held := by simp [mapUnits, apply_ite State.held]
@[simp] theorem shareEnd_held (s : State) (a1 : Share) :
    (shareEnd s a1).held = s.held := by unfold shareEnd; (repeat' split) <;> simp [apply_ite State.held]
@[simp] theorem finishShares_held (s : State) :
    (finishShares s).held = s.held := by simp [finishShares]
@[simp] theorem finishFreezes_held (s : State) :
    (finishFreezes s).held = s.held := by simp [finishFreezes]
@[simp] theorem rotateDigest_held (s : State) (a1 : Nat) :
    (rotateDigest s a1).held = s.held := id rfl
@[simp] theorem rotateNow_held (s : State) (a1 : MbxHdr) :
    (rotateNow s a1).held = s.held := by simp [rotateNow]
@[simp] theorem rotateWaiters_held (s : State) :
    (rotateWaiters s).held = s.held := by simp [rotateWaiters]
@[simp] theorem settle_held (s : State) :
    (settle s).held = s.held := by simp [settle]
@[simp] theorem passCheck_held (s : State) (a1 : Nat) (a2 : Nat) :
    (passCheck s a1 a2).held = s.held := by unfold passCheck; (repeat' split) <;> simp [apply_ite State.held]
@[simp] theorem retire_held (s : State) (a1 : Nat) (a2 : Code) (a3 : Nat) :
    (retire s a1 a2 a3).held = s.held := by simp [retire]
@[simp] theorem sealPiece_held (s : State) (a1 : Nat) (a2 : Desc) (a3 : Nat) (a4 : Nat) (a5 : List Nat) (a6 : Bool) (a7 : List Nat) (a8 : Option Nat) :
    (sealPiece s a1 a2 a3 a4 a5 a6 a7 a8).held = s.held := by simp [sealPiece]
@[simp] theorem setChan_held (s : State) (a1 : Nat) (a2 : Channel) :
    (setChan s a1 a2).held = s.held := id rfl
@[simp] theorem chanComplete_held (s : State) (a1 : Nat) (a2 : CipherJob) (a3 : Code) (a4 : Bytes) (a5 : BitVec 128) :
    (chanComplete s a1 a2 a3 a4 a5).held = s.held := by unfold chanComplete; (repeat' split) <;> simp [apply_ite State.held]
@[simp] theorem revokePage_held (s : State) (a1 : Nat) :
    (revokePage s a1).held = s.held := by simp [revokePage]
@[simp] theorem eraseRegion_held (s : State) (a1 : Nat) :
    (eraseRegion s a1).held = s.held := id rfl
@[simp] theorem pewAnswer_held (s : State) (a1 : PewJob) (a2 : Code) (a3 : Bytes) :
    (pewAnswer s a1 a2 a3).held = s.held := by unfold pewAnswer; (repeat' split) <;> simp [apply_ite State.held]
@[simp] theorem cryptoErase_held (s : State) (a1 : Nat) :
    (cryptoErase s a1).held = s.held := by simp [cryptoErase]
@[simp] theorem releaseRegion_held (s : State) (a1 : Nat) :
    (releaseRegion s a1).held = s.held := by simp [releaseRegion, apply_ite State.held]
@[simp] theorem releaseObj_held (s : State) (a1 : Nat) :
    (releaseObj s a1).held = s.held := by unfold releaseObj; (repeat' split) <;> simp [apply_ite State.held]
@[simp] theorem releaseEvt_held (s : State) (a1 : Nat) :
    (releaseEvt s a1).held = s.held := id rfl
@[simp] theorem releaseIdle_held (s : State) :
    (releaseIdle s).held = s.held := by simp [releaseIdle]
@[simp] theorem dropHold_held (s : State) (a1 : Nat) (a2 : Nat) :
    (dropHold s a1 a2).held = s.held := by unfold dropHold; (repeat' split) <;> simp [apply_ite State.held]
@[simp] theorem drainRing_held (a0 : Nat) (a1 : List Bytes) (s : State) (a3 : Nat) (a4 : Nat) :
    (drainRing a0 a1 s a3 a4).held = s.held := by
  induction a0 generalizing a1 s with
  | zero => rfl
  | succ n ih => cases a1 <;> simp [drainRing, ih]
@[simp] theorem unbindQueue_held (s : State) (a1 : Nat) (a2 : Nat) (a3 : List Bytes) :
    (unbindQueue s a1 a2 a3).held = s.held := by unfold unbindQueue; (repeat' split) <;> simp [apply_ite State.held]
@[simp] theorem cutDescs_held (s : State) (a1 : Desc → Bool) (a2 : Code) (a3 : Bool) :
    (cutDescs s a1 a2 a3).held = s.held := by simp [cutDescs, apply_ite State.held]
@[simp] theorem abandonFrames_held (s : State) (a1 : SealReq → Bool) :
    (abandonFrames s a1).held = s.held := id rfl
@[simp] theorem cancelWatches_held (s : State) (a1 : Watch → Bool) (a2 : Code) :
    (cancelWatches s a1 a2).held = s.held := by simp [cancelWatches]
@[simp] theorem cutJob_held (s : State) (a1 : Channel) :
    (cutJob s a1).held = s.held := by unfold cutJob; (repeat' split) <;> simp [apply_ite State.held]
@[simp] theorem freeChannels_held (s : State) (a1 : Channel → Bool) :
    (freeChannels s a1).held = s.held := by simp [freeChannels]
@[simp] theorem settleFrame_held (s : State) (a1 : Nat) (a2 : Nat) (a3 : Code) :
    (settleFrame s a1 a2 a3).held = s.held := by unfold settleFrame; (repeat' split) <;> simp [apply_ite State.held]
@[simp] theorem stepFails_held (s : State) (a1 : Nat) (a2 : Nat) (a3 : Code) :
    (stepFails s a1 a2 a3).held = s.held := by unfold stepFails; (repeat' split) <;> simp [apply_ite State.held]
@[simp] theorem teardown_held (s : State) (a1 : Nat) (a2 : Nat → List Bytes) :
    (teardown s a1 a2).held = s.held := by simp [teardown, apply_ite State.held]
@[simp] theorem kill_held (s : State) (a1 : Nat) (a2 : Nat) :
    (kill s a1 a2).held = s.held := by simp [kill, apply_ite State.held]
@[simp] theorem canNotice_held (s : State) (a1 : Bytes) :
    (canNotice s a1).held = s.held := by simp [canNotice, apply_ite State.held]
@[simp] theorem sendNotice_held (s : State) (a1 : Nat) (a2 : Nat) (a3 : Nat) :
    (sendNotice s a1 a2 a3).held = s.held := by simp [sendNotice]
@[simp] theorem memberDown_held (s : State) (a1 : Nat) (a2 : Bool) :
    (memberDown s a1 a2).held = s.held := by simp [memberDown, apply_ite State.held]
@[simp] theorem zeroiseKeys_held (s : State) :
    (zeroiseKeys s).held = s.held := id rfl
@[simp] theorem dropWork_held (s : State) (a1 : Nat) :
    (dropWork s a1).held = s.held := id rfl
@[simp] theorem quench_held (s : State) (a1 : Nat) (a2 : Nat) (a3 : Nat) :
    (quench s a1 a2 a3).held = s.held := by
  unfold quench quench.sendNoticeIf
  split
  · rfl
  · dsimp only; split <;> split <;> simp
@[simp] theorem escalate_held (s : State) (a1 : ErrIn) :
    (escalate s a1).1.held = s.held := by unfold escalate; (repeat' split) <;> simp [apply_ite State.held]
@[simp] theorem dropCasts_held (s : State) :
    (dropCasts s).held = s.held := id rfl
@[simp] theorem powerCycle_held (s : State) :
    (powerCycle s).held = s.held := by simp [powerCycle, apply_ite State.held]
@[simp] theorem chipDue_held (s : State) (a1 : Nat) :
    (chipDue s a1).held = s.held := by simp [chipDue, apply_ite State.held]
@[simp] theorem raise_held (s : State) (a1 : ErrIn) (a2 : Nat) (a3 : Nat) :
    (raise s a1 a2 a3).held = s.held := by unfold raise; dsimp only; (repeat' split) <;> simp [apply_ite State.held]
@[simp] theorem raiseS3_held (s : State) (a1 : Nat) (a2 : Nat) (a3 : Nat) :
    (raiseS3 s a1 a2 a3).held = s.held := by simp [raiseS3]
@[simp] theorem raiseAll_held (s : State) (a1 : List ErrIn) :
    (raiseAll s a1).held = s.held := by simp [raiseAll]
@[simp] theorem raiseS2_held (s : State) (a1 : Nat) (a2 : Nat) (a3 : Nat) (a4 : Nat) (a5 : Nat) :
    (raiseS2 s a1 a2 a3 a4 a5).held = s.held := by simp [raiseS2]
@[simp] theorem raiseS4_held (s : State) (a1 : Nat) (a2 : Nat) (a3 : Nat) :
    (raiseS4 s a1 a2 a3).held = s.held := by simp [raiseS4]
@[simp] theorem parityError_held (s : State) (a1 : Nat) (a2 : Nat) (a3 : Nat) (a4 : Nat) (a5 : Nat) (a6 : ErrScope) :
    (parityError s a1 a2 a3 a4 a5 a6).held = s.held := by simp [parityError, apply_ite State.held]
@[simp] theorem closeTiles_held (s : State) :
    (closeTiles s).held = s.held := by unfold closeTiles; (repeat' split) <;> simp [apply_ite State.held]
@[simp] theorem applySchedule_held (s : State) :
    (applySchedule s).held = s.held := by unfold applySchedule; (repeat' split) <;> simp [apply_ite State.held]
@[simp] theorem quantumGranted_held (s : State) (a1 : Nat) :
    (quantumGranted s a1).held = s.held := id rfl
@[simp] theorem enterSpan_held (s : State) :
    (enterSpan s).held = s.held := by simp [enterSpan, apply_ite State.held]
@[simp] theorem boundaryCut_held (s : State) (a1 : Span) :
    (boundaryCut s a1).held = s.held := by unfold boundaryCut; dsimp only; (repeat' split) <;> simp [apply_ite State.held]
@[simp] theorem spanBoundary_held (s : State) :
    (spanBoundary s).held = s.held := by simp [spanBoundary]
@[simp] theorem keySend_held (s : State) (a1 : List Nat) (a2 : Shares) :
    (keySend s a1 a2).held = s.held := by unfold keySend; (repeat' split) <;> simp [apply_ite State.held]
@[simp] theorem deliverTo_held (s : State) (a1 : KeyPath) (a2 : Nat) :
    (deliverTo s a1 a2).held = s.held := by unfold deliverTo; (repeat' split) <;> simp [apply_ite State.held]
@[simp] theorem loadReg_held (s : State) (a1 : KeyPath) (a2 : BitVec 512) (a3 : BitVec 16) (a4 : Option KeyPath) (a5 : Bytes) (a6 : Bytes) :
    (loadReg s a1 a2 a3 a4 a5 a6).held = s.held := by unfold loadReg; (repeat' split) <;> simp [apply_ite State.held]
@[simp] theorem switchReg_held (s : State) (a1 : KeyPath) :
    (switchReg s a1).held = s.held := by unfold switchReg; (repeat' split) <;> simp [apply_ite State.held]
@[simp] theorem putKey_held (s : State) (a1 : KeyPath) (a2 : BitVec 512) (a3 : Nat) (a4 : Nat) (a5 : Nat) (a6 : Nat) (a7 : BitVec 16) (a8 : Bytes) (a9 : Option KeyPath) (a10 : Bytes) :
    (putKey s a1 a2 a3 a4 a5 a6 a7 a8 a9 a10).held = s.held := by simp [putKey, apply_ite State.held]
@[simp] theorem derive_held (a0 : Nat) (s : State) (a2 : KeyPath) :
    (derive a0 s a2).held = s.held := by
  induction a0 generalizing s a2 with
  | zero => rfl
  | succ n ih =>
    unfold derive
    split
    · rfl
    · split
      · rfl
      · split
        · rfl
        · dsimp only
          split <;> (split <;> simp [ih])
@[simp] theorem chargeDerive_held (s : State) (a1 : KeyPath) :
    (chargeDerive s a1).held = s.held := by unfold chargeDerive; (repeat' split) <;> simp [apply_ite State.held]
@[simp] theorem needKey_held (s : State) (a1 : KeyPath) :
    (needKey s a1).held = s.held := by simp [needKey]
@[simp] theorem putChan_held (s : State) (a1 : Nat) (a2 : Nat) (a3 : Bytes) :
    (putChan s a1 a2 a3).held = s.held := by unfold putChan; dsimp only; (repeat' split) <;> simp [apply_ite State.held]
@[simp] theorem deriveChan_held (s : State) (a1 : Nat) (a2 : Nat) (a3 : Nat) (a4 : BitVec 256) :
    (deriveChan s a1 a2 a3 a4).held = s.held := by simp [deriveChan]
@[simp] theorem needChan_held (s : State) (a1 : KeyPath) :
    (needChan s a1).held = s.held := by unfold needChan; (repeat' split) <;> simp [apply_ite State.held]
@[simp] theorem importKey_held (s : State) (a1 : KeyPath) (a2 : BitVec 512) (a3 : Nat) (a4 : Nat) (a5 : Nat) (a6 : Nat) (a7 : Nat) :
    (importKey s a1 a2 a3 a4 a5 a6 a7).held = s.held := by simp [importKey]
@[simp] theorem endRegionKeys_held (s : State) (a1 : Nat) :
    (endRegionKeys s a1).held = s.held := by simp [endRegionKeys]
@[simp] theorem destroyKey_held (s : State) (a1 : KeyPath) :
    (destroyKey s a1).held = s.held := by simp [destroyKey]
@[simp] theorem reborn_held (s : State) (a1 : KeyPath) :
    (reborn s a1).held = s.held := id rfl
@[simp] theorem destroySliceMem_held (s : State) (a1 : Nat) :
    (destroySliceMem s a1).held = s.held := by simp [destroySliceMem]
@[simp] theorem countMismatch_held (s : State) (a1 : Nat) :
    (countMismatch s a1).held = s.held := id rfl
@[simp] theorem tryPuf_held (s : State) (a1 : BitVec 5355) :
    (tryPuf s a1).1.held = s.held := by unfold tryPuf; (repeat' split) <;> simp [apply_ite State.held]
@[simp] theorem pufLoop_held (a0 : Nat) (s : State) (a2 : List (BitVec 5355)) :
    (pufLoop a0 s a2).1.held = s.held := by
  induction a0 generalizing s a2 with
  | zero => rfl
  | succ n ih =>
    cases a2 with
    | nil => rfl
    | cons r l =>
      unfold pufLoop
      split
      · rename_i h1; simp [fst_held h1]
      · rename_i h1; simp [ih, fst_held h1]
@[simp] theorem regenerate_held (s : State) (a1 : List (BitVec 5355)) :
    (regenerate s a1).held = s.held := by
  unfold regenerate
  dsimp only
  split
  · split <;> rfl
  · split
    · rename_i h1; have e := fst_held h1; simp at e; simp [e]
    · rename_i h1; have e := fst_held h1; simp at e; simp [e]
@[simp] theorem cacheAdd_held (s : State) (a1 : Nat) (a2 : Nat) (a3 : Nat) :
    (cacheAdd s a1 a2 a3).held = s.held := by simp [cacheAdd, apply_ite State.held]
@[simp] theorem walkFill_held (s : State) (a1 : Desc) :
    (walkFill s a1).held = s.held := by
  unfold walkFill
  apply foldl_held; intro s a
  apply foldl_held; intro s a
  split <;> simp
@[simp] theorem refuse_held (s : State) (a1 : Nat) (a2 : Code) (a3 : Nat) (a4 : Nat) :
    (refuse s a1 a2 a3 a4).held = s.held := by unfold refuse; (repeat' split) <;> simp [apply_ite State.held]
@[simp] theorem holdDesc_held (s : State) (a1 : Nat) (a2 : Hold) :
    (holdDesc s a1 a2).held = s.held := id rfl
@[simp] theorem holdFault_held (s : State) (a1 : Nat) (a2 : Desc) (a3 : Nat) :
    (holdFault s a1 a2 a3).held = s.held := by simp [holdFault]
@[simp] theorem hostCacheAdd_held (s : State) (a1 : HostPage) :
    (hostCacheAdd s a1).held = s.held := id rfl
@[simp] theorem hostListAdd_held (s : State) (a1 : Desc) (a2 : Nat) :
    (hostListAdd s a1 a2).1.held = s.held := id rfl
@[simp] theorem sealStep_held (s : State) (a1 : Nat) (a2 : Desc) (a3 : Nat) :
    (sealStep s a1 a2 a3).held = s.held := by unfold sealStep; (repeat' split) <;> simp [apply_ite State.held]
@[simp] theorem hostStep_held (s : State) (a1 : Nat) (a2 : Desc) :
    (hostStep s a1 a2).1.held = s.held := by unfold hostStep; dsimp only; (repeat' split) <;> simp [apply_ite State.held]
@[simp] theorem pieceStep_held (s : State) (a1 : Nat) (a2 : Bool) :
    (pieceStep s a1 a2).1.held = s.held := by
  unfold pieceStep
  split
  · rfl
  · rename_i d _
    split
    · simp
    · split
      · simp
      · split
        · simp
        · split
          · (repeat' split) <;> simp
          · split
            · simp
            · have k : (if dClass d.raw = kHostDma then hostStep s a1 d else (s, true)).1.held = s.held := by
                split <;> simp
              dsimp only
              generalize (if dClass d.raw = kHostDma then hostStep s a1 d else (s, true)) = hs at k ⊢
              split
              · have e : State.held _ = s.held := k
                dsimp only at e
                (repeat' split) <;> simp [e]
              · exact k
@[simp] theorem advance_held (a0 : Nat) (s : State) (a2 : Nat) (a3 : Bool) :
    (advance a0 s a2 a3).held = s.held := by
  induction a0 generalizing s a3 with
  | zero => rfl
  | succ n ih =>
    unfold advance
    split <;> (rename_i h; simp [ih, fst_held h])
@[simp] theorem beginDesc_held (s : State) (a1 : Nat) :
    (beginDesc s a1).held = s.held := by unfold beginDesc; (repeat' split) <;> simp [apply_ite State.held]
@[simp] theorem pump_held (a0 : Nat) (s : State) (a2 : Nat) (a3 : Nat) :
    (pump a0 s a2 a3).held = s.held := by
  induction a0 generalizing s with
  | zero => rfl
  | succ n ih =>
    unfold pump
    split
    · rfl
    · dsimp only
      (repeat' split) <;> simp [ih]
@[simp] theorem queueOn_held (s : State) (a1 : Nat) (a2 : Nat) :
    (queueOn s a1 a2).held = s.held := by simp [queueOn]
@[simp] theorem resumeDesc_held (s : State) (a1 : Nat) (a2 : Bool) :
    (resumeDesc s a1 a2).held = s.held := by unfold resumeDesc; (repeat' split) <;> simp [apply_ite State.held]
@[simp] theorem resumeHeld_held (s : State) (a1 : Nat) :
    (resumeHeld s a1).held = s.held := by
  unfold resumeHeld
  apply foldl_held; intro s a
  (repeat' split) <;> simp
@[simp] theorem newRegion_held (s : State) (a1 : Nat) (a2 : Nat) (a3 : Nat) (a4 : Nat) (a5 : Nat) :
    (newRegion s a1 a2 a3 a4 a5).held = s.held := by simp [newRegion, apply_ite State.held]
@[simp] theorem grantPage_held (s : State) (a1 : Nat) (a2 : Nat) (a3 : Nat) (a4 : Nat) (a5 : Nat) :
    (grantPage s a1 a2 a3 a4 a5).held = s.held := by simp [grantPage]
@[simp] theorem denyTierA_held (s : State) (a1 : Nat) (a2 : Nat) (a3 : Nat) :
    (denyTierA s a1 a2 a3).held = s.held := by simp [denyTierA]
@[simp] theorem afterVerdict_held (s : State) (a1 : Code × Nat) (a2 : Nat) :
    (afterVerdict s a1 a2).held = s.held := by simp [afterVerdict, apply_ite State.held]
@[simp] theorem allocFail_held (s : State) (a1 : Code) (a2 : Nat) :
    (allocFail s a1 a2).1.held = s.held := id rfl
@[simp] theorem newObj_held (s : State) (a1 : MemObj) :
    (newObj s a1).1.held = s.held := id rfl
@[simp] theorem allocMapped_held (s : State) (a1 : LiveSeal) (a2 : Nat) (a3 : Nat) (a4 : Nat) (a5 : Nat) :
    (allocMapped s a1 a2 a3 a4 a5).1.held = s.held := by unfold allocMapped; dsimp only; (repeat' split) <;> simp [apply_ite State.held]
@[simp] theorem allocToken_held (s : State) (a1 : LiveSeal) (a2 : Nat) (a3 : Nat) (a4 : Nat) (a5 : Nat) :
    (allocToken s a1 a2 a3 a4 a5).1.held = s.held := by unfold allocToken; (repeat' split) <;> simp [apply_ite State.held]
@[simp] theorem allocBacking_held (s : State) (a1 : LiveSeal) (a2 : Nat) (a3 : Nat) (a4 : Nat) (a5 : Nat) :
    (allocBacking s a1 a2 a3 a4 a5).1.held = s.held := by unfold allocBacking; dsimp only; (repeat' split) <;> simp [apply_ite State.held]
@[simp] theorem runAlloc_held (s : State) (a1 : LiveSeal) :
    (runAlloc s a1).1.held = s.held := by unfold runAlloc; dsimp only; (repeat' split) <;> simp [apply_ite State.held]
@[simp] theorem writeResult_held (s : State) (a1 : LiveSeal) (a2 : AllocEnd) :
    (writeResult s a1 a2).held = s.held := by simp [writeResult, apply_ite State.held]
@[simp] theorem countAlloc_held (s : State) (a1 : Code) :
    (countAlloc s a1).held = s.held := by simp [countAlloc, apply_ite State.held]
@[simp] theorem allocServed_held (s : State) (a1 : LiveSeal) :
    (allocServed s a1).held = s.held := id rfl
@[simp] theorem newEvent_held (s : State) (a1 : Nat) (a2 : Nat) :
    (newEvent s a1 a2).1.held = s.held := id rfl
@[simp] theorem digestBlock_held (s : State) (a1 : Watch) (a2 : Passed) :
    (digestBlock s a1 a2).1.held = s.held := by unfold digestBlock; dsimp only; (repeat' split) <;> simp [apply_ite State.held]
@[simp] theorem writeVa_held (s : State) (a1 : Nat) (a2 : Nat) (a3 : Bytes) :
    (writeVa s a1 a2 a3).held = s.held := by
  unfold writeVa
  apply foldl_held; intro s a
  split <;> simp
@[simp] theorem dumpBlock_held (s : State) (a1 : Watch) (a2 : Passed) :
    (dumpBlock s a1 a2).1.held = s.held := by unfold dumpBlock; (repeat' split) <;> simp [apply_ite State.held]
@[simp] theorem freeField_held (s : State) (a1 : Nat) :
    (freeField s a1).1.held = s.held := id rfl
@[simp] theorem sumField_held (s : State) (a1 : Bool) (a2 : BitVec 64) :
    (sumField s a1 a2).1.held = s.held := by unfold sumField; (repeat' split) <;> simp [apply_ite State.held]
@[simp] theorem statBytes_held (s : State) (a1 : Watch) :
    (statBytes s a1).1.held = s.held := by unfold statBytes; dsimp only; (repeat' split) <;> simp [apply_ite State.held]
@[simp] theorem resultBytes_held (s : State) (a1 : Nat) (a2 : Watch) :
    (resultBytes s a1 a2).1.held = s.held := by unfold resultBytes; (repeat' split) <;> simp [apply_ite State.held]
@[simp] theorem dumpRecord_held (s : State) (a1 : Nat) (a2 : Watch) :
    (dumpRecord s a1 a2).held = s.held := by simp [dumpRecord, apply_ite State.held]
@[simp] theorem closeWatch_held (s : State) (a1 : Nat) (a2 : Watch) :
    (closeWatch s a1 a2).held = s.held := by unfold closeWatch; dsimp only; (repeat' split) <;> simp [apply_ite State.held]
@[simp] theorem endWatches_held (s : State) (a1 : Watch → Bool) (a2 : Code) :
    (endWatches s a1 a2).held = s.held := by simp [endWatches, apply_ite State.held]
@[simp] theorem takePassed_held (s : State) (a1 : Nat) (a2 : Passed) :
    (takePassed s a1 a2).held = s.held := by unfold takePassed; (repeat' split) <;> simp [apply_ite State.held]
@[simp] theorem tapRange_held (s : State) (a1 : Nat) (a2 : Nat) (a3 : Nat) (a4 : Nat) (a5 : Bytes) :
    (tapRange s a1 a2 a3 a4 a5).held = s.held := by simp [tapRange]
@[simp] theorem tapChunk_held (s : State) (a1 : Nat) (a2 : Nat) (a3 : Nat) (a4 : Nat) (a5 : Nat) (a6 : Nat) (a7 : Passed) :
    (tapChunk s a1 a2 a3 a4 a5 a6 a7).held = s.held := by simp [tapChunk]
@[simp] theorem tapGranule_held (s : State) (a1 : Nat) (a2 : Nat) (a3 : Nat) (a4 : Nat) (a5 : Nat) (a6 : Bytes) :
    (tapGranule s a1 a2 a3 a4 a5 a6).held = s.held := by unfold tapGranule; (repeat' split) <;> simp [apply_ite State.held]
@[simp] theorem tapEgress_held (s : State) (a1 : SealReq) :
    (tapEgress s a1).held = s.held := by unfold tapEgress; dsimp only; (repeat' split) <;> simp [apply_ite State.held]
@[simp] theorem tapIngress_held (s : State) (a1 : Nat) (a2 : Nat) (a3 : Nat → Option (Bool × Nat)) (a4 : Bytes) :
    (tapIngress s a1 a2 a3 a4).held = s.held := by unfold tapIngress; dsimp only; (repeat' split) <;> simp [apply_ite State.held]
@[simp] theorem openWatches_held (s : State) (a1 : Nat) (a2 : Nat) :
    (openWatches s a1 a2).held = s.held := id rfl
@[simp] theorem failWatches_held (s : State) (a1 : Nat) (a2 : Nat) (a3 : Code) :
    (failWatches s a1 a2 a3).held = s.held := by simp [failWatches]
@[simp] theorem freezeWatches_held (s : State) (a1 : Nat) :
    (freezeWatches s a1).held = s.held := by simp [freezeWatches]
@[simp] theorem setFlow_held (s : State) (a1 : Nat) (a2 : Flow) :
    (setFlow s a1 a2).held = s.held := id rfl
@[simp] theorem setPort_held (s : State) (a1 : Nat) (a2 : BrassPort) :
    (setPort s a1 a2).held = s.held := id rfl
@[simp] theorem touchKey_held (s : State) (a1 : Nat) (a2 : Nat) (a3 : Nat) (a4 : Nat) (a5 : Nat) :
    (touchKey s a1 a2 a3 a4 a5).held = s.held := id rfl
@[simp] theorem evictKey_held (s : State) (a1 : Nat) (a2 : Nat × Nat × Nat × Nat) :
    (evictKey s a1 a2).held = s.held := by simp [evictKey, apply_ite State.held]
@[simp] theorem loadKey_held (s : State) (a1 : Nat) (a2 : Nat) (a3 : Nat) (a4 : Nat) (a5 : Nat) :
    (loadKey s a1 a2 a3 a4 a5).held = s.held := by
  unfold loadKey
  extract_lets b l full s1 s2
  have e1 : s1.held = s.held := by simp [s1]
  have e2 : s2.held = s.held := by
    dsimp only [s2]
    split
    · cases l.find? fun e => e.1 == a2 with
      | none => exact e1
      | some x => exact (evictKey_held ..).trans e1
    · exact e1
  rw [deliverTo_held, e2]
@[simp] theorem missKey_held (s : State) (a1 : Nat) (a2 : Nat) (a3 : Nat) (a4 : Nat) (a5 : Nat) (a6 : List Frame) (a7 : List (Nat × Nat)) :
    (missKey s a1 a2 a3 a4 a5 a6 a7).held = s.held := id rfl
@[simp] theorem countMiss_held (s : State) (a1 : Nat) :
    (countMiss s a1).held = s.held := id rfl
@[simp] theorem missHold_held (s : State) (a1 : Nat) (a2 : Nat) (a3 : SealReq) (a4 : Nat) (a5 : Nat) (a6 : Nat) :
    (missHold s a1 a2 a3 a4 a5 a6).held = s.held := by simp [missHold, apply_ite State.held]
@[simp] theorem countKey_held (s : State) (a1 : Nat) (a2 : Flow) (a3 : Nat) (a4 : KeyPath) :
    (countKey s a1 a2 a3 a4).held = s.held := by simp [countKey]
@[simp] theorem rollSend_held (s : State) (a1 : Nat) (a2 : Flow) :
    (rollSend s a1 a2).held = s.held := by unfold rollSend; (repeat' split) <;> simp [apply_ite State.held]
@[simp] theorem repairFlow_held (s : State) (a1 : Nat) (a2 : Nat) (a3 : Flow) :
    (repairFlow s a1 a2 a3).held = s.held := by simp [repairFlow]
@[simp] theorem switchFlow_held (s : State) (a1 : Nat) :
    (switchFlow s a1).held = s.held := by unfold switchFlow; (repeat' split) <;> simp [apply_ite State.held]
@[simp] theorem fabricTake_held (s : State) (a1 : Nat) (a2 : Nat) (a3 : Nat) :
    (fabricTake s a1 a2 a3).held = s.held := id rfl
@[simp] theorem sealNow_held (s : State) (a1 : Nat) (a2 : SealReq) :
    (sealNow s a1 a2).1.held = s.held := by unfold sealNow; dsimp only; (repeat' split) <;> simp [apply_ite State.held]
@[simp] theorem fenceSent_held (s : State) (a1 : Nat) (a2 : Nat) (a3 : Nat) :
    (fenceSent s a1 a2 a3).held = s.held := id rfl
@[simp] theorem fenceDrop_held (s : State) (a1 : Nat) :
    (fenceDrop s a1).held = s.held := id rfl
@[simp] theorem refuseSeal_held (s : State) (a1 : SealReq) :
    (refuseSeal s a1).held = s.held := id rfl
@[simp] theorem pumpList_held (a0 : List (Nat × SealReq)) (s : State) :
    (pumpList a0 s).held = s.held := by
  induction a0 generalizing s with
  | nil => rfl
  | cons x r ih =>
    unfold pumpList
    dsimp only
    rw [ih]
    split <;> simp
@[simp] theorem linkPump_held (s : State) :
    (linkPump s).held = s.held := by simp [linkPump]
@[simp] theorem sendFrame_held (s : State) (a1 : SealReq) :
    (sendFrame s a1).held = s.held := by unfold sendFrame; dsimp only; (repeat' split) <;> simp [apply_ite State.held]
@[simp] theorem sendControl_held (s : State) (a1 : Bytes) (a2 : Nat) :
    (sendControl s a1 a2).held = s.held := by unfold sendControl; (repeat' split) <;> simp [apply_ite State.held]
@[simp] theorem ackEvent_held (s : State) (a1 : Nat) :
    (ackEvent s a1).held = s.held := by simp [ackEvent]
@[simp] theorem clearFrames_held (a0 : Nat) (s : State) (a2 : Nat) :
    (clearFrames a0 s a2).held = s.held := by
  induction a0 generalizing s with
  | zero => rfl
  | succ n ih =>
    unfold clearFrames
    split
    · rfl
    · split
      · rfl
      · simp [ih]
@[simp] theorem clearPump_held (s : State) (a1 : Nat) :
    (clearPump s a1).held = s.held := by simp [clearPump]
@[simp] theorem sendClear_held (s : State) (a1 : Bytes) (a2 : Nat) :
    (sendClear s a1 a2).held = s.held := by simp [sendClear]
@[simp] theorem sendDom_held (s : State) (a1 : Nat) (a2 : Nat) (a3 : Nat) (a4 : Code) (a5 : Bytes) :
    (sendDom s a1 a2 a3 a4 a5).held = s.held := by simp [sendDom, apply_ite State.held]
@[simp] theorem domDiscard_held (s : State) :
    (domDiscard s).held = s.held := by simp [domDiscard]
@[simp] theorem takeControl_held (s : State) (a1 : Nat) (a2 : Bytes) :
    (takeControl s a1 a2).held = s.held := by unfold takeControl; (repeat' split) <;> simp [apply_ite State.held]
@[simp] theorem flushControl_held (s : State) :
    (flushControl s).held = s.held := by
  unfold flushControl
  apply foldl_held; intro s a
  (repeat' split) <;> simp
@[simp] theorem handoffWrite_held (s : State) (a1 : SealReq) :
    (handoffWrite s a1).held = s.held := by unfold handoffWrite; (repeat' split) <;> simp [apply_ite State.held]
@[simp] theorem handoffFence_held (s : State) (a1 : Nat) (a2 : Nat) (a3 : Code) :
    (handoffFence s a1 a2 a3).held = s.held := by unfold handoffFence; (repeat' split) <;> simp [apply_ite State.held]
@[simp] theorem fenceDone_held (s : State) (a1 : FenceRec) (a2 : Code) (a3 : Nat) (a4 : Nat) :
    (fenceDone s a1 a2 a3 a4).held = s.held := by unfold fenceDone; dsimp only; (repeat' split) <;> simp [apply_ite State.held]
@[simp] theorem issueFence_held (s : State) (a1 : Nat) (a2 : Nat) (a3 : Nat) (a4 : Nat) (a5 : Nat) :
    (issueFence s a1 a2 a3 a4 a5).held = s.held := id rfl
@[simp] theorem retireFrame_held (s : State) (a1 : Nat) (a2 : Nat) (a3 : Code) :
    (retireFrame s a1 a2 a3).held = s.held := by unfold retireFrame; (repeat' split) <;> simp [apply_ite State.held]
@[simp] theorem abandonFrame_held (s : State) (a1 : Nat) (a2 : Nat) :
    (abandonFrame s a1 a2).held = s.held := by unfold abandonFrame; (repeat' split) <;> simp [apply_ite State.held]
@[simp] theorem fenceLost_held (s : State) (a1 : FenceRec) :
    (fenceLost s a1).held = s.held := by unfold fenceLost; dsimp only; (repeat' split) <;> simp [apply_ite State.held]
@[simp] theorem fencePump_held (a0 : Nat) (s : State) :
    (fencePump a0 s).held = s.held := by fun_induction fencePump <;> simp_all [apply_ite State.held]
@[simp] theorem fenceNext_held (a0 : Nat) (s : State) :
    (fenceNext a0 s).held = s.held := by fun_induction fenceNext <;> simp_all [apply_ite State.held]
@[simp] theorem fenceSettle_held (s : State) :
    (fenceSettle s).held = s.held := by simp [fenceSettle]
@[simp] theorem giveUp_held (s : State) (a1 : List (Nat × Nat)) :
    (giveUp s a1).held = s.held := by simp [giveUp]
@[simp] theorem moveNode_held (s : State) (a1 : Nat) (a2 : Nat) :
    (moveNode s a1 a2).held = s.held := id rfl
@[simp] theorem carryKeys_held (s : State) (a1 : Nat) (a2 : Nat) (a3 : Nat) :
    (carryKeys s a1 a2 a3).held = s.held := by simp [carryKeys, apply_ite State.held]
@[simp] theorem bindNode_held (s : State) (a1 : Nat) (a2 : Nat) (a3 : Nat) :
    (bindNode s a1 a2 a3).held = s.held := by unfold bindNode; dsimp only; (repeat' split) <;> simp [apply_ite State.held]
@[simp] theorem addPeer_held (s : State) (a1 : Member) :
    (addPeer s a1).held = s.held := by simp [addPeer, apply_ite State.held]
@[simp] theorem removePeer_held (s : State) (a1 : Nat) :
    (removePeer s a1).held = s.held := by unfold removePeer; dsimp only; (repeat' split) <;> simp [apply_ite State.held]
@[simp] theorem retireKey_held (s : State) (a1 : Nat) :
    (retireKey s a1).held = s.held := by unfold retireKey; (repeat' split) <;> simp [apply_ite State.held]
@[simp] theorem switchDomain_held (s : State) :
    (switchDomain s).held = s.held := by simp [switchDomain]
@[simp] theorem expireDomain_held (s : State) (a1 : Nat) :
    (expireDomain s a1).held = s.held := by simp [expireDomain]
@[simp] theorem endSpdm_held (s : State) (a1 : Code) (a2 : Option Code) :
    (endSpdm s a1 a2).held = s.held := by unfold endSpdm; (repeat' split) <;> simp [apply_ite State.held]
@[simp] theorem deriveBounce_held (s : State) (a1 : Nat) (a2 : Nat) :
    (deriveBounce s a1 a2).held = s.held := by unfold deriveBounce; (repeat' split) <;> simp [apply_ite State.held]
@[simp] theorem putAppSecret_held (s : State) (a1 : Nat) (a2 : BitVec 384) :
    (putAppSecret s a1 a2).held = s.held := by simp [putAppSecret]
@[simp] theorem updateSecret_held (s : State) (a1 : Nat) :
    (updateSecret s a1).held = s.held := by unfold updateSecret; (repeat' split) <;> simp [apply_ite State.held]
@[simp] theorem hostSliceIn_held (s : State) (a1 : Nat) :
    (hostSliceIn s a1).held = s.held := by simp [hostSliceIn, apply_ite State.held]
@[simp] theorem hostSliceOut_held (s : State) (a1 : Nat) :
    (hostSliceOut s a1).held = s.held := id rfl
@[simp] theorem deliver_held (s : State) (a1 : KeyPath) :
    (deliver s a1).held = s.held := by unfold deliver; (repeat' split) <;> simp [apply_ite State.held]
@[simp] theorem fillSlot_held (s : State) (a1 : DeriveReq) (a2 : KeyPath) :
    (fillSlot s a1 a2).1.held = s.held := by unfold fillSlot; (repeat' split) <;> simp [apply_ite State.held]
@[simp] theorem serveReq_held (s : State) (a1 : DeriveReq) :
    (serveReq s a1).held = s.held := by unfold serveReq; dsimp only; (repeat' split) <;> simp [apply_ite State.held]
@[simp] theorem serveQueue_held (a0 : Nat) (s : State) :
    (serveQueue a0 s).held = s.held := by
  induction a0 generalizing s with
  | zero => rfl
  | succ n ih =>
    unfold serveQueue
    split
    · rfl
    · dsimp only; rw [ih]; split <;> simp
@[simp] theorem startReplace_held (s : State) (a1 : KeyPath) (a2 : ReplaceSrc) (a3 : BitVec 32) :
    (startReplace s a1 a2 a3).held = s.held := by unfold startReplace; (repeat' split) <;> simp [apply_ite State.held]
@[simp] theorem startQueued_held (a0 : List (ReplaceSrc × BitVec 32)) (s : State) (a2 : KeyPath) :
    (startQueued a0 s a2).held = s.held := by
  induction a0 generalizing s with
  | nil => rfl
  | cons x r ih =>
    obtain ⟨src, want⟩ := x
    unfold startQueued
    dsimp only
    split
    · simp
    · rw [ih]; simp
@[simp] theorem importBlob_held (s : State) (a1 : Nat) (a2 : WrappedBlob) :
    (importBlob s a1 a2).1.held = s.held := by unfold importBlob; dsimp only; (repeat' split) <;> simp [apply_ite State.held]
@[simp] theorem anneal_held (s : State) :
    (anneal s).held = s.held := id rfl
@[simp] theorem reseedLeaves_held (s : State) :
    (reseedLeaves s).held = s.held := by simp [reseedLeaves]
@[simp] theorem flowNotice_held (s : State) (a1 : Nat) (a2 : Nat) (a3 : Nat) :
    (flowNotice s a1 a2 a3).held = s.held := by simp [flowNotice]
@[simp] theorem rekeyEvent_held (s : State) (a1 : Nat) :
    (rekeyEvent s a1).held = s.held := by simp [rekeyEvent, apply_ite State.held]
@[simp] theorem keyRecord_held (s : State) (a1 : Nat) (a2 : Nat) (a3 : KeyPath) :
    (keyRecord s a1 a2 a3).held = s.held := by simp [keyRecord]
@[simp] theorem assayFailed_held (s : State) (a1 : Nat) :
    (assayFailed s a1).held = s.held := by simp [assayFailed]
@[simp] theorem rotatingNow_held (s : State) (a1 : Nat) :
    (rotatingNow s a1).held = s.held := id rfl
@[simp] theorem assayAgain_held (s : State) (a1 : Nat) :
    (assayAgain s a1).held = s.held := by
  unfold assayAgain
  apply foldl_held; intro s a
  split
  · rfl
  · rename_i g hg
    extract_lets path s0 p m s1
    have e : s0.held = s.held := by
      dsimp only [s0]; split
      · rename_i k _; cases k.key.read
        · rfl
        · exact loadReg_held ..
      · exact needKey_held ..
    have e1 : s1.held = s.held := by rw [← e]; simp [s1]
    split <;> simp [e1]
@[simp] theorem rotateStart_held (s : State) (a1 : Nat) :
    (rotateStart s a1).held = s.held := by unfold rotateStart; (repeat' split) <;> simp [apply_ite State.held]
@[simp] theorem rotateNext_held (a0 : Nat) (s : State) (a2 : Nat) :
    (rotateNext a0 s a2).held = s.held := by fun_induction rotateNext <;> simp_all [apply_ite State.held]
@[simp] theorem rotateWake_held (s : State) (a1 : Nat) :
    (rotateWake s a1).held = s.held := by simp [rotateWake]
@[simp] theorem queueRotation_held (s : State) (a1 : Nat) (a2 : Nat) :
    (queueRotation s a1 a2).held = s.held := by unfold queueRotation; (repeat' split) <;> simp [apply_ite State.held]
@[simp] theorem vaultReset_held (s : State) :
    (vaultReset s).held = s.held := by simp [vaultReset]
@[simp] theorem recompute_held (s : State) (a1 : KeySlot) :
    (recompute s a1).held = s.held := by unfold recompute; (repeat' split) <;> simp [apply_ite State.held]
@[simp] theorem mismatchOutcome_held (s : State) (a1 : MismatchOf) :
    (mismatchOutcome s a1).held = s.held := by unfold mismatchOutcome; dsimp only; (repeat' split) <;> simp [apply_ite State.held]
@[simp] theorem setPew_held (s : State) (a1 : Nat) (a2 : Pewter) :
    (setPew s a1 a2).held = s.held := id rfl
@[simp] theorem putNode_held (s : State) (a1 : TreeNode) :
    (putNode s a1).held = s.held := id rfl
@[simp] theorem pewCharge_held (s : State) (a1 : Nat) (a2 : Nat) (a3 : Bool) (a4 : Nat) :
    (pewCharge s a1 a2 a3 a4).held = s.held := id rfl
theorem poolRead_held (s : State) (a1 : Nat) (a2 : Nat) (a3 : Nat) (a4 : Nat) (a5 : Bool) (a6 : PoolWhy) (t : State) (h : poolRead s a1 a2 a3 a4 a5 a6 = some t) :
    t.held = s.held := by
  unfold poolRead at h
  dsimp only at h
  split at h
  · cases h
  · cases h; simp
@[simp] theorem poolWrite_held (s : State) (a1 : Nat) (a2 : Nat) (a3 : Nat) (a4 : Bytes) (a5 : Nat) (a6 : Option Nat) (a7 : Option TreeNode) :
    (poolWrite s a1 a2 a3 a4 a5 a6 a7).held = s.held := by simp [poolWrite]
@[simp] theorem breach_held (s : State) (a1 : Nat) (a2 : Nat) (a3 : Nat) :
    (breach s a1 a2 a3).held = s.held := by simp [breach]
@[simp] theorem bumpChild_held (s : State) (a1 : TreeNode) (a2 : Nat) :
    (bumpChild s a1 a2).1.held = s.held := by unfold bumpChild; (repeat' split) <;> simp [apply_ite State.held]
theorem writeBack_held (s : State) (a1 : Nat) (a2 : TreeNode) (t : State) (h : writeBack s a1 a2 = some t) :
    t.held = s.held := by
  unfold writeBack at h
  dsimp only at h
  split at h
  · cases h
  · split at h
    · cases h; simp
    · split at h
      · cases h
      · cases h; simp
theorem makeRoom_held (s : State) (a1 : Nat) (a2 : Nat) (a3 : Nat) (t : State) (h : makeRoom s a1 a2 a3 = some t) :
    t.held = s.held := by
  unfold makeRoom at h
  dsimp only at h
  split at h
  · cases h; rfl
  · split at h
    · cases h
    · split at h
      · have := writeBack_held _ _ _ _ h; simpa using this
      · cases h; simp
@[simp] theorem fetchNode_held (s : State) (a1 : Nat) (a2 : Nat) (a3 : Nat) (a4 : Nat) (a5 : Nat) (a6 : Nat) :
    (fetchNode s a1 a2 a3 a4 a5 a6).1.held = s.held := by
  unfold fetchNode
  dsimp only
  split
  · rfl
  · split
    · rfl
    · rename_i hm
      have e := makeRoom_held _ _ _ _ _ hm
      split
      · split <;> simp [e]
      · split
        · rename_i hp; simp [poolRead_held _ _ _ _ _ _ _ _ hp, e]
        · exact e
@[simp] theorem walkLevel_held (s : State) (a1 : Nat) (a2 : Nat) (a3 : Nat) (a4 : Nat) (a5 : Nat) (a6 : Nat) (a7 : Bool) :
    (walkLevel s a1 a2 a3 a4 a5 a6 a7).1.held = s.held := by
  unfold walkLevel
  dsimp only
  split
  · simp
  · split
    · split
      · rfl
      · rename_i hm; simp [makeRoom_held _ _ _ _ _ hm]
    · split
      · simp
      · split
        · rfl
        · rename_i hm; simp [makeRoom_held _ _ _ _ _ hm]
@[simp] theorem walk_held (s : State) (a1 : Nat) (a2 : Nat) (a3 : Nat) (a4 : Nat) :
    (walk s a1 a2 a3 a4).1.held = s.held := by
  unfold walk
  dsimp only
  split
  · rfl
  · split
    · rename_i h1
      split
      · rename_i h2; simp [fst_held h2, fst_held h1]
      · simp [fst_held h1]
    · simp
@[simp] theorem poisonGranule_held (s : State) (a1 : Nat) (a2 : Nat) :
    (poisonGranule s a1 a2).held = s.held := by
  unfold poisonGranule
  split
  · rfl
  · dsimp only; split <;> simp
@[simp] theorem poisonBad_held (s : State) (a1 : Nat) (a2 : Nat) :
    (poisonBad s a1 a2).held = s.held := by simp [poisonBad]
theorem writeGranule_held (s : State) (a1 : Nat) (a2 : Nat) (a3 : Nat) (a4 : Region) (a5 : Bytes) (t : State) (h : writeGranule s a1 a2 a3 a4 a5 = some t) :
    t.held = s.held := by
  unfold writeGranule at h
  dsimp only at h
  split at h
  · cases h
  · split at h
    · cases h; simp
    · cases h
@[simp] theorem poolUse_held (s : State) (a1 : PewJob) (a2 : Bool) :
    (poolUse s a1 a2).held = s.held := by simp [poolUse, apply_ite State.held]
@[simp] theorem needSlot_held (s : State) (a1 : Nat) (a2 : PewJob) :
    (needSlot s a1 a2).1.held = s.held := by
  unfold needSlot
  dsimp only
  (repeat' split) <;> try simp
  rename_i hp; simp [poolRead_held _ _ _ _ _ _ _ _ hp]
@[simp] theorem finishWrite_held (s : State) (a1 : PewJob) (a2 : Region) (a3 : Bytes) :
    (finishWrite s a1 a2 a3).1.held = s.held := by
  unfold finishWrite
  dsimp only
  split
  · rfl
  · split
    · rename_i hw; simp [writeGranule_held _ _ _ _ _ _ _ hw]
    · rfl
@[simp] theorem onNode_held (s : State) (a1 : Nat) (a2 : PewJob) (a3 : Region) (a4 : TreeNode) :
    (onNode s a1 a2 a3 a4).1.held = s.held := by
  have dat : ∀ f : State → Bytes → State × PewEnd, (∀ s b, (f s b).1.held = s.held) →
      (if a4.poison.contains (a2.r.granule % 64) then
        ((notice s 0 280 (uPewter (a2.r.region % 4)) (granuleWhere a2.r.region a2.r.granule)), PewEnd.answer cPoisonedTarget [])
      else if a4.minor (a2.r.granule % 64) = 0 then
        if a3.lost then (s, PewEnd.answer cPoisonedTarget []) else f s (List.replicate 256 0)
      else
        match needSlot s a1 a2 with
        | (s1, none) => (s1, .wait a2)
        | (s1, some (st, b)) =>
          if st ≠ 0 then (poisonBad s1 a2.r.region a2.r.granule, PewEnd.answer cPoisonedTarget [])
          else
            match openGranule s1 a2.r.region a3 a2.r.granule (a4.counter (a2.r.granule % 64)) b with
            | .ok (pt, _) => f s1 pt
            | .error c => (breach s1 (a2.r.region % 4) c (granuleWhere a2.r.region a2.r.granule), .never)).1.held = s.held := by
    intro f hf
    split
    · simp
    · split
      · split
        · rfl
        · exact hf _ _
      · split
        · rename_i h1; simp [fst_held h1]
        · rename_i h1
          split
          · simp [fst_held h1]
          · split
            · rw [hf, fst_held h1]; simp
            · simp [fst_held h1]
  unfold onNode
  dsimp only
  split
  · exact dat _ (by intro s b; simp)
  · simp
  · exact dat _ (by intro s b; simp)
  · simp
  · rfl
  · split
    · rfl
    · split
      · rename_i h1; simp [fst_held h1]
      · rename_i h1
        split
        · simp [fst_held h1]
        · split
          · split
            · simp [fst_held h1]
            · split
              · rename_i hw; simp [writeGranule_held _ _ _ _ _ _ _ hw, fst_held h1]
              · simp [fst_held h1]
          · simp [fst_held h1]
@[simp] theorem attempt_held (s : State) (a1 : Nat) (a2 : PewJob) :
    (attempt s a1 a2).1.held = s.held := by
  unfold attempt
  dsimp only
  split
  · rfl
  · split
    · rfl
    · split
      · simp
      · split
        · rfl
        · split
          · rfl
          · split
            · rename_i h1; simp [fst_held h1]
            · rename_i h1; simp [fst_held h1]
            · rename_i h1; split <;> simp [fst_held h1]
@[simp] theorem loseRegion_held (s : State) (a1 : Nat) (a2 : Nat) :
    (loseRegion s a1 a2).held = s.held := by simp [loseRegion, apply_ite State.held]
@[simp] theorem nodeParity_held (s : State) (a1 : Nat) (a2 : Nat) :
    (nodeParity s a1 a2).held = s.held := by unfold nodeParity; (repeat' split) <;> simp [apply_ite State.held]
@[simp] theorem rootCorrect_held (s : State) (a1 : Nat) (a2 : Nat) :
    (rootCorrect s a1 a2).held = s.held := by simp [rootCorrect]
theorem respanChild_held (s : State) (a1 : Respan) (a2 : Nat) (a3 : Nat) (a4 : Bytes) (t : State) (h : respanChild s a1 a2 a3 a4 = some t) :
    t.held = s.held := by
  unfold respanChild at h
  dsimp only at h
  (repeat' split at h) <;> (first | (cases h; done) | (cases h; simp; done))
@[simp] theorem respanAsk_held (s : State) (a1 : Respan) (a2 : Nat) :
    (respanAsk s a1 a2).held = s.held := by
  unfold respanAsk
  dsimp only
  split
  · rfl
  · split
    · cases h : respanChild s a1 a2 0 _ with
      | none => rfl
      | some t => exact respanChild_held _ _ _ _ _ _ h
    · split
      · rename_i h; split <;> simp [poolRead_held _ _ _ _ _ _ _ _ h]
      · rfl
@[simp] theorem respanPump_held (s : State) (a1 : Nat) :
    (respanPump s a1).held = s.held := by simp [respanPump]
@[simp] theorem rotateEnd_held (s : State) (a1 : Nat) :
    (rotateEnd s a1).held = s.held := by unfold rotateEnd; (repeat' split) <;> simp [apply_ite State.held]
@[simp] theorem rotateDone_held (s : State) (a1 : Nat) :
    (rotateDone s a1).held = s.held := by simp [rotateDone, apply_ite State.held]
@[simp] theorem sweepOn_held (s : State) (a1 : Nat) (a2 : PewJob) :
    (sweepOn s a1 a2).held = s.held := by simp [sweepOn, apply_ite State.held]
@[simp] theorem switchRegion_held (s : State) (a1 : Nat) :
    (switchRegion s a1).held = s.held := by
  unfold switchRegion
  apply foldl_held; intro s r
  split
  · split <;> simp
  · rfl
@[simp] theorem runJob_held (a0 : Nat) (s : State) (a2 : Nat) (a3 : Nat) :
    (runJob a0 s a2 a3).held = s.held := by
  induction a0 generalizing s a3 with
  | zero => rfl
  | succ n ih =>
    unfold runJob
    dsimp only
    split
    · rfl
    · split
      · rfl
      · split
        · rename_i h1; simp [fst_held h1]
        · rename_i h1; simp [fst_held h1]
        · rename_i h1
          split
          · rw [ih]; simp [fst_held h1]
          · simp [fst_held h1]
@[simp] theorem releaseDone_held (s : State) (a1 : Nat) :
    (releaseDone s a1).held = s.held := by simp [releaseDone]
@[simp] theorem againPump_held (s : State) (a1 : Nat) :
    (againPump s a1).held = s.held := by
  unfold againPump
  apply foldl_held; intro s r
  split
  · rename_i h; simp [poolRead_held _ _ _ _ _ _ _ _ h]
  · rfl
@[simp] theorem pewPump_held (s : State) (a1 : Nat) :
    (pewPump s a1).held = s.held := by simp [pewPump, apply_ite State.held]
@[simp] theorem pewSubmit_held (s : State) (a1 : PewReq) (a2 : PewOp) (a3 : PewSrc) :
    (pewSubmit s a1 a2 a3).held = s.held := by simp [pewSubmit, apply_ite State.held]
@[simp] theorem pewOwn_held (s : State) (a1 : Nat) (a2 : Nat) (a3 : PewOp) :
    (pewOwn s a1 a2 a3).held = s.held := id rfl
@[simp] theorem takeBack_held (s : State) (a1 : Nat) (a2 : TreeNode) :
    (takeBack s a1 a2).held = s.held := by unfold takeBack; (repeat' split) <;> simp [apply_ite State.held]
@[simp] theorem crossReset_held (s : State) (a1 : Nat) :
    (crossReset s a1).held = s.held := by
  unfold crossReset
  dsimp only
  rw [foldl_held]
  · rw [foldl_held]
    · simp
    · intro s a; simp
  · intro s a
    (repeat' split) <;> simp
@[simp] theorem respond_held (s : State) (a1 : Nat) (a2 : Nat) (a3 : Nat) (a4 : Nat) (a5 : Code) (a6 : Bytes) :
    (respond s a1 a2 a3 a4 a5 a6).held = s.held := by simp [respond]
@[simp] theorem endRemote_held (s : State) (a1 : Nat) (a2 : Nat) (a3 : Nat) (a4 : OpHdr) (a5 : Code) (a6 : Bytes) :
    (endRemote s a1 a2 a3 a4 a5 a6).held = s.held := by unfold endRemote; (repeat' split) <;> simp [apply_ite State.held]
@[simp] theorem finishRemote_held (s : State) (a1 : Nat) (a2 : RemoteOp) :
    (finishRemote s a1 a2).held = s.held := by simp [finishRemote]
@[simp] theorem remoteSettle_held (s : State) :
    (remoteSettle s).held = s.held := by simp [remoteSettle]
@[simp] theorem performRemote_held (s : State) (a1 : Nat) (a2 : Nat) (a3 : OpHdr) (a4 : Bytes) (a5 : Nat) (a6 : MemObj) :
    (performRemote s a1 a2 a3 a4 a5 a6).held = s.held := by unfold performRemote; dsimp only; (repeat' split) <;> simp [apply_ite State.held]
@[simp] theorem performAtomic_held (s : State) (a1 : Nat) (a2 : Nat) (a3 : OpHdr) (a4 : Bytes) (a5 : MemObj) :
    (performAtomic s a1 a2 a3 a4 a5).held = s.held := by unfold performAtomic; (repeat' split) <;> simp [apply_ite State.held]
@[simp] theorem takeRequest_held (s : State) (a1 : Nat) (a2 : Nat) (a3 : Bytes) :
    (takeRequest s a1 a2 a3).held = s.held := by unfold takeRequest; dsimp only; (repeat' split) <;> simp [apply_ite State.held]
@[simp] theorem setAlloy_held (s : State) (a1 : Nat) (a2 : Alloy) :
    (setAlloy s a1 a2).held = s.held := id rfl
@[simp] theorem setStep_held (s : State) (a1 : Nat) (a2 : Nat) (a3 : StepRec) :
    (setStep s a1 a2 a3).held = s.held := id rfl
@[simp] theorem endPiece_held (s : State) (a1 : Nat) (a2 : Code) (a3 : Nat) (a4 : Nat) :
    (endPiece s a1 a2 a3 a4).held = s.held := by unfold endPiece; (repeat' split) <;> simp [apply_ite State.held]
@[simp] theorem failStep_held (s : State) (a1 : Nat) (a2 : Nat) (a3 : Code) (a4 : Nat) (a5 : Nat) :
    (failStep s a1 a2 a3 a4 a5).held = s.held := by unfold failStep; (repeat' split) <;> simp [apply_ite State.held]
@[simp] theorem failSteps_held (s : State) (a1 : Nat → StepRec → Bool) (a2 : Code) :
    (failSteps s a1 a2).held = s.held := by
  unfold failSteps
  apply foldl_held; intro s a
  (repeat' split) <;> simp
@[simp] theorem stepNote_held (s : State) (a1 : Nat) (a2 : StepRec) (a3 : Code) :
    (stepNote s a1 a2 a3).held = s.held := by simp [stepNote]
@[simp] theorem stepsLose_held (s : State) (a1 : List Nat) :
    (stepsLose s a1).held = s.held := by
  unfold stepsLose
  apply foldl_held; intro s a
  dsimp only
  (repeat' split) <;> simp
@[simp] theorem stepsGiveUp_held (s : State) (a1 : List (Nat × Nat)) :
    (stepsGiveUp s a1).held = s.held := by
  unfold stepsGiveUp
  apply foldl_held; intro s a
  dsimp only
  (repeat' split) <;> simp
@[simp] theorem peerGone_held (s : State) (a1 : Nat) :
    (peerGone s a1).held = s.held := by unfold peerGone; (repeat' split) <;> simp [apply_ite State.held]
@[simp] theorem domainExpired_held (s : State) (a1 : Nat) :
    (domainExpired s a1).held = s.held := by simp [domainExpired]
@[simp] theorem stepCheck_held (s : State) (a1 : Nat) (a2 : Nat) :
    (stepCheck s a1 a2).held = s.held := by unfold stepCheck; (repeat' split) <;> simp [apply_ite State.held]
@[simp] theorem startSteps_held (s : State) (a1 : Nat) (a2 : Nat) :
    (startSteps s a1 a2).held = s.held := by
  unfold startSteps
  apply foldl_held; intro s a
  (repeat' split) <;> simp
@[simp] theorem clearAlloy_held (s : State) (a1 : Nat) :
    (clearAlloy s a1).held = s.held := by simp [clearAlloy]
@[simp] theorem stepDenied_held (s : State) (a1 : Nat) (a2 : Nat) (a3 : StepRec) (a4 : Code × Nat) :
    (stepDenied s a1 a2 a3 a4).held = s.held := by simp [stepDenied, apply_ite State.held]
@[simp] theorem prefetchFrom_held (a0 : Nat) (s : State) (a2 : Nat) (a3 : Nat) (a4 : Nat) :
    (prefetchFrom a0 s a2 a3 a4).held = s.held := by fun_induction prefetchFrom <;> simp_all [apply_ite State.held]
@[simp] theorem prefetch_held (s : State) (a1 : Nat) (a2 : Nat) :
    (prefetch s a1 a2).held = s.held := by unfold prefetch; (repeat' split) <;> simp [apply_ite State.held]
@[simp] theorem stepEncode_held (s : State) (a1 : Nat) (a2 : StepRec) (a3 : Nat) (a4 : Bool) (a5 : List (BitVec 32)) :
    (stepEncode s a1 a2 a3 a4 a5).1.held = s.held := id rfl
@[simp] theorem queueOut_held (s : State) (a1 : Nat) (a2 : Nat) (a3 : Nat) (a4 : Bytes) :
    (queueOut s a1 a2 a3 a4).held = s.held := by unfold queueOut; (repeat' split) <;> simp [apply_ite State.held]
@[simp] theorem landChunk_held (s : State) (a1 : Nat) (a2 : StepRec) (a3 : Nat) (a4 : Bool) (a5 : List (BitVec 32)) :
    (landChunk s a1 a2 a3 a4 a5).held = s.held := by simp [landChunk]
@[simp] theorem tapStep_held (s : State) (a1 : Nat) (a2 : StepRec) (a3 : Nat) (a4 : Nat) (a5 : Nat) (a6 : Nat) (a7 : Bytes) :
    (tapStep s a1 a2 a3 a4 a5 a6 a7).held = s.held := by simp [tapStep, apply_ite State.held]
@[simp] theorem resultReady_held (s : State) (a1 : Nat) (a2 : Nat) (a3 : StepRec) (a4 : Nat) (a5 : List (BitVec 32)) (a6 : Bytes) :
    (resultReady s a1 a2 a3 a4 a5 a6).held = s.held := by simp [resultReady, apply_ite State.held]
@[simp] theorem settleChunk_held (s : State) (a1 : Nat) (a2 : Nat) (a3 : Nat) :
    (settleChunk s a1 a2 a3).held = s.held := by unfold settleChunk; (repeat' split) <;> simp [apply_ite State.held]
@[simp] theorem foldTaken_held (s : State) (a1 : Nat) (a2 : Nat) (a3 : TakenChunk) :
    (foldTaken s a1 a2 a3).held = s.held := by unfold foldTaken; dsimp only; (repeat' split) <;> simp [apply_ite State.held]
@[simp] theorem drainInput_held (a0 : Nat) (s : State) (a2 : Nat) (a3 : Nat) :
    (drainInput a0 s a2 a3).held = s.held := by fun_induction drainInput <;> simp_all [apply_ite State.held]
@[simp] theorem stepOn_held (s : State) (a1 : Nat) (a2 : Nat) :
    (stepOn s a1 a2).held = s.held := by simp [stepOn]
@[simp] theorem chunkTake_held (s : State) (a1 : Nat) (a2 : Nat) (a3 : Nat) (a4 : Nat) (a5 : Nat) (a6 : Bytes) :
    (chunkTake s a1 a2 a3 a4 a5 a6).held = s.held := by unfold chunkTake; dsimp only; (repeat' split) <;> simp [apply_ite State.held]
@[simp] theorem alloyParity_held (s : State) (a1 : Nat) :
    (alloyParity s a1).held = s.held := by
  unfold alloyParity
  rw [foldl_held _ (by
    intro s x
    split
    · split
      · rw [foldl_held _ (by intro s n; simp)]; simp
      · rfl
    · rfl)]
  simp
@[simp] theorem alloyAck_held (s : State) (a1 : Nat) (a2 : Nat) (a3 : Code) :
    (alloyAck s a1 a2 a3).held = s.held := by unfold alloyAck; (repeat' split) <;> simp [apply_ite State.held]
@[simp] theorem stageRefused_held (s : State) (a1 : Nat) (a2 : Code) :
    (stageRefused s a1 a2).held = s.held := by simp [stageRefused]
@[simp] theorem sendNext_held (s : State) (a1 : Nat) (a2 : Nat) (a3 : StepRec) :
    (sendNext s a1 a2 a3).held = s.held := by unfold sendNext; (repeat' split) <;> simp [apply_ite State.held]
@[simp] theorem emitFirst_held (s : State) (a1 : Nat) (a2 : Nat) :
    (emitFirst s a1 a2).held = s.held := by unfold emitFirst; dsimp only; (repeat' split) <;> simp [apply_ite State.held]
@[simp] theorem armCast_held (s : State) (a1 : Nat) (a2 : Nat) (a3 : Nat) (a4 : Nat) (a5 : Nat) (a6 : Option (Nat × Nat)) :
    (armCast s a1 a2 a3 a4 a5 a6).1.held = s.held := by unfold armCast; dsimp only; (repeat' split) <;> simp [apply_ite State.held]
@[simp] theorem castSummary_held (s : State) (a1 : Cast) :
    (castSummary s a1).held = s.held := by unfold castSummary; (repeat' split) <;> simp [apply_ite State.held]
@[simp] theorem castReport_held (s : State) (a1 : Nat) (a2 : Cast) (a3 : Code) :
    (castReport s a1 a2 a3).held = s.held := by simp [castReport, apply_ite State.held]
@[simp] theorem cancelCasts_held (s : State) (a1 : Cast → Bool) :
    (cancelCasts s a1).held = s.held := by simp [cancelCasts]
@[simp] theorem failDomainCasts_held (s : State) :
    (failDomainCasts s).held = s.held := by simp [failDomainCasts]
@[simp] theorem armHorizon_held (a0 : Nat) (s : State) :
    (armHorizon a0 s).held = s.held := by fun_induction armHorizon <;> simp_all [apply_ite State.held]
@[simp] theorem rearm_held (s : State) :
    (rearm s).held = s.held := by simp [rearm]
@[simp] theorem freezeNow_held (s : State) (a1 : Nat) :
    (freezeNow s a1).held = s.held := by simp [freezeNow, apply_ite State.held]
@[simp] theorem freezeTrigger_held (s : State) (a1 : Nat) :
    (freezeTrigger s a1).held = s.held := by simp [freezeTrigger, apply_ite State.held]
@[simp] theorem armWatch_held (s : State) (a1 : MbxHdr) (a2 : WatchBody) :
    (armWatch s a1 a2).1.held = s.held := by simp [armWatch, apply_ite State.held]
@[simp] theorem closeDumps_held (s : State) :
    (closeDumps s).held = s.held := by simp [closeDumps]
@[simp] theorem chanSave_held (s : State) (a1 : Nat) :
    (chanSave s a1).1.held = s.held := by unfold chanSave; dsimp only; (repeat' split) <;> simp [apply_ite State.held]
@[simp] theorem chanExport_held (s : State) (a1 : Nat) (a2 : CipherJob) (a3 : Option Nat) :
    (chanExport s a1 a2 a3).1.held = s.held := by unfold chanExport; dsimp only; (repeat' split) <;> simp [apply_ite State.held]
@[simp] theorem chanLoad_held (s : State) (a1 : Nat) (a2 : CipherJob) (a3 : SavedState) (a4 : Bool) :
    (chanLoad s a1 a2 a3 a4).1.held = s.held := by unfold chanLoad; dsimp only; (repeat' split) <;> simp [apply_ite State.held]
@[simp] theorem chanRestore_held (s : State) (a1 : Nat) (a2 : CipherJob) (a3 : Nat) :
    (chanRestore s a1 a2 a3).1.held = s.held := by unfold chanRestore; dsimp only; (repeat' split) <;> simp [apply_ite State.held]
@[simp] theorem chanImport_held (s : State) (a1 : Nat) (a2 : CipherJob) (a3 : ChanBlob) :
    (chanImport s a1 a2 a3).1.held = s.held := by unfold chanImport; dsimp only; (repeat' split) <;> simp [apply_ite State.held]
@[simp] theorem chanAttach_held (s : State) (a1 : Nat) (a2 : Nat) (a3 : BitVec 256) :
    (chanAttach s a1 a2 a3).1.held = s.held := by unfold chanAttach; dsimp only; (repeat' split) <;> simp [apply_ite State.held]
@[simp] theorem noteIv_held (s : State) (a1 : Key) (a2 : CipherBody) :
    (noteIv s a1 a2).held = s.held := by simp [noteIv, apply_ite State.held]
@[simp] theorem chanJob_held (s : State) (a1 : Nat) (a2 : CipherJob) :
    (chanJob s a1 a2).1.held = s.held := by unfold chanJob; dsimp only; (repeat' split) <;> simp [apply_ite State.held]
@[simp] theorem takeBlocks_held (s : State) (a1 : Nat) :
    (takeBlocks s a1).held = s.held := by simp [takeBlocks, apply_ite State.held]
@[simp] theorem takeAll_held (s : State) :
    (takeAll s).held = s.held := by simp [takeAll]
@[simp] theorem chanLoadHead_held (s : State) (a1 : Nat) :
    (chanLoadHead s a1).held = s.held := by unfold chanLoadHead; dsimp only; (repeat' split) <;> simp [apply_ite State.held]
@[simp] theorem chanDetach_held (s : State) (a1 : Nat) :
    (chanDetach s a1).held = s.held := by unfold chanDetach; (repeat' split) <;> simp [apply_ite State.held]
@[simp] theorem chanPerform_held (s : State) (a1 : Nat) (a2 : CipherJob) :
    (chanPerform s a1 a2).1.held = s.held := by unfold chanPerform; (repeat' split) <;> simp [apply_ite State.held]
@[simp] theorem chanRun_held (s : State) (a1 : Nat) :
    (chanRun s a1).held = s.held := by unfold chanRun; (repeat' split) <;> simp [apply_ite State.held]
@[simp] theorem chanDrain_held (a0 : Nat) (s : State) (a2 : Nat) :
    (chanDrain a0 s a2).held = s.held := by fun_induction chanDrain <;> simp_all [apply_ite State.held]
@[simp] theorem refuseOp_held (s : State) (a1 : Option Nat) (a2 : Code) :
    (refuseOp s a1 a2).held = s.held := by unfold refuseOp; (repeat' split) <;> simp [apply_ite State.held]
@[simp] theorem pageViolation_held (s : State) (a1 : Nat) (a2 : Nat) :
    (pageViolation s a1 a2).held = s.held := by simp [pageViolation]
@[simp] theorem chanPush_held (s : State) (a1 : Nat) (a2 : CipherJob) :
    (chanPush s a1 a2).held = s.held := by simp [chanPush, apply_ite State.held]
@[simp] theorem chanSubmit_held (s : State) (a1 : Nat) (a2 : Nat) (a3 : Nat) (a4 : CipherOp) (a5 : CipherBody) :
    (chanSubmit s a1 a2 a3 a4 a5).held = s.held := by unfold chanSubmit; dsimp only; (repeat' split) <;> simp [apply_ite State.held]
@[simp] theorem expandIdent_held (s : State) :
    (expandIdent s).held = s.held := by unfold expandIdent; (repeat' split) <;> simp [apply_ite State.held]
@[simp] theorem signWith_held (s : State) (a1 : Bytes) (a2 : Bool) :
    (signWith s a1 a2).1.held = s.held := by unfold signWith; dsimp only; (repeat' split) <;> simp [apply_ite State.held]
@[simp] theorem signId_held (s : State) (a1 : Bytes) :
    (signId s a1).1.held = s.held := by unfold signId; (repeat' split) <;> simp [apply_ite State.held]
@[simp] theorem kaKeys_held (s : State) :
    (kaKeys s).1.held = s.held := id rfl
@[simp] theorem kaRespond_held (s : State) (a1 : Point) (a2 : KemBlob) :
    (kaRespond s a1 a2).1.held = s.held := by unfold kaRespond; (repeat' split) <;> simp [apply_ite State.held]
@[simp] theorem putSecret_held (s : State) (a1 : KeyPath) (a2 : BitVec 384) :
    (putSecret s a1 a2).held = s.held := by unfold putSecret; (repeat' split) <;> simp [apply_ite State.held]
@[simp] theorem makeHallmark_held (s : State) (a1 : BitVec 256) (a2 : Option Dig384) (a3 : Bool) :
    (makeHallmark s a1 a2 a3).1.held = s.held := by
  unfold makeHallmark
  split
  · rfl
  · dsimp only
    split
    · rfl
    · split <;> (rename_i h; simp [fst_held h])
@[simp] theorem lcSet_held (s : State) (a1 : Nat) (a2 : Bool) :
    (lcSet s a1 a2).held = s.held := id rfl
@[simp] theorem answerSigned_held (s : State) (a1 : Nat) (a2 : Nat) (a3 : Nat) :
    (answerSigned s a1 a2 a3).held = s.held := by simp [answerSigned, apply_ite State.held]
@[simp] theorem lcResult_held (s : State) (a1 : Nat) (a2 : Nat) (a3 : Nat) :
    (lcResult s a1 a2 a3).held = s.held := by simp [lcResult, apply_ite State.held]
@[simp] theorem sessionKeys_held (s : State) :
    (sessionKeys s).held = s.held := by simp [sessionKeys]
@[simp] theorem protectViolation_held (s : State) (a1 : Nat) (a2 : Nat) (a3 : Nat) :
    (protectViolation s a1 a2 a3).held = s.held := by simp [protectViolation]
@[simp] theorem debugAccess_held (s : State) (a1 : Nat) (a2 : Nat) (a3 : Reach) :
    (debugAccess s a1 a2 a3).held = s.held := by simp [debugAccess, apply_ite State.held]
@[simp] theorem domRecord_held (s : State) (a1 : Nat) (a2 : Nat) (a3 : Code) :
    (domRecord s a1 a2 a3).held = s.held := by simp [domRecord]
@[simp] theorem domRefusal_held (s : State) (a1 : Nat) (a2 : Code) :
    (domRefusal s a1 a2).held = s.held := by simp [domRefusal]
@[simp] theorem setOffset_held (s : State) (a1 : Int) :
    (setOffset s a1).held = s.held := by simp [setOffset]
@[simp] theorem leaveDomain_held (s : State) :
    (leaveDomain s).held = s.held := by simp [leaveDomain]
@[simp] theorem memberUpdate_held (s : State) (a1 : List Nat) (a2 : List Nat) (a3 : List HostRec) (a4 : Option Policy) :
    (memberUpdate s a1 a2 a3 a4).held = s.held := by simp [memberUpdate]
@[simp] theorem anchorState_held (s : State) :
    (anchorState s).held = s.held := by simp [anchorState]
@[simp] theorem dropMember_held (s : State) (a1 : Nat) :
    (dropMember s a1).held = s.held := by simp [dropMember]
@[simp] theorem putDomainKey_held (s : State) (a1 : Bool) (a2 : Key) :
    (putDomainKey s a1 a2).held = s.held := by simp [putDomainKey, apply_ite State.held]
@[simp] theorem armSwitch_held (s : State) (a1 : Nat) :
    (armSwitch s a1).1.held = s.held := by
  unfold armSwitch
  dsimp only
  split
  · dsimp only
    rw [foldl_held]
    · simp
    · intro s a
      split
      · split <;> simp
      · rfl
  · simp
@[simp] theorem missSwitch_held (s : State) :
    (missSwitch s).held = s.held := by simp [missSwitch]
@[simp] theorem commitEpoch_held (s : State) :
    (commitEpoch s).held = s.held := by simp [commitEpoch, apply_ite State.held]
@[simp] theorem tryCommit_held (s : State) :
    (tryCommit s).held = s.held := by simp [tryCommit, apply_ite State.held]
@[simp] theorem startChange_held (s : State) :
    (startChange s).held = s.held := by simp [startChange, apply_ite State.held]
@[simp] theorem epochTrigger_held (s : State) (a1 : Nat) :
    (epochTrigger s a1).held = s.held := by simp [epochTrigger, apply_ite State.held]
@[simp] theorem domTake_held (s : State) (a1 : Nat) (a2 : DomHdr) (a3 : Bool) (a4 : State → State) (h4 : ∀ s, (a4 s).held = s.held) :
    (domTake s a1 a2 a3 a4).held = s.held := by simp [domTake, h4, apply_ite State.held]
@[simp] theorem anchorTake_held (s : State) (a1 : Nat) (a2 : DomHdr) (a3 : Bool) (a4 : State → State) (h4 : ∀ s, (a4 s).held = s.held) :
    (anchorTake s a1 a2 a3 a4).held = s.held := by simp [anchorTake, h4, apply_ite State.held]
@[simp] theorem fromAnchor_held (s : State) (a1 : Nat) (a2 : DomHdr) (a3 : State → State) (h3 : ∀ s, (a3 s).held = s.held) :
    (fromAnchor s a1 a2 a3).held = s.held := by simp [fromAnchor, h3, apply_ite State.held]
@[simp] theorem unitDown_held (s : State) (a1 : Nat) :
    (unitDown s a1).held = s.held := by simp [unitDown, apply_ite State.held]
@[simp] theorem endJoin_held (s : State) (a1 : Code) :
    (endJoin s a1).held = s.held := by simp [endJoin]
@[simp] theorem sendHello_held (s : State) :
    (sendHello s).held = s.held := by simp [sendHello, apply_ite State.held]
@[simp] theorem keepJk_held (s : State) (a1 : Nat) (a2 : BitVec 384) :
    (keepJk s a1 a2).held = s.held := by simp [keepJk]
@[simp] theorem retryJoin_held (s : State) :
    (retryJoin s).held = s.held := by simp [retryJoin, apply_ite State.held]
@[simp] theorem dropPriv_held (s : State) (a1 : Nat) :
    (dropPriv s a1).held = s.held := id rfl
@[simp] theorem sendShare_held (s : State) (a1 : DomHdr) (a2 : Nat) :
    (sendShare s a1 a2).held = s.held := by simp [sendShare, apply_ite State.held]
@[simp] theorem keySwitch_held (s : State) :
    (keySwitch s).held = s.held := by simp [keySwitch, apply_ite State.held]
@[simp] theorem promoteKey_held (s : State) :
    (promoteKey s).held = s.held := id rfl
@[simp] theorem endGrace_held (s : State) :
    (endGrace s).held = s.held := by simp [endGrace]
@[simp] theorem abortChange_held (s : State) :
    (abortChange s).held = s.held := by simp [abortChange, apply_ite State.held]
@[simp] theorem claimAnchor_held (s : State) :
    (claimAnchor s).held = s.held := by simp [claimAnchor, apply_ite State.held]
@[simp] theorem anchorLost_held (s : State) :
    (anchorLost s).held = s.held := by simp [anchorLost, apply_ite State.held]
@[simp] theorem termLost_held (s : State) :
    (termLost s).held = s.held := by simp [termLost]
@[simp] theorem setPool_kept (s : State) (a1 : Nat) (a2 : Nat) (a3 : Pool) :
    (setPool s a1 a2 a3).held.1 = s.held.1 := id rfl
@[simp] theorem refreshLanes_held (s : State) (a1 : Nat) :
    (refreshLanes s a1).held = s.held := by simp [refreshLanes, apply_ite State.held]
@[simp] theorem loseCore_kept (s : State) (a1 : Nat) (a2 : Nat) (a3 : Nat) :
    (loseCore s a1 a2 a3).held.1 = s.held.1 := by unfold loseCore; dsimp only; (repeat' split) <;> simp [apply_ite State.held, apply_ite (fun x : State => x.held.1)]
@[simp] theorem resetRec_held (s : State) (a1 : Nat) (a2 : Nat) (a3 : Nat) (a4 : Option Nat) :
    (resetRec s a1 a2 a3 a4).held = s.held := by simp [resetRec]
@[simp] theorem closeFor_held (s : State) (a1 : Nat) (a2 : Nat) :
    (closeFor s a1 a2).1.held = s.held := by
  unfold closeFor
  split
  · split <;> simp
  · rfl
theorem resetBack_held (s : State) (a1 : TreeNode) (t : State) (h : resetBack s a1 = some t) :
    t.held = s.held := by
  unfold resetBack at h
  dsimp only at h
  split at h
  · cases h
  · split at h
    · cases h; simp
    · split at h
      · cases h
      · cases h; simp
@[simp] theorem flushNodes_held (s : State) (a1 : Nat) (a2 : TreeNode → Bool) :
    (flushNodes s a1 a2).held = s.held := by
  unfold flushNodes
  apply foldl_held; intro s a
  apply foldl_held; intro s a
  cases h : resetBack s a with
  | none => rfl
  | some t => exact resetBack_held _ _ _ h
@[simp] theorem resetPewter_held (s : State) (a1 : Nat) :
    (resetPewter s a1).held = s.held := by
  unfold resetPewter
  extract_lets s1 s2 p keep s3
  have e1 : s1.held = s.held := foldl_held _ (by simp) _ _
  have e2 : s2.held = s1.held := foldl_held _ (by intro s w; split <;> simp) _ _
  have e3 : s3.held = s2.held := by simp [s3]
  rw [remoteSettle_held, pewPump_held, foldl_held _ (by simp), e3, e2, e1]
@[simp] theorem dropEgress_held (s : State) (a1 : Nat) :
    (dropEgress s a1).held = s.held := by
  unfold dropEgress
  dsimp only
  rw [foldl_held]
  · simp
  · intro s a; rfl
@[simp] theorem resetBrass_held (s : State) (a1 : Nat) :
    (resetBrass s a1).held = s.held := by simp [resetBrass]
@[simp] theorem resetHost_held (s : State) :
    (resetHost s).held = s.held := by simp [resetHost]
@[simp] theorem resetGate_held (s : State) :
    (resetGate s).held = s.held := by simp [resetGate, apply_ite State.held]
@[simp] theorem resetArbiter_held (s : State) :
    (resetArbiter s).held = s.held := by unfold resetArbiter; dsimp only; (repeat' split) <;> simp [apply_ite State.held]
@[simp] theorem resetCipher_held (s : State) :
    (resetCipher s).held = s.held := by simp [resetCipher]
@[simp] theorem resetPk_held (s : State) :
    (resetPk s).held = s.held := id rfl
@[simp] theorem clearEngine_held (s : State) (a1 : Nat) :
    (clearEngine s a1).held = s.held := by simp [clearEngine, apply_ite State.held]
@[simp] theorem assayPool_kept (a0 : Nat) (s : State) (a2 : Nat × List Nat) :
    (assayPool a0 s a2).held.1 = s.held.1 := by unfold assayPool; (repeat' split) <;> simp [apply_ite State.held, apply_ite (fun x : State => x.held.1)]
@[simp] theorem restage_held (s : State) (a1 : Nat) :
    (restage s a1).held = s.held := by simp [restage]
@[simp] theorem relink_held (s : State) (a1 : Nat) :
    (relink s a1).held = s.held := id rfl
@[simp] theorem redeliver_held (s : State) (a1 : Nat) :
    (redeliver s a1).held = s.held := by simp [redeliver, apply_ite State.held]
@[simp] theorem engineReset_kept (s : State) (a1 : Nat) (a2 : List (Nat × List Nat)) :
    (engineReset s a1 a2).held.1 = s.held.1 := by simp [engineReset, apply_ite State.held, apply_ite (fun x : State => x.held.1)]
@[simp] theorem clearParts_held (s : State) (a1 : Nat) :
    (clearParts s a1).held = s.held := by simp [clearParts]
@[simp] theorem cutCipher_held (s : State) (a1 : Nat) :
    (cutCipher s a1).held = s.held := by simp [cutCipher]
@[simp] theorem cutRemote_held (s : State) (a1 : Nat) :
    (cutRemote s a1).held = s.held := by simp [cutRemote]
@[simp] theorem cutJobs_held (s : State) (a1 : Nat) :
    (cutJobs s a1).held = s.held := by simp [cutJobs]
@[simp] theorem partitionReset_held (s : State) (a1 : Nat) :
    (partitionReset s a1).held = s.held := by simp [partitionReset]
@[simp] theorem fabDown_held (s : State) (a1 : Nat) :
    (fabDown s a1).held = s.held := by simp [fabDown]
@[simp] theorem poolDown_held (s : State) (a1 : Nat) :
    (poolDown s a1).held = s.held := by simp [poolDown]
@[simp] theorem stackDown_held (s : State) (a1 : Nat) :
    (stackDown s a1).held = s.held := by simp [stackDown, apply_ite State.held]
@[simp] theorem hostDown_held (s : State) :
    (hostDown s).held = s.held := by simp [hostDown]
@[simp] theorem cpDown_held (s : State) (a1 : Nat) :
    (cpDown s a1).held = s.held := by simp [cpDown]
@[simp] theorem arrayDown_held (s : State) :
    (arrayDown s).held = s.held := by unfold arrayDown; dsimp only; (repeat' split) <;> simp [apply_ite State.held]
@[simp] theorem abandonTransfers_held (s : State) :
    (abandonTransfers s).held = s.held := id rfl
@[simp] theorem neighbourDown_held (s : State) (a1 : Group) (a2 : Nat) :
    (neighbourDown s a1 a2).held = s.held := by unfold neighbourDown; (repeat' split) <;> simp [apply_ite State.held]
@[simp] theorem neighbourUp_held (s : State) (a1 : Group) (a2 : Nat) :
    (neighbourUp s a1 a2).held = s.held := by unfold neighbourUp; (repeat' split) <;> simp [apply_ite State.held]
@[simp] theorem setVersion_held (s : State) (a1 : BitVec 32) :
    (setVersion s a1).held = s.held := id rfl
@[simp] theorem settleVersion_held (s : State) :
    (settleVersion s).held = s.held := by simp [settleVersion, apply_ite State.held]
@[simp] theorem raiseVersion_held (s : State) :
    (raiseVersion s).held = s.held := by unfold raiseVersion; (repeat' split) <;> simp [apply_ite State.held]
@[simp] theorem imageRecord_held (s : State) (a1 : Image) (a2 : Nat) :
    (imageRecord s a1 a2).held = s.held := by simp [imageRecord]
@[simp] theorem mapRecord_held (s : State) :
    (mapRecord s).held = s.held := by simp [mapRecord]
@[simp] theorem buildMap_held (s : State) (a1 : List Nat) :
    (buildMap s a1).held = s.held := by simp [buildMap]
@[simp] theorem writeStart_held (s : State) (a1 : List (BitVec 32)) :
    (writeStart s a1).held = s.held := by unfold writeStart; (repeat' split) <;> simp [apply_ite State.held]
@[simp] theorem logicReset_kept (s : State) :
    (logicReset s).held.1 = s.held.1 := id rfl
@[simp] theorem dropVrst_held (s : State) (a1 : List Nat) :
    (dropVrst s a1).held = s.held := by simp [dropVrst]
@[simp] theorem reloadImage_held (s : State) :
    (reloadImage s).held = s.held := by unfold reloadImage; (repeat' split) <;> simp [apply_ite State.held]
@[simp] theorem chipClear_kept (s : State) (a1 : ChipCause) :
    (chipClear s a1).held.1 = s.held.1 := by simp [chipClear]
@[simp] theorem groupUp_held (s : State) (a1 : Nat) :
    (groupUp s a1).held = s.held := by simp [groupUp, apply_ite State.held]
@[simp] theorem runReset_kept (s : State) (a1 : ResetJob) :
    (runReset s a1).held.1 = s.held.1 := by unfold runReset; (repeat' split) <;> simp [apply_ite State.held, apply_ite (fun x : State => x.held.1)]
@[simp] theorem settleResets_kept (s : State) :
    (settleResets s).held.1 = s.held.1 := by simp [settleResets]
@[simp] theorem beginReset_kept (s : State) (a1 : ResetJob) :
    (beginReset s a1).held.1 = s.held.1 := by simp [beginReset]
@[simp] theorem flushed_kept (s : State) (a1 : Group) (a2 : Nat) :
    (flushed s a1 a2).held.1 = s.held.1 := by unfold flushed; dsimp only; (repeat' split) <;> simp [apply_ite State.held, apply_ite (fun x : State => x.held.1)]
@[simp] theorem chanParity_held (s : State) (a1 : Nat) :
    (chanParity s a1).held = s.held := by unfold chanParity; dsimp only; (repeat' split) <;> simp [apply_ite State.held]
@[simp] theorem floorFlow_held (s : State) (a1 : Nat) :
    (floorFlow s a1).held = s.held := id rfl
@[simp] theorem loseFlows_held (s : State) :
    (loseFlows s).held = s.held := by simp [loseFlows, apply_ite State.held]
@[simp] theorem parityEnds_held (s : State) (a1 : Nat) (a2 : Nat) :
    (parityEnds s a1 a2).held = s.held := by unfold parityEnds; dsimp only; (repeat' split) <;> simp [apply_ite State.held]
@[simp] theorem reloadReplica_held (s : State) (a1 : Nat) :
    (reloadReplica s a1).held = s.held := id rfl
@[simp] theorem tcuRestartWith_kept (s : State) (a1 : TcuCause) (a2 : List (Nat × List Nat)) :
    (tcuRestartWith s a1 a2).held.1 = s.held.1 := by unfold tcuRestartWith; dsimp only; (repeat' split) <;> simp [apply_ite State.held, apply_ite (fun x : State => x.held.1)]
@[simp] theorem tcuRestart_kept (s : State) (a1 : TcuCause) :
    (tcuRestart s a1).held.1 = s.held.1 := by simp [tcuRestart]
@[simp] theorem settleClose_kept (s : State) (a1 : Nat) :
    (settleClose s a1).held.1 = s.held.1 := by unfold settleClose; (repeat' split) <;> simp [apply_ite State.held, apply_ite (fun x : State => x.held.1)]
@[simp] theorem pewterClose_kept (s : State) (a1 : Nat) (a2 : List (Nat × List Nat)) :
    (pewterClose s a1 a2).held.1 = s.held.1 := by unfold pewterClose; (repeat' split) <;> simp [apply_ite State.held, apply_ite (fun x : State => x.held.1)]
@[simp] theorem chipReset_kept (s : State) (a1 : ChipCause) :
    (chipReset s a1).held.1 = s.held.1 := by simp [chipReset, apply_ite State.held, apply_ite (fun x : State => x.held.1)]
@[simp] theorem tcuBeat_held (s : State) (a1 : BitVec 16) :
    (tcuBeat s a1).held = s.held := by simp [tcuBeat, apply_ite State.held]
@[simp] theorem sentinelChip_held (s : State) :
    (sentinelChip s).held = s.held := by simp [sentinelChip]
@[simp] theorem applyConfig_held (s : State) :
    (applyConfig s).held = s.held := by unfold applyConfig; (repeat' split) <;> simp [apply_ite State.held]
@[simp] theorem saveRecord_held (s : State) (a1 : Nat) (a2 : Nat) (a3 : Nat) (a4 : Bool) (a5 : Nat) :
    (saveRecord s a1 a2 a3 a4 a5).held = s.held := by simp [saveRecord]
@[simp] theorem applyIngot_held (s : State) (a1 : Ingot) :
    (applyIngot s a1).held = s.held := by unfold applyIngot; (repeat' split) <;> simp [apply_ite State.held]
@[simp] theorem consumeIngot_held (s : State) :
    (consumeIngot s).held = s.held := by unfold consumeIngot; dsimp only; (repeat' split) <;> simp [apply_ite State.held]
@[simp] theorem startPools_kept (s : State) (a1 : Bool) (a2 : List (Nat × Nat × List Nat)) :
    (startPools s a1 a2).held.1 = s.held.1 := by unfold startPools; (repeat' split) <;> simp [apply_ite State.held, apply_ite (fun x : State => x.held.1)]
@[simp] theorem startKeys_held (s : State) :
    (startKeys s).held = s.held := by simp [startKeys]
@[simp] theorem enginesReady_held (s : State) :
    (enginesReady s).held = s.held := id rfl
@[simp] theorem readyRecord_held (s : State) :
    (readyRecord s).held = s.held := by simp [readyRecord]
@[simp] theorem vtcReady_held (s : State) (a1 : Bool) (a2 : Bool) (a3 : Nat) :
    (vtcReady s a1 a2 a3).held = s.held := by simp [vtcReady]
@[simp] theorem loaderOnly_held (s : State) :
    (loaderOnly s).held = s.held := id rfl
@[simp] theorem takeLanes_held (s : State) (a1 : List Nat) :
    (takeLanes s a1).held = s.held := by simp [takeLanes]
@[simp] theorem changedMap_held (s : State) :
    (changedMap s).held = s.held := id rfl
@[simp] theorem recordStaged_held (s : State) :
    (recordStaged s).held = s.held := id rfl
@[simp] theorem restageMap_held (s : State) :
    (restageMap s).held = s.held := by unfold restageMap; (repeat' split) <;> simp [apply_ite State.held]
@[simp] theorem stageMap_held (s : State) (a1 : Nat) :
    (stageMap s a1).1.held = s.held := by unfold stageMap; dsimp only; (repeat' split) <;> simp [apply_ite State.held]
@[simp] theorem markFailed_held (s : State) (a1 : Nat) :
    (markFailed s a1).held = s.held := by unfold markFailed; (repeat' split) <;> simp [apply_ite State.held]
@[simp] theorem cutRunning_held (s : State) :
    (cutRunning s).held = s.held := by unfold cutRunning; (repeat' split) <;> simp [apply_ite State.held]
@[simp] theorem vacateCore_held (s : State) (a1 : Nat) (a2 : Option Nat) :
    (vacateCore s a1 a2).held = s.held := by unfold vacateCore; (repeat' split) <;> simp [apply_ite State.held]
@[simp] theorem testSpare_held (s : State) (a1 : Nat) (a2 : Nat) (a3 : Nat) :
    (testSpare s a1 a2 a3).held = s.held := id rfl
@[simp] theorem applyMap_held (s : State) :
    (applyMap s).held = s.held := by simp [applyMap]
@[simp] theorem dropMap_held (s : State) :
    (dropMap s).held = s.held := id rfl
@[simp] theorem applyCommit_held (s : State) (a1 : Cast) :
    (applyCommit s a1).held = s.held := by simp [applyCommit, apply_ite State.held]
@[simp] theorem boundaryFire_held (s : State) :
    (boundaryFire s).held = s.held := by simp [boundaryFire, apply_ite State.held]
@[simp] theorem castAction_held (s : State) (a1 : Nat) (a2 : Cast) :
    (castAction s a1 a2).held = s.held := by simp [castAction, apply_ite State.held]
@[simp] theorem castMissed_held (s : State) (a1 : Cast) :
    (castMissed s a1).held = s.held := by simp [castMissed, apply_ite State.held]
@[simp] theorem hostCharge_held (s : State) (a1 : Nat) (a2 : Nat) (a3 : Nat) :
    (hostCharge s a1 a2 a3).held = s.held := id rfl
@[simp] theorem hostStart_held (s : State) (a1 : Nat) (a2 : LiveSeal) (a3 : State → State) (h3 : ∀ s, (a3 s).held = s.held) :
    (hostStart s a1 a2 a3).held = s.held := by simp [hostStart, h3, apply_ite State.held]
@[simp] theorem rejectRecord_held (s : State) (a1 : Nat) (a2 : LiveSeal) (a3 : Nat) :
    (rejectRecord s a1 a2 a3).held = s.held := by simp [rejectRecord, apply_ite State.held]
@[simp] theorem takeRecord_held (s : State) (a1 : Nat) (a2 : LiveSeal) (a3 : BounceRec) (a4 : KeyPath) (a5 : Bytes) :
    (takeRecord s a1 a2 a3 a4 a5).held = s.held := by unfold takeRecord; dsimp only; (repeat' split) <;> simp [apply_ite State.held]
@[simp] theorem sendRecord_held (s : State) (a1 : Nat) (a2 : LiveSeal) (a3 : Key) (a4 : Bool) :
    (sendRecord s a1 a2 a3 a4).held = s.held := by simp [sendRecord, apply_ite State.held]
@[simp] theorem bounceState_held (s : State) (a1 : Nat) :
    (bounceState s a1).1.held = s.held := id rfl
@[simp] theorem unboundDrop_held (s : State) :
    (unboundDrop s).held = s.held := id rfl
@[simp] theorem resealDone_held (s : State) (a1 : Nat) (a2 : Desc) (a3 : Nat) (a4 : Nat) (a5 : Nat) :
    (resealDone s a1 a2 a3 a4 a5).held = s.held := by unfold resealDone; (repeat' split) <;> simp [apply_ite State.held]
@[simp] theorem resealFail_held (s : State) (a1 : Nat) (a2 : Nat) (a3 : Code) :
    (resealFail s a1 a2 a3).held = s.held := by unfold resealFail; (repeat' split) <;> simp [apply_ite State.held]
@[simp] theorem resealGo_held (s : State) (a1 : Nat) :
    (resealGo s a1).held = s.held := by unfold resealGo; dsimp only; (repeat' split) <;> simp [apply_ite State.held]
@[simp] theorem resealStart_held (s : State) (a1 : Nat) (a2 : Nat) :
    (resealStart s a1 a2).held = s.held := by unfold resealStart; (repeat' split) <;> simp [apply_ite State.held]
@[simp] theorem goOn_held (s : State) (a1 : Nat) (a2 : Desc) :
    (goOn s a1 a2).held = s.held := by simp [goOn, apply_ite State.held]
@[simp] theorem hostFail_held (s : State) (a1 : Nat) (a2 : Desc) (a3 : Code) :
    (hostFail s a1 a2 a3).held = s.held := by unfold hostFail; (repeat' split) <;> simp [apply_ite State.held]
@[simp] theorem hostMissed_held (s : State) (a1 : Nat) (a2 : Desc) (a3 : Nat) (a4 : Bool) (a5 : Bool) :
    (hostMissed s a1 a2 a3 a4 a5).held = s.held := by simp [hostMissed, apply_ite State.held]
@[simp] theorem checkForged_held (s : State) (a1 : Nat) (a2 : Nat) (a3 : Nat) (a4 : Bytes) :
    (checkForged s a1 a2 a3 a4).held = s.held := by unfold checkForged; dsimp only; (repeat' split) <;> simp [apply_ite State.held]
@[simp] theorem checkLost_held (s : State) (a1 : Nat) (a2 : Nat) (a3 : Nat) (a4 : Nat) (a5 : Bytes) :
    (checkLost s a1 a2 a3 a4 a5).held = s.held := by simp [checkLost]
@[simp] theorem checkPiece_held (s : State) (a1 : Nat) (a2 : Nat) (a3 : Nat) (a4 : Nat) (a5 : LiveSeal) (a6 : Bytes) :
    (checkPiece s a1 a2 a3 a4 a5 a6).held = s.held := by simp [checkPiece, apply_ite State.held]
@[simp] theorem lateReport_held (s : State) (a1 : Nat → Bool) :
    (lateReport s a1).held = s.held := by unfold lateReport; (repeat' split) <;> simp [apply_ite State.held]
@[simp] theorem bindPasid_held (s : State) (a1 : Nat) (a2 : Nat) :
    (bindPasid s a1 a2).held = s.held := by simp [bindPasid, apply_ite State.held]
@[simp] theorem newContext_held (s : State) (a1 : Nat) (a2 : Nat) (a3 : Nat) :
    (newContext s a1 a2 a3).held = s.held := by simp [newContext]
@[simp] theorem shareJoin_held (s : State) (a1 : Nat) (a2 : Nat) (a3 : Nat) (a4 : Nat) :
    (shareJoin s a1 a2 a3 a4).held = s.held := by simp [shareJoin]
@[simp] theorem freezeDesc_held (a0 : Option Nat) (a1 : Nat) (s : State) (a3 : Nat × Desc) :
    (freezeDesc a0 a1 s a3).held = s.held := by simp [freezeDesc, apply_ite State.held]
@[simp] theorem freezeSlice_held (s : State) (a1 : Nat) (a2 : Nat) :
    (freezeSlice s a1 a2).held = s.held := by simp [freezeSlice]
@[simp] theorem thawPiece_held (s : State) (a1 : PendPiece) :
    (thawPiece s a1).held = s.held := by unfold thawPiece; (repeat' split) <;> simp [apply_ite State.held]
@[simp] theorem thawSlice_held (s : State) (a1 : Nat) :
    (thawSlice s a1).held = s.held := by simp [thawSlice]
@[simp] theorem sliceOut_held (s : State) (a1 : Nat) :
    (sliceOut s a1).held = s.held := by simp [sliceOut]
@[simp] theorem publishGauges_held (s : State) (a1 : List GaugeFind) :
    (publishGauges s a1).held = s.held := id rfl
@[simp] theorem setTap_held (s : State) (a1 : Nat) (a2 : Nat) (a3 : Nat) :
    (setTap s a1 a2 a3).held = s.held := id rfl
@[simp] theorem planThrottle_held (s : State) (a1 : List (Nat × Nat)) :
    (planThrottle s a1).held = s.held := by simp [planThrottle, apply_ite State.held]
@[simp] theorem publishMargins_held (s : State) (a1 : List GaugeFind) :
    (publishMargins s a1).held = s.held := by unfold publishMargins; dsimp only; (repeat' split) <;> simp [apply_ite State.held]
@[simp] theorem planRecord_held (s : State) :
    (planRecord s).held = s.held := by simp [planRecord]
@[simp] theorem writeIngot_held (s : State) (a1 : Nat) (a2 : SaveEnv) (a3 : Key) :
    (writeIngot s a1 a2 a3).1.held = s.held := by unfold writeIngot; (repeat' split) <;> simp [apply_ite State.held]
@[simp] theorem countSend_held (s : State) (a1 : Sent) :
    (countSend s a1).held = s.held := by simp [countSend, apply_ite State.held]
@[simp] theorem passFrames_held (a0 : Nat) (s : State) (a2 : Nat) :
    (passFrames a0 s a2).held = s.held := by
  induction a0 generalizing s with
  | zero => rfl
  | succ n ih =>
    unfold passFrames
    split
    · rfl
    · dsimp only
      split
      · rfl
      · rw [ih]; split <;> simp
@[simp] theorem passPump_held (s : State) (a1 : Nat) :
    (passPump s a1).held = s.held := by simp [passPump]
@[simp] theorem takePass_held (s : State) (a1 : Nat) (a2 : Frame) :
    (takePass s a1 a2).held = s.held := by simp [takePass]
@[simp] theorem dropFrame_held (s : State) (a1 : Nat) (a2 : Nat) (a3 : Nat) :
    (dropFrame s a1 a2 a3).held = s.held := by simp [dropFrame, apply_ite State.held]
@[simp] theorem acceptEpoch_held (s : State) (a1 : Nat) (a2 : Nat) (a3 : Nat) (a4 : Option Nat) :
    (acceptEpoch s a1 a2 a3 a4).held = s.held := by unfold acceptEpoch; (repeat' split) <;> simp [apply_ite State.held]
@[simp] theorem countAccepted_held (s : State) (a1 : Nat) (a2 : Nat) (a3 : Nat) (a4 : Nat) (a5 : Nat) :
    (countAccepted s a1 a2 a3 a4 a5).held = s.held := by unfold countAccepted; (repeat' split) <;> simp [apply_ite State.held]
@[simp] theorem applyAck_held (s : State) (a1 : Nat) (a2 : List (Nat × Code)) :
    (applyAck s a1 a2).held = s.held := by simp [applyAck, apply_ite State.held]
@[simp] theorem deliverFrame_held (s : State) (a1 : Nat) (a2 : Nat) (a3 : Frame) (a4 : Bytes) :
    (deliverFrame s a1 a2 a3 a4).held = s.held := by simp [deliverFrame, apply_ite State.held]
@[simp] theorem acceptData_held (s : State) (a1 : Nat) (a2 : Nat) (a3 : Nat) (a4 : Frame) (a5 : Nat) (a6 : Nat) :
    (acceptData s a1 a2 a3 a4 a5 a6).held = s.held := by unfold acceptData; (repeat' split) <;> simp [apply_ite State.held]
@[simp] theorem takeData_held (s : State) (a1 : Nat) (a2 : Nat) (a3 : Nat) (a4 : Frame) (a5 : Nat) (a6 : Nat) (a7 : Bytes) :
    (takeData s a1 a2 a3 a4 a5 a6 a7).held = s.held := by unfold takeData; dsimp only; (repeat' split) <;> simp [apply_ite State.held]
@[simp] theorem tagFailure_held (s : State) (a1 : Nat) (a2 : Nat) (a3 : Nat) :
    (tagFailure s a1 a2 a3).held = s.held := by simp [tagFailure, apply_ite State.held]
@[simp] theorem openData_held (a0 : SeqKind) (s : State) (a2 : Flow) (a3 : Nat) (a4 : Nat) (a5 : Nat) (a6 : Nat) (a7 : Frame) (a8 : Nat) (a9 : Nat) (a10 : Option Bytes) :
    (openData a0 s a2 a3 a4 a5 a6 a7 a8 a9 a10).held = s.held := by
  unfold openData
  (repeat' split) <;> simp
@[simp] theorem openFrame_held (s : State) (a1 : Nat) (a2 : Nat) (a3 : Nat) (a4 : Frame) (a5 : Nat) (a6 : Nat) :
    (openFrame s a1 a2 a3 a4 a5 a6).held = s.held := by
  have act : ∀ (u : State) (n : Nat) (p : State × Flow), activeFlow u n = some p → p.1.held = u.held := by
    intro u n p h
    unfold activeFlow at h
    obtain ⟨w, -, hw⟩ := Option.bind_eq_some_iff.mp h
    unfold activate at hw
    dsimp only at hw
    (repeat' split at hw) <;> cases hw <;> simp
  unfold openFrame
  cases keyCached s a1 whoSys a3 a5 a6
  · rw [if_pos (by rfl)]
    split
    · rw [dropFrame_held]
    · rw [missKey_held]; simp only [countMiss_held]
  · rw [if_neg (by decide)]
    cases engKey s (.flow a3 a5 a6)
    · dsimp only; split
      · rw [dropFrame_held]
      · rw [missKey_held]; simp only [countMiss_held]
    · dsimp only
      generalize gcmOpen _ _ _ _ _ = o
      cases a4.ftype == ftAck
      · rw [if_neg (by decide)]
        cases hh : activeFlow (touchKey s a1 whoSys a3 a5 a6) a2 with
        | none => dsimp only; rw [dropFrame_held]; simp only [held_mk, touchKey_held]
        | some p =>
          obtain ⟨s1, w⟩ := p
          have e := act _ _ _ hh
          rw [touchKey_held] at e
          dsimp only at e ⊢
          rw [openData_held, e]
      · rw [if_pos (by rfl)]
        cases o <;> simp only [tagFailure_held, applyAck_held, bumpUnit_held, acceptEpoch_held, countAccepted_held,
          touchKey_held]
@[simp] theorem receiveFrame_held (s : State) (a1 : Nat) (a2 : Frame) :
    (receiveFrame s a1 a2).held = s.held := by unfold receiveFrame; dsimp only; (repeat' split) <;> simp [apply_ite State.held]
@[simp] theorem ackMiss_held (s : State) (a1 : Nat) (a2 : Nat) (a3 : Flow) :
    (ackMiss s a1 a2 a3).held = s.held := by simp [ackMiss, apply_ite State.held]
@[simp] theorem refillPewter_held (s : State) (a1 : Nat) :
    (refillPewter s a1).held = s.held := id rfl
@[simp] theorem refillFabric_held (s : State) (a1 : Nat) :
    (refillFabric s a1).held = s.held := by simp [refillFabric]
@[simp] theorem refillHost_held (s : State) :
    (refillHost s).held = s.held := id rfl
@[simp] theorem windowRecord_held (s : State) (a1 : Limit) :
    (windowRecord s a1).held = s.held := by unfold windowRecord; (repeat' split) <;> simp [apply_ite State.held]
@[simp] theorem signedWrite_held (s : State) (a1 : Nat) (a2 : Nat) (a3 : Envelope) (a4 : State → Bytes → State × Verdict) (h4 : ∀ s b, (a4 s b).1.held = s.held) :
    (signedWrite s a1 a2 a3 a4).held = s.held := by simp [signedWrite, h4, apply_ite State.held]
@[simp] theorem resetValue_held (s : State) (a1 : Bytes) :
    (resetValue s a1).1.held = s.held := by unfold resetValue; dsimp only; (repeat' split) <;> simp [apply_ite State.held]
@[simp] theorem dumpValue_held (s : State) (a1 : Bytes) :
    (dumpValue s a1).1.held = s.held := by unfold dumpValue; dsimp only; (repeat' split) <;> simp [apply_ite State.held]
@[simp] theorem presentImage_held (s : State) (a1 : Image) :
    (presentImage s a1).1.held = s.held := by unfold presentImage; dsimp only; (repeat' split) <;> simp [apply_ite State.held]
@[simp] theorem fwMailbox_held (s : State) (a1 : MbxHdr) (a2 : Nat) (a3 : Bytes) (a4 : State → State × Code × Bytes) (h4 : ∀ s, (a4 s).1.held = s.held) :
    (fwMailbox s a1 a2 a3 a4).held = s.held := by simp [fwMailbox, h4, apply_ite State.held]
@[simp] theorem unlockPages_held (s : State) :
    (unlockPages s).held = s.held := by simp [unlockPages]
@[simp] theorem lockPages_held (s : State) (a1 : Nat) :
    (lockPages s a1).held = s.held := by
  unfold lockPages
  generalize List.map _ _ = l
  generalize l.filter _ = l
  dsimp only
  rw [foldl_held]
  · simp
  · intro s a; simp
@[simp] theorem loadFailures_held (s : State) (a1 : List Nat) :
    (loadFailures s a1).held = s.held := by simp [loadFailures, apply_ite State.held]
@[simp] theorem saveChans_held (s : State) (a1 : Nat) (a2 : Key) :
    (saveChans s a1 a2).1.held = s.held := by
  unfold saveChans
  have e : ∀ (l : List (Nat × Channel × KeyPath)) (x : State × List (Nat × Nat × Bytes × WrappedBlob)),
      (l.foldl (fun r c =>
        let s1 := reportKey r.1 c.2.2
        match findKey s1 c.2.2, key256 s1 c.2.2 with
        | some k, some v => (spendKey s1.drew .oper 1 0, r.2 ++ [(c.1, c.2.1.ctx, stateBytes c.2.1.message, wrapBlob s1 k v 8 a2)])
        | _, _ => r) x).1.held = x.1.held := by
    intro l
    induction l with
    | nil => intro x; rfl
    | cons c l ih => intro x; rw [List.foldl_cons, ih]; dsimp only; split <;> simp
  exact e _ _
@[simp] theorem saveReads_held (s : State) (a1 : Nat) :
    (saveReads s a1).held = s.held := by simp [saveReads]
@[simp] theorem writeImage_held (s : State) (a1 : Nat) (a2 : Nat) (a3 : Key) (a4 : SliceImage) :
    (writeImage s a1 a2 a3 a4).1.held = s.held := by
  unfold writeImage
  split <;> (rename_i h; simp [fst_held h])
@[simp] theorem putImageKey_held (s : State) (a1 : Nat) (a2 : Key) :
    (putImageKey s a1 a2).held = s.held := by simp [putImageKey]
@[simp] theorem saveSelf_held (s : State) (a1 : Nat) (a2 : Nat) :
    (saveSelf s a1 a2).1.held = s.held := by unfold saveSelf; dsimp only; (repeat' split) <;> simp [apply_ite State.held]
@[simp] theorem savePeer_held (s : State) (a1 : Nat) (a2 : Nat) (a3 : Nat × BitVec 64 × Nat × BitVec 256 × Point × KemBlob) :
    (savePeer s a1 a2 a3).1.held = s.held := by
  unfold savePeer
  dsimp only
  split
  · rename_i h; simp [fst_held h]
  · rename_i h
    split
    · simp [fst_held h]
    · split
      · rename_i h2; simp [fst_held h2, fst_held h]
      · rename_i h2; simp [fst_held h2, fst_held h]
@[simp] theorem restoreCtx_held (a0 : Nat) (s : State) (a2 : ImageCtx) :
    (restoreCtx a0 s a2).held = s.held := by
  unfold restoreCtx
  dsimp only
  rw [foldl_held]
  · simp
  · intro s a; split <;> simp
@[simp] theorem restoreRegion_held (s : State) (a1 : Nat) (a2 : Nat) (a3 : Nat) (a4 : Nat) (a5 : Bytes) (a6 : List Nat) :
    (restoreRegion s a1 a2 a3 a4 a5 a6).held = s.held := by simp [restoreRegion, apply_ite State.held]
@[simp] theorem restoreObj_held (a0 : Nat) (s : State) (a2 : ImageObj) :
    (restoreObj a0 s a2).held = s.held := by
  unfold restoreObj
  dsimp only
  have key : ∀ (g : State × List (Nat × Bool × Nat) → Nat × Bool × Bytes → State × List (Nat × Bool × Nat))
      (_ : ∀ a u, (g a u).1.held = a.1.held) (us : List (Nat × Bool × Bytes)) (a : State × List (Nat × Bool × Nat)),
      (us.foldl g a).1.held = a.1.held := by
    intro g hg us
    induction us with
    | nil => intro a; rfl
    | cons u r ih => intro a; simp [ih, hg]
  simp only [held_mk]
  rw [key]
  · split <;> simp
  · intro a u
    (repeat' split) <;> simp
@[simp] theorem restoreChan_held (a0 : Nat) (s : State) (a2 : Nat × Nat × Bytes × WrappedBlob) :
    (restoreChan a0 s a2).held = s.held := by simp [restoreChan, apply_ite State.held]
@[simp] theorem restoreAll_held (s : State) (a1 : Nat) (a2 : SliceImage) :
    (restoreAll s a1 a2).held = s.held := by simp [restoreAll]
@[simp] theorem openValue_held (s : State) (a1 : Nat) (a2 : Nat) :
    (openValue s a1 a2).1.held = s.held := id rfl
@[simp] theorem readNumber_held (s : State) (a1 : Entry) (a2 : Nat) (a3 : Nat) :
    (readNumber s a1 a2 a3).1.held = s.held := by unfold readNumber; (repeat' split) <;> simp [apply_ite State.held]
@[simp] theorem readOctets_held (s : State) (a1 : Nat) (a2 : Nat) :
    (readOctets s a1 a2).1.held = s.held := by unfold readOctets; (repeat' split) <;> simp [apply_ite State.held]
@[simp] theorem readValue_held (s : State) (a1 : Nat) (a2 : Nat) :
    (readValue s a1 a2).1.held = s.held := by unfold readValue; (repeat' split) <;> simp [apply_ite State.held]
@[simp] theorem readShadow_held (s : State) (a1 : Nat) (a2 : Nat) :
    (readShadow s a1 a2).1.held = s.held := by unfold readShadow; dsimp only; (repeat' split) <;> simp [apply_ite State.held]
@[simp] theorem foundDomain_held (s : State) (a1 : Policy) :
    (foundDomain s a1).held = s.held := by simp [foundDomain]
@[simp] theorem startJoin_held (s : State) (a1 : Nat) (a2 : Nat) (a3 : BitVec 256) :
    (startJoin s a1 a2 a3).held = s.held := by simp [startJoin]
@[simp] theorem refuseUnit_held (s : State) (a1 : Nat) (a2 : Nat) (a3 : Code) :
    (refuseUnit s a1 a2 a3).held = s.held := by simp [refuseUnit]
@[simp] theorem refuseJoin_held (s : State) (a1 : DomHdr) (a2 : Code) :
    (refuseJoin s a1 a2).held = s.held := by simp [refuseJoin]
@[simp] theorem joinTake_held (s : State) (a1 : DomHdr) (a2 : Nat) (a3 : State → State) (h3 : ∀ s, (a3 s).held = s.held) :
    (joinTake s a1 a2 a3).held = s.held := by
  unfold joinTake
  split
  · exact h3 s
  · simp
@[simp] theorem grantRole_held (s : State) (a1 : Nat) :
    (grantRole s a1).1.held = s.held := by
  unfold grantRole
  split <;> simp
@[simp] theorem sendAdmit_held (s : State) (a1 : DomHdr) (a2 : Policy) (a3 : Admission) (a4 : Hallmark) (a5 : Key) :
    (sendAdmit s a1 a2 a3 a4 a5).held = s.held := by simp [sendAdmit]
theorem openEnvs_held (s : State) (a1 : Key) (a2 : DomHdr) (a3 : List KeyEnvelope) (t : State) (h : openEnvs s a1 a2 a3 = some t) :
    t.held = s.held := by
  induction a3 generalizing s with
  | nil => unfold openEnvs at h; cases h; rfl
  | cons e r ih =>
    unfold openEnvs at h
    split at h
    · cases h
    · split at h
      · cases h
      · have := ih _ h; simpa using this
@[simp] theorem takeMembership_held (s : State) (a1 : DomHdr) (a2 : Policy) (a3 : List Member) (a4 : List Nat) (a5 : Int) (a6 : Nat) (a7 : RoleGrant) (a8 : List KeyEnvelope) (a9 : Nat) :
    (takeMembership s a1 a2 a3 a4 a5 a6 a7 a8 a9).held = s.held := by simp [takeMembership, apply_ite State.held]
@[simp] theorem addMember_held (s : State) (a1 : Admission) (a2 : Nat) (a3 : Nat) (a4 : Policy) :
    (addMember s a1 a2 a3 a4).held = s.held := by simp [addMember, apply_ite State.held]
@[simp] theorem admitHost_held (s : State) (a1 : Policy) (a2 : HostRec) :
    (admitHost s a1 a2).1.held = s.held := by unfold admitHost; dsimp only; (repeat' split) <;> simp [apply_ite State.held]
@[simp] theorem applyUpdate_held (s : State) (a1 : List Member) (a2 : List Nat) (a3 : List HostRec) (a4 : Option Policy) :
    (applyUpdate s a1 a2 a3 a4).held = s.held := by unfold applyUpdate; dsimp only; (repeat' split) <;> simp [apply_ite State.held]
@[simp] theorem takeUpdate_held (s : State) (a1 : List Member) (a2 : List Nat) (a3 : List HostRec) (a4 : Option Policy) (a5 : BitVec 256) :
    (takeUpdate s a1 a2 a3 a4 a5).held = s.held := by unfold takeUpdate; dsimp only; (repeat' split) <;> simp [apply_ite State.held]
@[simp] theorem poolTake_held (s : State) (a1 : Nat) (a2 : PoolReq) (a3 : Bool) (a4 : Bytes) :
    (poolTake s a1 a2 a3 a4).held = s.held := by
  unfold poolTake
  split
  · simp
  · rename_i region level index _
    dsimp only
    generalize (if level = 3 then _ else _ : Option (Nat × Bool)) = par
    cases par with
    | none => rfl
    | some x => dsimp only; (repeat' split) <;> simp
  · split
    · rfl
    · rename_i sp _
      cases h : respanChild s sp _ (b2n a3) a4 with
      | none => rfl
      | some t => exact respanChild_held _ _ _ _ _ _ h
@[simp] theorem stackOutcome_held (s : State) (a1 : Nat) (a2 : Nat) (a3 : Nat) (a4 : Nat) (a5 : Code) :
    (stackOutcome s a1 a2 a3 a4 a5).held = s.held := id rfl
@[simp] theorem canReply_held (s : State) (a1 : Nat) (a2 : Nat) (a3 : Nat) (a4 : Nat) (a5 : Nat) (a6 : Nat) (a7 : Bytes) :
    (canReply s a1 a2 a3 a4 a5 a6 a7).held = s.held := by simp [canReply]
@[simp] theorem sendSegments_held (a0 : Nat) (s : State) (a2 : Transfer) :
    (sendSegments a0 s a2).1.held = s.held := by fun_induction sendSegments <;> simp_all [apply_ite State.held]
@[simp] theorem answerRead_held (s : State) (a1 : Nat) (a2 : Nat) (a3 : Nat) (a4 : Nat) (a5 : Nat) (a6 : Bytes) :
    (answerRead s a1 a2 a3 a4 a5 a6).held = s.held := by simp [answerRead, apply_ite State.held]
theorem writeB_held (s : State) (a1 : Nat) (a2 : Bytes) (t : State) (h : writeB s a1 a2 = some t) :
    t.held = s.held := by
  have c : ∀ (p : Prop) [Decidable p] (a u : State) (x : Option State), a.held = u.held → (x = some t → t.held = u.held) →
      (if p then some a else x) = some t → t.held = u.held := by
    intro p _ a u x h k; split
    · intro e; cases e; exact h
    · exact k
  have e : ∀ (o : Host.Outcome State Fault Refusal) (t u : State), o = done t → t.held = u.held → (after o u).held = u.held := by
    intro o t u h k; rw [h]; exact k
  have f : ∀ (u : State) (g : State → State), (∀ s, (g s).held = s.held) → (whenUp u g).held = u.held := by
    intro u g h; unfold whenUp; split
    · exact h u
    · rfl
  unfold writeB at h
  revert h
  refine c _ _ _ _ ?_ (c _ _ _ _ ?_ (c _ _ _ _ (by simp) (c _ _ _ _ ?_ (c _ _ _ _ ?_ (c _ _ _ _ ?_ (c _ _ _ _ ?_
    (c _ _ _ _ ?_ (c _ _ _ _ ?_ (c _ _ _ _ ?_ (c _ _ _ _ ?_ (by simp)))))))))))
  all_goals refine e _ _ _ rfl ?_
  all_goals (try refine f _ _ fun s => ?_)
  all_goals ((try dsimp only); (repeat' split) <;> (first | (rename_i h1; simp [fst_held h1]; done) | simp))
@[simp] theorem dropTransfer_held (s : State) (a1 : Nat) (a2 : Nat) :
    (dropTransfer s a1 a2).held = s.held := id rfl
@[simp] theorem setTransfer_held (s : State) (a1 : Transfer) :
    (setTransfer s a1).held = s.held := id rfl
@[simp] theorem endTransfer_held (s : State) (a1 : Transfer) (a2 : Nat) (a3 : Bool) :
    (endTransfer s a1 a2 a3).held = s.held := by simp [endTransfer, apply_ite State.held]
@[simp] theorem ackFrame_held (s : State) (a1 : Transfer) :
    (ackFrame s a1).held = s.held := by simp [ackFrame]
@[simp] theorem pkEnd_held (s : State) (a1 : Code) :
    (pkEnd s a1).held = s.held := id rfl
@[simp] theorem pkSign_held (s : State) (a1 : Nat) (a2 : Nat) (a3 : Bytes) (a4 : Bool) :
    (pkSign s a1 a2 a3 a4).held = s.held := by
  unfold pkSign
  split
  · rename_i h1; have e := fst_held h1; simp at e; simp [e]
  · rename_i h1; have e := fst_held h1; simp at e; simp [e]
@[simp] theorem pkVerify_held (s : State) (a1 : Nat) (a2 : Nat) (a3 : HybKey) (a4 : Bytes) (a5 : HybSig) :
    (pkVerify s a1 a2 a3 a4 a5).held = s.held := by simp [pkVerify, apply_ite State.held]
@[simp] theorem pkInitiate_held (s : State) (a1 : KeyPath) :
    (pkInitiate s a1).held = s.held := by simp [pkInitiate, apply_ite State.held]
@[simp] theorem pkHold_held (s : State) (a1 : KeyPath) :
    (pkHold s a1).held = s.held := id rfl
@[simp] theorem pkAgree_held (s : State) (a1 : KaStep) (a2 : KeyPath) :
    (pkAgree s a1 a2).held = s.held := by
  unfold pkAgree
  split
  · simp
  · split
    · simp
    · split
      · simp
      · split
        · rename_i h1; have e := fst_held h1; simp at e; simp [e]
        · rename_i h1; have e := fst_held h1; simp at e; simp [e]
  · split
    · simp
    · dsimp only; (repeat' split) <;> simp
@[simp] theorem pkDo_held (s : State) (a1 : Nat) (a2 : Nat) (a3 : PkJob) :
    (pkDo s a1 a2 a3).held = s.held := by unfold pkDo; (repeat' split) <;> simp [apply_ite State.held]
@[simp] theorem pkServeSlice_held (a0 : Nat) (s : State) (a2 : Nat) :
    (pkServeSlice a0 s a2).held = s.held := by fun_induction pkServeSlice <;> simp_all [apply_ite State.held]
@[simp] theorem pkServe_held (s : State) :
    (pkServe s).held = s.held := by simp [pkServe]
@[simp] theorem pkSubmit_held (s : State) (a1 : Nat) (a2 : Nat) (a3 : PkJob) :
    (pkSubmit s a1 a2 a3).held = s.held := by simp [pkSubmit, apply_ite State.held]
@[simp] theorem writeTcu_held (s : State) (a1 : Nat) (a2 : BitVec 32) (a3 : Nat) :
    (writeTcu s a1 a2 a3).held = s.held := by
  have e : ∀ (o : Host.Outcome State Fault Refusal) (t u : State), o = done t → t.held = u.held → (after o u).held = u.held := by
    intro o t u h k; rw [h]; exact k
  have f : ∀ (u : State) (g : State → State), (∀ s, (g s).held = s.held) → (whenUp u g).held = u.held := by
    intro u g h; unfold whenUp; split
    · exact h u
    · rfl
  have i : ∀ (p : Prop) [Decidable p] (a b u : State), a.held = u.held → b.held = u.held → (if p then a else b).held = u.held := by
    intro p _ a b u h k; split
    · exact h
    · exact k
  unfold writeTcu
  refine i _ _ _ _ (by simp) (i _ _ _ _ (by simp) (i _ _ _ _ ?_ (i _ _ _ _ ?_ (i _ _ _ _ (by simp) (i _ _ _ _ (by simp)
    (i _ _ _ _ ?_ (i _ _ _ _ ?_ rfl)))))))
  · refine e _ _ _ rfl ?_; (repeat' split) <;> simp
  · refine e _ _ _ rfl ?_; (repeat' split) <;> simp
  · refine i _ _ _ _ ?_ (i _ _ _ _ ?_ (by simp))
    · refine e _ _ _ rfl (f _ _ fun s => ?_)
      refine i _ _ _ _ (by simp) ?_
      dsimp only
      exact i _ _ _ _ (by simp) (by simp)
    · refine e _ _ _ rfl ?_; (repeat' split) <;> simp
  · refine e _ _ _ rfl ?_; (repeat' split) <;> simp
@[simp] theorem writeChannel_held (s : State) (a1 : Nat) (a2 : Nat) (a3 : BitVec 32) :
    (writeChannel s a1 a2 a3).held = s.held := by unfold writeChannel; dsimp only; (repeat' split) <;> simp [apply_ite State.held]
@[simp] theorem writeCipher_held (s : State) (a1 : Nat) (a2 : BitVec 32) (a3 : Nat) :
    (writeCipher s a1 a2 a3).held = s.held := by
  unfold writeCipher
  dsimp only
  (repeat' split) <;> simp [execPageAccessViolation, apply_ite State.held]
@[simp] theorem writeLeadbox_held (s : State) (a1 : Nat) (a2 : BitVec 32) :
    (writeLeadbox s a1 a2).held = s.held := by
  unfold writeLeadbox
  (repeat' split) <;> simp [execLbxCursorHi, apply_ite State.held]
@[simp] theorem writeWindow_held (s : State) (a1 : Nat) (a2 : BitVec 32) (a3 : Nat) :
    (writeWindow s a1 a2 a3).held = s.held := by
  have e : ∀ (o : Host.Outcome State Fault Refusal) (t u : State), o = done t → t.held = u.held → (after o u).held = u.held := by
    intro o t u h k; rw [h]; exact k
  unfold writeWindow
  dsimp only
  (repeat' split) <;> first
    | rfl
    | simp; done
    | (refine e _ _ _ rfl ?_; simp; done)
    | (refine e _ _ _ rfl ?_; (repeat' split) <;> simp)
@[simp] theorem writeMbxStatus_held (s : State) (a1 : Nat) (a2 : BitVec 32) :
    (writeMbxStatus s a1 a2).held = s.held := by simp [writeMbxStatus, apply_ite State.held]
@[simp] theorem writeBar_held (s : State) (a1 : Nat) (a2 : BitVec 32) :
    (writeBar s a1 a2).held = s.held := by simp [writeBar, apply_ite State.held]
@[simp] theorem spdmError_held (s : State) (a1 : Byte) :
    (spdmError s a1).held = s.held := by simp [spdmError]
@[simp] theorem inSession_held (s : State) (a1 : State → State) (h1 : ∀ s, (a1 s).held = s.held) :
    (inSession s a1).held = s.held := by simp [inSession, h1, apply_ite State.held]
@[simp] theorem openSession_held (s : State) (a1 : BitVec 384) :
    (openSession s a1).held = s.held := by simp [openSession]
@[simp] theorem advanceIn_held (s : State) :
    (advanceIn s).held = s.held := by simp [advanceIn]
@[simp] theorem advanceOut_held (s : State) :
    (advanceOut s).held = s.held := by simp [advanceOut]
@[simp] theorem keyUpdated_held (s : State) :
    (keyUpdated s).held = s.held := by simp [keyUpdated]

end Sys2Proof.Machine
end

