-- ==== Sys2Proof/Laws/State.lean ====
section
/-!
SUPPORT. State.lean: for each plain update of the state, one lemma per field that it leaves alone, and the same for a fold of
updates.
-/
set_option linter.unusedSimpArgs false

namespace Sys2Proof.Machine

@[simp] theorem foldl_pending {α : Type} (f : State → α → State) (h : ∀ s a, (f s a).pending = s.pending) (l : List α) (s : State) :
    (l.foldl f s).pending = s.pending := by
  induction l generalizing s with
  | nil => rfl
  | cons a l ih => simp [ih, h]

@[simp] theorem foldl_free {α : Type} (f : State → α → State) (h : ∀ s a, (f s a).free = s.free) (l : List α) (s : State) :
    (l.foldl f s).free = s.free := by
  induction l generalizing s with
  | nil => rfl
  | cons a l ih => simp [ih, h]

@[simp] theorem foldl_out {α : Type} (f : State → α → State) (h : ∀ s a, (f s a).out = s.out) (l : List α) (s : State) :
    (l.foldl f s).out = s.out := by
  induction l generalizing s with
  | nil => rfl
  | cons a l ih => simp [ih, h]

@[simp] theorem foldl_pow {α : Type} (f : State → α → State) (h : ∀ s a, (f s a).pow = s.pow) (l : List α) (s : State) :
    (l.foldl f s).pow = s.pow := by
  induction l generalizing s with
  | nil => rfl
  | cons a l ih => simp [ih, h]

@[simp] theorem foldl_pins {α : Type} (f : State → α → State) (h : ∀ s a, (f s a).pins = s.pins) (l : List α) (s : State) :
    (l.foldl f s).pins = s.pins := by
  induction l generalizing s with
  | nil => rfl
  | cons a l ih => simp [ih, h]

@[simp] theorem foldl_cross {α : Type} (f : State → α → State) (h : ∀ s a, (f s a).cross = s.cross) (l : List α) (s : State) :
    (l.foldl f s).cross = s.cross := by
  induction l generalizing s with
  | nil => rfl
  | cons a l ih => simp [ih, h]

@[simp] theorem foldl_pools {α : Type} (f : State → α → State) (h : ∀ s a, (f s a).pools = s.pools) (l : List α) (s : State) :
    (l.foldl f s).pools = s.pools := by
  induction l generalizing s with
  | nil => rfl
  | cons a l ih => simp [ih, h]

@[simp] theorem foldl_net {α : Type} (f : State → α → State) (h : ∀ s a, (f s a).net = s.net) (l : List α) (s : State) :
    (l.foldl f s).net = s.net := by
  induction l generalizing s with
  | nil => rfl
  | cons a l ih => simp [ih, h]

@[simp] theorem foldl_err {α : Type} (f : State → α → State) (h : ∀ s a, (f s a).err = s.err) (l : List α) (s : State) :
    (l.foldl f s).err = s.err := by
  induction l generalizing s with
  | nil => rfl
  | cons a l ih => simp [ih, h]

@[simp] theorem foldl_lbx {α : Type} (f : State → α → State) (h : ∀ s a, (f s a).lbx = s.lbx) (l : List α) (s : State) :
    (l.foldl f s).lbx = s.lbx := by
  induction l generalizing s with
  | nil => rfl
  | cons a l ih => simp [ih, h]

@[simp] theorem foldl_cnt {α : Type} (f : State → α → State) (h : ∀ s a, (f s a).cnt = s.cnt) (l : List α) (s : State) :
    (l.foldl f s).cnt = s.cnt := by
  induction l generalizing s with
  | nil => rfl
  | cons a l ih => simp [ih, h]

@[simp] theorem foldl_watch {α : Type} (f : State → α → State) (h : ∀ s a, (f s a).watch = s.watch) (l : List α) (s : State) :
    (l.foldl f s).watch = s.watch := by
  induction l generalizing s with
  | nil => rfl
  | cons a l ih => simp [ih, h]

@[simp] theorem foldl_dict {α : Type} (f : State → α → State) (h : ∀ s a, (f s a).dict = s.dict) (l : List α) (s : State) :
    (l.foldl f s).dict = s.dict := by
  induction l generalizing s with
  | nil => rfl
  | cons a l ih => simp [ih, h]

@[simp] theorem foldl_mbx {α : Type} (f : State → α → State) (h : ∀ s a, (f s a).mbx = s.mbx) (l : List α) (s : State) :
    (l.foldl f s).mbx = s.mbx := by
  induction l generalizing s with
  | nil => rfl
  | cons a l ih => simp [ih, h]

@[simp] theorem foldl_host {α : Type} (f : State → α → State) (h : ∀ s a, (f s a).host = s.host) (l : List α) (s : State) :
    (l.foldl f s).host = s.host := by
  induction l generalizing s with
  | nil => rfl
  | cons a l ih => simp [ih, h]

@[simp] theorem foldl_gate {α : Type} (f : State → α → State) (h : ∀ s a, (f s a).gate = s.gate) (l : List α) (s : State) :
    (l.foldl f s).gate = s.gate := by
  induction l generalizing s with
  | nil => rfl
  | cons a l ih => simp [ih, h]

@[simp] theorem foldl_ctxs {α : Type} (f : State → α → State) (h : ∀ s a, (f s a).ctxs = s.ctxs) (l : List α) (s : State) :
    (l.foldl f s).ctxs = s.ctxs := by
  induction l generalizing s with
  | nil => rfl
  | cons a l ih => simp [ih, h]

@[simp] theorem foldl_vault {α : Type} (f : State → α → State) (h : ∀ s a, (f s a).vault = s.vault) (l : List α) (s : State) :
    (l.foldl f s).vault = s.vault := by
  induction l generalizing s with
  | nil => rfl
  | cons a l ih => simp [ih, h]

@[simp] theorem foldl_cipher {α : Type} (f : State → α → State) (h : ∀ s a, (f s a).cipher = s.cipher) (l : List α) (s : State) :
    (l.foldl f s).cipher = s.cipher := by
  induction l generalizing s with
  | nil => rfl
  | cons a l ih => simp [ih, h]

@[simp] theorem foldl_lc {α : Type} (f : State → α → State) (h : ∀ s a, (f s a).lc = s.lc) (l : List α) (s : State) :
    (l.foldl f s).lc = s.lc := by
  induction l generalizing s with
  | nil => rfl
  | cons a l ih => simp [ih, h]

@[simp] theorem foldl_dom {α : Type} (f : State → α → State) (h : ∀ s a, (f s a).dom = s.dom) (l : List α) (s : State) :
    (l.foldl f s).dom = s.dom := by
  induction l generalizing s with
  | nil => rfl
  | cons a l ih => simp [ih, h]

@[simp] theorem foldl_link {α : Type} (f : State → α → State) (h : ∀ s a, (f s a).link = s.link) (l : List α) (s : State) :
    (l.foldl f s).link = s.link := by
  induction l generalizing s with
  | nil => rfl
  | cons a l ih => simp [ih, h]

@[simp] theorem foldl_alloys {α : Type} (f : State → α → State) (h : ∀ s a, (f s a).alloys = s.alloys) (l : List α) (s : State) :
    (l.foldl f s).alloys = s.alloys := by
  induction l generalizing s with
  | nil => rfl
  | cons a l ih => simp [ih, h]

@[simp] theorem foldl_mem {α : Type} (f : State → α → State) (h : ∀ s a, (f s a).mem = s.mem) (l : List α) (s : State) :
    (l.foldl f s).mem = s.mem := by
  induction l generalizing s with
  | nil => rfl
  | cons a l ih => simp [ih, h]

@[simp] theorem foldl_tierA {α : Type} (f : State → α → State) (h : ∀ s a, (f s a).tierA = s.tierA) (l : List α) (s : State) :
    (l.foldl f s).tierA = s.tierA := by
  induction l generalizing s with
  | nil => rfl
  | cons a l ih => simp [ih, h]

@[simp] theorem foldl_arb {α : Type} (f : State → α → State) (h : ∀ s a, (f s a).arb = s.arb) (l : List α) (s : State) :
    (l.foldl f s).arb = s.arb := by
  induction l generalizing s with
  | nil => rfl
  | cons a l ih => simp [ih, h]

@[simp] theorem foldl_time {α : Type} (f : State → α → State) (h : ∀ s a, (f s a).time = s.time) (l : List α) (s : State) :
    (l.foldl f s).time = s.time := by
  induction l generalizing s with
  | nil => rfl
  | cons a l ih => simp [ih, h]

@[simp] theorem foldl_casts {α : Type} (f : State → α → State) (h : ∀ s a, (f s a).casts = s.casts) (l : List α) (s : State) :
    (l.foldl f s).casts = s.casts := by
  induction l generalizing s with
  | nil => rfl
  | cons a l ih => simp [ih, h]

@[simp] theorem foldl_boot {α : Type} (f : State → α → State) (h : ∀ s a, (f s a).boot = s.boot) (l : List α) (s : State) :
    (l.foldl f s).boot = s.boot := by
  induction l generalizing s with
  | nil => rfl
  | cons a l ih => simp [ih, h]

@[simp] theorem foldl_health {α : Type} (f : State → α → State) (h : ∀ s a, (f s a).health = s.health) (l : List α) (s : State) :
    (l.foldl f s).health = s.health := by
  induction l generalizing s with
  | nil => rfl
  | cons a l ih => simp [ih, h]

@[simp] theorem State_emit_pending (s : State) (a1 : Output) :
    (State.emit s a1).pending = s.pending := by unfold State.emit; (repeat' split) <;> simp [apply_ite State.pending]
@[simp] theorem State_emit_free (s : State) (a1 : Output) :
    (State.emit s a1).free = s.free := by unfold State.emit; (repeat' split) <;> simp [apply_ite State.free]
@[simp] theorem State_emit_pow (s : State) (a1 : Output) :
    (State.emit s a1).pow = s.pow := by unfold State.emit; (repeat' split) <;> simp [apply_ite State.pow]
@[simp] theorem State_emit_pins (s : State) (a1 : Output) :
    (State.emit s a1).pins = s.pins := by unfold State.emit; (repeat' split) <;> simp [apply_ite State.pins]
@[simp] theorem State_emit_pools (s : State) (a1 : Output) :
    (State.emit s a1).pools = s.pools := by unfold State.emit; (repeat' split) <;> simp [apply_ite State.pools]
@[simp] theorem State_emit_net (s : State) (a1 : Output) :
    (State.emit s a1).net = s.net := by unfold State.emit; (repeat' split) <;> simp [apply_ite State.net]
@[simp] theorem State_emit_err (s : State) (a1 : Output) :
    (State.emit s a1).err = s.err := by unfold State.emit; (repeat' split) <;> simp [apply_ite State.err]
@[simp] theorem State_emit_lbx (s : State) (a1 : Output) :
    (State.emit s a1).lbx = s.lbx := by unfold State.emit; (repeat' split) <;> simp [apply_ite State.lbx]
@[simp] theorem State_emit_cnt (s : State) (a1 : Output) :
    (State.emit s a1).cnt = s.cnt := by unfold State.emit; (repeat' split) <;> simp [apply_ite State.cnt]
@[simp] theorem State_emit_watch (s : State) (a1 : Output) :
    (State.emit s a1).watch = s.watch := by unfold State.emit; (repeat' split) <;> simp [apply_ite State.watch]
@[simp] theorem State_emit_dict (s : State) (a1 : Output) :
    (State.emit s a1).dict = s.dict := by unfold State.emit; (repeat' split) <;> simp [apply_ite State.dict]
@[simp] theorem State_emit_mbx (s : State) (a1 : Output) :
    (State.emit s a1).mbx = s.mbx := by unfold State.emit; (repeat' split) <;> simp [apply_ite State.mbx]
@[simp] theorem State_emit_host (s : State) (a1 : Output) :
    (State.emit s a1).host = s.host := by unfold State.emit; (repeat' split) <;> simp [apply_ite State.host]
@[simp] theorem State_emit_gate (s : State) (a1 : Output) :
    (State.emit s a1).gate = s.gate := by unfold State.emit; (repeat' split) <;> simp [apply_ite State.gate]
@[simp] theorem State_emit_ctxs (s : State) (a1 : Output) :
    (State.emit s a1).ctxs = s.ctxs := by unfold State.emit; (repeat' split) <;> simp [apply_ite State.ctxs]
@[simp] theorem State_emit_vault (s : State) (a1 : Output) :
    (State.emit s a1).vault = s.vault := by unfold State.emit; (repeat' split) <;> simp [apply_ite State.vault]
@[simp] theorem State_emit_cipher (s : State) (a1 : Output) :
    (State.emit s a1).cipher = s.cipher := by unfold State.emit; (repeat' split) <;> simp [apply_ite State.cipher]
@[simp] theorem State_emit_lc (s : State) (a1 : Output) :
    (State.emit s a1).lc = s.lc := by unfold State.emit; (repeat' split) <;> simp [apply_ite State.lc]
@[simp] theorem State_emit_dom (s : State) (a1 : Output) :
    (State.emit s a1).dom = s.dom := by unfold State.emit; (repeat' split) <;> simp [apply_ite State.dom]
@[simp] theorem State_emit_link (s : State) (a1 : Output) :
    (State.emit s a1).link = s.link := by unfold State.emit; (repeat' split) <;> simp [apply_ite State.link]
@[simp] theorem State_emit_alloys (s : State) (a1 : Output) :
    (State.emit s a1).alloys = s.alloys := by unfold State.emit; (repeat' split) <;> simp [apply_ite State.alloys]
@[simp] theorem State_emit_mem (s : State) (a1 : Output) :
    (State.emit s a1).mem = s.mem := by unfold State.emit; (repeat' split) <;> simp [apply_ite State.mem]
@[simp] theorem State_emit_tierA (s : State) (a1 : Output) :
    (State.emit s a1).tierA = s.tierA := by unfold State.emit; (repeat' split) <;> simp [apply_ite State.tierA]
@[simp] theorem State_emit_arb (s : State) (a1 : Output) :
    (State.emit s a1).arb = s.arb := by unfold State.emit; (repeat' split) <;> simp [apply_ite State.arb]
@[simp] theorem State_emit_time (s : State) (a1 : Output) :
    (State.emit s a1).time = s.time := by unfold State.emit; (repeat' split) <;> simp [apply_ite State.time]
@[simp] theorem State_emit_casts (s : State) (a1 : Output) :
    (State.emit s a1).casts = s.casts := by unfold State.emit; (repeat' split) <;> simp [apply_ite State.casts]
@[simp] theorem State_emit_boot (s : State) (a1 : Output) :
    (State.emit s a1).boot = s.boot := by unfold State.emit; (repeat' split) <;> simp [apply_ite State.boot]
@[simp] theorem State_emit_health (s : State) (a1 : Output) :
    (State.emit s a1).health = s.health := by unfold State.emit; (repeat' split) <;> simp [apply_ite State.health]
@[simp] theorem State_intake_pending (s : State) (a1 : Nat) (a2 : Nat) : (State.intake s a1 a2).pending = s.pending := id rfl
@[simp] theorem State_intake_free (s : State) (a1 : Nat) (a2 : Nat) : (State.intake s a1 a2).free = s.free := id rfl
@[simp] theorem State_intake_out (s : State) (a1 : Nat) (a2 : Nat) : (State.intake s a1 a2).out = s.out := id rfl
@[simp] theorem State_intake_pow (s : State) (a1 : Nat) (a2 : Nat) : (State.intake s a1 a2).pow = s.pow := id rfl
@[simp] theorem State_intake_pins (s : State) (a1 : Nat) (a2 : Nat) : (State.intake s a1 a2).pins = s.pins := id rfl
@[simp] theorem State_intake_pools (s : State) (a1 : Nat) (a2 : Nat) : (State.intake s a1 a2).pools = s.pools := id rfl
@[simp] theorem State_intake_net (s : State) (a1 : Nat) (a2 : Nat) : (State.intake s a1 a2).net = s.net := id rfl
@[simp] theorem State_intake_err (s : State) (a1 : Nat) (a2 : Nat) : (State.intake s a1 a2).err = s.err := id rfl
@[simp] theorem State_intake_lbx (s : State) (a1 : Nat) (a2 : Nat) : (State.intake s a1 a2).lbx = s.lbx := id rfl
@[simp] theorem State_intake_cnt (s : State) (a1 : Nat) (a2 : Nat) : (State.intake s a1 a2).cnt = s.cnt := id rfl
@[simp] theorem State_intake_watch (s : State) (a1 : Nat) (a2 : Nat) : (State.intake s a1 a2).watch = s.watch := id rfl
@[simp] theorem State_intake_dict (s : State) (a1 : Nat) (a2 : Nat) : (State.intake s a1 a2).dict = s.dict := id rfl
@[simp] theorem State_intake_mbx (s : State) (a1 : Nat) (a2 : Nat) : (State.intake s a1 a2).mbx = s.mbx := id rfl
@[simp] theorem State_intake_host (s : State) (a1 : Nat) (a2 : Nat) : (State.intake s a1 a2).host = s.host := id rfl
@[simp] theorem State_intake_gate (s : State) (a1 : Nat) (a2 : Nat) : (State.intake s a1 a2).gate = s.gate := id rfl
@[simp] theorem State_intake_ctxs (s : State) (a1 : Nat) (a2 : Nat) : (State.intake s a1 a2).ctxs = s.ctxs := id rfl
@[simp] theorem State_intake_vault (s : State) (a1 : Nat) (a2 : Nat) : (State.intake s a1 a2).vault = s.vault := id rfl
@[simp] theorem State_intake_cipher (s : State) (a1 : Nat) (a2 : Nat) : (State.intake s a1 a2).cipher = s.cipher := id rfl
@[simp] theorem State_intake_lc (s : State) (a1 : Nat) (a2 : Nat) : (State.intake s a1 a2).lc = s.lc := id rfl
@[simp] theorem State_intake_dom (s : State) (a1 : Nat) (a2 : Nat) : (State.intake s a1 a2).dom = s.dom := id rfl
@[simp] theorem State_intake_link (s : State) (a1 : Nat) (a2 : Nat) : (State.intake s a1 a2).link = s.link := id rfl
@[simp] theorem State_intake_alloys (s : State) (a1 : Nat) (a2 : Nat) : (State.intake s a1 a2).alloys = s.alloys := id rfl
@[simp] theorem State_intake_mem (s : State) (a1 : Nat) (a2 : Nat) : (State.intake s a1 a2).mem = s.mem := id rfl
@[simp] theorem State_intake_tierA (s : State) (a1 : Nat) (a2 : Nat) : (State.intake s a1 a2).tierA = s.tierA := id rfl
@[simp] theorem State_intake_arb (s : State) (a1 : Nat) (a2 : Nat) : (State.intake s a1 a2).arb = s.arb := id rfl
@[simp] theorem State_intake_time (s : State) (a1 : Nat) (a2 : Nat) : (State.intake s a1 a2).time = s.time := id rfl
@[simp] theorem State_intake_casts (s : State) (a1 : Nat) (a2 : Nat) : (State.intake s a1 a2).casts = s.casts := id rfl
@[simp] theorem State_intake_boot (s : State) (a1 : Nat) (a2 : Nat) : (State.intake s a1 a2).boot = s.boot := id rfl
@[simp] theorem State_intake_health (s : State) (a1 : Nat) (a2 : Nat) : (State.intake s a1 a2).health = s.health := id rfl
@[simp] theorem State_heldIn_pending (s : State) (a1 : Nat) : (State.heldIn s a1).pending = s.pending := id rfl
@[simp] theorem State_heldIn_free (s : State) (a1 : Nat) : (State.heldIn s a1).free = s.free := id rfl
@[simp] theorem State_heldIn_out (s : State) (a1 : Nat) : (State.heldIn s a1).out = s.out := id rfl
@[simp] theorem State_heldIn_pow (s : State) (a1 : Nat) : (State.heldIn s a1).pow = s.pow := id rfl
@[simp] theorem State_heldIn_pins (s : State) (a1 : Nat) : (State.heldIn s a1).pins = s.pins := id rfl
@[simp] theorem State_heldIn_pools (s : State) (a1 : Nat) : (State.heldIn s a1).pools = s.pools := id rfl
@[simp] theorem State_heldIn_net (s : State) (a1 : Nat) : (State.heldIn s a1).net = s.net := id rfl
@[simp] theorem State_heldIn_err (s : State) (a1 : Nat) : (State.heldIn s a1).err = s.err := id rfl
@[simp] theorem State_heldIn_lbx (s : State) (a1 : Nat) : (State.heldIn s a1).lbx = s.lbx := id rfl
@[simp] theorem State_heldIn_cnt (s : State) (a1 : Nat) : (State.heldIn s a1).cnt = s.cnt := id rfl
@[simp] theorem State_heldIn_watch (s : State) (a1 : Nat) : (State.heldIn s a1).watch = s.watch := id rfl
@[simp] theorem State_heldIn_dict (s : State) (a1 : Nat) : (State.heldIn s a1).dict = s.dict := id rfl
@[simp] theorem State_heldIn_mbx (s : State) (a1 : Nat) : (State.heldIn s a1).mbx = s.mbx := id rfl
@[simp] theorem State_heldIn_host (s : State) (a1 : Nat) : (State.heldIn s a1).host = s.host := id rfl
@[simp] theorem State_heldIn_gate (s : State) (a1 : Nat) : (State.heldIn s a1).gate = s.gate := id rfl
@[simp] theorem State_heldIn_ctxs (s : State) (a1 : Nat) : (State.heldIn s a1).ctxs = s.ctxs := id rfl
@[simp] theorem State_heldIn_vault (s : State) (a1 : Nat) : (State.heldIn s a1).vault = s.vault := id rfl
@[simp] theorem State_heldIn_cipher (s : State) (a1 : Nat) : (State.heldIn s a1).cipher = s.cipher := id rfl
@[simp] theorem State_heldIn_lc (s : State) (a1 : Nat) : (State.heldIn s a1).lc = s.lc := id rfl
@[simp] theorem State_heldIn_dom (s : State) (a1 : Nat) : (State.heldIn s a1).dom = s.dom := id rfl
@[simp] theorem State_heldIn_link (s : State) (a1 : Nat) : (State.heldIn s a1).link = s.link := id rfl
@[simp] theorem State_heldIn_alloys (s : State) (a1 : Nat) : (State.heldIn s a1).alloys = s.alloys := id rfl
@[simp] theorem State_heldIn_mem (s : State) (a1 : Nat) : (State.heldIn s a1).mem = s.mem := id rfl
@[simp] theorem State_heldIn_tierA (s : State) (a1 : Nat) : (State.heldIn s a1).tierA = s.tierA := id rfl
@[simp] theorem State_heldIn_arb (s : State) (a1 : Nat) : (State.heldIn s a1).arb = s.arb := id rfl
@[simp] theorem State_heldIn_time (s : State) (a1 : Nat) : (State.heldIn s a1).time = s.time := id rfl
@[simp] theorem State_heldIn_casts (s : State) (a1 : Nat) : (State.heldIn s a1).casts = s.casts := id rfl
@[simp] theorem State_heldIn_boot (s : State) (a1 : Nat) : (State.heldIn s a1).boot = s.boot := id rfl
@[simp] theorem State_heldIn_health (s : State) (a1 : Nat) : (State.heldIn s a1).health = s.health := id rfl
@[simp] theorem State_spend_pending (s : State) : (State.spend s).pending = s.pending := id rfl
@[simp] theorem State_spend_out (s : State) : (State.spend s).out = s.out := id rfl
@[simp] theorem State_spend_pow (s : State) : (State.spend s).pow = s.pow := id rfl
@[simp] theorem State_spend_pins (s : State) : (State.spend s).pins = s.pins := id rfl
@[simp] theorem State_spend_cross (s : State) : (State.spend s).cross = s.cross := id rfl
@[simp] theorem State_spend_pools (s : State) : (State.spend s).pools = s.pools := id rfl
@[simp] theorem State_spend_net (s : State) : (State.spend s).net = s.net := id rfl
@[simp] theorem State_spend_err (s : State) : (State.spend s).err = s.err := id rfl
@[simp] theorem State_spend_lbx (s : State) : (State.spend s).lbx = s.lbx := id rfl
@[simp] theorem State_spend_cnt (s : State) : (State.spend s).cnt = s.cnt := id rfl
@[simp] theorem State_spend_watch (s : State) : (State.spend s).watch = s.watch := id rfl
@[simp] theorem State_spend_dict (s : State) : (State.spend s).dict = s.dict := id rfl
@[simp] theorem State_spend_mbx (s : State) : (State.spend s).mbx = s.mbx := id rfl
@[simp] theorem State_spend_host (s : State) : (State.spend s).host = s.host := id rfl
@[simp] theorem State_spend_gate (s : State) : (State.spend s).gate = s.gate := id rfl
@[simp] theorem State_spend_ctxs (s : State) : (State.spend s).ctxs = s.ctxs := id rfl
@[simp] theorem State_spend_vault (s : State) : (State.spend s).vault = s.vault := id rfl
@[simp] theorem State_spend_cipher (s : State) : (State.spend s).cipher = s.cipher := id rfl
@[simp] theorem State_spend_lc (s : State) : (State.spend s).lc = s.lc := id rfl
@[simp] theorem State_spend_dom (s : State) : (State.spend s).dom = s.dom := id rfl
@[simp] theorem State_spend_link (s : State) : (State.spend s).link = s.link := id rfl
@[simp] theorem State_spend_alloys (s : State) : (State.spend s).alloys = s.alloys := id rfl
@[simp] theorem State_spend_mem (s : State) : (State.spend s).mem = s.mem := id rfl
@[simp] theorem State_spend_tierA (s : State) : (State.spend s).tierA = s.tierA := id rfl
@[simp] theorem State_spend_arb (s : State) : (State.spend s).arb = s.arb := id rfl
@[simp] theorem State_spend_time (s : State) : (State.spend s).time = s.time := id rfl
@[simp] theorem State_spend_casts (s : State) : (State.spend s).casts = s.casts := id rfl
@[simp] theorem State_spend_boot (s : State) : (State.spend s).boot = s.boot := id rfl
@[simp] theorem State_spend_health (s : State) : (State.spend s).health = s.health := id rfl
@[simp] theorem State_drew_pending (s : State) : (State.drew s).pending = s.pending := id rfl
@[simp] theorem State_drew_out (s : State) : (State.drew s).out = s.out := id rfl
@[simp] theorem State_drew_pow (s : State) : (State.drew s).pow = s.pow := id rfl
@[simp] theorem State_drew_pins (s : State) : (State.drew s).pins = s.pins := id rfl
@[simp] theorem State_drew_cross (s : State) : (State.drew s).cross = s.cross := id rfl
@[simp] theorem State_drew_pools (s : State) : (State.drew s).pools = s.pools := id rfl
@[simp] theorem State_drew_net (s : State) : (State.drew s).net = s.net := id rfl
@[simp] theorem State_drew_err (s : State) : (State.drew s).err = s.err := id rfl
@[simp] theorem State_drew_lbx (s : State) : (State.drew s).lbx = s.lbx := id rfl
@[simp] theorem State_drew_cnt (s : State) : (State.drew s).cnt = s.cnt := id rfl
@[simp] theorem State_drew_watch (s : State) : (State.drew s).watch = s.watch := id rfl
@[simp] theorem State_drew_dict (s : State) : (State.drew s).dict = s.dict := id rfl
@[simp] theorem State_drew_mbx (s : State) : (State.drew s).mbx = s.mbx := id rfl
@[simp] theorem State_drew_host (s : State) : (State.drew s).host = s.host := id rfl
@[simp] theorem State_drew_gate (s : State) : (State.drew s).gate = s.gate := id rfl
@[simp] theorem State_drew_ctxs (s : State) : (State.drew s).ctxs = s.ctxs := id rfl
@[simp] theorem State_drew_cipher (s : State) : (State.drew s).cipher = s.cipher := id rfl
@[simp] theorem State_drew_lc (s : State) : (State.drew s).lc = s.lc := id rfl
@[simp] theorem State_drew_dom (s : State) : (State.drew s).dom = s.dom := id rfl
@[simp] theorem State_drew_link (s : State) : (State.drew s).link = s.link := id rfl
@[simp] theorem State_drew_alloys (s : State) : (State.drew s).alloys = s.alloys := id rfl
@[simp] theorem State_drew_mem (s : State) : (State.drew s).mem = s.mem := id rfl
@[simp] theorem State_drew_tierA (s : State) : (State.drew s).tierA = s.tierA := id rfl
@[simp] theorem State_drew_arb (s : State) : (State.drew s).arb = s.arb := id rfl
@[simp] theorem State_drew_time (s : State) : (State.drew s).time = s.time := id rfl
@[simp] theorem State_drew_casts (s : State) : (State.drew s).casts = s.casts := id rfl
@[simp] theorem State_drew_boot (s : State) : (State.drew s).boot = s.boot := id rfl
@[simp] theorem State_drew_health (s : State) : (State.drew s).health = s.health := id rfl
@[simp] theorem modKey_pending (s : State) (a1 : KeyPath) (a2 : KeySlot → KeySlot) :
    (modKey s a1 a2).pending = s.pending := id rfl
@[simp] theorem modKey_free (s : State) (a1 : KeyPath) (a2 : KeySlot → KeySlot) : (modKey s a1 a2).free = s.free := id rfl
@[simp] theorem modKey_out (s : State) (a1 : KeyPath) (a2 : KeySlot → KeySlot) : (modKey s a1 a2).out = s.out := id rfl
@[simp] theorem modKey_pow (s : State) (a1 : KeyPath) (a2 : KeySlot → KeySlot) : (modKey s a1 a2).pow = s.pow := id rfl
@[simp] theorem modKey_pins (s : State) (a1 : KeyPath) (a2 : KeySlot → KeySlot) : (modKey s a1 a2).pins = s.pins := id rfl
@[simp] theorem modKey_cross (s : State) (a1 : KeyPath) (a2 : KeySlot → KeySlot) : (modKey s a1 a2).cross = s.cross := id rfl
@[simp] theorem modKey_pools (s : State) (a1 : KeyPath) (a2 : KeySlot → KeySlot) : (modKey s a1 a2).pools = s.pools := id rfl
@[simp] theorem modKey_net (s : State) (a1 : KeyPath) (a2 : KeySlot → KeySlot) : (modKey s a1 a2).net = s.net := id rfl
@[simp] theorem modKey_err (s : State) (a1 : KeyPath) (a2 : KeySlot → KeySlot) : (modKey s a1 a2).err = s.err := id rfl
@[simp] theorem modKey_lbx (s : State) (a1 : KeyPath) (a2 : KeySlot → KeySlot) : (modKey s a1 a2).lbx = s.lbx := id rfl
@[simp] theorem modKey_cnt (s : State) (a1 : KeyPath) (a2 : KeySlot → KeySlot) : (modKey s a1 a2).cnt = s.cnt := id rfl
@[simp] theorem modKey_watch (s : State) (a1 : KeyPath) (a2 : KeySlot → KeySlot) : (modKey s a1 a2).watch = s.watch := id rfl
@[simp] theorem modKey_dict (s : State) (a1 : KeyPath) (a2 : KeySlot → KeySlot) : (modKey s a1 a2).dict = s.dict := id rfl
@[simp] theorem modKey_mbx (s : State) (a1 : KeyPath) (a2 : KeySlot → KeySlot) : (modKey s a1 a2).mbx = s.mbx := id rfl
@[simp] theorem modKey_host (s : State) (a1 : KeyPath) (a2 : KeySlot → KeySlot) : (modKey s a1 a2).host = s.host := id rfl
@[simp] theorem modKey_gate (s : State) (a1 : KeyPath) (a2 : KeySlot → KeySlot) : (modKey s a1 a2).gate = s.gate := id rfl
@[simp] theorem modKey_ctxs (s : State) (a1 : KeyPath) (a2 : KeySlot → KeySlot) : (modKey s a1 a2).ctxs = s.ctxs := id rfl
@[simp] theorem modKey_cipher (s : State) (a1 : KeyPath) (a2 : KeySlot → KeySlot) : (modKey s a1 a2).cipher = s.cipher := id rfl
@[simp] theorem modKey_lc (s : State) (a1 : KeyPath) (a2 : KeySlot → KeySlot) : (modKey s a1 a2).lc = s.lc := id rfl
@[simp] theorem modKey_dom (s : State) (a1 : KeyPath) (a2 : KeySlot → KeySlot) : (modKey s a1 a2).dom = s.dom := id rfl
@[simp] theorem modKey_link (s : State) (a1 : KeyPath) (a2 : KeySlot → KeySlot) : (modKey s a1 a2).link = s.link := id rfl
@[simp] theorem modKey_alloys (s : State) (a1 : KeyPath) (a2 : KeySlot → KeySlot) : (modKey s a1 a2).alloys = s.alloys := id rfl
@[simp] theorem modKey_mem (s : State) (a1 : KeyPath) (a2 : KeySlot → KeySlot) : (modKey s a1 a2).mem = s.mem := id rfl
@[simp] theorem modKey_tierA (s : State) (a1 : KeyPath) (a2 : KeySlot → KeySlot) : (modKey s a1 a2).tierA = s.tierA := id rfl
@[simp] theorem modKey_arb (s : State) (a1 : KeyPath) (a2 : KeySlot → KeySlot) : (modKey s a1 a2).arb = s.arb := id rfl
@[simp] theorem modKey_time (s : State) (a1 : KeyPath) (a2 : KeySlot → KeySlot) : (modKey s a1 a2).time = s.time := id rfl
@[simp] theorem modKey_casts (s : State) (a1 : KeyPath) (a2 : KeySlot → KeySlot) : (modKey s a1 a2).casts = s.casts := id rfl
@[simp] theorem modKey_boot (s : State) (a1 : KeyPath) (a2 : KeySlot → KeySlot) : (modKey s a1 a2).boot = s.boot := id rfl
@[simp] theorem modKey_health (s : State) (a1 : KeyPath) (a2 : KeySlot → KeySlot) : (modKey s a1 a2).health = s.health := id rfl
@[simp] theorem modReg_pending (s : State) (a1 : KeyPath) (a2 : KeyReg → KeyReg) :
    (modReg s a1 a2).pending = s.pending := id rfl
@[simp] theorem modReg_free (s : State) (a1 : KeyPath) (a2 : KeyReg → KeyReg) : (modReg s a1 a2).free = s.free := id rfl
@[simp] theorem modReg_out (s : State) (a1 : KeyPath) (a2 : KeyReg → KeyReg) : (modReg s a1 a2).out = s.out := id rfl
@[simp] theorem modReg_pow (s : State) (a1 : KeyPath) (a2 : KeyReg → KeyReg) : (modReg s a1 a2).pow = s.pow := id rfl
@[simp] theorem modReg_pins (s : State) (a1 : KeyPath) (a2 : KeyReg → KeyReg) : (modReg s a1 a2).pins = s.pins := id rfl
@[simp] theorem modReg_cross (s : State) (a1 : KeyPath) (a2 : KeyReg → KeyReg) : (modReg s a1 a2).cross = s.cross := id rfl
@[simp] theorem modReg_pools (s : State) (a1 : KeyPath) (a2 : KeyReg → KeyReg) : (modReg s a1 a2).pools = s.pools := id rfl
@[simp] theorem modReg_net (s : State) (a1 : KeyPath) (a2 : KeyReg → KeyReg) : (modReg s a1 a2).net = s.net := id rfl
@[simp] theorem modReg_err (s : State) (a1 : KeyPath) (a2 : KeyReg → KeyReg) : (modReg s a1 a2).err = s.err := id rfl
@[simp] theorem modReg_lbx (s : State) (a1 : KeyPath) (a2 : KeyReg → KeyReg) : (modReg s a1 a2).lbx = s.lbx := id rfl
@[simp] theorem modReg_cnt (s : State) (a1 : KeyPath) (a2 : KeyReg → KeyReg) : (modReg s a1 a2).cnt = s.cnt := id rfl
@[simp] theorem modReg_watch (s : State) (a1 : KeyPath) (a2 : KeyReg → KeyReg) : (modReg s a1 a2).watch = s.watch := id rfl
@[simp] theorem modReg_dict (s : State) (a1 : KeyPath) (a2 : KeyReg → KeyReg) : (modReg s a1 a2).dict = s.dict := id rfl
@[simp] theorem modReg_mbx (s : State) (a1 : KeyPath) (a2 : KeyReg → KeyReg) : (modReg s a1 a2).mbx = s.mbx := id rfl
@[simp] theorem modReg_host (s : State) (a1 : KeyPath) (a2 : KeyReg → KeyReg) : (modReg s a1 a2).host = s.host := id rfl
@[simp] theorem modReg_gate (s : State) (a1 : KeyPath) (a2 : KeyReg → KeyReg) : (modReg s a1 a2).gate = s.gate := id rfl
@[simp] theorem modReg_ctxs (s : State) (a1 : KeyPath) (a2 : KeyReg → KeyReg) : (modReg s a1 a2).ctxs = s.ctxs := id rfl
@[simp] theorem modReg_cipher (s : State) (a1 : KeyPath) (a2 : KeyReg → KeyReg) : (modReg s a1 a2).cipher = s.cipher := id rfl
@[simp] theorem modReg_lc (s : State) (a1 : KeyPath) (a2 : KeyReg → KeyReg) : (modReg s a1 a2).lc = s.lc := id rfl
@[simp] theorem modReg_dom (s : State) (a1 : KeyPath) (a2 : KeyReg → KeyReg) : (modReg s a1 a2).dom = s.dom := id rfl
@[simp] theorem modReg_link (s : State) (a1 : KeyPath) (a2 : KeyReg → KeyReg) : (modReg s a1 a2).link = s.link := id rfl
@[simp] theorem modReg_alloys (s : State) (a1 : KeyPath) (a2 : KeyReg → KeyReg) : (modReg s a1 a2).alloys = s.alloys := id rfl
@[simp] theorem modReg_mem (s : State) (a1 : KeyPath) (a2 : KeyReg → KeyReg) : (modReg s a1 a2).mem = s.mem := id rfl
@[simp] theorem modReg_tierA (s : State) (a1 : KeyPath) (a2 : KeyReg → KeyReg) : (modReg s a1 a2).tierA = s.tierA := id rfl
@[simp] theorem modReg_arb (s : State) (a1 : KeyPath) (a2 : KeyReg → KeyReg) : (modReg s a1 a2).arb = s.arb := id rfl
@[simp] theorem modReg_time (s : State) (a1 : KeyPath) (a2 : KeyReg → KeyReg) : (modReg s a1 a2).time = s.time := id rfl
@[simp] theorem modReg_casts (s : State) (a1 : KeyPath) (a2 : KeyReg → KeyReg) : (modReg s a1 a2).casts = s.casts := id rfl
@[simp] theorem modReg_boot (s : State) (a1 : KeyPath) (a2 : KeyReg → KeyReg) : (modReg s a1 a2).boot = s.boot := id rfl
@[simp] theorem modReg_health (s : State) (a1 : KeyPath) (a2 : KeyReg → KeyReg) : (modReg s a1 a2).health = s.health := id rfl
@[simp] theorem dropKeys_pending (s : State) (a1 : KeyPath → Bool) : (dropKeys s a1).pending = s.pending := id rfl
@[simp] theorem dropKeys_free (s : State) (a1 : KeyPath → Bool) : (dropKeys s a1).free = s.free := id rfl
@[simp] theorem dropKeys_out (s : State) (a1 : KeyPath → Bool) : (dropKeys s a1).out = s.out := id rfl
@[simp] theorem dropKeys_pow (s : State) (a1 : KeyPath → Bool) : (dropKeys s a1).pow = s.pow := id rfl
@[simp] theorem dropKeys_pins (s : State) (a1 : KeyPath → Bool) : (dropKeys s a1).pins = s.pins := id rfl
@[simp] theorem dropKeys_cross (s : State) (a1 : KeyPath → Bool) : (dropKeys s a1).cross = s.cross := id rfl
@[simp] theorem dropKeys_pools (s : State) (a1 : KeyPath → Bool) : (dropKeys s a1).pools = s.pools := id rfl
@[simp] theorem dropKeys_net (s : State) (a1 : KeyPath → Bool) : (dropKeys s a1).net = s.net := id rfl
@[simp] theorem dropKeys_err (s : State) (a1 : KeyPath → Bool) : (dropKeys s a1).err = s.err := id rfl
@[simp] theorem dropKeys_lbx (s : State) (a1 : KeyPath → Bool) : (dropKeys s a1).lbx = s.lbx := id rfl
@[simp] theorem dropKeys_cnt (s : State) (a1 : KeyPath → Bool) : (dropKeys s a1).cnt = s.cnt := id rfl
@[simp] theorem dropKeys_watch (s : State) (a1 : KeyPath → Bool) : (dropKeys s a1).watch = s.watch := id rfl
@[simp] theorem dropKeys_dict (s : State) (a1 : KeyPath → Bool) : (dropKeys s a1).dict = s.dict := id rfl
@[simp] theorem dropKeys_mbx (s : State) (a1 : KeyPath → Bool) : (dropKeys s a1).mbx = s.mbx := id rfl
@[simp] theorem dropKeys_host (s : State) (a1 : KeyPath → Bool) : (dropKeys s a1).host = s.host := id rfl
@[simp] theorem dropKeys_gate (s : State) (a1 : KeyPath → Bool) : (dropKeys s a1).gate = s.gate := id rfl
@[simp] theorem dropKeys_ctxs (s : State) (a1 : KeyPath → Bool) : (dropKeys s a1).ctxs = s.ctxs := id rfl
@[simp] theorem dropKeys_lc (s : State) (a1 : KeyPath → Bool) : (dropKeys s a1).lc = s.lc := id rfl
@[simp] theorem dropKeys_dom (s : State) (a1 : KeyPath → Bool) : (dropKeys s a1).dom = s.dom := id rfl
@[simp] theorem dropKeys_link (s : State) (a1 : KeyPath → Bool) : (dropKeys s a1).link = s.link := id rfl
@[simp] theorem dropKeys_alloys (s : State) (a1 : KeyPath → Bool) : (dropKeys s a1).alloys = s.alloys := id rfl
@[simp] theorem dropKeys_mem (s : State) (a1 : KeyPath → Bool) : (dropKeys s a1).mem = s.mem := id rfl
@[simp] theorem dropKeys_tierA (s : State) (a1 : KeyPath → Bool) : (dropKeys s a1).tierA = s.tierA := id rfl
@[simp] theorem dropKeys_arb (s : State) (a1 : KeyPath → Bool) : (dropKeys s a1).arb = s.arb := id rfl
@[simp] theorem dropKeys_time (s : State) (a1 : KeyPath → Bool) : (dropKeys s a1).time = s.time := id rfl
@[simp] theorem dropKeys_casts (s : State) (a1 : KeyPath → Bool) : (dropKeys s a1).casts = s.casts := id rfl
@[simp] theorem dropKeys_boot (s : State) (a1 : KeyPath → Bool) : (dropKeys s a1).boot = s.boot := id rfl
@[simp] theorem dropKeys_health (s : State) (a1 : KeyPath → Bool) : (dropKeys s a1).health = s.health := id rfl
@[simp] theorem limHit_pending (s : State) (a1 : LimKey) : (limHit s a1).pending = s.pending := id rfl
@[simp] theorem limHit_free (s : State) (a1 : LimKey) : (limHit s a1).free = s.free := id rfl
@[simp] theorem limHit_out (s : State) (a1 : LimKey) : (limHit s a1).out = s.out := id rfl
@[simp] theorem limHit_pow (s : State) (a1 : LimKey) : (limHit s a1).pow = s.pow := id rfl
@[simp] theorem limHit_pins (s : State) (a1 : LimKey) : (limHit s a1).pins = s.pins := id rfl
@[simp] theorem limHit_cross (s : State) (a1 : LimKey) : (limHit s a1).cross = s.cross := id rfl
@[simp] theorem limHit_pools (s : State) (a1 : LimKey) : (limHit s a1).pools = s.pools := id rfl
@[simp] theorem limHit_net (s : State) (a1 : LimKey) : (limHit s a1).net = s.net := id rfl
@[simp] theorem limHit_lbx (s : State) (a1 : LimKey) : (limHit s a1).lbx = s.lbx := id rfl
@[simp] theorem limHit_cnt (s : State) (a1 : LimKey) : (limHit s a1).cnt = s.cnt := id rfl
@[simp] theorem limHit_watch (s : State) (a1 : LimKey) : (limHit s a1).watch = s.watch := id rfl
@[simp] theorem limHit_dict (s : State) (a1 : LimKey) : (limHit s a1).dict = s.dict := id rfl
@[simp] theorem limHit_mbx (s : State) (a1 : LimKey) : (limHit s a1).mbx = s.mbx := id rfl
@[simp] theorem limHit_host (s : State) (a1 : LimKey) : (limHit s a1).host = s.host := id rfl
@[simp] theorem limHit_gate (s : State) (a1 : LimKey) : (limHit s a1).gate = s.gate := id rfl
@[simp] theorem limHit_ctxs (s : State) (a1 : LimKey) : (limHit s a1).ctxs = s.ctxs := id rfl
@[simp] theorem limHit_vault (s : State) (a1 : LimKey) : (limHit s a1).vault = s.vault := id rfl
@[simp] theorem limHit_cipher (s : State) (a1 : LimKey) : (limHit s a1).cipher = s.cipher := id rfl
@[simp] theorem limHit_lc (s : State) (a1 : LimKey) : (limHit s a1).lc = s.lc := id rfl
@[simp] theorem limHit_dom (s : State) (a1 : LimKey) : (limHit s a1).dom = s.dom := id rfl
@[simp] theorem limHit_link (s : State) (a1 : LimKey) : (limHit s a1).link = s.link := id rfl
@[simp] theorem limHit_alloys (s : State) (a1 : LimKey) : (limHit s a1).alloys = s.alloys := id rfl
@[simp] theorem limHit_mem (s : State) (a1 : LimKey) : (limHit s a1).mem = s.mem := id rfl
@[simp] theorem limHit_tierA (s : State) (a1 : LimKey) : (limHit s a1).tierA = s.tierA := id rfl
@[simp] theorem limHit_arb (s : State) (a1 : LimKey) : (limHit s a1).arb = s.arb := id rfl
@[simp] theorem limHit_time (s : State) (a1 : LimKey) : (limHit s a1).time = s.time := id rfl
@[simp] theorem limHit_casts (s : State) (a1 : LimKey) : (limHit s a1).casts = s.casts := id rfl
@[simp] theorem limHit_boot (s : State) (a1 : LimKey) : (limHit s a1).boot = s.boot := id rfl
@[simp] theorem limHit_health (s : State) (a1 : LimKey) : (limHit s a1).health = s.health := id rfl
@[simp] theorem bump_pending (s : State) (a1 : Nat) (a2 : Nat) : (bump s a1 a2).pending = s.pending := id rfl
@[simp] theorem bump_free (s : State) (a1 : Nat) (a2 : Nat) : (bump s a1 a2).free = s.free := id rfl
@[simp] theorem bump_out (s : State) (a1 : Nat) (a2 : Nat) : (bump s a1 a2).out = s.out := id rfl
@[simp] theorem bump_pow (s : State) (a1 : Nat) (a2 : Nat) : (bump s a1 a2).pow = s.pow := id rfl
@[simp] theorem bump_pins (s : State) (a1 : Nat) (a2 : Nat) : (bump s a1 a2).pins = s.pins := id rfl
@[simp] theorem bump_cross (s : State) (a1 : Nat) (a2 : Nat) : (bump s a1 a2).cross = s.cross := id rfl
@[simp] theorem bump_pools (s : State) (a1 : Nat) (a2 : Nat) : (bump s a1 a2).pools = s.pools := id rfl
@[simp] theorem bump_net (s : State) (a1 : Nat) (a2 : Nat) : (bump s a1 a2).net = s.net := id rfl
@[simp] theorem bump_err (s : State) (a1 : Nat) (a2 : Nat) : (bump s a1 a2).err = s.err := id rfl
@[simp] theorem bump_lbx (s : State) (a1 : Nat) (a2 : Nat) : (bump s a1 a2).lbx = s.lbx := id rfl
@[simp] theorem bump_watch (s : State) (a1 : Nat) (a2 : Nat) : (bump s a1 a2).watch = s.watch := id rfl
@[simp] theorem bump_dict (s : State) (a1 : Nat) (a2 : Nat) : (bump s a1 a2).dict = s.dict := id rfl
@[simp] theorem bump_mbx (s : State) (a1 : Nat) (a2 : Nat) : (bump s a1 a2).mbx = s.mbx := id rfl
@[simp] theorem bump_host (s : State) (a1 : Nat) (a2 : Nat) : (bump s a1 a2).host = s.host := id rfl
@[simp] theorem bump_gate (s : State) (a1 : Nat) (a2 : Nat) : (bump s a1 a2).gate = s.gate := id rfl
@[simp] theorem bump_ctxs (s : State) (a1 : Nat) (a2 : Nat) : (bump s a1 a2).ctxs = s.ctxs := id rfl
@[simp] theorem bump_vault (s : State) (a1 : Nat) (a2 : Nat) : (bump s a1 a2).vault = s.vault := id rfl
@[simp] theorem bump_cipher (s : State) (a1 : Nat) (a2 : Nat) : (bump s a1 a2).cipher = s.cipher := id rfl
@[simp] theorem bump_lc (s : State) (a1 : Nat) (a2 : Nat) : (bump s a1 a2).lc = s.lc := id rfl
@[simp] theorem bump_dom (s : State) (a1 : Nat) (a2 : Nat) : (bump s a1 a2).dom = s.dom := id rfl
@[simp] theorem bump_link (s : State) (a1 : Nat) (a2 : Nat) : (bump s a1 a2).link = s.link := id rfl
@[simp] theorem bump_alloys (s : State) (a1 : Nat) (a2 : Nat) : (bump s a1 a2).alloys = s.alloys := id rfl
@[simp] theorem bump_mem (s : State) (a1 : Nat) (a2 : Nat) : (bump s a1 a2).mem = s.mem := id rfl
@[simp] theorem bump_tierA (s : State) (a1 : Nat) (a2 : Nat) : (bump s a1 a2).tierA = s.tierA := id rfl
@[simp] theorem bump_arb (s : State) (a1 : Nat) (a2 : Nat) : (bump s a1 a2).arb = s.arb := id rfl
@[simp] theorem bump_time (s : State) (a1 : Nat) (a2 : Nat) : (bump s a1 a2).time = s.time := id rfl
@[simp] theorem bump_casts (s : State) (a1 : Nat) (a2 : Nat) : (bump s a1 a2).casts = s.casts := id rfl
@[simp] theorem bump_boot (s : State) (a1 : Nat) (a2 : Nat) : (bump s a1 a2).boot = s.boot := id rfl
@[simp] theorem bump_health (s : State) (a1 : Nat) (a2 : Nat) : (bump s a1 a2).health = s.health := id rfl
@[simp] theorem bumpUnit_pending (s : State) (a1 : Nat) (a2 : Nat) (a3 : Nat) :
    (bumpUnit s a1 a2 a3).pending = s.pending := id rfl
@[simp] theorem bumpUnit_free (s : State) (a1 : Nat) (a2 : Nat) (a3 : Nat) : (bumpUnit s a1 a2 a3).free = s.free := id rfl
@[simp] theorem bumpUnit_out (s : State) (a1 : Nat) (a2 : Nat) (a3 : Nat) : (bumpUnit s a1 a2 a3).out = s.out := id rfl
@[simp] theorem bumpUnit_pow (s : State) (a1 : Nat) (a2 : Nat) (a3 : Nat) : (bumpUnit s a1 a2 a3).pow = s.pow := id rfl
@[simp] theorem bumpUnit_pins (s : State) (a1 : Nat) (a2 : Nat) (a3 : Nat) : (bumpUnit s a1 a2 a3).pins = s.pins := id rfl
@[simp] theorem bumpUnit_cross (s : State) (a1 : Nat) (a2 : Nat) (a3 : Nat) : (bumpUnit s a1 a2 a3).cross = s.cross := id rfl
@[simp] theorem bumpUnit_pools (s : State) (a1 : Nat) (a2 : Nat) (a3 : Nat) : (bumpUnit s a1 a2 a3).pools = s.pools := id rfl
@[simp] theorem bumpUnit_net (s : State) (a1 : Nat) (a2 : Nat) (a3 : Nat) : (bumpUnit s a1 a2 a3).net = s.net := id rfl
@[simp] theorem bumpUnit_err (s : State) (a1 : Nat) (a2 : Nat) (a3 : Nat) : (bumpUnit s a1 a2 a3).err = s.err := id rfl
@[simp] theorem bumpUnit_lbx (s : State) (a1 : Nat) (a2 : Nat) (a3 : Nat) : (bumpUnit s a1 a2 a3).lbx = s.lbx := id rfl
@[simp] theorem bumpUnit_watch (s : State) (a1 : Nat) (a2 : Nat) (a3 : Nat) : (bumpUnit s a1 a2 a3).watch = s.watch := id rfl
@[simp] theorem bumpUnit_dict (s : State) (a1 : Nat) (a2 : Nat) (a3 : Nat) : (bumpUnit s a1 a2 a3).dict = s.dict := id rfl
@[simp] theorem bumpUnit_mbx (s : State) (a1 : Nat) (a2 : Nat) (a3 : Nat) : (bumpUnit s a1 a2 a3).mbx = s.mbx := id rfl
@[simp] theorem bumpUnit_host (s : State) (a1 : Nat) (a2 : Nat) (a3 : Nat) : (bumpUnit s a1 a2 a3).host = s.host := id rfl
@[simp] theorem bumpUnit_gate (s : State) (a1 : Nat) (a2 : Nat) (a3 : Nat) : (bumpUnit s a1 a2 a3).gate = s.gate := id rfl
@[simp] theorem bumpUnit_ctxs (s : State) (a1 : Nat) (a2 : Nat) (a3 : Nat) : (bumpUnit s a1 a2 a3).ctxs = s.ctxs := id rfl
@[simp] theorem bumpUnit_vault (s : State) (a1 : Nat) (a2 : Nat) (a3 : Nat) : (bumpUnit s a1 a2 a3).vault = s.vault := id rfl
@[simp] theorem bumpUnit_cipher (s : State) (a1 : Nat) (a2 : Nat) (a3 : Nat) : (bumpUnit s a1 a2 a3).cipher = s.cipher := id rfl
@[simp] theorem bumpUnit_lc (s : State) (a1 : Nat) (a2 : Nat) (a3 : Nat) : (bumpUnit s a1 a2 a3).lc = s.lc := id rfl
@[simp] theorem bumpUnit_dom (s : State) (a1 : Nat) (a2 : Nat) (a3 : Nat) : (bumpUnit s a1 a2 a3).dom = s.dom := id rfl
@[simp] theorem bumpUnit_link (s : State) (a1 : Nat) (a2 : Nat) (a3 : Nat) : (bumpUnit s a1 a2 a3).link = s.link := id rfl
@[simp] theorem bumpUnit_alloys (s : State) (a1 : Nat) (a2 : Nat) (a3 : Nat) : (bumpUnit s a1 a2 a3).alloys = s.alloys := id rfl
@[simp] theorem bumpUnit_mem (s : State) (a1 : Nat) (a2 : Nat) (a3 : Nat) : (bumpUnit s a1 a2 a3).mem = s.mem := id rfl
@[simp] theorem bumpUnit_tierA (s : State) (a1 : Nat) (a2 : Nat) (a3 : Nat) : (bumpUnit s a1 a2 a3).tierA = s.tierA := id rfl
@[simp] theorem bumpUnit_arb (s : State) (a1 : Nat) (a2 : Nat) (a3 : Nat) : (bumpUnit s a1 a2 a3).arb = s.arb := id rfl
@[simp] theorem bumpUnit_time (s : State) (a1 : Nat) (a2 : Nat) (a3 : Nat) : (bumpUnit s a1 a2 a3).time = s.time := id rfl
@[simp] theorem bumpUnit_casts (s : State) (a1 : Nat) (a2 : Nat) (a3 : Nat) : (bumpUnit s a1 a2 a3).casts = s.casts := id rfl
@[simp] theorem bumpUnit_boot (s : State) (a1 : Nat) (a2 : Nat) (a3 : Nat) : (bumpUnit s a1 a2 a3).boot = s.boot := id rfl
@[simp] theorem bumpUnit_health (s : State) (a1 : Nat) (a2 : Nat) (a3 : Nat) : (bumpUnit s a1 a2 a3).health = s.health := id rfl
@[simp] theorem bumpSlice_pending (s : State) (a1 : Nat) (a2 : Nat) (a3 : Nat) :
    (bumpSlice s a1 a2 a3).pending = s.pending := id rfl
@[simp] theorem bumpSlice_free (s : State) (a1 : Nat) (a2 : Nat) (a3 : Nat) : (bumpSlice s a1 a2 a3).free = s.free := id rfl
@[simp] theorem bumpSlice_out (s : State) (a1 : Nat) (a2 : Nat) (a3 : Nat) : (bumpSlice s a1 a2 a3).out = s.out := id rfl
@[simp] theorem bumpSlice_pow (s : State) (a1 : Nat) (a2 : Nat) (a3 : Nat) : (bumpSlice s a1 a2 a3).pow = s.pow := id rfl
@[simp] theorem bumpSlice_pins (s : State) (a1 : Nat) (a2 : Nat) (a3 : Nat) : (bumpSlice s a1 a2 a3).pins = s.pins := id rfl
@[simp] theorem bumpSlice_cross (s : State) (a1 : Nat) (a2 : Nat) (a3 : Nat) : (bumpSlice s a1 a2 a3).cross = s.cross := id rfl
@[simp] theorem bumpSlice_pools (s : State) (a1 : Nat) (a2 : Nat) (a3 : Nat) : (bumpSlice s a1 a2 a3).pools = s.pools := id rfl
@[simp] theorem bumpSlice_net (s : State) (a1 : Nat) (a2 : Nat) (a3 : Nat) : (bumpSlice s a1 a2 a3).net = s.net := id rfl
@[simp] theorem bumpSlice_err (s : State) (a1 : Nat) (a2 : Nat) (a3 : Nat) : (bumpSlice s a1 a2 a3).err = s.err := id rfl
@[simp] theorem bumpSlice_lbx (s : State) (a1 : Nat) (a2 : Nat) (a3 : Nat) : (bumpSlice s a1 a2 a3).lbx = s.lbx := id rfl
@[simp] theorem bumpSlice_watch (s : State) (a1 : Nat) (a2 : Nat) (a3 : Nat) : (bumpSlice s a1 a2 a3).watch = s.watch := id rfl
@[simp] theorem bumpSlice_dict (s : State) (a1 : Nat) (a2 : Nat) (a3 : Nat) : (bumpSlice s a1 a2 a3).dict = s.dict := id rfl
@[simp] theorem bumpSlice_mbx (s : State) (a1 : Nat) (a2 : Nat) (a3 : Nat) : (bumpSlice s a1 a2 a3).mbx = s.mbx := id rfl
@[simp] theorem bumpSlice_host (s : State) (a1 : Nat) (a2 : Nat) (a3 : Nat) : (bumpSlice s a1 a2 a3).host = s.host := id rfl
@[simp] theorem bumpSlice_gate (s : State) (a1 : Nat) (a2 : Nat) (a3 : Nat) : (bumpSlice s a1 a2 a3).gate = s.gate := id rfl
@[simp] theorem bumpSlice_ctxs (s : State) (a1 : Nat) (a2 : Nat) (a3 : Nat) : (bumpSlice s a1 a2 a3).ctxs = s.ctxs := id rfl
@[simp] theorem bumpSlice_vault (s : State) (a1 : Nat) (a2 : Nat) (a3 : Nat) : (bumpSlice s a1 a2 a3).vault = s.vault := id rfl
@[simp] theorem bumpSlice_cipher (s : State) (a1 : Nat) (a2 : Nat) (a3 : Nat) :
    (bumpSlice s a1 a2 a3).cipher = s.cipher := id rfl
@[simp] theorem bumpSlice_lc (s : State) (a1 : Nat) (a2 : Nat) (a3 : Nat) : (bumpSlice s a1 a2 a3).lc = s.lc := id rfl
@[simp] theorem bumpSlice_dom (s : State) (a1 : Nat) (a2 : Nat) (a3 : Nat) : (bumpSlice s a1 a2 a3).dom = s.dom := id rfl
@[simp] theorem bumpSlice_link (s : State) (a1 : Nat) (a2 : Nat) (a3 : Nat) : (bumpSlice s a1 a2 a3).link = s.link := id rfl
@[simp] theorem bumpSlice_alloys (s : State) (a1 : Nat) (a2 : Nat) (a3 : Nat) :
    (bumpSlice s a1 a2 a3).alloys = s.alloys := id rfl
@[simp] theorem bumpSlice_mem (s : State) (a1 : Nat) (a2 : Nat) (a3 : Nat) : (bumpSlice s a1 a2 a3).mem = s.mem := id rfl
@[simp] theorem bumpSlice_tierA (s : State) (a1 : Nat) (a2 : Nat) (a3 : Nat) : (bumpSlice s a1 a2 a3).tierA = s.tierA := id rfl
@[simp] theorem bumpSlice_arb (s : State) (a1 : Nat) (a2 : Nat) (a3 : Nat) : (bumpSlice s a1 a2 a3).arb = s.arb := id rfl
@[simp] theorem bumpSlice_time (s : State) (a1 : Nat) (a2 : Nat) (a3 : Nat) : (bumpSlice s a1 a2 a3).time = s.time := id rfl
@[simp] theorem bumpSlice_casts (s : State) (a1 : Nat) (a2 : Nat) (a3 : Nat) : (bumpSlice s a1 a2 a3).casts = s.casts := id rfl
@[simp] theorem bumpSlice_boot (s : State) (a1 : Nat) (a2 : Nat) (a3 : Nat) : (bumpSlice s a1 a2 a3).boot = s.boot := id rfl
@[simp] theorem bumpSlice_health (s : State) (a1 : Nat) (a2 : Nat) (a3 : Nat) :
    (bumpSlice s a1 a2 a3).health = s.health := id rfl
@[simp] theorem bumpStat_pending (s : State) (a1 : Nat) (a2 : Nat) (a3 : Nat) :
    (bumpStat s a1 a2 a3).pending = s.pending := id rfl
@[simp] theorem bumpStat_free (s : State) (a1 : Nat) (a2 : Nat) (a3 : Nat) : (bumpStat s a1 a2 a3).free = s.free := id rfl
@[simp] theorem bumpStat_out (s : State) (a1 : Nat) (a2 : Nat) (a3 : Nat) : (bumpStat s a1 a2 a3).out = s.out := id rfl
@[simp] theorem bumpStat_pow (s : State) (a1 : Nat) (a2 : Nat) (a3 : Nat) : (bumpStat s a1 a2 a3).pow = s.pow := id rfl
@[simp] theorem bumpStat_pins (s : State) (a1 : Nat) (a2 : Nat) (a3 : Nat) : (bumpStat s a1 a2 a3).pins = s.pins := id rfl
@[simp] theorem bumpStat_cross (s : State) (a1 : Nat) (a2 : Nat) (a3 : Nat) : (bumpStat s a1 a2 a3).cross = s.cross := id rfl
@[simp] theorem bumpStat_pools (s : State) (a1 : Nat) (a2 : Nat) (a3 : Nat) : (bumpStat s a1 a2 a3).pools = s.pools := id rfl
@[simp] theorem bumpStat_net (s : State) (a1 : Nat) (a2 : Nat) (a3 : Nat) : (bumpStat s a1 a2 a3).net = s.net := id rfl
@[simp] theorem bumpStat_err (s : State) (a1 : Nat) (a2 : Nat) (a3 : Nat) : (bumpStat s a1 a2 a3).err = s.err := id rfl
@[simp] theorem bumpStat_lbx (s : State) (a1 : Nat) (a2 : Nat) (a3 : Nat) : (bumpStat s a1 a2 a3).lbx = s.lbx := id rfl
@[simp] theorem bumpStat_watch (s : State) (a1 : Nat) (a2 : Nat) (a3 : Nat) : (bumpStat s a1 a2 a3).watch = s.watch := id rfl
@[simp] theorem bumpStat_dict (s : State) (a1 : Nat) (a2 : Nat) (a3 : Nat) : (bumpStat s a1 a2 a3).dict = s.dict := id rfl
@[simp] theorem bumpStat_mbx (s : State) (a1 : Nat) (a2 : Nat) (a3 : Nat) : (bumpStat s a1 a2 a3).mbx = s.mbx := id rfl
@[simp] theorem bumpStat_host (s : State) (a1 : Nat) (a2 : Nat) (a3 : Nat) : (bumpStat s a1 a2 a3).host = s.host := id rfl
@[simp] theorem bumpStat_gate (s : State) (a1 : Nat) (a2 : Nat) (a3 : Nat) : (bumpStat s a1 a2 a3).gate = s.gate := id rfl
@[simp] theorem bumpStat_ctxs (s : State) (a1 : Nat) (a2 : Nat) (a3 : Nat) : (bumpStat s a1 a2 a3).ctxs = s.ctxs := id rfl
@[simp] theorem bumpStat_vault (s : State) (a1 : Nat) (a2 : Nat) (a3 : Nat) : (bumpStat s a1 a2 a3).vault = s.vault := id rfl
@[simp] theorem bumpStat_cipher (s : State) (a1 : Nat) (a2 : Nat) (a3 : Nat) : (bumpStat s a1 a2 a3).cipher = s.cipher := id rfl
@[simp] theorem bumpStat_lc (s : State) (a1 : Nat) (a2 : Nat) (a3 : Nat) : (bumpStat s a1 a2 a3).lc = s.lc := id rfl
@[simp] theorem bumpStat_dom (s : State) (a1 : Nat) (a2 : Nat) (a3 : Nat) : (bumpStat s a1 a2 a3).dom = s.dom := id rfl
@[simp] theorem bumpStat_link (s : State) (a1 : Nat) (a2 : Nat) (a3 : Nat) : (bumpStat s a1 a2 a3).link = s.link := id rfl
@[simp] theorem bumpStat_alloys (s : State) (a1 : Nat) (a2 : Nat) (a3 : Nat) : (bumpStat s a1 a2 a3).alloys = s.alloys := id rfl
@[simp] theorem bumpStat_mem (s : State) (a1 : Nat) (a2 : Nat) (a3 : Nat) : (bumpStat s a1 a2 a3).mem = s.mem := id rfl
@[simp] theorem bumpStat_tierA (s : State) (a1 : Nat) (a2 : Nat) (a3 : Nat) : (bumpStat s a1 a2 a3).tierA = s.tierA := id rfl
@[simp] theorem bumpStat_arb (s : State) (a1 : Nat) (a2 : Nat) (a3 : Nat) : (bumpStat s a1 a2 a3).arb = s.arb := id rfl
@[simp] theorem bumpStat_time (s : State) (a1 : Nat) (a2 : Nat) (a3 : Nat) : (bumpStat s a1 a2 a3).time = s.time := id rfl
@[simp] theorem bumpStat_casts (s : State) (a1 : Nat) (a2 : Nat) (a3 : Nat) : (bumpStat s a1 a2 a3).casts = s.casts := id rfl
@[simp] theorem bumpStat_boot (s : State) (a1 : Nat) (a2 : Nat) (a3 : Nat) : (bumpStat s a1 a2 a3).boot = s.boot := id rfl
@[simp] theorem bumpStat_health (s : State) (a1 : Nat) (a2 : Nat) (a3 : Nat) : (bumpStat s a1 a2 a3).health = s.health := id rfl
@[simp] theorem dropRec_pending (s : State) (a1 : LbxRec) : (dropRec s a1).pending = s.pending := id rfl
@[simp] theorem dropRec_free (s : State) (a1 : LbxRec) : (dropRec s a1).free = s.free := id rfl
@[simp] theorem dropRec_out (s : State) (a1 : LbxRec) : (dropRec s a1).out = s.out := id rfl
@[simp] theorem dropRec_pow (s : State) (a1 : LbxRec) : (dropRec s a1).pow = s.pow := id rfl
@[simp] theorem dropRec_pins (s : State) (a1 : LbxRec) : (dropRec s a1).pins = s.pins := id rfl
@[simp] theorem dropRec_cross (s : State) (a1 : LbxRec) : (dropRec s a1).cross = s.cross := id rfl
@[simp] theorem dropRec_pools (s : State) (a1 : LbxRec) : (dropRec s a1).pools = s.pools := id rfl
@[simp] theorem dropRec_net (s : State) (a1 : LbxRec) : (dropRec s a1).net = s.net := id rfl
@[simp] theorem dropRec_err (s : State) (a1 : LbxRec) : (dropRec s a1).err = s.err := id rfl
@[simp] theorem dropRec_cnt (s : State) (a1 : LbxRec) : (dropRec s a1).cnt = s.cnt := id rfl
@[simp] theorem dropRec_watch (s : State) (a1 : LbxRec) : (dropRec s a1).watch = s.watch := id rfl
@[simp] theorem dropRec_dict (s : State) (a1 : LbxRec) : (dropRec s a1).dict = s.dict := id rfl
@[simp] theorem dropRec_mbx (s : State) (a1 : LbxRec) : (dropRec s a1).mbx = s.mbx := id rfl
@[simp] theorem dropRec_host (s : State) (a1 : LbxRec) : (dropRec s a1).host = s.host := id rfl
@[simp] theorem dropRec_gate (s : State) (a1 : LbxRec) : (dropRec s a1).gate = s.gate := id rfl
@[simp] theorem dropRec_ctxs (s : State) (a1 : LbxRec) : (dropRec s a1).ctxs = s.ctxs := id rfl
@[simp] theorem dropRec_vault (s : State) (a1 : LbxRec) : (dropRec s a1).vault = s.vault := id rfl
@[simp] theorem dropRec_cipher (s : State) (a1 : LbxRec) : (dropRec s a1).cipher = s.cipher := id rfl
@[simp] theorem dropRec_lc (s : State) (a1 : LbxRec) : (dropRec s a1).lc = s.lc := id rfl
@[simp] theorem dropRec_dom (s : State) (a1 : LbxRec) : (dropRec s a1).dom = s.dom := id rfl
@[simp] theorem dropRec_link (s : State) (a1 : LbxRec) : (dropRec s a1).link = s.link := id rfl
@[simp] theorem dropRec_alloys (s : State) (a1 : LbxRec) : (dropRec s a1).alloys = s.alloys := id rfl
@[simp] theorem dropRec_mem (s : State) (a1 : LbxRec) : (dropRec s a1).mem = s.mem := id rfl
@[simp] theorem dropRec_tierA (s : State) (a1 : LbxRec) : (dropRec s a1).tierA = s.tierA := id rfl
@[simp] theorem dropRec_arb (s : State) (a1 : LbxRec) : (dropRec s a1).arb = s.arb := id rfl
@[simp] theorem dropRec_time (s : State) (a1 : LbxRec) : (dropRec s a1).time = s.time := id rfl
@[simp] theorem dropRec_casts (s : State) (a1 : LbxRec) : (dropRec s a1).casts = s.casts := id rfl
@[simp] theorem dropRec_boot (s : State) (a1 : LbxRec) : (dropRec s a1).boot = s.boot := id rfl
@[simp] theorem dropRec_health (s : State) (a1 : LbxRec) : (dropRec s a1).health = s.health := id rfl
@[simp] theorem tierAWrite_pending (s : State) (a1 : Nat) (a2 : Bytes) : (tierAWrite s a1 a2).pending = s.pending := id rfl
@[simp] theorem tierAWrite_free (s : State) (a1 : Nat) (a2 : Bytes) : (tierAWrite s a1 a2).free = s.free := id rfl
@[simp] theorem tierAWrite_out (s : State) (a1 : Nat) (a2 : Bytes) : (tierAWrite s a1 a2).out = s.out := id rfl
@[simp] theorem tierAWrite_pow (s : State) (a1 : Nat) (a2 : Bytes) : (tierAWrite s a1 a2).pow = s.pow := id rfl
@[simp] theorem tierAWrite_pins (s : State) (a1 : Nat) (a2 : Bytes) : (tierAWrite s a1 a2).pins = s.pins := id rfl
@[simp] theorem tierAWrite_cross (s : State) (a1 : Nat) (a2 : Bytes) : (tierAWrite s a1 a2).cross = s.cross := id rfl
@[simp] theorem tierAWrite_pools (s : State) (a1 : Nat) (a2 : Bytes) : (tierAWrite s a1 a2).pools = s.pools := id rfl
@[simp] theorem tierAWrite_net (s : State) (a1 : Nat) (a2 : Bytes) : (tierAWrite s a1 a2).net = s.net := id rfl
@[simp] theorem tierAWrite_err (s : State) (a1 : Nat) (a2 : Bytes) : (tierAWrite s a1 a2).err = s.err := id rfl
@[simp] theorem tierAWrite_lbx (s : State) (a1 : Nat) (a2 : Bytes) : (tierAWrite s a1 a2).lbx = s.lbx := id rfl
@[simp] theorem tierAWrite_cnt (s : State) (a1 : Nat) (a2 : Bytes) : (tierAWrite s a1 a2).cnt = s.cnt := id rfl
@[simp] theorem tierAWrite_watch (s : State) (a1 : Nat) (a2 : Bytes) : (tierAWrite s a1 a2).watch = s.watch := id rfl
@[simp] theorem tierAWrite_dict (s : State) (a1 : Nat) (a2 : Bytes) : (tierAWrite s a1 a2).dict = s.dict := id rfl
@[simp] theorem tierAWrite_mbx (s : State) (a1 : Nat) (a2 : Bytes) : (tierAWrite s a1 a2).mbx = s.mbx := id rfl
@[simp] theorem tierAWrite_host (s : State) (a1 : Nat) (a2 : Bytes) : (tierAWrite s a1 a2).host = s.host := id rfl
@[simp] theorem tierAWrite_gate (s : State) (a1 : Nat) (a2 : Bytes) : (tierAWrite s a1 a2).gate = s.gate := id rfl
@[simp] theorem tierAWrite_ctxs (s : State) (a1 : Nat) (a2 : Bytes) : (tierAWrite s a1 a2).ctxs = s.ctxs := id rfl
@[simp] theorem tierAWrite_vault (s : State) (a1 : Nat) (a2 : Bytes) : (tierAWrite s a1 a2).vault = s.vault := id rfl
@[simp] theorem tierAWrite_cipher (s : State) (a1 : Nat) (a2 : Bytes) : (tierAWrite s a1 a2).cipher = s.cipher := id rfl
@[simp] theorem tierAWrite_lc (s : State) (a1 : Nat) (a2 : Bytes) : (tierAWrite s a1 a2).lc = s.lc := id rfl
@[simp] theorem tierAWrite_dom (s : State) (a1 : Nat) (a2 : Bytes) : (tierAWrite s a1 a2).dom = s.dom := id rfl
@[simp] theorem tierAWrite_link (s : State) (a1 : Nat) (a2 : Bytes) : (tierAWrite s a1 a2).link = s.link := id rfl
@[simp] theorem tierAWrite_alloys (s : State) (a1 : Nat) (a2 : Bytes) : (tierAWrite s a1 a2).alloys = s.alloys := id rfl
@[simp] theorem tierAWrite_mem (s : State) (a1 : Nat) (a2 : Bytes) : (tierAWrite s a1 a2).mem = s.mem := id rfl
@[simp] theorem tierAWrite_arb (s : State) (a1 : Nat) (a2 : Bytes) : (tierAWrite s a1 a2).arb = s.arb := id rfl
@[simp] theorem tierAWrite_time (s : State) (a1 : Nat) (a2 : Bytes) : (tierAWrite s a1 a2).time = s.time := id rfl
@[simp] theorem tierAWrite_casts (s : State) (a1 : Nat) (a2 : Bytes) : (tierAWrite s a1 a2).casts = s.casts := id rfl
@[simp] theorem tierAWrite_boot (s : State) (a1 : Nat) (a2 : Bytes) : (tierAWrite s a1 a2).boot = s.boot := id rfl
@[simp] theorem tierAWrite_health (s : State) (a1 : Nat) (a2 : Bytes) : (tierAWrite s a1 a2).health = s.health := id rfl
@[simp] theorem tierAScrub_pending (s : State) (a1 : Nat) : (tierAScrub s a1).pending = s.pending := id rfl
@[simp] theorem tierAScrub_free (s : State) (a1 : Nat) : (tierAScrub s a1).free = s.free := id rfl
@[simp] theorem tierAScrub_out (s : State) (a1 : Nat) : (tierAScrub s a1).out = s.out := id rfl
@[simp] theorem tierAScrub_pow (s : State) (a1 : Nat) : (tierAScrub s a1).pow = s.pow := id rfl
@[simp] theorem tierAScrub_pins (s : State) (a1 : Nat) : (tierAScrub s a1).pins = s.pins := id rfl
@[simp] theorem tierAScrub_cross (s : State) (a1 : Nat) : (tierAScrub s a1).cross = s.cross := id rfl
@[simp] theorem tierAScrub_pools (s : State) (a1 : Nat) : (tierAScrub s a1).pools = s.pools := id rfl
@[simp] theorem tierAScrub_net (s : State) (a1 : Nat) : (tierAScrub s a1).net = s.net := id rfl
@[simp] theorem tierAScrub_err (s : State) (a1 : Nat) : (tierAScrub s a1).err = s.err := id rfl
@[simp] theorem tierAScrub_lbx (s : State) (a1 : Nat) : (tierAScrub s a1).lbx = s.lbx := id rfl
@[simp] theorem tierAScrub_cnt (s : State) (a1 : Nat) : (tierAScrub s a1).cnt = s.cnt := id rfl
@[simp] theorem tierAScrub_watch (s : State) (a1 : Nat) : (tierAScrub s a1).watch = s.watch := id rfl
@[simp] theorem tierAScrub_dict (s : State) (a1 : Nat) : (tierAScrub s a1).dict = s.dict := id rfl
@[simp] theorem tierAScrub_mbx (s : State) (a1 : Nat) : (tierAScrub s a1).mbx = s.mbx := id rfl
@[simp] theorem tierAScrub_host (s : State) (a1 : Nat) : (tierAScrub s a1).host = s.host := id rfl
@[simp] theorem tierAScrub_gate (s : State) (a1 : Nat) : (tierAScrub s a1).gate = s.gate := id rfl
@[simp] theorem tierAScrub_ctxs (s : State) (a1 : Nat) : (tierAScrub s a1).ctxs = s.ctxs := id rfl
@[simp] theorem tierAScrub_vault (s : State) (a1 : Nat) : (tierAScrub s a1).vault = s.vault := id rfl
@[simp] theorem tierAScrub_cipher (s : State) (a1 : Nat) : (tierAScrub s a1).cipher = s.cipher := id rfl
@[simp] theorem tierAScrub_lc (s : State) (a1 : Nat) : (tierAScrub s a1).lc = s.lc := id rfl
@[simp] theorem tierAScrub_dom (s : State) (a1 : Nat) : (tierAScrub s a1).dom = s.dom := id rfl
@[simp] theorem tierAScrub_link (s : State) (a1 : Nat) : (tierAScrub s a1).link = s.link := id rfl
@[simp] theorem tierAScrub_alloys (s : State) (a1 : Nat) : (tierAScrub s a1).alloys = s.alloys := id rfl
@[simp] theorem tierAScrub_mem (s : State) (a1 : Nat) : (tierAScrub s a1).mem = s.mem := id rfl
@[simp] theorem tierAScrub_arb (s : State) (a1 : Nat) : (tierAScrub s a1).arb = s.arb := id rfl
@[simp] theorem tierAScrub_time (s : State) (a1 : Nat) : (tierAScrub s a1).time = s.time := id rfl
@[simp] theorem tierAScrub_casts (s : State) (a1 : Nat) : (tierAScrub s a1).casts = s.casts := id rfl
@[simp] theorem tierAScrub_boot (s : State) (a1 : Nat) : (tierAScrub s a1).boot = s.boot := id rfl
@[simp] theorem tierAScrub_health (s : State) (a1 : Nat) : (tierAScrub s a1).health = s.health := id rfl
@[simp] theorem capacity_pending (s : State) (a1 : Nat) (a2 : Nat) (a3 : Nat) :
    (capacity s a1 a2 a3).pending = s.pending := id rfl
@[simp] theorem capacity_free (s : State) (a1 : Nat) (a2 : Nat) (a3 : Nat) : (capacity s a1 a2 a3).free = s.free := id rfl
@[simp] theorem capacity_out (s : State) (a1 : Nat) (a2 : Nat) (a3 : Nat) : (capacity s a1 a2 a3).out = s.out := id rfl
@[simp] theorem capacity_pow (s : State) (a1 : Nat) (a2 : Nat) (a3 : Nat) : (capacity s a1 a2 a3).pow = s.pow := id rfl
@[simp] theorem capacity_pins (s : State) (a1 : Nat) (a2 : Nat) (a3 : Nat) : (capacity s a1 a2 a3).pins = s.pins := id rfl
@[simp] theorem capacity_cross (s : State) (a1 : Nat) (a2 : Nat) (a3 : Nat) : (capacity s a1 a2 a3).cross = s.cross := id rfl
@[simp] theorem capacity_pools (s : State) (a1 : Nat) (a2 : Nat) (a3 : Nat) : (capacity s a1 a2 a3).pools = s.pools := id rfl
@[simp] theorem capacity_net (s : State) (a1 : Nat) (a2 : Nat) (a3 : Nat) : (capacity s a1 a2 a3).net = s.net := id rfl
@[simp] theorem capacity_err (s : State) (a1 : Nat) (a2 : Nat) (a3 : Nat) : (capacity s a1 a2 a3).err = s.err := id rfl
@[simp] theorem capacity_lbx (s : State) (a1 : Nat) (a2 : Nat) (a3 : Nat) : (capacity s a1 a2 a3).lbx = s.lbx := id rfl
@[simp] theorem capacity_cnt (s : State) (a1 : Nat) (a2 : Nat) (a3 : Nat) : (capacity s a1 a2 a3).cnt = s.cnt := id rfl
@[simp] theorem capacity_watch (s : State) (a1 : Nat) (a2 : Nat) (a3 : Nat) : (capacity s a1 a2 a3).watch = s.watch := id rfl
@[simp] theorem capacity_dict (s : State) (a1 : Nat) (a2 : Nat) (a3 : Nat) : (capacity s a1 a2 a3).dict = s.dict := id rfl
@[simp] theorem capacity_mbx (s : State) (a1 : Nat) (a2 : Nat) (a3 : Nat) : (capacity s a1 a2 a3).mbx = s.mbx := id rfl
@[simp] theorem capacity_host (s : State) (a1 : Nat) (a2 : Nat) (a3 : Nat) : (capacity s a1 a2 a3).host = s.host := id rfl
@[simp] theorem capacity_gate (s : State) (a1 : Nat) (a2 : Nat) (a3 : Nat) : (capacity s a1 a2 a3).gate = s.gate := id rfl
@[simp] theorem capacity_ctxs (s : State) (a1 : Nat) (a2 : Nat) (a3 : Nat) : (capacity s a1 a2 a3).ctxs = s.ctxs := id rfl
@[simp] theorem capacity_vault (s : State) (a1 : Nat) (a2 : Nat) (a3 : Nat) : (capacity s a1 a2 a3).vault = s.vault := id rfl
@[simp] theorem capacity_cipher (s : State) (a1 : Nat) (a2 : Nat) (a3 : Nat) : (capacity s a1 a2 a3).cipher = s.cipher := id rfl
@[simp] theorem capacity_lc (s : State) (a1 : Nat) (a2 : Nat) (a3 : Nat) : (capacity s a1 a2 a3).lc = s.lc := id rfl
@[simp] theorem capacity_dom (s : State) (a1 : Nat) (a2 : Nat) (a3 : Nat) : (capacity s a1 a2 a3).dom = s.dom := id rfl
@[simp] theorem capacity_link (s : State) (a1 : Nat) (a2 : Nat) (a3 : Nat) : (capacity s a1 a2 a3).link = s.link := id rfl
@[simp] theorem capacity_alloys (s : State) (a1 : Nat) (a2 : Nat) (a3 : Nat) : (capacity s a1 a2 a3).alloys = s.alloys := id rfl
@[simp] theorem capacity_mem (s : State) (a1 : Nat) (a2 : Nat) (a3 : Nat) : (capacity s a1 a2 a3).mem = s.mem := id rfl
@[simp] theorem capacity_tierA (s : State) (a1 : Nat) (a2 : Nat) (a3 : Nat) : (capacity s a1 a2 a3).tierA = s.tierA := id rfl
@[simp] theorem capacity_time (s : State) (a1 : Nat) (a2 : Nat) (a3 : Nat) : (capacity s a1 a2 a3).time = s.time := id rfl
@[simp] theorem capacity_casts (s : State) (a1 : Nat) (a2 : Nat) (a3 : Nat) : (capacity s a1 a2 a3).casts = s.casts := id rfl
@[simp] theorem capacity_boot (s : State) (a1 : Nat) (a2 : Nat) (a3 : Nat) : (capacity s a1 a2 a3).boot = s.boot := id rfl
@[simp] theorem capacity_health (s : State) (a1 : Nat) (a2 : Nat) (a3 : Nat) : (capacity s a1 a2 a3).health = s.health := id rfl
@[simp] theorem useCtx_pending (s : State) (a1 : Nat) (a2 : Nat) (a3 : Nat) : (useCtx s a1 a2 a3).pending = s.pending := id rfl
@[simp] theorem useCtx_free (s : State) (a1 : Nat) (a2 : Nat) (a3 : Nat) : (useCtx s a1 a2 a3).free = s.free := id rfl
@[simp] theorem useCtx_out (s : State) (a1 : Nat) (a2 : Nat) (a3 : Nat) : (useCtx s a1 a2 a3).out = s.out := id rfl
@[simp] theorem useCtx_pow (s : State) (a1 : Nat) (a2 : Nat) (a3 : Nat) : (useCtx s a1 a2 a3).pow = s.pow := id rfl
@[simp] theorem useCtx_pins (s : State) (a1 : Nat) (a2 : Nat) (a3 : Nat) : (useCtx s a1 a2 a3).pins = s.pins := id rfl
@[simp] theorem useCtx_cross (s : State) (a1 : Nat) (a2 : Nat) (a3 : Nat) : (useCtx s a1 a2 a3).cross = s.cross := id rfl
@[simp] theorem useCtx_pools (s : State) (a1 : Nat) (a2 : Nat) (a3 : Nat) : (useCtx s a1 a2 a3).pools = s.pools := id rfl
@[simp] theorem useCtx_net (s : State) (a1 : Nat) (a2 : Nat) (a3 : Nat) : (useCtx s a1 a2 a3).net = s.net := id rfl
@[simp] theorem useCtx_err (s : State) (a1 : Nat) (a2 : Nat) (a3 : Nat) : (useCtx s a1 a2 a3).err = s.err := id rfl
@[simp] theorem useCtx_lbx (s : State) (a1 : Nat) (a2 : Nat) (a3 : Nat) : (useCtx s a1 a2 a3).lbx = s.lbx := id rfl
@[simp] theorem useCtx_cnt (s : State) (a1 : Nat) (a2 : Nat) (a3 : Nat) : (useCtx s a1 a2 a3).cnt = s.cnt := id rfl
@[simp] theorem useCtx_watch (s : State) (a1 : Nat) (a2 : Nat) (a3 : Nat) : (useCtx s a1 a2 a3).watch = s.watch := id rfl
@[simp] theorem useCtx_dict (s : State) (a1 : Nat) (a2 : Nat) (a3 : Nat) : (useCtx s a1 a2 a3).dict = s.dict := id rfl
@[simp] theorem useCtx_mbx (s : State) (a1 : Nat) (a2 : Nat) (a3 : Nat) : (useCtx s a1 a2 a3).mbx = s.mbx := id rfl
@[simp] theorem useCtx_host (s : State) (a1 : Nat) (a2 : Nat) (a3 : Nat) : (useCtx s a1 a2 a3).host = s.host := id rfl
@[simp] theorem useCtx_gate (s : State) (a1 : Nat) (a2 : Nat) (a3 : Nat) : (useCtx s a1 a2 a3).gate = s.gate := id rfl
@[simp] theorem useCtx_vault (s : State) (a1 : Nat) (a2 : Nat) (a3 : Nat) : (useCtx s a1 a2 a3).vault = s.vault := id rfl
@[simp] theorem useCtx_cipher (s : State) (a1 : Nat) (a2 : Nat) (a3 : Nat) : (useCtx s a1 a2 a3).cipher = s.cipher := id rfl
@[simp] theorem useCtx_lc (s : State) (a1 : Nat) (a2 : Nat) (a3 : Nat) : (useCtx s a1 a2 a3).lc = s.lc := id rfl
@[simp] theorem useCtx_dom (s : State) (a1 : Nat) (a2 : Nat) (a3 : Nat) : (useCtx s a1 a2 a3).dom = s.dom := id rfl
@[simp] theorem useCtx_link (s : State) (a1 : Nat) (a2 : Nat) (a3 : Nat) : (useCtx s a1 a2 a3).link = s.link := id rfl
@[simp] theorem useCtx_alloys (s : State) (a1 : Nat) (a2 : Nat) (a3 : Nat) : (useCtx s a1 a2 a3).alloys = s.alloys := id rfl
@[simp] theorem useCtx_mem (s : State) (a1 : Nat) (a2 : Nat) (a3 : Nat) : (useCtx s a1 a2 a3).mem = s.mem := id rfl
@[simp] theorem useCtx_tierA (s : State) (a1 : Nat) (a2 : Nat) (a3 : Nat) : (useCtx s a1 a2 a3).tierA = s.tierA := id rfl
@[simp] theorem useCtx_arb (s : State) (a1 : Nat) (a2 : Nat) (a3 : Nat) : (useCtx s a1 a2 a3).arb = s.arb := id rfl
@[simp] theorem useCtx_time (s : State) (a1 : Nat) (a2 : Nat) (a3 : Nat) : (useCtx s a1 a2 a3).time = s.time := id rfl
@[simp] theorem useCtx_casts (s : State) (a1 : Nat) (a2 : Nat) (a3 : Nat) : (useCtx s a1 a2 a3).casts = s.casts := id rfl
@[simp] theorem useCtx_boot (s : State) (a1 : Nat) (a2 : Nat) (a3 : Nat) : (useCtx s a1 a2 a3).boot = s.boot := id rfl
@[simp] theorem useCtx_health (s : State) (a1 : Nat) (a2 : Nat) (a3 : Nat) : (useCtx s a1 a2 a3).health = s.health := id rfl

end Sys2Proof.Machine
end

