-- ==== Sys2Proof/Laws/Ops.lean ====
section
/-!
SUPPORT. Ops.lean: for each operation that the families share (records, errors, events, answers), one lemma per field that it
leaves alone.
-/
set_option linter.unusedSimpArgs false

namespace Sys2Proof.Machine

@[simp] theorem presentHeld_pending (s : State) : (presentHeld s).pending = s.pending := by simp [presentHeld]
@[simp] theorem presentHeld_free (s : State) : (presentHeld s).free = s.free := by simp [presentHeld]
@[simp] theorem presentHeld_pow (s : State) : (presentHeld s).pow = s.pow := by simp [presentHeld]
@[simp] theorem presentHeld_pins (s : State) : (presentHeld s).pins = s.pins := by simp [presentHeld]
@[simp] theorem presentHeld_pools (s : State) : (presentHeld s).pools = s.pools := by simp [presentHeld]
@[simp] theorem presentHeld_net (s : State) : (presentHeld s).net = s.net := by simp [presentHeld]
@[simp] theorem presentHeld_err (s : State) : (presentHeld s).err = s.err := by simp [presentHeld]
@[simp] theorem presentHeld_lbx (s : State) : (presentHeld s).lbx = s.lbx := by simp [presentHeld]
@[simp] theorem presentHeld_cnt (s : State) : (presentHeld s).cnt = s.cnt := by simp [presentHeld]
@[simp] theorem presentHeld_watch (s : State) : (presentHeld s).watch = s.watch := by simp [presentHeld]
@[simp] theorem presentHeld_dict (s : State) : (presentHeld s).dict = s.dict := by simp [presentHeld]
@[simp] theorem presentHeld_mbx (s : State) : (presentHeld s).mbx = s.mbx := by simp [presentHeld]
@[simp] theorem presentHeld_host (s : State) : (presentHeld s).host = s.host := by simp [presentHeld]
@[simp] theorem presentHeld_gate (s : State) : (presentHeld s).gate = s.gate := by simp [presentHeld]
@[simp] theorem presentHeld_ctxs (s : State) : (presentHeld s).ctxs = s.ctxs := by simp [presentHeld]
@[simp] theorem presentHeld_vault (s : State) : (presentHeld s).vault = s.vault := by simp [presentHeld]
@[simp] theorem presentHeld_cipher (s : State) : (presentHeld s).cipher = s.cipher := by simp [presentHeld]
@[simp] theorem presentHeld_lc (s : State) : (presentHeld s).lc = s.lc := by simp [presentHeld]
@[simp] theorem presentHeld_dom (s : State) : (presentHeld s).dom = s.dom := by simp [presentHeld]
@[simp] theorem presentHeld_link (s : State) : (presentHeld s).link = s.link := by simp [presentHeld]
@[simp] theorem presentHeld_alloys (s : State) : (presentHeld s).alloys = s.alloys := by simp [presentHeld]
@[simp] theorem presentHeld_mem (s : State) : (presentHeld s).mem = s.mem := by simp [presentHeld]
@[simp] theorem presentHeld_tierA (s : State) : (presentHeld s).tierA = s.tierA := by simp [presentHeld]
@[simp] theorem presentHeld_arb (s : State) : (presentHeld s).arb = s.arb := by simp [presentHeld]
@[simp] theorem presentHeld_time (s : State) : (presentHeld s).time = s.time := by simp [presentHeld]
@[simp] theorem presentHeld_casts (s : State) : (presentHeld s).casts = s.casts := by simp [presentHeld]
@[simp] theorem presentHeld_boot (s : State) : (presentHeld s).boot = s.boot := by simp [presentHeld]
@[simp] theorem presentHeld_health (s : State) : (presentHeld s).health = s.health := by simp [presentHeld]
@[simp] theorem assertVrst_pending (s : State) (a1 : List Nat) :
    (assertVrst s a1).pending = s.pending := by simp [assertVrst, apply_ite State.pending]
@[simp] theorem assertVrst_free (s : State) (a1 : List Nat) :
    (assertVrst s a1).free = s.free := by simp [assertVrst, apply_ite State.free]
@[simp] theorem assertVrst_out (s : State) (a1 : List Nat) :
    (assertVrst s a1).out = s.out := by simp [assertVrst, apply_ite State.out]
@[simp] theorem assertVrst_pow (s : State) (a1 : List Nat) :
    (assertVrst s a1).pow = s.pow := by simp [assertVrst, apply_ite State.pow]
@[simp] theorem assertVrst_pins (s : State) (a1 : List Nat) :
    (assertVrst s a1).pins = s.pins := by simp [assertVrst, apply_ite State.pins]
@[simp] theorem assertVrst_pools (s : State) (a1 : List Nat) :
    (assertVrst s a1).pools = s.pools := by simp [assertVrst, apply_ite State.pools]
@[simp] theorem assertVrst_net (s : State) (a1 : List Nat) :
    (assertVrst s a1).net = s.net := by simp [assertVrst, apply_ite State.net]
@[simp] theorem assertVrst_err (s : State) (a1 : List Nat) :
    (assertVrst s a1).err = s.err := by simp [assertVrst, apply_ite State.err]
@[simp] theorem assertVrst_lbx (s : State) (a1 : List Nat) :
    (assertVrst s a1).lbx = s.lbx := by simp [assertVrst, apply_ite State.lbx]
@[simp] theorem assertVrst_cnt (s : State) (a1 : List Nat) :
    (assertVrst s a1).cnt = s.cnt := by simp [assertVrst, apply_ite State.cnt]
@[simp] theorem assertVrst_watch (s : State) (a1 : List Nat) :
    (assertVrst s a1).watch = s.watch := by simp [assertVrst, apply_ite State.watch]
@[simp] theorem assertVrst_dict (s : State) (a1 : List Nat) :
    (assertVrst s a1).dict = s.dict := by simp [assertVrst, apply_ite State.dict]
@[simp] theorem assertVrst_mbx (s : State) (a1 : List Nat) :
    (assertVrst s a1).mbx = s.mbx := by simp [assertVrst, apply_ite State.mbx]
@[simp] theorem assertVrst_host (s : State) (a1 : List Nat) :
    (assertVrst s a1).host = s.host := by simp [assertVrst, apply_ite State.host]
@[simp] theorem assertVrst_gate (s : State) (a1 : List Nat) :
    (assertVrst s a1).gate = s.gate := by simp [assertVrst, apply_ite State.gate]
@[simp] theorem assertVrst_ctxs (s : State) (a1 : List Nat) :
    (assertVrst s a1).ctxs = s.ctxs := by simp [assertVrst, apply_ite State.ctxs]
@[simp] theorem assertVrst_vault (s : State) (a1 : List Nat) :
    (assertVrst s a1).vault = s.vault := by simp [assertVrst, apply_ite State.vault]
@[simp] theorem assertVrst_cipher (s : State) (a1 : List Nat) :
    (assertVrst s a1).cipher = s.cipher := by simp [assertVrst, apply_ite State.cipher]
@[simp] theorem assertVrst_lc (s : State) (a1 : List Nat) :
    (assertVrst s a1).lc = s.lc := by simp [assertVrst, apply_ite State.lc]
@[simp] theorem assertVrst_dom (s : State) (a1 : List Nat) :
    (assertVrst s a1).dom = s.dom := by simp [assertVrst, apply_ite State.dom]
@[simp] theorem assertVrst_link (s : State) (a1 : List Nat) :
    (assertVrst s a1).link = s.link := by simp [assertVrst, apply_ite State.link]
@[simp] theorem assertVrst_alloys (s : State) (a1 : List Nat) :
    (assertVrst s a1).alloys = s.alloys := by simp [assertVrst, apply_ite State.alloys]
@[simp] theorem assertVrst_mem (s : State) (a1 : List Nat) :
    (assertVrst s a1).mem = s.mem := by simp [assertVrst, apply_ite State.mem]
@[simp] theorem assertVrst_tierA (s : State) (a1 : List Nat) :
    (assertVrst s a1).tierA = s.tierA := by simp [assertVrst, apply_ite State.tierA]
@[simp] theorem assertVrst_arb (s : State) (a1 : List Nat) :
    (assertVrst s a1).arb = s.arb := by simp [assertVrst, apply_ite State.arb]
@[simp] theorem assertVrst_time (s : State) (a1 : List Nat) :
    (assertVrst s a1).time = s.time := by simp [assertVrst, apply_ite State.time]
@[simp] theorem assertVrst_casts (s : State) (a1 : List Nat) :
    (assertVrst s a1).casts = s.casts := by simp [assertVrst, apply_ite State.casts]
@[simp] theorem assertVrst_boot (s : State) (a1 : List Nat) :
    (assertVrst s a1).boot = s.boot := by simp [assertVrst, apply_ite State.boot]
@[simp] theorem assertVrst_health (s : State) (a1 : List Nat) :
    (assertVrst s a1).health = s.health := by simp [assertVrst, apply_ite State.health]
@[simp] theorem ccEvents_pending (s : State) (a1 : Nat) (a2 : Nat) (a3 : Nat) :
    (ccEvents s a1 a2 a3).1.pending = s.pending := by unfold ccEvents; (repeat' split) <;> simp [apply_ite State.pending]
@[simp] theorem ccEvents_free (s : State) (a1 : Nat) (a2 : Nat) (a3 : Nat) :
    (ccEvents s a1 a2 a3).1.free = s.free := by unfold ccEvents; (repeat' split) <;> simp [apply_ite State.free]
@[simp] theorem ccEvents_out (s : State) (a1 : Nat) (a2 : Nat) (a3 : Nat) :
    (ccEvents s a1 a2 a3).1.out = s.out := by unfold ccEvents; (repeat' split) <;> simp [apply_ite State.out]
@[simp] theorem ccEvents_pow (s : State) (a1 : Nat) (a2 : Nat) (a3 : Nat) :
    (ccEvents s a1 a2 a3).1.pow = s.pow := by unfold ccEvents; (repeat' split) <;> simp [apply_ite State.pow]
@[simp] theorem ccEvents_pins (s : State) (a1 : Nat) (a2 : Nat) (a3 : Nat) :
    (ccEvents s a1 a2 a3).1.pins = s.pins := by unfold ccEvents; (repeat' split) <;> simp [apply_ite State.pins]
@[simp] theorem ccEvents_pools (s : State) (a1 : Nat) (a2 : Nat) (a3 : Nat) :
    (ccEvents s a1 a2 a3).1.pools = s.pools := by unfold ccEvents; (repeat' split) <;> simp [apply_ite State.pools]
@[simp] theorem ccEvents_net (s : State) (a1 : Nat) (a2 : Nat) (a3 : Nat) :
    (ccEvents s a1 a2 a3).1.net = s.net := by unfold ccEvents; (repeat' split) <;> simp [apply_ite State.net]
@[simp] theorem ccEvents_err (s : State) (a1 : Nat) (a2 : Nat) (a3 : Nat) :
    (ccEvents s a1 a2 a3).1.err = s.err := by unfold ccEvents; (repeat' split) <;> simp [apply_ite State.err]
@[simp] theorem ccEvents_lbx (s : State) (a1 : Nat) (a2 : Nat) (a3 : Nat) :
    (ccEvents s a1 a2 a3).1.lbx = s.lbx := by unfold ccEvents; (repeat' split) <;> simp [apply_ite State.lbx]
@[simp] theorem ccEvents_cnt (s : State) (a1 : Nat) (a2 : Nat) (a3 : Nat) :
    (ccEvents s a1 a2 a3).1.cnt = s.cnt := by unfold ccEvents; (repeat' split) <;> simp [apply_ite State.cnt]
@[simp] theorem ccEvents_watch (s : State) (a1 : Nat) (a2 : Nat) (a3 : Nat) :
    (ccEvents s a1 a2 a3).1.watch = s.watch := by unfold ccEvents; (repeat' split) <;> simp [apply_ite State.watch]
@[simp] theorem ccEvents_dict (s : State) (a1 : Nat) (a2 : Nat) (a3 : Nat) :
    (ccEvents s a1 a2 a3).1.dict = s.dict := by unfold ccEvents; (repeat' split) <;> simp [apply_ite State.dict]
@[simp] theorem ccEvents_mbx (s : State) (a1 : Nat) (a2 : Nat) (a3 : Nat) :
    (ccEvents s a1 a2 a3).1.mbx = s.mbx := by unfold ccEvents; (repeat' split) <;> simp [apply_ite State.mbx]
@[simp] theorem ccEvents_host (s : State) (a1 : Nat) (a2 : Nat) (a3 : Nat) :
    (ccEvents s a1 a2 a3).1.host = s.host := by unfold ccEvents; (repeat' split) <;> simp [apply_ite State.host]
@[simp] theorem ccEvents_gate (s : State) (a1 : Nat) (a2 : Nat) (a3 : Nat) :
    (ccEvents s a1 a2 a3).1.gate = s.gate := by unfold ccEvents; (repeat' split) <;> simp [apply_ite State.gate]
@[simp] theorem ccEvents_ctxs (s : State) (a1 : Nat) (a2 : Nat) (a3 : Nat) :
    (ccEvents s a1 a2 a3).1.ctxs = s.ctxs := by unfold ccEvents; (repeat' split) <;> simp [apply_ite State.ctxs]
@[simp] theorem ccEvents_vault (s : State) (a1 : Nat) (a2 : Nat) (a3 : Nat) :
    (ccEvents s a1 a2 a3).1.vault = s.vault := by unfold ccEvents; (repeat' split) <;> simp [apply_ite State.vault]
@[simp] theorem ccEvents_cipher (s : State) (a1 : Nat) (a2 : Nat) (a3 : Nat) :
    (ccEvents s a1 a2 a3).1.cipher = s.cipher := by unfold ccEvents; (repeat' split) <;> simp [apply_ite State.cipher]
@[simp] theorem ccEvents_lc (s : State) (a1 : Nat) (a2 : Nat) (a3 : Nat) :
    (ccEvents s a1 a2 a3).1.lc = s.lc := by unfold ccEvents; (repeat' split) <;> simp [apply_ite State.lc]
@[simp] theorem ccEvents_dom (s : State) (a1 : Nat) (a2 : Nat) (a3 : Nat) :
    (ccEvents s a1 a2 a3).1.dom = s.dom := by unfold ccEvents; (repeat' split) <;> simp [apply_ite State.dom]
@[simp] theorem ccEvents_link (s : State) (a1 : Nat) (a2 : Nat) (a3 : Nat) :
    (ccEvents s a1 a2 a3).1.link = s.link := by unfold ccEvents; (repeat' split) <;> simp [apply_ite State.link]
@[simp] theorem ccEvents_alloys (s : State) (a1 : Nat) (a2 : Nat) (a3 : Nat) :
    (ccEvents s a1 a2 a3).1.alloys = s.alloys := by unfold ccEvents; (repeat' split) <;> simp [apply_ite State.alloys]
@[simp] theorem ccEvents_mem (s : State) (a1 : Nat) (a2 : Nat) (a3 : Nat) :
    (ccEvents s a1 a2 a3).1.mem = s.mem := by unfold ccEvents; (repeat' split) <;> simp [apply_ite State.mem]
@[simp] theorem ccEvents_tierA (s : State) (a1 : Nat) (a2 : Nat) (a3 : Nat) :
    (ccEvents s a1 a2 a3).1.tierA = s.tierA := by unfold ccEvents; (repeat' split) <;> simp [apply_ite State.tierA]
@[simp] theorem ccEvents_arb (s : State) (a1 : Nat) (a2 : Nat) (a3 : Nat) :
    (ccEvents s a1 a2 a3).1.arb = s.arb := by unfold ccEvents; (repeat' split) <;> simp [apply_ite State.arb]
@[simp] theorem ccEvents_casts (s : State) (a1 : Nat) (a2 : Nat) (a3 : Nat) :
    (ccEvents s a1 a2 a3).1.casts = s.casts := by unfold ccEvents; (repeat' split) <;> simp [apply_ite State.casts]
@[simp] theorem ccEvents_boot (s : State) (a1 : Nat) (a2 : Nat) (a3 : Nat) :
    (ccEvents s a1 a2 a3).1.boot = s.boot := by unfold ccEvents; (repeat' split) <;> simp [apply_ite State.boot]
@[simp] theorem ccEvents_health (s : State) (a1 : Nat) (a2 : Nat) (a3 : Nat) :
    (ccEvents s a1 a2 a3).1.health = s.health := by unfold ccEvents; (repeat' split) <;> simp [apply_ite State.health]
@[simp] theorem netSend_pending (s : State) (a1 : Nat) (a2 : Nat) (a3 : NetKind) (a4 : Bytes) :
    (netSend s a1 a2 a3 a4).pending = s.pending := by simp [netSend, apply_ite State.pending]
@[simp] theorem netSend_free (s : State) (a1 : Nat) (a2 : Nat) (a3 : NetKind) (a4 : Bytes) :
    (netSend s a1 a2 a3 a4).free = s.free := by simp [netSend, apply_ite State.free]
@[simp] theorem netSend_pow (s : State) (a1 : Nat) (a2 : Nat) (a3 : NetKind) (a4 : Bytes) :
    (netSend s a1 a2 a3 a4).pow = s.pow := by simp [netSend, apply_ite State.pow]
@[simp] theorem netSend_pins (s : State) (a1 : Nat) (a2 : Nat) (a3 : NetKind) (a4 : Bytes) :
    (netSend s a1 a2 a3 a4).pins = s.pins := by simp [netSend, apply_ite State.pins]
@[simp] theorem netSend_pools (s : State) (a1 : Nat) (a2 : Nat) (a3 : NetKind) (a4 : Bytes) :
    (netSend s a1 a2 a3 a4).pools = s.pools := by simp [netSend, apply_ite State.pools]
@[simp] theorem netSend_err (s : State) (a1 : Nat) (a2 : Nat) (a3 : NetKind) (a4 : Bytes) :
    (netSend s a1 a2 a3 a4).err = s.err := by simp [netSend, apply_ite State.err]
@[simp] theorem netSend_lbx (s : State) (a1 : Nat) (a2 : Nat) (a3 : NetKind) (a4 : Bytes) :
    (netSend s a1 a2 a3 a4).lbx = s.lbx := by simp [netSend, apply_ite State.lbx]
@[simp] theorem netSend_cnt (s : State) (a1 : Nat) (a2 : Nat) (a3 : NetKind) (a4 : Bytes) :
    (netSend s a1 a2 a3 a4).cnt = s.cnt := by simp [netSend, apply_ite State.cnt]
@[simp] theorem netSend_watch (s : State) (a1 : Nat) (a2 : Nat) (a3 : NetKind) (a4 : Bytes) :
    (netSend s a1 a2 a3 a4).watch = s.watch := by simp [netSend, apply_ite State.watch]
@[simp] theorem netSend_dict (s : State) (a1 : Nat) (a2 : Nat) (a3 : NetKind) (a4 : Bytes) :
    (netSend s a1 a2 a3 a4).dict = s.dict := by simp [netSend, apply_ite State.dict]
@[simp] theorem netSend_mbx (s : State) (a1 : Nat) (a2 : Nat) (a3 : NetKind) (a4 : Bytes) :
    (netSend s a1 a2 a3 a4).mbx = s.mbx := by simp [netSend, apply_ite State.mbx]
@[simp] theorem netSend_host (s : State) (a1 : Nat) (a2 : Nat) (a3 : NetKind) (a4 : Bytes) :
    (netSend s a1 a2 a3 a4).host = s.host := by simp [netSend, apply_ite State.host]
@[simp] theorem netSend_gate (s : State) (a1 : Nat) (a2 : Nat) (a3 : NetKind) (a4 : Bytes) :
    (netSend s a1 a2 a3 a4).gate = s.gate := by simp [netSend, apply_ite State.gate]
@[simp] theorem netSend_ctxs (s : State) (a1 : Nat) (a2 : Nat) (a3 : NetKind) (a4 : Bytes) :
    (netSend s a1 a2 a3 a4).ctxs = s.ctxs := by simp [netSend, apply_ite State.ctxs]
@[simp] theorem netSend_vault (s : State) (a1 : Nat) (a2 : Nat) (a3 : NetKind) (a4 : Bytes) :
    (netSend s a1 a2 a3 a4).vault = s.vault := by simp [netSend, apply_ite State.vault]
@[simp] theorem netSend_cipher (s : State) (a1 : Nat) (a2 : Nat) (a3 : NetKind) (a4 : Bytes) :
    (netSend s a1 a2 a3 a4).cipher = s.cipher := by simp [netSend, apply_ite State.cipher]
@[simp] theorem netSend_lc (s : State) (a1 : Nat) (a2 : Nat) (a3 : NetKind) (a4 : Bytes) :
    (netSend s a1 a2 a3 a4).lc = s.lc := by simp [netSend, apply_ite State.lc]
@[simp] theorem netSend_dom (s : State) (a1 : Nat) (a2 : Nat) (a3 : NetKind) (a4 : Bytes) :
    (netSend s a1 a2 a3 a4).dom = s.dom := by simp [netSend, apply_ite State.dom]
@[simp] theorem netSend_link (s : State) (a1 : Nat) (a2 : Nat) (a3 : NetKind) (a4 : Bytes) :
    (netSend s a1 a2 a3 a4).link = s.link := by simp [netSend, apply_ite State.link]
@[simp] theorem netSend_alloys (s : State) (a1 : Nat) (a2 : Nat) (a3 : NetKind) (a4 : Bytes) :
    (netSend s a1 a2 a3 a4).alloys = s.alloys := by simp [netSend, apply_ite State.alloys]
@[simp] theorem netSend_mem (s : State) (a1 : Nat) (a2 : Nat) (a3 : NetKind) (a4 : Bytes) :
    (netSend s a1 a2 a3 a4).mem = s.mem := by simp [netSend, apply_ite State.mem]
@[simp] theorem netSend_tierA (s : State) (a1 : Nat) (a2 : Nat) (a3 : NetKind) (a4 : Bytes) :
    (netSend s a1 a2 a3 a4).tierA = s.tierA := by simp [netSend, apply_ite State.tierA]
@[simp] theorem netSend_arb (s : State) (a1 : Nat) (a2 : Nat) (a3 : NetKind) (a4 : Bytes) :
    (netSend s a1 a2 a3 a4).arb = s.arb := by simp [netSend, apply_ite State.arb]
@[simp] theorem netSend_time (s : State) (a1 : Nat) (a2 : Nat) (a3 : NetKind) (a4 : Bytes) :
    (netSend s a1 a2 a3 a4).time = s.time := by simp [netSend, apply_ite State.time]
@[simp] theorem netSend_casts (s : State) (a1 : Nat) (a2 : Nat) (a3 : NetKind) (a4 : Bytes) :
    (netSend s a1 a2 a3 a4).casts = s.casts := by simp [netSend, apply_ite State.casts]
@[simp] theorem netSend_boot (s : State) (a1 : Nat) (a2 : Nat) (a3 : NetKind) (a4 : Bytes) :
    (netSend s a1 a2 a3 a4).boot = s.boot := by simp [netSend, apply_ite State.boot]
@[simp] theorem netSend_health (s : State) (a1 : Nat) (a2 : Nat) (a3 : NetKind) (a4 : Bytes) :
    (netSend s a1 a2 a3 a4).health = s.health := by simp [netSend, apply_ite State.health]
@[simp] theorem netReport_pending (s : State) (a1 : Nat) (a2 : Bytes) :
    (netReport s a1 a2).pending = s.pending := by simp [netReport, apply_ite State.pending]
@[simp] theorem netReport_free (s : State) (a1 : Nat) (a2 : Bytes) :
    (netReport s a1 a2).free = s.free := by simp [netReport, apply_ite State.free]
@[simp] theorem netReport_out (s : State) (a1 : Nat) (a2 : Bytes) :
    (netReport s a1 a2).out = s.out := by simp [netReport, apply_ite State.out]
@[simp] theorem netReport_pow (s : State) (a1 : Nat) (a2 : Bytes) :
    (netReport s a1 a2).pow = s.pow := by simp [netReport, apply_ite State.pow]
@[simp] theorem netReport_pins (s : State) (a1 : Nat) (a2 : Bytes) :
    (netReport s a1 a2).pins = s.pins := by simp [netReport, apply_ite State.pins]
@[simp] theorem netReport_cross (s : State) (a1 : Nat) (a2 : Bytes) :
    (netReport s a1 a2).cross = s.cross := by simp [netReport, apply_ite State.cross]
@[simp] theorem netReport_pools (s : State) (a1 : Nat) (a2 : Bytes) :
    (netReport s a1 a2).pools = s.pools := by simp [netReport, apply_ite State.pools]
@[simp] theorem netReport_err (s : State) (a1 : Nat) (a2 : Bytes) :
    (netReport s a1 a2).err = s.err := by simp [netReport, apply_ite State.err]
@[simp] theorem netReport_lbx (s : State) (a1 : Nat) (a2 : Bytes) :
    (netReport s a1 a2).lbx = s.lbx := by simp [netReport, apply_ite State.lbx]
@[simp] theorem netReport_cnt (s : State) (a1 : Nat) (a2 : Bytes) :
    (netReport s a1 a2).cnt = s.cnt := by simp [netReport, apply_ite State.cnt]
@[simp] theorem netReport_watch (s : State) (a1 : Nat) (a2 : Bytes) :
    (netReport s a1 a2).watch = s.watch := by simp [netReport, apply_ite State.watch]
@[simp] theorem netReport_dict (s : State) (a1 : Nat) (a2 : Bytes) :
    (netReport s a1 a2).dict = s.dict := by simp [netReport, apply_ite State.dict]
@[simp] theorem netReport_mbx (s : State) (a1 : Nat) (a2 : Bytes) :
    (netReport s a1 a2).mbx = s.mbx := by simp [netReport, apply_ite State.mbx]
@[simp] theorem netReport_host (s : State) (a1 : Nat) (a2 : Bytes) :
    (netReport s a1 a2).host = s.host := by simp [netReport, apply_ite State.host]
@[simp] theorem netReport_gate (s : State) (a1 : Nat) (a2 : Bytes) :
    (netReport s a1 a2).gate = s.gate := by simp [netReport, apply_ite State.gate]
@[simp] theorem netReport_ctxs (s : State) (a1 : Nat) (a2 : Bytes) :
    (netReport s a1 a2).ctxs = s.ctxs := by simp [netReport, apply_ite State.ctxs]
@[simp] theorem netReport_vault (s : State) (a1 : Nat) (a2 : Bytes) :
    (netReport s a1 a2).vault = s.vault := by simp [netReport, apply_ite State.vault]
@[simp] theorem netReport_cipher (s : State) (a1 : Nat) (a2 : Bytes) :
    (netReport s a1 a2).cipher = s.cipher := by simp [netReport, apply_ite State.cipher]
@[simp] theorem netReport_lc (s : State) (a1 : Nat) (a2 : Bytes) :
    (netReport s a1 a2).lc = s.lc := by simp [netReport, apply_ite State.lc]
@[simp] theorem netReport_dom (s : State) (a1 : Nat) (a2 : Bytes) :
    (netReport s a1 a2).dom = s.dom := by simp [netReport, apply_ite State.dom]
@[simp] theorem netReport_link (s : State) (a1 : Nat) (a2 : Bytes) :
    (netReport s a1 a2).link = s.link := by simp [netReport, apply_ite State.link]
@[simp] theorem netReport_alloys (s : State) (a1 : Nat) (a2 : Bytes) :
    (netReport s a1 a2).alloys = s.alloys := by simp [netReport, apply_ite State.alloys]
@[simp] theorem netReport_mem (s : State) (a1 : Nat) (a2 : Bytes) :
    (netReport s a1 a2).mem = s.mem := by simp [netReport, apply_ite State.mem]
@[simp] theorem netReport_tierA (s : State) (a1 : Nat) (a2 : Bytes) :
    (netReport s a1 a2).tierA = s.tierA := by simp [netReport, apply_ite State.tierA]
@[simp] theorem netReport_arb (s : State) (a1 : Nat) (a2 : Bytes) :
    (netReport s a1 a2).arb = s.arb := by simp [netReport, apply_ite State.arb]
@[simp] theorem netReport_time (s : State) (a1 : Nat) (a2 : Bytes) :
    (netReport s a1 a2).time = s.time := by simp [netReport, apply_ite State.time]
@[simp] theorem netReport_casts (s : State) (a1 : Nat) (a2 : Bytes) :
    (netReport s a1 a2).casts = s.casts := by simp [netReport, apply_ite State.casts]
@[simp] theorem netReport_boot (s : State) (a1 : Nat) (a2 : Bytes) :
    (netReport s a1 a2).boot = s.boot := by simp [netReport, apply_ite State.boot]
@[simp] theorem netReport_health (s : State) (a1 : Nat) (a2 : Bytes) :
    (netReport s a1 a2).health = s.health := by simp [netReport, apply_ite State.health]
@[simp] theorem netAck_pending (s : State) (a1 : Nat) (a2 : NetKind) (a3 : Bytes) :
    (netAck s a1 a2 a3).pending = s.pending := id rfl
@[simp] theorem netAck_free (s : State) (a1 : Nat) (a2 : NetKind) (a3 : Bytes) : (netAck s a1 a2 a3).free = s.free := id rfl
@[simp] theorem netAck_out (s : State) (a1 : Nat) (a2 : NetKind) (a3 : Bytes) : (netAck s a1 a2 a3).out = s.out := id rfl
@[simp] theorem netAck_pow (s : State) (a1 : Nat) (a2 : NetKind) (a3 : Bytes) : (netAck s a1 a2 a3).pow = s.pow := id rfl
@[simp] theorem netAck_pins (s : State) (a1 : Nat) (a2 : NetKind) (a3 : Bytes) : (netAck s a1 a2 a3).pins = s.pins := id rfl
@[simp] theorem netAck_cross (s : State) (a1 : Nat) (a2 : NetKind) (a3 : Bytes) : (netAck s a1 a2 a3).cross = s.cross := id rfl
@[simp] theorem netAck_pools (s : State) (a1 : Nat) (a2 : NetKind) (a3 : Bytes) : (netAck s a1 a2 a3).pools = s.pools := id rfl
@[simp] theorem netAck_err (s : State) (a1 : Nat) (a2 : NetKind) (a3 : Bytes) : (netAck s a1 a2 a3).err = s.err := id rfl
@[simp] theorem netAck_lbx (s : State) (a1 : Nat) (a2 : NetKind) (a3 : Bytes) : (netAck s a1 a2 a3).lbx = s.lbx := id rfl
@[simp] theorem netAck_cnt (s : State) (a1 : Nat) (a2 : NetKind) (a3 : Bytes) : (netAck s a1 a2 a3).cnt = s.cnt := id rfl
@[simp] theorem netAck_watch (s : State) (a1 : Nat) (a2 : NetKind) (a3 : Bytes) : (netAck s a1 a2 a3).watch = s.watch := id rfl
@[simp] theorem netAck_dict (s : State) (a1 : Nat) (a2 : NetKind) (a3 : Bytes) : (netAck s a1 a2 a3).dict = s.dict := id rfl
@[simp] theorem netAck_mbx (s : State) (a1 : Nat) (a2 : NetKind) (a3 : Bytes) : (netAck s a1 a2 a3).mbx = s.mbx := id rfl
@[simp] theorem netAck_host (s : State) (a1 : Nat) (a2 : NetKind) (a3 : Bytes) : (netAck s a1 a2 a3).host = s.host := id rfl
@[simp] theorem netAck_gate (s : State) (a1 : Nat) (a2 : NetKind) (a3 : Bytes) : (netAck s a1 a2 a3).gate = s.gate := id rfl
@[simp] theorem netAck_ctxs (s : State) (a1 : Nat) (a2 : NetKind) (a3 : Bytes) : (netAck s a1 a2 a3).ctxs = s.ctxs := id rfl
@[simp] theorem netAck_vault (s : State) (a1 : Nat) (a2 : NetKind) (a3 : Bytes) : (netAck s a1 a2 a3).vault = s.vault := id rfl
@[simp] theorem netAck_cipher (s : State) (a1 : Nat) (a2 : NetKind) (a3 : Bytes) :
    (netAck s a1 a2 a3).cipher = s.cipher := id rfl
@[simp] theorem netAck_lc (s : State) (a1 : Nat) (a2 : NetKind) (a3 : Bytes) : (netAck s a1 a2 a3).lc = s.lc := id rfl
@[simp] theorem netAck_dom (s : State) (a1 : Nat) (a2 : NetKind) (a3 : Bytes) : (netAck s a1 a2 a3).dom = s.dom := id rfl
@[simp] theorem netAck_link (s : State) (a1 : Nat) (a2 : NetKind) (a3 : Bytes) : (netAck s a1 a2 a3).link = s.link := id rfl
@[simp] theorem netAck_alloys (s : State) (a1 : Nat) (a2 : NetKind) (a3 : Bytes) :
    (netAck s a1 a2 a3).alloys = s.alloys := id rfl
@[simp] theorem netAck_mem (s : State) (a1 : Nat) (a2 : NetKind) (a3 : Bytes) : (netAck s a1 a2 a3).mem = s.mem := id rfl
@[simp] theorem netAck_tierA (s : State) (a1 : Nat) (a2 : NetKind) (a3 : Bytes) : (netAck s a1 a2 a3).tierA = s.tierA := id rfl
@[simp] theorem netAck_arb (s : State) (a1 : Nat) (a2 : NetKind) (a3 : Bytes) : (netAck s a1 a2 a3).arb = s.arb := id rfl
@[simp] theorem netAck_time (s : State) (a1 : Nat) (a2 : NetKind) (a3 : Bytes) : (netAck s a1 a2 a3).time = s.time := id rfl
@[simp] theorem netAck_casts (s : State) (a1 : Nat) (a2 : NetKind) (a3 : Bytes) : (netAck s a1 a2 a3).casts = s.casts := id rfl
@[simp] theorem netAck_boot (s : State) (a1 : Nat) (a2 : NetKind) (a3 : Bytes) : (netAck s a1 a2 a3).boot = s.boot := id rfl
@[simp] theorem netAck_health (s : State) (a1 : Nat) (a2 : NetKind) (a3 : Bytes) :
    (netAck s a1 a2 a3).health = s.health := id rfl
@[simp] theorem castStageAt_pending (s : State) (a1 : Nat) (a2 : Nat) :
    (castStageAt s a1 a2).pending = s.pending := by simp [castStageAt]
@[simp] theorem castStageAt_free (s : State) (a1 : Nat) (a2 : Nat) :
    (castStageAt s a1 a2).free = s.free := by simp [castStageAt]
@[simp] theorem castStageAt_pow (s : State) (a1 : Nat) (a2 : Nat) : (castStageAt s a1 a2).pow = s.pow := by simp [castStageAt]
@[simp] theorem castStageAt_pins (s : State) (a1 : Nat) (a2 : Nat) :
    (castStageAt s a1 a2).pins = s.pins := by simp [castStageAt]
@[simp] theorem castStageAt_pools (s : State) (a1 : Nat) (a2 : Nat) :
    (castStageAt s a1 a2).pools = s.pools := by simp [castStageAt]
@[simp] theorem castStageAt_err (s : State) (a1 : Nat) (a2 : Nat) : (castStageAt s a1 a2).err = s.err := by simp [castStageAt]
@[simp] theorem castStageAt_lbx (s : State) (a1 : Nat) (a2 : Nat) : (castStageAt s a1 a2).lbx = s.lbx := by simp [castStageAt]
@[simp] theorem castStageAt_cnt (s : State) (a1 : Nat) (a2 : Nat) : (castStageAt s a1 a2).cnt = s.cnt := by simp [castStageAt]
@[simp] theorem castStageAt_watch (s : State) (a1 : Nat) (a2 : Nat) :
    (castStageAt s a1 a2).watch = s.watch := by simp [castStageAt]
@[simp] theorem castStageAt_dict (s : State) (a1 : Nat) (a2 : Nat) :
    (castStageAt s a1 a2).dict = s.dict := by simp [castStageAt]
@[simp] theorem castStageAt_mbx (s : State) (a1 : Nat) (a2 : Nat) : (castStageAt s a1 a2).mbx = s.mbx := by simp [castStageAt]
@[simp] theorem castStageAt_host (s : State) (a1 : Nat) (a2 : Nat) :
    (castStageAt s a1 a2).host = s.host := by simp [castStageAt]
@[simp] theorem castStageAt_gate (s : State) (a1 : Nat) (a2 : Nat) :
    (castStageAt s a1 a2).gate = s.gate := by simp [castStageAt]
@[simp] theorem castStageAt_ctxs (s : State) (a1 : Nat) (a2 : Nat) :
    (castStageAt s a1 a2).ctxs = s.ctxs := by simp [castStageAt]
@[simp] theorem castStageAt_vault (s : State) (a1 : Nat) (a2 : Nat) :
    (castStageAt s a1 a2).vault = s.vault := by simp [castStageAt]
@[simp] theorem castStageAt_cipher (s : State) (a1 : Nat) (a2 : Nat) :
    (castStageAt s a1 a2).cipher = s.cipher := by simp [castStageAt]
@[simp] theorem castStageAt_lc (s : State) (a1 : Nat) (a2 : Nat) : (castStageAt s a1 a2).lc = s.lc := by simp [castStageAt]
@[simp] theorem castStageAt_dom (s : State) (a1 : Nat) (a2 : Nat) : (castStageAt s a1 a2).dom = s.dom := by simp [castStageAt]
@[simp] theorem castStageAt_link (s : State) (a1 : Nat) (a2 : Nat) :
    (castStageAt s a1 a2).link = s.link := by simp [castStageAt]
@[simp] theorem castStageAt_alloys (s : State) (a1 : Nat) (a2 : Nat) :
    (castStageAt s a1 a2).alloys = s.alloys := by simp [castStageAt]
@[simp] theorem castStageAt_mem (s : State) (a1 : Nat) (a2 : Nat) : (castStageAt s a1 a2).mem = s.mem := by simp [castStageAt]
@[simp] theorem castStageAt_tierA (s : State) (a1 : Nat) (a2 : Nat) :
    (castStageAt s a1 a2).tierA = s.tierA := by simp [castStageAt]
@[simp] theorem castStageAt_arb (s : State) (a1 : Nat) (a2 : Nat) : (castStageAt s a1 a2).arb = s.arb := by simp [castStageAt]
@[simp] theorem castStageAt_time (s : State) (a1 : Nat) (a2 : Nat) :
    (castStageAt s a1 a2).time = s.time := by simp [castStageAt]
@[simp] theorem castStageAt_casts (s : State) (a1 : Nat) (a2 : Nat) :
    (castStageAt s a1 a2).casts = s.casts := by simp [castStageAt]
@[simp] theorem castStageAt_boot (s : State) (a1 : Nat) (a2 : Nat) :
    (castStageAt s a1 a2).boot = s.boot := by simp [castStageAt]
@[simp] theorem castStageAt_health (s : State) (a1 : Nat) (a2 : Nat) :
    (castStageAt s a1 a2).health = s.health := by simp [castStageAt]
@[simp] theorem castRest_pending (s : State) (a1 : Nat) (a2 : Cast) :
    (castRest s a1 a2).pending = s.pending := by simp [castRest, apply_ite State.pending]
@[simp] theorem castRest_free (s : State) (a1 : Nat) (a2 : Cast) :
    (castRest s a1 a2).free = s.free := by simp [castRest, apply_ite State.free]
@[simp] theorem castRest_pow (s : State) (a1 : Nat) (a2 : Cast) :
    (castRest s a1 a2).pow = s.pow := by simp [castRest, apply_ite State.pow]
@[simp] theorem castRest_pins (s : State) (a1 : Nat) (a2 : Cast) :
    (castRest s a1 a2).pins = s.pins := by simp [castRest, apply_ite State.pins]
@[simp] theorem castRest_pools (s : State) (a1 : Nat) (a2 : Cast) :
    (castRest s a1 a2).pools = s.pools := by simp [castRest, apply_ite State.pools]
@[simp] theorem castRest_err (s : State) (a1 : Nat) (a2 : Cast) :
    (castRest s a1 a2).err = s.err := by simp [castRest, apply_ite State.err]
@[simp] theorem castRest_lbx (s : State) (a1 : Nat) (a2 : Cast) :
    (castRest s a1 a2).lbx = s.lbx := by simp [castRest, apply_ite State.lbx]
@[simp] theorem castRest_cnt (s : State) (a1 : Nat) (a2 : Cast) :
    (castRest s a1 a2).cnt = s.cnt := by simp [castRest, apply_ite State.cnt]
@[simp] theorem castRest_watch (s : State) (a1 : Nat) (a2 : Cast) :
    (castRest s a1 a2).watch = s.watch := by simp [castRest, apply_ite State.watch]
@[simp] theorem castRest_dict (s : State) (a1 : Nat) (a2 : Cast) :
    (castRest s a1 a2).dict = s.dict := by simp [castRest, apply_ite State.dict]
@[simp] theorem castRest_mbx (s : State) (a1 : Nat) (a2 : Cast) :
    (castRest s a1 a2).mbx = s.mbx := by simp [castRest, apply_ite State.mbx]
@[simp] theorem castRest_host (s : State) (a1 : Nat) (a2 : Cast) :
    (castRest s a1 a2).host = s.host := by simp [castRest, apply_ite State.host]
@[simp] theorem castRest_gate (s : State) (a1 : Nat) (a2 : Cast) :
    (castRest s a1 a2).gate = s.gate := by simp [castRest, apply_ite State.gate]
@[simp] theorem castRest_ctxs (s : State) (a1 : Nat) (a2 : Cast) :
    (castRest s a1 a2).ctxs = s.ctxs := by simp [castRest, apply_ite State.ctxs]
@[simp] theorem castRest_vault (s : State) (a1 : Nat) (a2 : Cast) :
    (castRest s a1 a2).vault = s.vault := by simp [castRest, apply_ite State.vault]
@[simp] theorem castRest_cipher (s : State) (a1 : Nat) (a2 : Cast) :
    (castRest s a1 a2).cipher = s.cipher := by simp [castRest, apply_ite State.cipher]
@[simp] theorem castRest_lc (s : State) (a1 : Nat) (a2 : Cast) :
    (castRest s a1 a2).lc = s.lc := by simp [castRest, apply_ite State.lc]
@[simp] theorem castRest_dom (s : State) (a1 : Nat) (a2 : Cast) :
    (castRest s a1 a2).dom = s.dom := by simp [castRest, apply_ite State.dom]
@[simp] theorem castRest_link (s : State) (a1 : Nat) (a2 : Cast) :
    (castRest s a1 a2).link = s.link := by simp [castRest, apply_ite State.link]
@[simp] theorem castRest_alloys (s : State) (a1 : Nat) (a2 : Cast) :
    (castRest s a1 a2).alloys = s.alloys := by simp [castRest, apply_ite State.alloys]
@[simp] theorem castRest_mem (s : State) (a1 : Nat) (a2 : Cast) :
    (castRest s a1 a2).mem = s.mem := by simp [castRest, apply_ite State.mem]
@[simp] theorem castRest_tierA (s : State) (a1 : Nat) (a2 : Cast) :
    (castRest s a1 a2).tierA = s.tierA := by simp [castRest, apply_ite State.tierA]
@[simp] theorem castRest_arb (s : State) (a1 : Nat) (a2 : Cast) :
    (castRest s a1 a2).arb = s.arb := by simp [castRest, apply_ite State.arb]
@[simp] theorem castRest_time (s : State) (a1 : Nat) (a2 : Cast) :
    (castRest s a1 a2).time = s.time := by simp [castRest, apply_ite State.time]
@[simp] theorem castRest_boot (s : State) (a1 : Nat) (a2 : Cast) :
    (castRest s a1 a2).boot = s.boot := by simp [castRest, apply_ite State.boot]
@[simp] theorem castRest_health (s : State) (a1 : Nat) (a2 : Cast) :
    (castRest s a1 a2).health = s.health := by simp [castRest, apply_ite State.health]
@[simp] theorem setPage_pending (s : State) (a1 : Nat) (a2 : PageOwner) :
    (setPage s a1 a2).pending = s.pending := by simp [setPage, apply_ite State.pending]
@[simp] theorem setPage_free (s : State) (a1 : Nat) (a2 : PageOwner) :
    (setPage s a1 a2).free = s.free := by simp [setPage, apply_ite State.free]
@[simp] theorem setPage_pow (s : State) (a1 : Nat) (a2 : PageOwner) :
    (setPage s a1 a2).pow = s.pow := by simp [setPage, apply_ite State.pow]
@[simp] theorem setPage_pins (s : State) (a1 : Nat) (a2 : PageOwner) :
    (setPage s a1 a2).pins = s.pins := by simp [setPage, apply_ite State.pins]
@[simp] theorem setPage_pools (s : State) (a1 : Nat) (a2 : PageOwner) :
    (setPage s a1 a2).pools = s.pools := by simp [setPage, apply_ite State.pools]
@[simp] theorem setPage_err (s : State) (a1 : Nat) (a2 : PageOwner) :
    (setPage s a1 a2).err = s.err := by simp [setPage, apply_ite State.err]
@[simp] theorem setPage_lbx (s : State) (a1 : Nat) (a2 : PageOwner) :
    (setPage s a1 a2).lbx = s.lbx := by simp [setPage, apply_ite State.lbx]
@[simp] theorem setPage_cnt (s : State) (a1 : Nat) (a2 : PageOwner) :
    (setPage s a1 a2).cnt = s.cnt := by simp [setPage, apply_ite State.cnt]
@[simp] theorem setPage_watch (s : State) (a1 : Nat) (a2 : PageOwner) :
    (setPage s a1 a2).watch = s.watch := by simp [setPage, apply_ite State.watch]
@[simp] theorem setPage_dict (s : State) (a1 : Nat) (a2 : PageOwner) :
    (setPage s a1 a2).dict = s.dict := by simp [setPage, apply_ite State.dict]
@[simp] theorem setPage_mbx (s : State) (a1 : Nat) (a2 : PageOwner) :
    (setPage s a1 a2).mbx = s.mbx := by simp [setPage, apply_ite State.mbx]
@[simp] theorem setPage_host (s : State) (a1 : Nat) (a2 : PageOwner) :
    (setPage s a1 a2).host = s.host := by simp [setPage, apply_ite State.host]
@[simp] theorem setPage_ctxs (s : State) (a1 : Nat) (a2 : PageOwner) :
    (setPage s a1 a2).ctxs = s.ctxs := by simp [setPage, apply_ite State.ctxs]
@[simp] theorem setPage_vault (s : State) (a1 : Nat) (a2 : PageOwner) :
    (setPage s a1 a2).vault = s.vault := by simp [setPage, apply_ite State.vault]
@[simp] theorem setPage_cipher (s : State) (a1 : Nat) (a2 : PageOwner) :
    (setPage s a1 a2).cipher = s.cipher := by simp [setPage, apply_ite State.cipher]
@[simp] theorem setPage_lc (s : State) (a1 : Nat) (a2 : PageOwner) :
    (setPage s a1 a2).lc = s.lc := by simp [setPage, apply_ite State.lc]
@[simp] theorem setPage_dom (s : State) (a1 : Nat) (a2 : PageOwner) :
    (setPage s a1 a2).dom = s.dom := by simp [setPage, apply_ite State.dom]
@[simp] theorem setPage_link (s : State) (a1 : Nat) (a2 : PageOwner) :
    (setPage s a1 a2).link = s.link := by simp [setPage, apply_ite State.link]
@[simp] theorem setPage_alloys (s : State) (a1 : Nat) (a2 : PageOwner) :
    (setPage s a1 a2).alloys = s.alloys := by simp [setPage, apply_ite State.alloys]
@[simp] theorem setPage_tierA (s : State) (a1 : Nat) (a2 : PageOwner) :
    (setPage s a1 a2).tierA = s.tierA := by simp [setPage, apply_ite State.tierA]
@[simp] theorem setPage_arb (s : State) (a1 : Nat) (a2 : PageOwner) :
    (setPage s a1 a2).arb = s.arb := by simp [setPage, apply_ite State.arb]
@[simp] theorem setPage_time (s : State) (a1 : Nat) (a2 : PageOwner) :
    (setPage s a1 a2).time = s.time := by simp [setPage, apply_ite State.time]
@[simp] theorem setPage_casts (s : State) (a1 : Nat) (a2 : PageOwner) :
    (setPage s a1 a2).casts = s.casts := by simp [setPage, apply_ite State.casts]
@[simp] theorem setPage_boot (s : State) (a1 : Nat) (a2 : PageOwner) :
    (setPage s a1 a2).boot = s.boot := by simp [setPage, apply_ite State.boot]
@[simp] theorem setPage_health (s : State) (a1 : Nat) (a2 : PageOwner) :
    (setPage s a1 a2).health = s.health := by simp [setPage, apply_ite State.health]
@[simp] theorem setGroup_pending (s : State) (a1 : Nat) (a2 : List (Nat × Nat × Bool)) :
    (setGroup s a1 a2).pending = s.pending := by simp [setGroup, apply_ite State.pending]
@[simp] theorem setGroup_free (s : State) (a1 : Nat) (a2 : List (Nat × Nat × Bool)) :
    (setGroup s a1 a2).free = s.free := by simp [setGroup, apply_ite State.free]
@[simp] theorem setGroup_pow (s : State) (a1 : Nat) (a2 : List (Nat × Nat × Bool)) :
    (setGroup s a1 a2).pow = s.pow := by simp [setGroup, apply_ite State.pow]
@[simp] theorem setGroup_pins (s : State) (a1 : Nat) (a2 : List (Nat × Nat × Bool)) :
    (setGroup s a1 a2).pins = s.pins := by simp [setGroup, apply_ite State.pins]
@[simp] theorem setGroup_pools (s : State) (a1 : Nat) (a2 : List (Nat × Nat × Bool)) :
    (setGroup s a1 a2).pools = s.pools := by simp [setGroup, apply_ite State.pools]
@[simp] theorem setGroup_err (s : State) (a1 : Nat) (a2 : List (Nat × Nat × Bool)) :
    (setGroup s a1 a2).err = s.err := by simp [setGroup, apply_ite State.err]
@[simp] theorem setGroup_lbx (s : State) (a1 : Nat) (a2 : List (Nat × Nat × Bool)) :
    (setGroup s a1 a2).lbx = s.lbx := by simp [setGroup, apply_ite State.lbx]
@[simp] theorem setGroup_cnt (s : State) (a1 : Nat) (a2 : List (Nat × Nat × Bool)) :
    (setGroup s a1 a2).cnt = s.cnt := by simp [setGroup, apply_ite State.cnt]
@[simp] theorem setGroup_watch (s : State) (a1 : Nat) (a2 : List (Nat × Nat × Bool)) :
    (setGroup s a1 a2).watch = s.watch := by simp [setGroup, apply_ite State.watch]
@[simp] theorem setGroup_dict (s : State) (a1 : Nat) (a2 : List (Nat × Nat × Bool)) :
    (setGroup s a1 a2).dict = s.dict := by simp [setGroup, apply_ite State.dict]
@[simp] theorem setGroup_mbx (s : State) (a1 : Nat) (a2 : List (Nat × Nat × Bool)) :
    (setGroup s a1 a2).mbx = s.mbx := by simp [setGroup, apply_ite State.mbx]
@[simp] theorem setGroup_host (s : State) (a1 : Nat) (a2 : List (Nat × Nat × Bool)) :
    (setGroup s a1 a2).host = s.host := by simp [setGroup, apply_ite State.host]
@[simp] theorem setGroup_ctxs (s : State) (a1 : Nat) (a2 : List (Nat × Nat × Bool)) :
    (setGroup s a1 a2).ctxs = s.ctxs := by simp [setGroup, apply_ite State.ctxs]
@[simp] theorem setGroup_vault (s : State) (a1 : Nat) (a2 : List (Nat × Nat × Bool)) :
    (setGroup s a1 a2).vault = s.vault := by simp [setGroup, apply_ite State.vault]
@[simp] theorem setGroup_cipher (s : State) (a1 : Nat) (a2 : List (Nat × Nat × Bool)) :
    (setGroup s a1 a2).cipher = s.cipher := by simp [setGroup, apply_ite State.cipher]
@[simp] theorem setGroup_lc (s : State) (a1 : Nat) (a2 : List (Nat × Nat × Bool)) :
    (setGroup s a1 a2).lc = s.lc := by simp [setGroup, apply_ite State.lc]
@[simp] theorem setGroup_dom (s : State) (a1 : Nat) (a2 : List (Nat × Nat × Bool)) :
    (setGroup s a1 a2).dom = s.dom := by simp [setGroup, apply_ite State.dom]
@[simp] theorem setGroup_link (s : State) (a1 : Nat) (a2 : List (Nat × Nat × Bool)) :
    (setGroup s a1 a2).link = s.link := by simp [setGroup, apply_ite State.link]
@[simp] theorem setGroup_alloys (s : State) (a1 : Nat) (a2 : List (Nat × Nat × Bool)) :
    (setGroup s a1 a2).alloys = s.alloys := by simp [setGroup, apply_ite State.alloys]
@[simp] theorem setGroup_tierA (s : State) (a1 : Nat) (a2 : List (Nat × Nat × Bool)) :
    (setGroup s a1 a2).tierA = s.tierA := by simp [setGroup, apply_ite State.tierA]
@[simp] theorem setGroup_arb (s : State) (a1 : Nat) (a2 : List (Nat × Nat × Bool)) :
    (setGroup s a1 a2).arb = s.arb := by simp [setGroup, apply_ite State.arb]
@[simp] theorem setGroup_time (s : State) (a1 : Nat) (a2 : List (Nat × Nat × Bool)) :
    (setGroup s a1 a2).time = s.time := by simp [setGroup, apply_ite State.time]
@[simp] theorem setGroup_casts (s : State) (a1 : Nat) (a2 : List (Nat × Nat × Bool)) :
    (setGroup s a1 a2).casts = s.casts := by simp [setGroup, apply_ite State.casts]
@[simp] theorem setGroup_boot (s : State) (a1 : Nat) (a2 : List (Nat × Nat × Bool)) :
    (setGroup s a1 a2).boot = s.boot := by simp [setGroup, apply_ite State.boot]
@[simp] theorem setGroup_health (s : State) (a1 : Nat) (a2 : List (Nat × Nat × Bool)) :
    (setGroup s a1 a2).health = s.health := by simp [setGroup, apply_ite State.health]
@[simp] theorem scrubLevels_pending (s : State) : (scrubLevels s).pending = s.pending := id rfl
@[simp] theorem scrubLevels_free (s : State) : (scrubLevels s).free = s.free := id rfl
@[simp] theorem scrubLevels_out (s : State) : (scrubLevels s).out = s.out := id rfl
@[simp] theorem scrubLevels_pow (s : State) : (scrubLevels s).pow = s.pow := id rfl
@[simp] theorem scrubLevels_pins (s : State) : (scrubLevels s).pins = s.pins := id rfl
@[simp] theorem scrubLevels_cross (s : State) : (scrubLevels s).cross = s.cross := id rfl
@[simp] theorem scrubLevels_pools (s : State) : (scrubLevels s).pools = s.pools := id rfl
@[simp] theorem scrubLevels_net (s : State) : (scrubLevels s).net = s.net := id rfl
@[simp] theorem scrubLevels_err (s : State) : (scrubLevels s).err = s.err := id rfl
@[simp] theorem scrubLevels_lbx (s : State) : (scrubLevels s).lbx = s.lbx := id rfl
@[simp] theorem scrubLevels_cnt (s : State) : (scrubLevels s).cnt = s.cnt := id rfl
@[simp] theorem scrubLevels_watch (s : State) : (scrubLevels s).watch = s.watch := id rfl
@[simp] theorem scrubLevels_dict (s : State) : (scrubLevels s).dict = s.dict := id rfl
@[simp] theorem scrubLevels_mbx (s : State) : (scrubLevels s).mbx = s.mbx := id rfl
@[simp] theorem scrubLevels_host (s : State) : (scrubLevels s).host = s.host := id rfl
@[simp] theorem scrubLevels_gate (s : State) : (scrubLevels s).gate = s.gate := id rfl
@[simp] theorem scrubLevels_ctxs (s : State) : (scrubLevels s).ctxs = s.ctxs := id rfl
@[simp] theorem scrubLevels_vault (s : State) : (scrubLevels s).vault = s.vault := id rfl
@[simp] theorem scrubLevels_cipher (s : State) : (scrubLevels s).cipher = s.cipher := id rfl
@[simp] theorem scrubLevels_lc (s : State) : (scrubLevels s).lc = s.lc := id rfl
@[simp] theorem scrubLevels_dom (s : State) : (scrubLevels s).dom = s.dom := id rfl
@[simp] theorem scrubLevels_link (s : State) : (scrubLevels s).link = s.link := id rfl
@[simp] theorem scrubLevels_alloys (s : State) : (scrubLevels s).alloys = s.alloys := id rfl
@[simp] theorem scrubLevels_tierA (s : State) : (scrubLevels s).tierA = s.tierA := id rfl
@[simp] theorem scrubLevels_arb (s : State) : (scrubLevels s).arb = s.arb := id rfl
@[simp] theorem scrubLevels_time (s : State) : (scrubLevels s).time = s.time := id rfl
@[simp] theorem scrubLevels_casts (s : State) : (scrubLevels s).casts = s.casts := id rfl
@[simp] theorem scrubLevels_boot (s : State) : (scrubLevels s).boot = s.boot := id rfl
@[simp] theorem scrubLevels_health (s : State) : (scrubLevels s).health = s.health := id rfl
@[simp] theorem whenUp_pending (s : State) (a1 : State → State) (h1 : ∀ s, (a1 s).pending = s.pending) :
    (whenUp s a1).pending = s.pending := by simp [whenUp, h1, apply_ite State.pending]
@[simp] theorem whenUp_free (s : State) (a1 : State → State) (h1 : ∀ s, (a1 s).free = s.free) :
    (whenUp s a1).free = s.free := by simp [whenUp, h1, apply_ite State.free]
@[simp] theorem whenUp_out (s : State) (a1 : State → State) (h1 : ∀ s, (a1 s).out = s.out) :
    (whenUp s a1).out = s.out := by simp [whenUp, h1, apply_ite State.out]
@[simp] theorem whenUp_pow (s : State) (a1 : State → State) (h1 : ∀ s, (a1 s).pow = s.pow) :
    (whenUp s a1).pow = s.pow := by simp [whenUp, h1, apply_ite State.pow]
@[simp] theorem whenUp_pins (s : State) (a1 : State → State) (h1 : ∀ s, (a1 s).pins = s.pins) :
    (whenUp s a1).pins = s.pins := by simp [whenUp, h1, apply_ite State.pins]
@[simp] theorem whenUp_cross (s : State) (a1 : State → State) (h1 : ∀ s, (a1 s).cross = s.cross) :
    (whenUp s a1).cross = s.cross := by simp [whenUp, h1, apply_ite State.cross]
@[simp] theorem whenUp_pools (s : State) (a1 : State → State) (h1 : ∀ s, (a1 s).pools = s.pools) :
    (whenUp s a1).pools = s.pools := by simp [whenUp, h1, apply_ite State.pools]
@[simp] theorem whenUp_net (s : State) (a1 : State → State) (h1 : ∀ s, (a1 s).net = s.net) :
    (whenUp s a1).net = s.net := by simp [whenUp, h1, apply_ite State.net]
@[simp] theorem whenUp_err (s : State) (a1 : State → State) (h1 : ∀ s, (a1 s).err = s.err) :
    (whenUp s a1).err = s.err := by simp [whenUp, h1, apply_ite State.err]
@[simp] theorem whenUp_lbx (s : State) (a1 : State → State) (h1 : ∀ s, (a1 s).lbx = s.lbx) :
    (whenUp s a1).lbx = s.lbx := by simp [whenUp, h1, apply_ite State.lbx]
@[simp] theorem whenUp_cnt (s : State) (a1 : State → State) (h1 : ∀ s, (a1 s).cnt = s.cnt) :
    (whenUp s a1).cnt = s.cnt := by simp [whenUp, h1, apply_ite State.cnt]
@[simp] theorem whenUp_watch (s : State) (a1 : State → State) (h1 : ∀ s, (a1 s).watch = s.watch) :
    (whenUp s a1).watch = s.watch := by simp [whenUp, h1, apply_ite State.watch]
@[simp] theorem whenUp_dict (s : State) (a1 : State → State) (h1 : ∀ s, (a1 s).dict = s.dict) :
    (whenUp s a1).dict = s.dict := by simp [whenUp, h1, apply_ite State.dict]
@[simp] theorem whenUp_mbx (s : State) (a1 : State → State) (h1 : ∀ s, (a1 s).mbx = s.mbx) :
    (whenUp s a1).mbx = s.mbx := by simp [whenUp, h1, apply_ite State.mbx]
@[simp] theorem whenUp_host (s : State) (a1 : State → State) (h1 : ∀ s, (a1 s).host = s.host) :
    (whenUp s a1).host = s.host := by simp [whenUp, h1, apply_ite State.host]
@[simp] theorem whenUp_gate (s : State) (a1 : State → State) (h1 : ∀ s, (a1 s).gate = s.gate) :
    (whenUp s a1).gate = s.gate := by simp [whenUp, h1, apply_ite State.gate]
@[simp] theorem whenUp_ctxs (s : State) (a1 : State → State) (h1 : ∀ s, (a1 s).ctxs = s.ctxs) :
    (whenUp s a1).ctxs = s.ctxs := by simp [whenUp, h1, apply_ite State.ctxs]
@[simp] theorem whenUp_vault (s : State) (a1 : State → State) (h1 : ∀ s, (a1 s).vault = s.vault) :
    (whenUp s a1).vault = s.vault := by simp [whenUp, h1, apply_ite State.vault]
@[simp] theorem whenUp_cipher (s : State) (a1 : State → State) (h1 : ∀ s, (a1 s).cipher = s.cipher) :
    (whenUp s a1).cipher = s.cipher := by simp [whenUp, h1, apply_ite State.cipher]
@[simp] theorem whenUp_lc (s : State) (a1 : State → State) (h1 : ∀ s, (a1 s).lc = s.lc) :
    (whenUp s a1).lc = s.lc := by simp [whenUp, h1, apply_ite State.lc]
@[simp] theorem whenUp_dom (s : State) (a1 : State → State) (h1 : ∀ s, (a1 s).dom = s.dom) :
    (whenUp s a1).dom = s.dom := by simp [whenUp, h1, apply_ite State.dom]
@[simp] theorem whenUp_link (s : State) (a1 : State → State) (h1 : ∀ s, (a1 s).link = s.link) :
    (whenUp s a1).link = s.link := by simp [whenUp, h1, apply_ite State.link]
@[simp] theorem whenUp_alloys (s : State) (a1 : State → State) (h1 : ∀ s, (a1 s).alloys = s.alloys) :
    (whenUp s a1).alloys = s.alloys := by simp [whenUp, h1, apply_ite State.alloys]
@[simp] theorem whenUp_mem (s : State) (a1 : State → State) (h1 : ∀ s, (a1 s).mem = s.mem) :
    (whenUp s a1).mem = s.mem := by simp [whenUp, h1, apply_ite State.mem]
@[simp] theorem whenUp_tierA (s : State) (a1 : State → State) (h1 : ∀ s, (a1 s).tierA = s.tierA) :
    (whenUp s a1).tierA = s.tierA := by simp [whenUp, h1, apply_ite State.tierA]
@[simp] theorem whenUp_arb (s : State) (a1 : State → State) (h1 : ∀ s, (a1 s).arb = s.arb) :
    (whenUp s a1).arb = s.arb := by simp [whenUp, h1, apply_ite State.arb]
@[simp] theorem whenUp_time (s : State) (a1 : State → State) (h1 : ∀ s, (a1 s).time = s.time) :
    (whenUp s a1).time = s.time := by simp [whenUp, h1, apply_ite State.time]
@[simp] theorem whenUp_casts (s : State) (a1 : State → State) (h1 : ∀ s, (a1 s).casts = s.casts) :
    (whenUp s a1).casts = s.casts := by simp [whenUp, h1, apply_ite State.casts]
@[simp] theorem whenUp_boot (s : State) (a1 : State → State) (h1 : ∀ s, (a1 s).boot = s.boot) :
    (whenUp s a1).boot = s.boot := by simp [whenUp, h1, apply_ite State.boot]
@[simp] theorem whenUp_health (s : State) (a1 : State → State) (h1 : ∀ s, (a1 s).health = s.health) :
    (whenUp s a1).health = s.health := by simp [whenUp, h1, apply_ite State.health]
@[simp] theorem fromHost_pending (s : State) (a1 : Nat) (a2 : State → State) (h2 : ∀ s, (a2 s).pending = s.pending) :
    (fromHost s a1 a2).pending = s.pending := by simp [fromHost, h2, apply_ite State.pending]
@[simp] theorem fromHost_free (s : State) (a1 : Nat) (a2 : State → State) (h2 : ∀ s, (a2 s).free = s.free) :
    (fromHost s a1 a2).free = s.free := by simp [fromHost, h2, apply_ite State.free]
@[simp] theorem fromHost_out (s : State) (a1 : Nat) (a2 : State → State) (h2 : ∀ s, (a2 s).out = s.out) :
    (fromHost s a1 a2).out = s.out := by simp [fromHost, h2, apply_ite State.out]
@[simp] theorem fromHost_pow (s : State) (a1 : Nat) (a2 : State → State) (h2 : ∀ s, (a2 s).pow = s.pow) :
    (fromHost s a1 a2).pow = s.pow := by simp [fromHost, h2, apply_ite State.pow]
@[simp] theorem fromHost_pins (s : State) (a1 : Nat) (a2 : State → State) (h2 : ∀ s, (a2 s).pins = s.pins) :
    (fromHost s a1 a2).pins = s.pins := by simp [fromHost, h2, apply_ite State.pins]
@[simp] theorem fromHost_pools (s : State) (a1 : Nat) (a2 : State → State) (h2 : ∀ s, (a2 s).pools = s.pools) :
    (fromHost s a1 a2).pools = s.pools := by simp [fromHost, h2, apply_ite State.pools]
@[simp] theorem fromHost_net (s : State) (a1 : Nat) (a2 : State → State) (h2 : ∀ s, (a2 s).net = s.net) :
    (fromHost s a1 a2).net = s.net := by simp [fromHost, h2, apply_ite State.net]
@[simp] theorem fromHost_err (s : State) (a1 : Nat) (a2 : State → State) (h2 : ∀ s, (a2 s).err = s.err) :
    (fromHost s a1 a2).err = s.err := by simp [fromHost, h2, apply_ite State.err]
@[simp] theorem fromHost_lbx (s : State) (a1 : Nat) (a2 : State → State) (h2 : ∀ s, (a2 s).lbx = s.lbx) :
    (fromHost s a1 a2).lbx = s.lbx := by simp [fromHost, h2, apply_ite State.lbx]
@[simp] theorem fromHost_cnt (s : State) (a1 : Nat) (a2 : State → State) (h2 : ∀ s, (a2 s).cnt = s.cnt) :
    (fromHost s a1 a2).cnt = s.cnt := by simp [fromHost, h2, apply_ite State.cnt]
@[simp] theorem fromHost_watch (s : State) (a1 : Nat) (a2 : State → State) (h2 : ∀ s, (a2 s).watch = s.watch) :
    (fromHost s a1 a2).watch = s.watch := by simp [fromHost, h2, apply_ite State.watch]
@[simp] theorem fromHost_dict (s : State) (a1 : Nat) (a2 : State → State) (h2 : ∀ s, (a2 s).dict = s.dict) :
    (fromHost s a1 a2).dict = s.dict := by simp [fromHost, h2, apply_ite State.dict]
@[simp] theorem fromHost_mbx (s : State) (a1 : Nat) (a2 : State → State) (h2 : ∀ s, (a2 s).mbx = s.mbx) :
    (fromHost s a1 a2).mbx = s.mbx := by simp [fromHost, h2, apply_ite State.mbx]
@[simp] theorem fromHost_host (s : State) (a1 : Nat) (a2 : State → State) (h2 : ∀ s, (a2 s).host = s.host) :
    (fromHost s a1 a2).host = s.host := by simp [fromHost, h2, apply_ite State.host]
@[simp] theorem fromHost_gate (s : State) (a1 : Nat) (a2 : State → State) (h2 : ∀ s, (a2 s).gate = s.gate) :
    (fromHost s a1 a2).gate = s.gate := by simp [fromHost, h2, apply_ite State.gate]
@[simp] theorem fromHost_ctxs (s : State) (a1 : Nat) (a2 : State → State) (h2 : ∀ s, (a2 s).ctxs = s.ctxs) :
    (fromHost s a1 a2).ctxs = s.ctxs := by simp [fromHost, h2, apply_ite State.ctxs]
@[simp] theorem fromHost_vault (s : State) (a1 : Nat) (a2 : State → State) (h2 : ∀ s, (a2 s).vault = s.vault) :
    (fromHost s a1 a2).vault = s.vault := by simp [fromHost, h2, apply_ite State.vault]
@[simp] theorem fromHost_cipher (s : State) (a1 : Nat) (a2 : State → State) (h2 : ∀ s, (a2 s).cipher = s.cipher) :
    (fromHost s a1 a2).cipher = s.cipher := by simp [fromHost, h2, apply_ite State.cipher]
@[simp] theorem fromHost_lc (s : State) (a1 : Nat) (a2 : State → State) (h2 : ∀ s, (a2 s).lc = s.lc) :
    (fromHost s a1 a2).lc = s.lc := by simp [fromHost, h2, apply_ite State.lc]
@[simp] theorem fromHost_dom (s : State) (a1 : Nat) (a2 : State → State) (h2 : ∀ s, (a2 s).dom = s.dom) :
    (fromHost s a1 a2).dom = s.dom := by simp [fromHost, h2, apply_ite State.dom]
@[simp] theorem fromHost_link (s : State) (a1 : Nat) (a2 : State → State) (h2 : ∀ s, (a2 s).link = s.link) :
    (fromHost s a1 a2).link = s.link := by simp [fromHost, h2, apply_ite State.link]
@[simp] theorem fromHost_alloys (s : State) (a1 : Nat) (a2 : State → State) (h2 : ∀ s, (a2 s).alloys = s.alloys) :
    (fromHost s a1 a2).alloys = s.alloys := by simp [fromHost, h2, apply_ite State.alloys]
@[simp] theorem fromHost_mem (s : State) (a1 : Nat) (a2 : State → State) (h2 : ∀ s, (a2 s).mem = s.mem) :
    (fromHost s a1 a2).mem = s.mem := by simp [fromHost, h2, apply_ite State.mem]
@[simp] theorem fromHost_tierA (s : State) (a1 : Nat) (a2 : State → State) (h2 : ∀ s, (a2 s).tierA = s.tierA) :
    (fromHost s a1 a2).tierA = s.tierA := by simp [fromHost, h2, apply_ite State.tierA]
@[simp] theorem fromHost_arb (s : State) (a1 : Nat) (a2 : State → State) (h2 : ∀ s, (a2 s).arb = s.arb) :
    (fromHost s a1 a2).arb = s.arb := by simp [fromHost, h2, apply_ite State.arb]
@[simp] theorem fromHost_time (s : State) (a1 : Nat) (a2 : State → State) (h2 : ∀ s, (a2 s).time = s.time) :
    (fromHost s a1 a2).time = s.time := by simp [fromHost, h2, apply_ite State.time]
@[simp] theorem fromHost_casts (s : State) (a1 : Nat) (a2 : State → State) (h2 : ∀ s, (a2 s).casts = s.casts) :
    (fromHost s a1 a2).casts = s.casts := by simp [fromHost, h2, apply_ite State.casts]
@[simp] theorem fromHost_boot (s : State) (a1 : Nat) (a2 : State → State) (h2 : ∀ s, (a2 s).boot = s.boot) :
    (fromHost s a1 a2).boot = s.boot := by simp [fromHost, h2, apply_ite State.boot]
@[simp] theorem fromHost_health (s : State) (a1 : Nat) (a2 : State → State) (h2 : ∀ s, (a2 s).health = s.health) :
    (fromHost s a1 a2).health = s.health := by simp [fromHost, h2, apply_ite State.health]
@[simp] theorem whenAon_pending (s : State) (a1 : State → State) (h1 : ∀ s, (a1 s).pending = s.pending) :
    (whenAon s a1).pending = s.pending := by simp [whenAon, h1, apply_ite State.pending]
@[simp] theorem whenAon_free (s : State) (a1 : State → State) (h1 : ∀ s, (a1 s).free = s.free) :
    (whenAon s a1).free = s.free := by simp [whenAon, h1, apply_ite State.free]
@[simp] theorem whenAon_out (s : State) (a1 : State → State) (h1 : ∀ s, (a1 s).out = s.out) :
    (whenAon s a1).out = s.out := by simp [whenAon, h1, apply_ite State.out]
@[simp] theorem whenAon_pow (s : State) (a1 : State → State) (h1 : ∀ s, (a1 s).pow = s.pow) :
    (whenAon s a1).pow = s.pow := by simp [whenAon, h1, apply_ite State.pow]
@[simp] theorem whenAon_pins (s : State) (a1 : State → State) (h1 : ∀ s, (a1 s).pins = s.pins) :
    (whenAon s a1).pins = s.pins := by simp [whenAon, h1, apply_ite State.pins]
@[simp] theorem whenAon_cross (s : State) (a1 : State → State) (h1 : ∀ s, (a1 s).cross = s.cross) :
    (whenAon s a1).cross = s.cross := by simp [whenAon, h1, apply_ite State.cross]
@[simp] theorem whenAon_pools (s : State) (a1 : State → State) (h1 : ∀ s, (a1 s).pools = s.pools) :
    (whenAon s a1).pools = s.pools := by simp [whenAon, h1, apply_ite State.pools]
@[simp] theorem whenAon_net (s : State) (a1 : State → State) (h1 : ∀ s, (a1 s).net = s.net) :
    (whenAon s a1).net = s.net := by simp [whenAon, h1, apply_ite State.net]
@[simp] theorem whenAon_err (s : State) (a1 : State → State) (h1 : ∀ s, (a1 s).err = s.err) :
    (whenAon s a1).err = s.err := by simp [whenAon, h1, apply_ite State.err]
@[simp] theorem whenAon_lbx (s : State) (a1 : State → State) (h1 : ∀ s, (a1 s).lbx = s.lbx) :
    (whenAon s a1).lbx = s.lbx := by simp [whenAon, h1, apply_ite State.lbx]
@[simp] theorem whenAon_cnt (s : State) (a1 : State → State) (h1 : ∀ s, (a1 s).cnt = s.cnt) :
    (whenAon s a1).cnt = s.cnt := by simp [whenAon, h1, apply_ite State.cnt]
@[simp] theorem whenAon_watch (s : State) (a1 : State → State) (h1 : ∀ s, (a1 s).watch = s.watch) :
    (whenAon s a1).watch = s.watch := by simp [whenAon, h1, apply_ite State.watch]
@[simp] theorem whenAon_dict (s : State) (a1 : State → State) (h1 : ∀ s, (a1 s).dict = s.dict) :
    (whenAon s a1).dict = s.dict := by simp [whenAon, h1, apply_ite State.dict]
@[simp] theorem whenAon_mbx (s : State) (a1 : State → State) (h1 : ∀ s, (a1 s).mbx = s.mbx) :
    (whenAon s a1).mbx = s.mbx := by simp [whenAon, h1, apply_ite State.mbx]
@[simp] theorem whenAon_host (s : State) (a1 : State → State) (h1 : ∀ s, (a1 s).host = s.host) :
    (whenAon s a1).host = s.host := by simp [whenAon, h1, apply_ite State.host]
@[simp] theorem whenAon_gate (s : State) (a1 : State → State) (h1 : ∀ s, (a1 s).gate = s.gate) :
    (whenAon s a1).gate = s.gate := by simp [whenAon, h1, apply_ite State.gate]
@[simp] theorem whenAon_ctxs (s : State) (a1 : State → State) (h1 : ∀ s, (a1 s).ctxs = s.ctxs) :
    (whenAon s a1).ctxs = s.ctxs := by simp [whenAon, h1, apply_ite State.ctxs]
@[simp] theorem whenAon_vault (s : State) (a1 : State → State) (h1 : ∀ s, (a1 s).vault = s.vault) :
    (whenAon s a1).vault = s.vault := by simp [whenAon, h1, apply_ite State.vault]
@[simp] theorem whenAon_cipher (s : State) (a1 : State → State) (h1 : ∀ s, (a1 s).cipher = s.cipher) :
    (whenAon s a1).cipher = s.cipher := by simp [whenAon, h1, apply_ite State.cipher]
@[simp] theorem whenAon_lc (s : State) (a1 : State → State) (h1 : ∀ s, (a1 s).lc = s.lc) :
    (whenAon s a1).lc = s.lc := by simp [whenAon, h1, apply_ite State.lc]
@[simp] theorem whenAon_dom (s : State) (a1 : State → State) (h1 : ∀ s, (a1 s).dom = s.dom) :
    (whenAon s a1).dom = s.dom := by simp [whenAon, h1, apply_ite State.dom]
@[simp] theorem whenAon_link (s : State) (a1 : State → State) (h1 : ∀ s, (a1 s).link = s.link) :
    (whenAon s a1).link = s.link := by simp [whenAon, h1, apply_ite State.link]
@[simp] theorem whenAon_alloys (s : State) (a1 : State → State) (h1 : ∀ s, (a1 s).alloys = s.alloys) :
    (whenAon s a1).alloys = s.alloys := by simp [whenAon, h1, apply_ite State.alloys]
@[simp] theorem whenAon_mem (s : State) (a1 : State → State) (h1 : ∀ s, (a1 s).mem = s.mem) :
    (whenAon s a1).mem = s.mem := by simp [whenAon, h1, apply_ite State.mem]
@[simp] theorem whenAon_tierA (s : State) (a1 : State → State) (h1 : ∀ s, (a1 s).tierA = s.tierA) :
    (whenAon s a1).tierA = s.tierA := by simp [whenAon, h1, apply_ite State.tierA]
@[simp] theorem whenAon_arb (s : State) (a1 : State → State) (h1 : ∀ s, (a1 s).arb = s.arb) :
    (whenAon s a1).arb = s.arb := by simp [whenAon, h1, apply_ite State.arb]
@[simp] theorem whenAon_time (s : State) (a1 : State → State) (h1 : ∀ s, (a1 s).time = s.time) :
    (whenAon s a1).time = s.time := by simp [whenAon, h1, apply_ite State.time]
@[simp] theorem whenAon_casts (s : State) (a1 : State → State) (h1 : ∀ s, (a1 s).casts = s.casts) :
    (whenAon s a1).casts = s.casts := by simp [whenAon, h1, apply_ite State.casts]
@[simp] theorem whenAon_boot (s : State) (a1 : State → State) (h1 : ∀ s, (a1 s).boot = s.boot) :
    (whenAon s a1).boot = s.boot := by simp [whenAon, h1, apply_ite State.boot]
@[simp] theorem whenAon_health (s : State) (a1 : State → State) (h1 : ∀ s, (a1 s).health = s.health) :
    (whenAon s a1).health = s.health := by simp [whenAon, h1, apply_ite State.health]
@[simp] theorem reportKey_pending (s : State) (a1 : KeyPath) :
    (reportKey s a1).pending = s.pending := by unfold reportKey; (repeat' split) <;> simp [apply_ite State.pending]
@[simp] theorem reportKey_free (s : State) (a1 : KeyPath) :
    (reportKey s a1).free = s.free := by unfold reportKey; (repeat' split) <;> simp [apply_ite State.free]
@[simp] theorem reportKey_out (s : State) (a1 : KeyPath) :
    (reportKey s a1).out = s.out := by unfold reportKey; (repeat' split) <;> simp [apply_ite State.out]
@[simp] theorem reportKey_pow (s : State) (a1 : KeyPath) :
    (reportKey s a1).pow = s.pow := by unfold reportKey; (repeat' split) <;> simp [apply_ite State.pow]
@[simp] theorem reportKey_pins (s : State) (a1 : KeyPath) :
    (reportKey s a1).pins = s.pins := by unfold reportKey; (repeat' split) <;> simp [apply_ite State.pins]
@[simp] theorem reportKey_cross (s : State) (a1 : KeyPath) :
    (reportKey s a1).cross = s.cross := by unfold reportKey; (repeat' split) <;> simp [apply_ite State.cross]
@[simp] theorem reportKey_pools (s : State) (a1 : KeyPath) :
    (reportKey s a1).pools = s.pools := by unfold reportKey; (repeat' split) <;> simp [apply_ite State.pools]
@[simp] theorem reportKey_net (s : State) (a1 : KeyPath) :
    (reportKey s a1).net = s.net := by unfold reportKey; (repeat' split) <;> simp [apply_ite State.net]
@[simp] theorem reportKey_err (s : State) (a1 : KeyPath) :
    (reportKey s a1).err = s.err := by unfold reportKey; (repeat' split) <;> simp [apply_ite State.err]
@[simp] theorem reportKey_lbx (s : State) (a1 : KeyPath) :
    (reportKey s a1).lbx = s.lbx := by unfold reportKey; (repeat' split) <;> simp [apply_ite State.lbx]
@[simp] theorem reportKey_cnt (s : State) (a1 : KeyPath) :
    (reportKey s a1).cnt = s.cnt := by unfold reportKey; (repeat' split) <;> simp [apply_ite State.cnt]
@[simp] theorem reportKey_watch (s : State) (a1 : KeyPath) :
    (reportKey s a1).watch = s.watch := by unfold reportKey; (repeat' split) <;> simp [apply_ite State.watch]
@[simp] theorem reportKey_dict (s : State) (a1 : KeyPath) :
    (reportKey s a1).dict = s.dict := by unfold reportKey; (repeat' split) <;> simp [apply_ite State.dict]
@[simp] theorem reportKey_mbx (s : State) (a1 : KeyPath) :
    (reportKey s a1).mbx = s.mbx := by unfold reportKey; (repeat' split) <;> simp [apply_ite State.mbx]
@[simp] theorem reportKey_host (s : State) (a1 : KeyPath) :
    (reportKey s a1).host = s.host := by unfold reportKey; (repeat' split) <;> simp [apply_ite State.host]
@[simp] theorem reportKey_gate (s : State) (a1 : KeyPath) :
    (reportKey s a1).gate = s.gate := by unfold reportKey; (repeat' split) <;> simp [apply_ite State.gate]
@[simp] theorem reportKey_ctxs (s : State) (a1 : KeyPath) :
    (reportKey s a1).ctxs = s.ctxs := by unfold reportKey; (repeat' split) <;> simp [apply_ite State.ctxs]
@[simp] theorem reportKey_cipher (s : State) (a1 : KeyPath) :
    (reportKey s a1).cipher = s.cipher := by unfold reportKey; (repeat' split) <;> simp [apply_ite State.cipher]
@[simp] theorem reportKey_lc (s : State) (a1 : KeyPath) :
    (reportKey s a1).lc = s.lc := by unfold reportKey; (repeat' split) <;> simp [apply_ite State.lc]
@[simp] theorem reportKey_dom (s : State) (a1 : KeyPath) :
    (reportKey s a1).dom = s.dom := by unfold reportKey; (repeat' split) <;> simp [apply_ite State.dom]
@[simp] theorem reportKey_link (s : State) (a1 : KeyPath) :
    (reportKey s a1).link = s.link := by unfold reportKey; (repeat' split) <;> simp [apply_ite State.link]
@[simp] theorem reportKey_alloys (s : State) (a1 : KeyPath) :
    (reportKey s a1).alloys = s.alloys := by unfold reportKey; (repeat' split) <;> simp [apply_ite State.alloys]
@[simp] theorem reportKey_mem (s : State) (a1 : KeyPath) :
    (reportKey s a1).mem = s.mem := by unfold reportKey; (repeat' split) <;> simp [apply_ite State.mem]
@[simp] theorem reportKey_tierA (s : State) (a1 : KeyPath) :
    (reportKey s a1).tierA = s.tierA := by unfold reportKey; (repeat' split) <;> simp [apply_ite State.tierA]
@[simp] theorem reportKey_arb (s : State) (a1 : KeyPath) :
    (reportKey s a1).arb = s.arb := by unfold reportKey; (repeat' split) <;> simp [apply_ite State.arb]
@[simp] theorem reportKey_time (s : State) (a1 : KeyPath) :
    (reportKey s a1).time = s.time := by unfold reportKey; (repeat' split) <;> simp [apply_ite State.time]
@[simp] theorem reportKey_casts (s : State) (a1 : KeyPath) :
    (reportKey s a1).casts = s.casts := by unfold reportKey; (repeat' split) <;> simp [apply_ite State.casts]
@[simp] theorem reportKey_boot (s : State) (a1 : KeyPath) :
    (reportKey s a1).boot = s.boot := by unfold reportKey; (repeat' split) <;> simp [apply_ite State.boot]
@[simp] theorem reportKey_health (s : State) (a1 : KeyPath) :
    (reportKey s a1).health = s.health := by unfold reportKey; (repeat' split) <;> simp [apply_ite State.health]
@[simp] theorem spendKey_pending (s : State) (a1 : KeyPath) (a2 : Nat) (a3 : Nat) :
    (spendKey s a1 a2 a3).pending = s.pending := by unfold spendKey; (repeat' split) <;> simp [apply_ite State.pending]
@[simp] theorem spendKey_free (s : State) (a1 : KeyPath) (a2 : Nat) (a3 : Nat) :
    (spendKey s a1 a2 a3).free = s.free := by unfold spendKey; (repeat' split) <;> simp [apply_ite State.free]
@[simp] theorem spendKey_out (s : State) (a1 : KeyPath) (a2 : Nat) (a3 : Nat) :
    (spendKey s a1 a2 a3).out = s.out := by unfold spendKey; (repeat' split) <;> simp [apply_ite State.out]
@[simp] theorem spendKey_pow (s : State) (a1 : KeyPath) (a2 : Nat) (a3 : Nat) :
    (spendKey s a1 a2 a3).pow = s.pow := by unfold spendKey; (repeat' split) <;> simp [apply_ite State.pow]
@[simp] theorem spendKey_pins (s : State) (a1 : KeyPath) (a2 : Nat) (a3 : Nat) :
    (spendKey s a1 a2 a3).pins = s.pins := by unfold spendKey; (repeat' split) <;> simp [apply_ite State.pins]
@[simp] theorem spendKey_cross (s : State) (a1 : KeyPath) (a2 : Nat) (a3 : Nat) :
    (spendKey s a1 a2 a3).cross = s.cross := by unfold spendKey; (repeat' split) <;> simp [apply_ite State.cross]
@[simp] theorem spendKey_pools (s : State) (a1 : KeyPath) (a2 : Nat) (a3 : Nat) :
    (spendKey s a1 a2 a3).pools = s.pools := by unfold spendKey; (repeat' split) <;> simp [apply_ite State.pools]
@[simp] theorem spendKey_net (s : State) (a1 : KeyPath) (a2 : Nat) (a3 : Nat) :
    (spendKey s a1 a2 a3).net = s.net := by unfold spendKey; (repeat' split) <;> simp [apply_ite State.net]
@[simp] theorem spendKey_err (s : State) (a1 : KeyPath) (a2 : Nat) (a3 : Nat) :
    (spendKey s a1 a2 a3).err = s.err := by unfold spendKey; (repeat' split) <;> simp [apply_ite State.err]
@[simp] theorem spendKey_lbx (s : State) (a1 : KeyPath) (a2 : Nat) (a3 : Nat) :
    (spendKey s a1 a2 a3).lbx = s.lbx := by unfold spendKey; (repeat' split) <;> simp [apply_ite State.lbx]
@[simp] theorem spendKey_cnt (s : State) (a1 : KeyPath) (a2 : Nat) (a3 : Nat) :
    (spendKey s a1 a2 a3).cnt = s.cnt := by unfold spendKey; (repeat' split) <;> simp [apply_ite State.cnt]
@[simp] theorem spendKey_watch (s : State) (a1 : KeyPath) (a2 : Nat) (a3 : Nat) :
    (spendKey s a1 a2 a3).watch = s.watch := by unfold spendKey; (repeat' split) <;> simp [apply_ite State.watch]
@[simp] theorem spendKey_dict (s : State) (a1 : KeyPath) (a2 : Nat) (a3 : Nat) :
    (spendKey s a1 a2 a3).dict = s.dict := by unfold spendKey; (repeat' split) <;> simp [apply_ite State.dict]
@[simp] theorem spendKey_mbx (s : State) (a1 : KeyPath) (a2 : Nat) (a3 : Nat) :
    (spendKey s a1 a2 a3).mbx = s.mbx := by unfold spendKey; (repeat' split) <;> simp [apply_ite State.mbx]
@[simp] theorem spendKey_host (s : State) (a1 : KeyPath) (a2 : Nat) (a3 : Nat) :
    (spendKey s a1 a2 a3).host = s.host := by unfold spendKey; (repeat' split) <;> simp [apply_ite State.host]
@[simp] theorem spendKey_gate (s : State) (a1 : KeyPath) (a2 : Nat) (a3 : Nat) :
    (spendKey s a1 a2 a3).gate = s.gate := by unfold spendKey; (repeat' split) <;> simp [apply_ite State.gate]
@[simp] theorem spendKey_ctxs (s : State) (a1 : KeyPath) (a2 : Nat) (a3 : Nat) :
    (spendKey s a1 a2 a3).ctxs = s.ctxs := by unfold spendKey; (repeat' split) <;> simp [apply_ite State.ctxs]
@[simp] theorem spendKey_cipher (s : State) (a1 : KeyPath) (a2 : Nat) (a3 : Nat) :
    (spendKey s a1 a2 a3).cipher = s.cipher := by unfold spendKey; (repeat' split) <;> simp [apply_ite State.cipher]
@[simp] theorem spendKey_lc (s : State) (a1 : KeyPath) (a2 : Nat) (a3 : Nat) :
    (spendKey s a1 a2 a3).lc = s.lc := by unfold spendKey; (repeat' split) <;> simp [apply_ite State.lc]
@[simp] theorem spendKey_dom (s : State) (a1 : KeyPath) (a2 : Nat) (a3 : Nat) :
    (spendKey s a1 a2 a3).dom = s.dom := by unfold spendKey; (repeat' split) <;> simp [apply_ite State.dom]
@[simp] theorem spendKey_link (s : State) (a1 : KeyPath) (a2 : Nat) (a3 : Nat) :
    (spendKey s a1 a2 a3).link = s.link := by unfold spendKey; (repeat' split) <;> simp [apply_ite State.link]
@[simp] theorem spendKey_alloys (s : State) (a1 : KeyPath) (a2 : Nat) (a3 : Nat) :
    (spendKey s a1 a2 a3).alloys = s.alloys := by unfold spendKey; (repeat' split) <;> simp [apply_ite State.alloys]
@[simp] theorem spendKey_mem (s : State) (a1 : KeyPath) (a2 : Nat) (a3 : Nat) :
    (spendKey s a1 a2 a3).mem = s.mem := by unfold spendKey; (repeat' split) <;> simp [apply_ite State.mem]
@[simp] theorem spendKey_tierA (s : State) (a1 : KeyPath) (a2 : Nat) (a3 : Nat) :
    (spendKey s a1 a2 a3).tierA = s.tierA := by unfold spendKey; (repeat' split) <;> simp [apply_ite State.tierA]
@[simp] theorem spendKey_arb (s : State) (a1 : KeyPath) (a2 : Nat) (a3 : Nat) :
    (spendKey s a1 a2 a3).arb = s.arb := by unfold spendKey; (repeat' split) <;> simp [apply_ite State.arb]
@[simp] theorem spendKey_time (s : State) (a1 : KeyPath) (a2 : Nat) (a3 : Nat) :
    (spendKey s a1 a2 a3).time = s.time := by unfold spendKey; (repeat' split) <;> simp [apply_ite State.time]
@[simp] theorem spendKey_casts (s : State) (a1 : KeyPath) (a2 : Nat) (a3 : Nat) :
    (spendKey s a1 a2 a3).casts = s.casts := by unfold spendKey; (repeat' split) <;> simp [apply_ite State.casts]
@[simp] theorem spendKey_boot (s : State) (a1 : KeyPath) (a2 : Nat) (a3 : Nat) :
    (spendKey s a1 a2 a3).boot = s.boot := by unfold spendKey; (repeat' split) <;> simp [apply_ite State.boot]
@[simp] theorem spendKey_health (s : State) (a1 : KeyPath) (a2 : Nat) (a3 : Nat) :
    (spendKey s a1 a2 a3).health = s.health := by unfold spendKey; (repeat' split) <;> simp [apply_ite State.health]
@[simp] theorem answer_pending (s : State) (a1 : Nat) (a2 : Nat) (a3 : Nat) (a4 : Nat) (a5 : Code) (a6 : Nat) (a7 : Bytes) :
    (answer s a1 a2 a3 a4 a5 a6 a7).pending = s.pending := by unfold answer; (repeat' split) <;> simp [apply_ite State.pending]
@[simp] theorem answer_free (s : State) (a1 : Nat) (a2 : Nat) (a3 : Nat) (a4 : Nat) (a5 : Code) (a6 : Nat) (a7 : Bytes) :
    (answer s a1 a2 a3 a4 a5 a6 a7).free = s.free := by unfold answer; (repeat' split) <;> simp [apply_ite State.free]
@[simp] theorem answer_pow (s : State) (a1 : Nat) (a2 : Nat) (a3 : Nat) (a4 : Nat) (a5 : Code) (a6 : Nat) (a7 : Bytes) :
    (answer s a1 a2 a3 a4 a5 a6 a7).pow = s.pow := by unfold answer; (repeat' split) <;> simp [apply_ite State.pow]
@[simp] theorem answer_pins (s : State) (a1 : Nat) (a2 : Nat) (a3 : Nat) (a4 : Nat) (a5 : Code) (a6 : Nat) (a7 : Bytes) :
    (answer s a1 a2 a3 a4 a5 a6 a7).pins = s.pins := by unfold answer; (repeat' split) <;> simp [apply_ite State.pins]
@[simp] theorem answer_pools (s : State) (a1 : Nat) (a2 : Nat) (a3 : Nat) (a4 : Nat) (a5 : Code) (a6 : Nat) (a7 : Bytes) :
    (answer s a1 a2 a3 a4 a5 a6 a7).pools = s.pools := by unfold answer; (repeat' split) <;> simp [apply_ite State.pools]
@[simp] theorem answer_net (s : State) (a1 : Nat) (a2 : Nat) (a3 : Nat) (a4 : Nat) (a5 : Code) (a6 : Nat) (a7 : Bytes) :
    (answer s a1 a2 a3 a4 a5 a6 a7).net = s.net := by unfold answer; (repeat' split) <;> simp [apply_ite State.net]
@[simp] theorem answer_err (s : State) (a1 : Nat) (a2 : Nat) (a3 : Nat) (a4 : Nat) (a5 : Code) (a6 : Nat) (a7 : Bytes) :
    (answer s a1 a2 a3 a4 a5 a6 a7).err = s.err := by unfold answer; (repeat' split) <;> simp [apply_ite State.err]
@[simp] theorem answer_lbx (s : State) (a1 : Nat) (a2 : Nat) (a3 : Nat) (a4 : Nat) (a5 : Code) (a6 : Nat) (a7 : Bytes) :
    (answer s a1 a2 a3 a4 a5 a6 a7).lbx = s.lbx := by unfold answer; (repeat' split) <;> simp [apply_ite State.lbx]
@[simp] theorem answer_cnt (s : State) (a1 : Nat) (a2 : Nat) (a3 : Nat) (a4 : Nat) (a5 : Code) (a6 : Nat) (a7 : Bytes) :
    (answer s a1 a2 a3 a4 a5 a6 a7).cnt = s.cnt := by unfold answer; (repeat' split) <;> simp [apply_ite State.cnt]
@[simp] theorem answer_watch (s : State) (a1 : Nat) (a2 : Nat) (a3 : Nat) (a4 : Nat) (a5 : Code) (a6 : Nat) (a7 : Bytes) :
    (answer s a1 a2 a3 a4 a5 a6 a7).watch = s.watch := by unfold answer; (repeat' split) <;> simp [apply_ite State.watch]
@[simp] theorem answer_mbx (s : State) (a1 : Nat) (a2 : Nat) (a3 : Nat) (a4 : Nat) (a5 : Code) (a6 : Nat) (a7 : Bytes) :
    (answer s a1 a2 a3 a4 a5 a6 a7).mbx = s.mbx := by unfold answer; (repeat' split) <;> simp [apply_ite State.mbx]
@[simp] theorem answer_host (s : State) (a1 : Nat) (a2 : Nat) (a3 : Nat) (a4 : Nat) (a5 : Code) (a6 : Nat) (a7 : Bytes) :
    (answer s a1 a2 a3 a4 a5 a6 a7).host = s.host := by unfold answer; (repeat' split) <;> simp [apply_ite State.host]
@[simp] theorem answer_gate (s : State) (a1 : Nat) (a2 : Nat) (a3 : Nat) (a4 : Nat) (a5 : Code) (a6 : Nat) (a7 : Bytes) :
    (answer s a1 a2 a3 a4 a5 a6 a7).gate = s.gate := by unfold answer; (repeat' split) <;> simp [apply_ite State.gate]
@[simp] theorem answer_ctxs (s : State) (a1 : Nat) (a2 : Nat) (a3 : Nat) (a4 : Nat) (a5 : Code) (a6 : Nat) (a7 : Bytes) :
    (answer s a1 a2 a3 a4 a5 a6 a7).ctxs = s.ctxs := by unfold answer; (repeat' split) <;> simp [apply_ite State.ctxs]
@[simp] theorem answer_vault (s : State) (a1 : Nat) (a2 : Nat) (a3 : Nat) (a4 : Nat) (a5 : Code) (a6 : Nat) (a7 : Bytes) :
    (answer s a1 a2 a3 a4 a5 a6 a7).vault = s.vault := by unfold answer; (repeat' split) <;> simp [apply_ite State.vault]
@[simp] theorem answer_cipher (s : State) (a1 : Nat) (a2 : Nat) (a3 : Nat) (a4 : Nat) (a5 : Code) (a6 : Nat) (a7 : Bytes) :
    (answer s a1 a2 a3 a4 a5 a6 a7).cipher = s.cipher := by unfold answer; (repeat' split) <;> simp [apply_ite State.cipher]
@[simp] theorem answer_lc (s : State) (a1 : Nat) (a2 : Nat) (a3 : Nat) (a4 : Nat) (a5 : Code) (a6 : Nat) (a7 : Bytes) :
    (answer s a1 a2 a3 a4 a5 a6 a7).lc = s.lc := by unfold answer; (repeat' split) <;> simp [apply_ite State.lc]
@[simp] theorem answer_dom (s : State) (a1 : Nat) (a2 : Nat) (a3 : Nat) (a4 : Nat) (a5 : Code) (a6 : Nat) (a7 : Bytes) :
    (answer s a1 a2 a3 a4 a5 a6 a7).dom = s.dom := by unfold answer; (repeat' split) <;> simp [apply_ite State.dom]
@[simp] theorem answer_link (s : State) (a1 : Nat) (a2 : Nat) (a3 : Nat) (a4 : Nat) (a5 : Code) (a6 : Nat) (a7 : Bytes) :
    (answer s a1 a2 a3 a4 a5 a6 a7).link = s.link := by unfold answer; (repeat' split) <;> simp [apply_ite State.link]
@[simp] theorem answer_alloys (s : State) (a1 : Nat) (a2 : Nat) (a3 : Nat) (a4 : Nat) (a5 : Code) (a6 : Nat) (a7 : Bytes) :
    (answer s a1 a2 a3 a4 a5 a6 a7).alloys = s.alloys := by unfold answer; (repeat' split) <;> simp [apply_ite State.alloys]
@[simp] theorem answer_mem (s : State) (a1 : Nat) (a2 : Nat) (a3 : Nat) (a4 : Nat) (a5 : Code) (a6 : Nat) (a7 : Bytes) :
    (answer s a1 a2 a3 a4 a5 a6 a7).mem = s.mem := by unfold answer; (repeat' split) <;> simp [apply_ite State.mem]
@[simp] theorem answer_tierA (s : State) (a1 : Nat) (a2 : Nat) (a3 : Nat) (a4 : Nat) (a5 : Code) (a6 : Nat) (a7 : Bytes) :
    (answer s a1 a2 a3 a4 a5 a6 a7).tierA = s.tierA := by unfold answer; (repeat' split) <;> simp [apply_ite State.tierA]
@[simp] theorem answer_arb (s : State) (a1 : Nat) (a2 : Nat) (a3 : Nat) (a4 : Nat) (a5 : Code) (a6 : Nat) (a7 : Bytes) :
    (answer s a1 a2 a3 a4 a5 a6 a7).arb = s.arb := by unfold answer; (repeat' split) <;> simp [apply_ite State.arb]
@[simp] theorem answer_time (s : State) (a1 : Nat) (a2 : Nat) (a3 : Nat) (a4 : Nat) (a5 : Code) (a6 : Nat) (a7 : Bytes) :
    (answer s a1 a2 a3 a4 a5 a6 a7).time = s.time := by unfold answer; (repeat' split) <;> simp [apply_ite State.time]
@[simp] theorem answer_casts (s : State) (a1 : Nat) (a2 : Nat) (a3 : Nat) (a4 : Nat) (a5 : Code) (a6 : Nat) (a7 : Bytes) :
    (answer s a1 a2 a3 a4 a5 a6 a7).casts = s.casts := by unfold answer; (repeat' split) <;> simp [apply_ite State.casts]
@[simp] theorem answer_boot (s : State) (a1 : Nat) (a2 : Nat) (a3 : Nat) (a4 : Nat) (a5 : Code) (a6 : Nat) (a7 : Bytes) :
    (answer s a1 a2 a3 a4 a5 a6 a7).boot = s.boot := by unfold answer; (repeat' split) <;> simp [apply_ite State.boot]
@[simp] theorem answer_health (s : State) (a1 : Nat) (a2 : Nat) (a3 : Nat) (a4 : Nat) (a5 : Code) (a6 : Nat) (a7 : Bytes) :
    (answer s a1 a2 a3 a4 a5 a6 a7).health = s.health := by unfold answer; (repeat' split) <;> simp [apply_ite State.health]
@[simp] theorem endUnserved_pending (s : State) : (endUnserved s).pending = s.pending := by simp [endUnserved]
@[simp] theorem endUnserved_free (s : State) : (endUnserved s).free = s.free := by simp [endUnserved]
@[simp] theorem endUnserved_pow (s : State) : (endUnserved s).pow = s.pow := by simp [endUnserved]
@[simp] theorem endUnserved_pins (s : State) : (endUnserved s).pins = s.pins := by simp [endUnserved]
@[simp] theorem endUnserved_pools (s : State) : (endUnserved s).pools = s.pools := by simp [endUnserved]
@[simp] theorem endUnserved_net (s : State) : (endUnserved s).net = s.net := by simp [endUnserved]
@[simp] theorem endUnserved_err (s : State) : (endUnserved s).err = s.err := by simp [endUnserved]
@[simp] theorem endUnserved_lbx (s : State) : (endUnserved s).lbx = s.lbx := by simp [endUnserved]
@[simp] theorem endUnserved_cnt (s : State) : (endUnserved s).cnt = s.cnt := by simp [endUnserved]
@[simp] theorem endUnserved_watch (s : State) : (endUnserved s).watch = s.watch := by simp [endUnserved]
@[simp] theorem endUnserved_mbx (s : State) : (endUnserved s).mbx = s.mbx := by simp [endUnserved]
@[simp] theorem endUnserved_host (s : State) : (endUnserved s).host = s.host := by simp [endUnserved]
@[simp] theorem endUnserved_gate (s : State) : (endUnserved s).gate = s.gate := by simp [endUnserved]
@[simp] theorem endUnserved_ctxs (s : State) : (endUnserved s).ctxs = s.ctxs := by simp [endUnserved]
@[simp] theorem endUnserved_vault (s : State) : (endUnserved s).vault = s.vault := by simp [endUnserved]
@[simp] theorem endUnserved_cipher (s : State) : (endUnserved s).cipher = s.cipher := by simp [endUnserved]
@[simp] theorem endUnserved_lc (s : State) : (endUnserved s).lc = s.lc := by simp [endUnserved]
@[simp] theorem endUnserved_dom (s : State) : (endUnserved s).dom = s.dom := by simp [endUnserved]
@[simp] theorem endUnserved_link (s : State) : (endUnserved s).link = s.link := by simp [endUnserved]
@[simp] theorem endUnserved_alloys (s : State) : (endUnserved s).alloys = s.alloys := by simp [endUnserved]
@[simp] theorem endUnserved_mem (s : State) : (endUnserved s).mem = s.mem := by simp [endUnserved]
@[simp] theorem endUnserved_tierA (s : State) : (endUnserved s).tierA = s.tierA := by simp [endUnserved]
@[simp] theorem endUnserved_arb (s : State) : (endUnserved s).arb = s.arb := by simp [endUnserved]
@[simp] theorem endUnserved_time (s : State) : (endUnserved s).time = s.time := by simp [endUnserved]
@[simp] theorem endUnserved_casts (s : State) : (endUnserved s).casts = s.casts := by simp [endUnserved]
@[simp] theorem endUnserved_boot (s : State) : (endUnserved s).boot = s.boot := by simp [endUnserved]
@[simp] theorem endUnserved_health (s : State) : (endUnserved s).health = s.health := by simp [endUnserved]
@[simp] theorem answerWrite_pending (s : State) (a1 : Nat) (a2 : Nat) (a3 : Code) :
    (answerWrite s a1 a2 a3).pending = s.pending := by simp [answerWrite]
@[simp] theorem answerWrite_free (s : State) (a1 : Nat) (a2 : Nat) (a3 : Code) :
    (answerWrite s a1 a2 a3).free = s.free := by simp [answerWrite]
@[simp] theorem answerWrite_pow (s : State) (a1 : Nat) (a2 : Nat) (a3 : Code) :
    (answerWrite s a1 a2 a3).pow = s.pow := by simp [answerWrite]
@[simp] theorem answerWrite_pins (s : State) (a1 : Nat) (a2 : Nat) (a3 : Code) :
    (answerWrite s a1 a2 a3).pins = s.pins := by simp [answerWrite]
@[simp] theorem answerWrite_pools (s : State) (a1 : Nat) (a2 : Nat) (a3 : Code) :
    (answerWrite s a1 a2 a3).pools = s.pools := by simp [answerWrite]
@[simp] theorem answerWrite_net (s : State) (a1 : Nat) (a2 : Nat) (a3 : Code) :
    (answerWrite s a1 a2 a3).net = s.net := by simp [answerWrite]
@[simp] theorem answerWrite_err (s : State) (a1 : Nat) (a2 : Nat) (a3 : Code) :
    (answerWrite s a1 a2 a3).err = s.err := by simp [answerWrite]
@[simp] theorem answerWrite_lbx (s : State) (a1 : Nat) (a2 : Nat) (a3 : Code) :
    (answerWrite s a1 a2 a3).lbx = s.lbx := by simp [answerWrite]
@[simp] theorem answerWrite_cnt (s : State) (a1 : Nat) (a2 : Nat) (a3 : Code) :
    (answerWrite s a1 a2 a3).cnt = s.cnt := by simp [answerWrite]
@[simp] theorem answerWrite_watch (s : State) (a1 : Nat) (a2 : Nat) (a3 : Code) :
    (answerWrite s a1 a2 a3).watch = s.watch := by simp [answerWrite]
@[simp] theorem answerWrite_mbx (s : State) (a1 : Nat) (a2 : Nat) (a3 : Code) :
    (answerWrite s a1 a2 a3).mbx = s.mbx := by simp [answerWrite]
@[simp] theorem answerWrite_host (s : State) (a1 : Nat) (a2 : Nat) (a3 : Code) :
    (answerWrite s a1 a2 a3).host = s.host := by simp [answerWrite]
@[simp] theorem answerWrite_gate (s : State) (a1 : Nat) (a2 : Nat) (a3 : Code) :
    (answerWrite s a1 a2 a3).gate = s.gate := by simp [answerWrite]
@[simp] theorem answerWrite_ctxs (s : State) (a1 : Nat) (a2 : Nat) (a3 : Code) :
    (answerWrite s a1 a2 a3).ctxs = s.ctxs := by simp [answerWrite]
@[simp] theorem answerWrite_vault (s : State) (a1 : Nat) (a2 : Nat) (a3 : Code) :
    (answerWrite s a1 a2 a3).vault = s.vault := by simp [answerWrite]
@[simp] theorem answerWrite_cipher (s : State) (a1 : Nat) (a2 : Nat) (a3 : Code) :
    (answerWrite s a1 a2 a3).cipher = s.cipher := by simp [answerWrite]
@[simp] theorem answerWrite_lc (s : State) (a1 : Nat) (a2 : Nat) (a3 : Code) :
    (answerWrite s a1 a2 a3).lc = s.lc := by simp [answerWrite]
@[simp] theorem answerWrite_dom (s : State) (a1 : Nat) (a2 : Nat) (a3 : Code) :
    (answerWrite s a1 a2 a3).dom = s.dom := by simp [answerWrite]
@[simp] theorem answerWrite_link (s : State) (a1 : Nat) (a2 : Nat) (a3 : Code) :
    (answerWrite s a1 a2 a3).link = s.link := by simp [answerWrite]
@[simp] theorem answerWrite_alloys (s : State) (a1 : Nat) (a2 : Nat) (a3 : Code) :
    (answerWrite s a1 a2 a3).alloys = s.alloys := by simp [answerWrite]
@[simp] theorem answerWrite_mem (s : State) (a1 : Nat) (a2 : Nat) (a3 : Code) :
    (answerWrite s a1 a2 a3).mem = s.mem := by simp [answerWrite]
@[simp] theorem answerWrite_tierA (s : State) (a1 : Nat) (a2 : Nat) (a3 : Code) :
    (answerWrite s a1 a2 a3).tierA = s.tierA := by simp [answerWrite]
@[simp] theorem answerWrite_arb (s : State) (a1 : Nat) (a2 : Nat) (a3 : Code) :
    (answerWrite s a1 a2 a3).arb = s.arb := by simp [answerWrite]
@[simp] theorem answerWrite_time (s : State) (a1 : Nat) (a2 : Nat) (a3 : Code) :
    (answerWrite s a1 a2 a3).time = s.time := by simp [answerWrite]
@[simp] theorem answerWrite_casts (s : State) (a1 : Nat) (a2 : Nat) (a3 : Code) :
    (answerWrite s a1 a2 a3).casts = s.casts := by simp [answerWrite]
@[simp] theorem answerWrite_boot (s : State) (a1 : Nat) (a2 : Nat) (a3 : Code) :
    (answerWrite s a1 a2 a3).boot = s.boot := by simp [answerWrite]
@[simp] theorem answerWrite_health (s : State) (a1 : Nat) (a2 : Nat) (a3 : Code) :
    (answerWrite s a1 a2 a3).health = s.health := by simp [answerWrite]
@[simp] theorem foldRec_pending (s : State) (a1 : LbxRec) :
    (foldRec s a1).pending = s.pending := by unfold foldRec; dsimp only; (repeat' split) <;> simp [apply_ite State.pending]
@[simp] theorem foldRec_free (s : State) (a1 : LbxRec) :
    (foldRec s a1).free = s.free := by unfold foldRec; dsimp only; (repeat' split) <;> simp [apply_ite State.free]
@[simp] theorem foldRec_out (s : State) (a1 : LbxRec) :
    (foldRec s a1).out = s.out := by unfold foldRec; dsimp only; (repeat' split) <;> simp [apply_ite State.out]
@[simp] theorem foldRec_pow (s : State) (a1 : LbxRec) :
    (foldRec s a1).pow = s.pow := by unfold foldRec; dsimp only; (repeat' split) <;> simp [apply_ite State.pow]
@[simp] theorem foldRec_pins (s : State) (a1 : LbxRec) :
    (foldRec s a1).pins = s.pins := by unfold foldRec; dsimp only; (repeat' split) <;> simp [apply_ite State.pins]
@[simp] theorem foldRec_cross (s : State) (a1 : LbxRec) :
    (foldRec s a1).cross = s.cross := by unfold foldRec; dsimp only; (repeat' split) <;> simp [apply_ite State.cross]
@[simp] theorem foldRec_pools (s : State) (a1 : LbxRec) :
    (foldRec s a1).pools = s.pools := by unfold foldRec; dsimp only; (repeat' split) <;> simp [apply_ite State.pools]
@[simp] theorem foldRec_net (s : State) (a1 : LbxRec) :
    (foldRec s a1).net = s.net := by unfold foldRec; dsimp only; (repeat' split) <;> simp [apply_ite State.net]
@[simp] theorem foldRec_err (s : State) (a1 : LbxRec) :
    (foldRec s a1).err = s.err := by unfold foldRec; dsimp only; (repeat' split) <;> simp [apply_ite State.err]
@[simp] theorem foldRec_cnt (s : State) (a1 : LbxRec) :
    (foldRec s a1).cnt = s.cnt := by unfold foldRec; dsimp only; (repeat' split) <;> simp [apply_ite State.cnt]
@[simp] theorem foldRec_watch (s : State) (a1 : LbxRec) :
    (foldRec s a1).watch = s.watch := by unfold foldRec; dsimp only; (repeat' split) <;> simp [apply_ite State.watch]
@[simp] theorem foldRec_dict (s : State) (a1 : LbxRec) :
    (foldRec s a1).dict = s.dict := by unfold foldRec; dsimp only; (repeat' split) <;> simp [apply_ite State.dict]
@[simp] theorem foldRec_mbx (s : State) (a1 : LbxRec) :
    (foldRec s a1).mbx = s.mbx := by unfold foldRec; dsimp only; (repeat' split) <;> simp [apply_ite State.mbx]
@[simp] theorem foldRec_host (s : State) (a1 : LbxRec) :
    (foldRec s a1).host = s.host := by unfold foldRec; dsimp only; (repeat' split) <;> simp [apply_ite State.host]
@[simp] theorem foldRec_gate (s : State) (a1 : LbxRec) :
    (foldRec s a1).gate = s.gate := by unfold foldRec; dsimp only; (repeat' split) <;> simp [apply_ite State.gate]
@[simp] theorem foldRec_ctxs (s : State) (a1 : LbxRec) :
    (foldRec s a1).ctxs = s.ctxs := by unfold foldRec; dsimp only; (repeat' split) <;> simp [apply_ite State.ctxs]
@[simp] theorem foldRec_vault (s : State) (a1 : LbxRec) :
    (foldRec s a1).vault = s.vault := by unfold foldRec; dsimp only; (repeat' split) <;> simp [apply_ite State.vault]
@[simp] theorem foldRec_cipher (s : State) (a1 : LbxRec) :
    (foldRec s a1).cipher = s.cipher := by unfold foldRec; dsimp only; (repeat' split) <;> simp [apply_ite State.cipher]
@[simp] theorem foldRec_lc (s : State) (a1 : LbxRec) :
    (foldRec s a1).lc = s.lc := by unfold foldRec; dsimp only; (repeat' split) <;> simp [apply_ite State.lc]
@[simp] theorem foldRec_dom (s : State) (a1 : LbxRec) :
    (foldRec s a1).dom = s.dom := by unfold foldRec; dsimp only; (repeat' split) <;> simp [apply_ite State.dom]
@[simp] theorem foldRec_link (s : State) (a1 : LbxRec) :
    (foldRec s a1).link = s.link := by unfold foldRec; dsimp only; (repeat' split) <;> simp [apply_ite State.link]
@[simp] theorem foldRec_alloys (s : State) (a1 : LbxRec) :
    (foldRec s a1).alloys = s.alloys := by unfold foldRec; dsimp only; (repeat' split) <;> simp [apply_ite State.alloys]
@[simp] theorem foldRec_mem (s : State) (a1 : LbxRec) :
    (foldRec s a1).mem = s.mem := by unfold foldRec; dsimp only; (repeat' split) <;> simp [apply_ite State.mem]
@[simp] theorem foldRec_tierA (s : State) (a1 : LbxRec) :
    (foldRec s a1).tierA = s.tierA := by unfold foldRec; dsimp only; (repeat' split) <;> simp [apply_ite State.tierA]
@[simp] theorem foldRec_arb (s : State) (a1 : LbxRec) :
    (foldRec s a1).arb = s.arb := by unfold foldRec; dsimp only; (repeat' split) <;> simp [apply_ite State.arb]
@[simp] theorem foldRec_time (s : State) (a1 : LbxRec) :
    (foldRec s a1).time = s.time := by unfold foldRec; dsimp only; (repeat' split) <;> simp [apply_ite State.time]
@[simp] theorem foldRec_casts (s : State) (a1 : LbxRec) :
    (foldRec s a1).casts = s.casts := by unfold foldRec; dsimp only; (repeat' split) <;> simp [apply_ite State.casts]
@[simp] theorem foldRec_boot (s : State) (a1 : LbxRec) :
    (foldRec s a1).boot = s.boot := by unfold foldRec; dsimp only; (repeat' split) <;> simp [apply_ite State.boot]
@[simp] theorem foldRec_health (s : State) (a1 : LbxRec) :
    (foldRec s a1).health = s.health := by unfold foldRec; dsimp only; (repeat' split) <;> simp [apply_ite State.health]
@[simp] theorem putRec_pending (s : State) (a1 : LbxRec) :
    (putRec s a1).pending = s.pending := by simp [putRec, apply_ite State.pending]
@[simp] theorem putRec_free (s : State) (a1 : LbxRec) : (putRec s a1).free = s.free := by simp [putRec, apply_ite State.free]
@[simp] theorem putRec_out (s : State) (a1 : LbxRec) : (putRec s a1).out = s.out := by simp [putRec, apply_ite State.out]
@[simp] theorem putRec_pow (s : State) (a1 : LbxRec) : (putRec s a1).pow = s.pow := by simp [putRec, apply_ite State.pow]
@[simp] theorem putRec_pins (s : State) (a1 : LbxRec) : (putRec s a1).pins = s.pins := by simp [putRec, apply_ite State.pins]
@[simp] theorem putRec_cross (s : State) (a1 : LbxRec) :
    (putRec s a1).cross = s.cross := by simp [putRec, apply_ite State.cross]
@[simp] theorem putRec_pools (s : State) (a1 : LbxRec) :
    (putRec s a1).pools = s.pools := by simp [putRec, apply_ite State.pools]
@[simp] theorem putRec_net (s : State) (a1 : LbxRec) : (putRec s a1).net = s.net := by simp [putRec, apply_ite State.net]
@[simp] theorem putRec_cnt (s : State) (a1 : LbxRec) : (putRec s a1).cnt = s.cnt := by simp [putRec, apply_ite State.cnt]
@[simp] theorem putRec_watch (s : State) (a1 : LbxRec) :
    (putRec s a1).watch = s.watch := by simp [putRec, apply_ite State.watch]
@[simp] theorem putRec_dict (s : State) (a1 : LbxRec) : (putRec s a1).dict = s.dict := by simp [putRec, apply_ite State.dict]
@[simp] theorem putRec_mbx (s : State) (a1 : LbxRec) : (putRec s a1).mbx = s.mbx := by simp [putRec, apply_ite State.mbx]
@[simp] theorem putRec_host (s : State) (a1 : LbxRec) : (putRec s a1).host = s.host := by simp [putRec, apply_ite State.host]
@[simp] theorem putRec_gate (s : State) (a1 : LbxRec) : (putRec s a1).gate = s.gate := by simp [putRec, apply_ite State.gate]
@[simp] theorem putRec_ctxs (s : State) (a1 : LbxRec) : (putRec s a1).ctxs = s.ctxs := by simp [putRec, apply_ite State.ctxs]
@[simp] theorem putRec_vault (s : State) (a1 : LbxRec) :
    (putRec s a1).vault = s.vault := by simp [putRec, apply_ite State.vault]
@[simp] theorem putRec_cipher (s : State) (a1 : LbxRec) :
    (putRec s a1).cipher = s.cipher := by simp [putRec, apply_ite State.cipher]
@[simp] theorem putRec_lc (s : State) (a1 : LbxRec) : (putRec s a1).lc = s.lc := by simp [putRec, apply_ite State.lc]
@[simp] theorem putRec_dom (s : State) (a1 : LbxRec) : (putRec s a1).dom = s.dom := by simp [putRec, apply_ite State.dom]
@[simp] theorem putRec_link (s : State) (a1 : LbxRec) : (putRec s a1).link = s.link := by simp [putRec, apply_ite State.link]
@[simp] theorem putRec_alloys (s : State) (a1 : LbxRec) :
    (putRec s a1).alloys = s.alloys := by simp [putRec, apply_ite State.alloys]
@[simp] theorem putRec_mem (s : State) (a1 : LbxRec) : (putRec s a1).mem = s.mem := by simp [putRec, apply_ite State.mem]
@[simp] theorem putRec_tierA (s : State) (a1 : LbxRec) :
    (putRec s a1).tierA = s.tierA := by simp [putRec, apply_ite State.tierA]
@[simp] theorem putRec_arb (s : State) (a1 : LbxRec) : (putRec s a1).arb = s.arb := by simp [putRec, apply_ite State.arb]
@[simp] theorem putRec_time (s : State) (a1 : LbxRec) : (putRec s a1).time = s.time := by simp [putRec, apply_ite State.time]
@[simp] theorem putRec_casts (s : State) (a1 : LbxRec) :
    (putRec s a1).casts = s.casts := by simp [putRec, apply_ite State.casts]
@[simp] theorem putRec_boot (s : State) (a1 : LbxRec) : (putRec s a1).boot = s.boot := by simp [putRec, apply_ite State.boot]
@[simp] theorem putRec_health (s : State) (a1 : LbxRec) :
    (putRec s a1).health = s.health := by simp [putRec, apply_ite State.health]
@[simp] theorem record_pending (s : State) (a1 : Nat) (a2 : Nat) (a3 : Nat) (a4 : Bytes) :
    (record s a1 a2 a3 a4).pending = s.pending := by simp [record]
@[simp] theorem record_free (s : State) (a1 : Nat) (a2 : Nat) (a3 : Nat) (a4 : Bytes) :
    (record s a1 a2 a3 a4).free = s.free := by simp [record]
@[simp] theorem record_out (s : State) (a1 : Nat) (a2 : Nat) (a3 : Nat) (a4 : Bytes) :
    (record s a1 a2 a3 a4).out = s.out := by simp [record]
@[simp] theorem record_pow (s : State) (a1 : Nat) (a2 : Nat) (a3 : Nat) (a4 : Bytes) :
    (record s a1 a2 a3 a4).pow = s.pow := by simp [record]
@[simp] theorem record_pins (s : State) (a1 : Nat) (a2 : Nat) (a3 : Nat) (a4 : Bytes) :
    (record s a1 a2 a3 a4).pins = s.pins := by simp [record]
@[simp] theorem record_cross (s : State) (a1 : Nat) (a2 : Nat) (a3 : Nat) (a4 : Bytes) :
    (record s a1 a2 a3 a4).cross = s.cross := by simp [record]
@[simp] theorem record_pools (s : State) (a1 : Nat) (a2 : Nat) (a3 : Nat) (a4 : Bytes) :
    (record s a1 a2 a3 a4).pools = s.pools := by simp [record]
@[simp] theorem record_net (s : State) (a1 : Nat) (a2 : Nat) (a3 : Nat) (a4 : Bytes) :
    (record s a1 a2 a3 a4).net = s.net := by simp [record]
@[simp] theorem record_cnt (s : State) (a1 : Nat) (a2 : Nat) (a3 : Nat) (a4 : Bytes) :
    (record s a1 a2 a3 a4).cnt = s.cnt := by simp [record]
@[simp] theorem record_watch (s : State) (a1 : Nat) (a2 : Nat) (a3 : Nat) (a4 : Bytes) :
    (record s a1 a2 a3 a4).watch = s.watch := by simp [record]
@[simp] theorem record_dict (s : State) (a1 : Nat) (a2 : Nat) (a3 : Nat) (a4 : Bytes) :
    (record s a1 a2 a3 a4).dict = s.dict := by simp [record]
@[simp] theorem record_mbx (s : State) (a1 : Nat) (a2 : Nat) (a3 : Nat) (a4 : Bytes) :
    (record s a1 a2 a3 a4).mbx = s.mbx := by simp [record]
@[simp] theorem record_host (s : State) (a1 : Nat) (a2 : Nat) (a3 : Nat) (a4 : Bytes) :
    (record s a1 a2 a3 a4).host = s.host := by simp [record]
@[simp] theorem record_gate (s : State) (a1 : Nat) (a2 : Nat) (a3 : Nat) (a4 : Bytes) :
    (record s a1 a2 a3 a4).gate = s.gate := by simp [record]
@[simp] theorem record_ctxs (s : State) (a1 : Nat) (a2 : Nat) (a3 : Nat) (a4 : Bytes) :
    (record s a1 a2 a3 a4).ctxs = s.ctxs := by simp [record]
@[simp] theorem record_vault (s : State) (a1 : Nat) (a2 : Nat) (a3 : Nat) (a4 : Bytes) :
    (record s a1 a2 a3 a4).vault = s.vault := by simp [record]
@[simp] theorem record_cipher (s : State) (a1 : Nat) (a2 : Nat) (a3 : Nat) (a4 : Bytes) :
    (record s a1 a2 a3 a4).cipher = s.cipher := by simp [record]
@[simp] theorem record_lc (s : State) (a1 : Nat) (a2 : Nat) (a3 : Nat) (a4 : Bytes) :
    (record s a1 a2 a3 a4).lc = s.lc := by simp [record]
@[simp] theorem record_dom (s : State) (a1 : Nat) (a2 : Nat) (a3 : Nat) (a4 : Bytes) :
    (record s a1 a2 a3 a4).dom = s.dom := by simp [record]
@[simp] theorem record_link (s : State) (a1 : Nat) (a2 : Nat) (a3 : Nat) (a4 : Bytes) :
    (record s a1 a2 a3 a4).link = s.link := by simp [record]
@[simp] theorem record_alloys (s : State) (a1 : Nat) (a2 : Nat) (a3 : Nat) (a4 : Bytes) :
    (record s a1 a2 a3 a4).alloys = s.alloys := by simp [record]
@[simp] theorem record_mem (s : State) (a1 : Nat) (a2 : Nat) (a3 : Nat) (a4 : Bytes) :
    (record s a1 a2 a3 a4).mem = s.mem := by simp [record]
@[simp] theorem record_tierA (s : State) (a1 : Nat) (a2 : Nat) (a3 : Nat) (a4 : Bytes) :
    (record s a1 a2 a3 a4).tierA = s.tierA := by simp [record]
@[simp] theorem record_arb (s : State) (a1 : Nat) (a2 : Nat) (a3 : Nat) (a4 : Bytes) :
    (record s a1 a2 a3 a4).arb = s.arb := by simp [record]
@[simp] theorem record_time (s : State) (a1 : Nat) (a2 : Nat) (a3 : Nat) (a4 : Bytes) :
    (record s a1 a2 a3 a4).time = s.time := by simp [record]
@[simp] theorem record_casts (s : State) (a1 : Nat) (a2 : Nat) (a3 : Nat) (a4 : Bytes) :
    (record s a1 a2 a3 a4).casts = s.casts := by simp [record]
@[simp] theorem record_boot (s : State) (a1 : Nat) (a2 : Nat) (a3 : Nat) (a4 : Bytes) :
    (record s a1 a2 a3 a4).boot = s.boot := by simp [record]
@[simp] theorem record_health (s : State) (a1 : Nat) (a2 : Nat) (a3 : Nat) (a4 : Bytes) :
    (record s a1 a2 a3 a4).health = s.health := by simp [record]
@[simp] theorem closeBank_pending (s : State) (a1 : Nat) (a2 : Nat) (a3 : Bool) :
    (closeBank s a1 a2 a3).pending = s.pending := by unfold closeBank; (repeat' split) <;> simp [apply_ite State.pending]
@[simp] theorem closeBank_free (s : State) (a1 : Nat) (a2 : Nat) (a3 : Bool) :
    (closeBank s a1 a2 a3).free = s.free := by unfold closeBank; (repeat' split) <;> simp [apply_ite State.free]
@[simp] theorem closeBank_out (s : State) (a1 : Nat) (a2 : Nat) (a3 : Bool) :
    (closeBank s a1 a2 a3).out = s.out := by unfold closeBank; (repeat' split) <;> simp [apply_ite State.out]
@[simp] theorem closeBank_pow (s : State) (a1 : Nat) (a2 : Nat) (a3 : Bool) :
    (closeBank s a1 a2 a3).pow = s.pow := by unfold closeBank; (repeat' split) <;> simp [apply_ite State.pow]
@[simp] theorem closeBank_pins (s : State) (a1 : Nat) (a2 : Nat) (a3 : Bool) :
    (closeBank s a1 a2 a3).pins = s.pins := by unfold closeBank; (repeat' split) <;> simp [apply_ite State.pins]
@[simp] theorem closeBank_cross (s : State) (a1 : Nat) (a2 : Nat) (a3 : Bool) :
    (closeBank s a1 a2 a3).cross = s.cross := by unfold closeBank; (repeat' split) <;> simp [apply_ite State.cross]
@[simp] theorem closeBank_pools (s : State) (a1 : Nat) (a2 : Nat) (a3 : Bool) :
    (closeBank s a1 a2 a3).pools = s.pools := by unfold closeBank; (repeat' split) <;> simp [apply_ite State.pools]
@[simp] theorem closeBank_net (s : State) (a1 : Nat) (a2 : Nat) (a3 : Bool) :
    (closeBank s a1 a2 a3).net = s.net := by unfold closeBank; (repeat' split) <;> simp [apply_ite State.net]
@[simp] theorem closeBank_cnt (s : State) (a1 : Nat) (a2 : Nat) (a3 : Bool) :
    (closeBank s a1 a2 a3).cnt = s.cnt := by unfold closeBank; (repeat' split) <;> simp [apply_ite State.cnt]
@[simp] theorem closeBank_watch (s : State) (a1 : Nat) (a2 : Nat) (a3 : Bool) :
    (closeBank s a1 a2 a3).watch = s.watch := by unfold closeBank; (repeat' split) <;> simp [apply_ite State.watch]
@[simp] theorem closeBank_dict (s : State) (a1 : Nat) (a2 : Nat) (a3 : Bool) :
    (closeBank s a1 a2 a3).dict = s.dict := by unfold closeBank; (repeat' split) <;> simp [apply_ite State.dict]
@[simp] theorem closeBank_mbx (s : State) (a1 : Nat) (a2 : Nat) (a3 : Bool) :
    (closeBank s a1 a2 a3).mbx = s.mbx := by unfold closeBank; (repeat' split) <;> simp [apply_ite State.mbx]
@[simp] theorem closeBank_host (s : State) (a1 : Nat) (a2 : Nat) (a3 : Bool) :
    (closeBank s a1 a2 a3).host = s.host := by unfold closeBank; (repeat' split) <;> simp [apply_ite State.host]
@[simp] theorem closeBank_gate (s : State) (a1 : Nat) (a2 : Nat) (a3 : Bool) :
    (closeBank s a1 a2 a3).gate = s.gate := by unfold closeBank; (repeat' split) <;> simp [apply_ite State.gate]
@[simp] theorem closeBank_ctxs (s : State) (a1 : Nat) (a2 : Nat) (a3 : Bool) :
    (closeBank s a1 a2 a3).ctxs = s.ctxs := by unfold closeBank; (repeat' split) <;> simp [apply_ite State.ctxs]
@[simp] theorem closeBank_vault (s : State) (a1 : Nat) (a2 : Nat) (a3 : Bool) :
    (closeBank s a1 a2 a3).vault = s.vault := by unfold closeBank; (repeat' split) <;> simp [apply_ite State.vault]
@[simp] theorem closeBank_cipher (s : State) (a1 : Nat) (a2 : Nat) (a3 : Bool) :
    (closeBank s a1 a2 a3).cipher = s.cipher := by unfold closeBank; (repeat' split) <;> simp [apply_ite State.cipher]
@[simp] theorem closeBank_lc (s : State) (a1 : Nat) (a2 : Nat) (a3 : Bool) :
    (closeBank s a1 a2 a3).lc = s.lc := by unfold closeBank; (repeat' split) <;> simp [apply_ite State.lc]
@[simp] theorem closeBank_dom (s : State) (a1 : Nat) (a2 : Nat) (a3 : Bool) :
    (closeBank s a1 a2 a3).dom = s.dom := by unfold closeBank; (repeat' split) <;> simp [apply_ite State.dom]
@[simp] theorem closeBank_link (s : State) (a1 : Nat) (a2 : Nat) (a3 : Bool) :
    (closeBank s a1 a2 a3).link = s.link := by unfold closeBank; (repeat' split) <;> simp [apply_ite State.link]
@[simp] theorem closeBank_alloys (s : State) (a1 : Nat) (a2 : Nat) (a3 : Bool) :
    (closeBank s a1 a2 a3).alloys = s.alloys := by unfold closeBank; (repeat' split) <;> simp [apply_ite State.alloys]
@[simp] theorem closeBank_mem (s : State) (a1 : Nat) (a2 : Nat) (a3 : Bool) :
    (closeBank s a1 a2 a3).mem = s.mem := by unfold closeBank; (repeat' split) <;> simp [apply_ite State.mem]
@[simp] theorem closeBank_tierA (s : State) (a1 : Nat) (a2 : Nat) (a3 : Bool) :
    (closeBank s a1 a2 a3).tierA = s.tierA := by unfold closeBank; (repeat' split) <;> simp [apply_ite State.tierA]
@[simp] theorem closeBank_arb (s : State) (a1 : Nat) (a2 : Nat) (a3 : Bool) :
    (closeBank s a1 a2 a3).arb = s.arb := by unfold closeBank; (repeat' split) <;> simp [apply_ite State.arb]
@[simp] theorem closeBank_time (s : State) (a1 : Nat) (a2 : Nat) (a3 : Bool) :
    (closeBank s a1 a2 a3).time = s.time := by unfold closeBank; (repeat' split) <;> simp [apply_ite State.time]
@[simp] theorem closeBank_casts (s : State) (a1 : Nat) (a2 : Nat) (a3 : Bool) :
    (closeBank s a1 a2 a3).casts = s.casts := by unfold closeBank; (repeat' split) <;> simp [apply_ite State.casts]
@[simp] theorem closeBank_boot (s : State) (a1 : Nat) (a2 : Nat) (a3 : Bool) :
    (closeBank s a1 a2 a3).boot = s.boot := by unfold closeBank; (repeat' split) <;> simp [apply_ite State.boot]
@[simp] theorem closeBank_health (s : State) (a1 : Nat) (a2 : Nat) (a3 : Bool) :
    (closeBank s a1 a2 a3).health = s.health := by unfold closeBank; (repeat' split) <;> simp [apply_ite State.health]
@[simp] theorem bankTake_pending (s : State) (a1 : ErrIn) :
    (bankTake s a1).1.pending = s.pending := by unfold bankTake; dsimp only; (repeat' split) <;> simp [apply_ite State.pending]
@[simp] theorem bankTake_free (s : State) (a1 : ErrIn) :
    (bankTake s a1).1.free = s.free := by unfold bankTake; dsimp only; (repeat' split) <;> simp [apply_ite State.free]
@[simp] theorem bankTake_out (s : State) (a1 : ErrIn) :
    (bankTake s a1).1.out = s.out := by unfold bankTake; dsimp only; (repeat' split) <;> simp [apply_ite State.out]
@[simp] theorem bankTake_pow (s : State) (a1 : ErrIn) :
    (bankTake s a1).1.pow = s.pow := by unfold bankTake; dsimp only; (repeat' split) <;> simp [apply_ite State.pow]
@[simp] theorem bankTake_pins (s : State) (a1 : ErrIn) :
    (bankTake s a1).1.pins = s.pins := by unfold bankTake; dsimp only; (repeat' split) <;> simp [apply_ite State.pins]
@[simp] theorem bankTake_cross (s : State) (a1 : ErrIn) :
    (bankTake s a1).1.cross = s.cross := by unfold bankTake; dsimp only; (repeat' split) <;> simp [apply_ite State.cross]
@[simp] theorem bankTake_pools (s : State) (a1 : ErrIn) :
    (bankTake s a1).1.pools = s.pools := by unfold bankTake; dsimp only; (repeat' split) <;> simp [apply_ite State.pools]
@[simp] theorem bankTake_net (s : State) (a1 : ErrIn) :
    (bankTake s a1).1.net = s.net := by unfold bankTake; dsimp only; (repeat' split) <;> simp [apply_ite State.net]
@[simp] theorem bankTake_watch (s : State) (a1 : ErrIn) :
    (bankTake s a1).1.watch = s.watch := by unfold bankTake; dsimp only; (repeat' split) <;> simp [apply_ite State.watch]
@[simp] theorem bankTake_dict (s : State) (a1 : ErrIn) :
    (bankTake s a1).1.dict = s.dict := by unfold bankTake; dsimp only; (repeat' split) <;> simp [apply_ite State.dict]
@[simp] theorem bankTake_mbx (s : State) (a1 : ErrIn) :
    (bankTake s a1).1.mbx = s.mbx := by unfold bankTake; dsimp only; (repeat' split) <;> simp [apply_ite State.mbx]
@[simp] theorem bankTake_host (s : State) (a1 : ErrIn) :
    (bankTake s a1).1.host = s.host := by unfold bankTake; dsimp only; (repeat' split) <;> simp [apply_ite State.host]
@[simp] theorem bankTake_gate (s : State) (a1 : ErrIn) :
    (bankTake s a1).1.gate = s.gate := by unfold bankTake; dsimp only; (repeat' split) <;> simp [apply_ite State.gate]
@[simp] theorem bankTake_ctxs (s : State) (a1 : ErrIn) :
    (bankTake s a1).1.ctxs = s.ctxs := by unfold bankTake; dsimp only; (repeat' split) <;> simp [apply_ite State.ctxs]
@[simp] theorem bankTake_vault (s : State) (a1 : ErrIn) :
    (bankTake s a1).1.vault = s.vault := by unfold bankTake; dsimp only; (repeat' split) <;> simp [apply_ite State.vault]
@[simp] theorem bankTake_cipher (s : State) (a1 : ErrIn) :
    (bankTake s a1).1.cipher = s.cipher := by unfold bankTake; dsimp only; (repeat' split) <;> simp [apply_ite State.cipher]
@[simp] theorem bankTake_lc (s : State) (a1 : ErrIn) :
    (bankTake s a1).1.lc = s.lc := by unfold bankTake; dsimp only; (repeat' split) <;> simp [apply_ite State.lc]
@[simp] theorem bankTake_dom (s : State) (a1 : ErrIn) :
    (bankTake s a1).1.dom = s.dom := by unfold bankTake; dsimp only; (repeat' split) <;> simp [apply_ite State.dom]
@[simp] theorem bankTake_link (s : State) (a1 : ErrIn) :
    (bankTake s a1).1.link = s.link := by unfold bankTake; dsimp only; (repeat' split) <;> simp [apply_ite State.link]
@[simp] theorem bankTake_alloys (s : State) (a1 : ErrIn) :
    (bankTake s a1).1.alloys = s.alloys := by unfold bankTake; dsimp only; (repeat' split) <;> simp [apply_ite State.alloys]
@[simp] theorem bankTake_mem (s : State) (a1 : ErrIn) :
    (bankTake s a1).1.mem = s.mem := by unfold bankTake; dsimp only; (repeat' split) <;> simp [apply_ite State.mem]
@[simp] theorem bankTake_tierA (s : State) (a1 : ErrIn) :
    (bankTake s a1).1.tierA = s.tierA := by unfold bankTake; dsimp only; (repeat' split) <;> simp [apply_ite State.tierA]
@[simp] theorem bankTake_arb (s : State) (a1 : ErrIn) :
    (bankTake s a1).1.arb = s.arb := by unfold bankTake; dsimp only; (repeat' split) <;> simp [apply_ite State.arb]
@[simp] theorem bankTake_time (s : State) (a1 : ErrIn) :
    (bankTake s a1).1.time = s.time := by unfold bankTake; dsimp only; (repeat' split) <;> simp [apply_ite State.time]
@[simp] theorem bankTake_casts (s : State) (a1 : ErrIn) :
    (bankTake s a1).1.casts = s.casts := by unfold bankTake; dsimp only; (repeat' split) <;> simp [apply_ite State.casts]
@[simp] theorem bankTake_boot (s : State) (a1 : ErrIn) :
    (bankTake s a1).1.boot = s.boot := by unfold bankTake; dsimp only; (repeat' split) <;> simp [apply_ite State.boot]
@[simp] theorem bankTake_health (s : State) (a1 : ErrIn) :
    (bankTake s a1).1.health = s.health := by unfold bankTake; dsimp only; (repeat' split) <;> simp [apply_ite State.health]
@[simp] theorem openBank_pending (s : State) (a1 : ErrIn) (a2 : Nat) : (openBank s a1 a2).pending = s.pending := id rfl
@[simp] theorem openBank_free (s : State) (a1 : ErrIn) (a2 : Nat) : (openBank s a1 a2).free = s.free := id rfl
@[simp] theorem openBank_out (s : State) (a1 : ErrIn) (a2 : Nat) : (openBank s a1 a2).out = s.out := id rfl
@[simp] theorem openBank_pow (s : State) (a1 : ErrIn) (a2 : Nat) : (openBank s a1 a2).pow = s.pow := id rfl
@[simp] theorem openBank_pins (s : State) (a1 : ErrIn) (a2 : Nat) : (openBank s a1 a2).pins = s.pins := id rfl
@[simp] theorem openBank_cross (s : State) (a1 : ErrIn) (a2 : Nat) : (openBank s a1 a2).cross = s.cross := id rfl
@[simp] theorem openBank_pools (s : State) (a1 : ErrIn) (a2 : Nat) : (openBank s a1 a2).pools = s.pools := id rfl
@[simp] theorem openBank_net (s : State) (a1 : ErrIn) (a2 : Nat) : (openBank s a1 a2).net = s.net := id rfl
@[simp] theorem openBank_lbx (s : State) (a1 : ErrIn) (a2 : Nat) : (openBank s a1 a2).lbx = s.lbx := id rfl
@[simp] theorem openBank_cnt (s : State) (a1 : ErrIn) (a2 : Nat) : (openBank s a1 a2).cnt = s.cnt := id rfl
@[simp] theorem openBank_watch (s : State) (a1 : ErrIn) (a2 : Nat) : (openBank s a1 a2).watch = s.watch := id rfl
@[simp] theorem openBank_dict (s : State) (a1 : ErrIn) (a2 : Nat) : (openBank s a1 a2).dict = s.dict := id rfl
@[simp] theorem openBank_mbx (s : State) (a1 : ErrIn) (a2 : Nat) : (openBank s a1 a2).mbx = s.mbx := id rfl
@[simp] theorem openBank_host (s : State) (a1 : ErrIn) (a2 : Nat) : (openBank s a1 a2).host = s.host := id rfl
@[simp] theorem openBank_gate (s : State) (a1 : ErrIn) (a2 : Nat) : (openBank s a1 a2).gate = s.gate := id rfl
@[simp] theorem openBank_ctxs (s : State) (a1 : ErrIn) (a2 : Nat) : (openBank s a1 a2).ctxs = s.ctxs := id rfl
@[simp] theorem openBank_vault (s : State) (a1 : ErrIn) (a2 : Nat) : (openBank s a1 a2).vault = s.vault := id rfl
@[simp] theorem openBank_cipher (s : State) (a1 : ErrIn) (a2 : Nat) : (openBank s a1 a2).cipher = s.cipher := id rfl
@[simp] theorem openBank_lc (s : State) (a1 : ErrIn) (a2 : Nat) : (openBank s a1 a2).lc = s.lc := id rfl
@[simp] theorem openBank_dom (s : State) (a1 : ErrIn) (a2 : Nat) : (openBank s a1 a2).dom = s.dom := id rfl
@[simp] theorem openBank_link (s : State) (a1 : ErrIn) (a2 : Nat) : (openBank s a1 a2).link = s.link := id rfl
@[simp] theorem openBank_alloys (s : State) (a1 : ErrIn) (a2 : Nat) : (openBank s a1 a2).alloys = s.alloys := id rfl
@[simp] theorem openBank_mem (s : State) (a1 : ErrIn) (a2 : Nat) : (openBank s a1 a2).mem = s.mem := id rfl
@[simp] theorem openBank_tierA (s : State) (a1 : ErrIn) (a2 : Nat) : (openBank s a1 a2).tierA = s.tierA := id rfl
@[simp] theorem openBank_arb (s : State) (a1 : ErrIn) (a2 : Nat) : (openBank s a1 a2).arb = s.arb := id rfl
@[simp] theorem openBank_time (s : State) (a1 : ErrIn) (a2 : Nat) : (openBank s a1 a2).time = s.time := id rfl
@[simp] theorem openBank_casts (s : State) (a1 : ErrIn) (a2 : Nat) : (openBank s a1 a2).casts = s.casts := id rfl
@[simp] theorem openBank_boot (s : State) (a1 : ErrIn) (a2 : Nat) : (openBank s a1 a2).boot = s.boot := id rfl
@[simp] theorem openBank_health (s : State) (a1 : ErrIn) (a2 : Nat) : (openBank s a1 a2).health = s.health := id rfl
@[simp] theorem hubNote_pending (s : State) (a1 : Nat) :
    (hubNote s a1).pending = s.pending := by simp [hubNote, apply_ite State.pending]
@[simp] theorem hubNote_free (s : State) (a1 : Nat) : (hubNote s a1).free = s.free := by simp [hubNote, apply_ite State.free]
@[simp] theorem hubNote_out (s : State) (a1 : Nat) : (hubNote s a1).out = s.out := by simp [hubNote, apply_ite State.out]
@[simp] theorem hubNote_pow (s : State) (a1 : Nat) : (hubNote s a1).pow = s.pow := by simp [hubNote, apply_ite State.pow]
@[simp] theorem hubNote_pins (s : State) (a1 : Nat) : (hubNote s a1).pins = s.pins := by simp [hubNote, apply_ite State.pins]
@[simp] theorem hubNote_cross (s : State) (a1 : Nat) :
    (hubNote s a1).cross = s.cross := by simp [hubNote, apply_ite State.cross]
@[simp] theorem hubNote_pools (s : State) (a1 : Nat) :
    (hubNote s a1).pools = s.pools := by simp [hubNote, apply_ite State.pools]
@[simp] theorem hubNote_lbx (s : State) (a1 : Nat) : (hubNote s a1).lbx = s.lbx := by simp [hubNote, apply_ite State.lbx]
@[simp] theorem hubNote_cnt (s : State) (a1 : Nat) : (hubNote s a1).cnt = s.cnt := by simp [hubNote, apply_ite State.cnt]
@[simp] theorem hubNote_watch (s : State) (a1 : Nat) :
    (hubNote s a1).watch = s.watch := by simp [hubNote, apply_ite State.watch]
@[simp] theorem hubNote_dict (s : State) (a1 : Nat) : (hubNote s a1).dict = s.dict := by simp [hubNote, apply_ite State.dict]
@[simp] theorem hubNote_mbx (s : State) (a1 : Nat) : (hubNote s a1).mbx = s.mbx := by simp [hubNote, apply_ite State.mbx]
@[simp] theorem hubNote_host (s : State) (a1 : Nat) : (hubNote s a1).host = s.host := by simp [hubNote, apply_ite State.host]
@[simp] theorem hubNote_gate (s : State) (a1 : Nat) : (hubNote s a1).gate = s.gate := by simp [hubNote, apply_ite State.gate]
@[simp] theorem hubNote_ctxs (s : State) (a1 : Nat) : (hubNote s a1).ctxs = s.ctxs := by simp [hubNote, apply_ite State.ctxs]
@[simp] theorem hubNote_vault (s : State) (a1 : Nat) :
    (hubNote s a1).vault = s.vault := by simp [hubNote, apply_ite State.vault]
@[simp] theorem hubNote_cipher (s : State) (a1 : Nat) :
    (hubNote s a1).cipher = s.cipher := by simp [hubNote, apply_ite State.cipher]
@[simp] theorem hubNote_lc (s : State) (a1 : Nat) : (hubNote s a1).lc = s.lc := by simp [hubNote, apply_ite State.lc]
@[simp] theorem hubNote_dom (s : State) (a1 : Nat) : (hubNote s a1).dom = s.dom := by simp [hubNote, apply_ite State.dom]
@[simp] theorem hubNote_link (s : State) (a1 : Nat) : (hubNote s a1).link = s.link := by simp [hubNote, apply_ite State.link]
@[simp] theorem hubNote_alloys (s : State) (a1 : Nat) :
    (hubNote s a1).alloys = s.alloys := by simp [hubNote, apply_ite State.alloys]
@[simp] theorem hubNote_mem (s : State) (a1 : Nat) : (hubNote s a1).mem = s.mem := by simp [hubNote, apply_ite State.mem]
@[simp] theorem hubNote_tierA (s : State) (a1 : Nat) :
    (hubNote s a1).tierA = s.tierA := by simp [hubNote, apply_ite State.tierA]
@[simp] theorem hubNote_arb (s : State) (a1 : Nat) : (hubNote s a1).arb = s.arb := by simp [hubNote, apply_ite State.arb]
@[simp] theorem hubNote_time (s : State) (a1 : Nat) : (hubNote s a1).time = s.time := by simp [hubNote, apply_ite State.time]
@[simp] theorem hubNote_casts (s : State) (a1 : Nat) :
    (hubNote s a1).casts = s.casts := by simp [hubNote, apply_ite State.casts]
@[simp] theorem hubNote_boot (s : State) (a1 : Nat) : (hubNote s a1).boot = s.boot := by simp [hubNote, apply_ite State.boot]
@[simp] theorem hubNote_health (s : State) (a1 : Nat) :
    (hubNote s a1).health = s.health := by simp [hubNote, apply_ite State.health]
@[simp] theorem latch_pending (s : State) (a1 : ErrIn) :
    (latch s a1).pending = s.pending := by simp [latch, apply_ite State.pending]
@[simp] theorem latch_free (s : State) (a1 : ErrIn) : (latch s a1).free = s.free := by simp [latch, apply_ite State.free]
@[simp] theorem latch_out (s : State) (a1 : ErrIn) : (latch s a1).out = s.out := by simp [latch, apply_ite State.out]
@[simp] theorem latch_pow (s : State) (a1 : ErrIn) : (latch s a1).pow = s.pow := by simp [latch, apply_ite State.pow]
@[simp] theorem latch_pins (s : State) (a1 : ErrIn) : (latch s a1).pins = s.pins := by simp [latch, apply_ite State.pins]
@[simp] theorem latch_cross (s : State) (a1 : ErrIn) : (latch s a1).cross = s.cross := by simp [latch, apply_ite State.cross]
@[simp] theorem latch_pools (s : State) (a1 : ErrIn) : (latch s a1).pools = s.pools := by simp [latch, apply_ite State.pools]
@[simp] theorem latch_watch (s : State) (a1 : ErrIn) : (latch s a1).watch = s.watch := by simp [latch, apply_ite State.watch]
@[simp] theorem latch_dict (s : State) (a1 : ErrIn) : (latch s a1).dict = s.dict := by simp [latch, apply_ite State.dict]
@[simp] theorem latch_mbx (s : State) (a1 : ErrIn) : (latch s a1).mbx = s.mbx := by simp [latch, apply_ite State.mbx]
@[simp] theorem latch_host (s : State) (a1 : ErrIn) : (latch s a1).host = s.host := by simp [latch, apply_ite State.host]
@[simp] theorem latch_gate (s : State) (a1 : ErrIn) : (latch s a1).gate = s.gate := by simp [latch, apply_ite State.gate]
@[simp] theorem latch_ctxs (s : State) (a1 : ErrIn) : (latch s a1).ctxs = s.ctxs := by simp [latch, apply_ite State.ctxs]
@[simp] theorem latch_vault (s : State) (a1 : ErrIn) : (latch s a1).vault = s.vault := by simp [latch, apply_ite State.vault]
@[simp] theorem latch_cipher (s : State) (a1 : ErrIn) :
    (latch s a1).cipher = s.cipher := by simp [latch, apply_ite State.cipher]
@[simp] theorem latch_lc (s : State) (a1 : ErrIn) : (latch s a1).lc = s.lc := by simp [latch, apply_ite State.lc]
@[simp] theorem latch_dom (s : State) (a1 : ErrIn) : (latch s a1).dom = s.dom := by simp [latch, apply_ite State.dom]
@[simp] theorem latch_link (s : State) (a1 : ErrIn) : (latch s a1).link = s.link := by simp [latch, apply_ite State.link]
@[simp] theorem latch_alloys (s : State) (a1 : ErrIn) :
    (latch s a1).alloys = s.alloys := by simp [latch, apply_ite State.alloys]
@[simp] theorem latch_mem (s : State) (a1 : ErrIn) : (latch s a1).mem = s.mem := by simp [latch, apply_ite State.mem]
@[simp] theorem latch_tierA (s : State) (a1 : ErrIn) : (latch s a1).tierA = s.tierA := by simp [latch, apply_ite State.tierA]
@[simp] theorem latch_arb (s : State) (a1 : ErrIn) : (latch s a1).arb = s.arb := by simp [latch, apply_ite State.arb]
@[simp] theorem latch_time (s : State) (a1 : ErrIn) : (latch s a1).time = s.time := by simp [latch, apply_ite State.time]
@[simp] theorem latch_casts (s : State) (a1 : ErrIn) : (latch s a1).casts = s.casts := by simp [latch, apply_ite State.casts]
@[simp] theorem latch_boot (s : State) (a1 : ErrIn) : (latch s a1).boot = s.boot := by simp [latch, apply_ite State.boot]
@[simp] theorem latch_health (s : State) (a1 : ErrIn) :
    (latch s a1).health = s.health := by simp [latch, apply_ite State.health]
@[simp] theorem notice_pending (s : State) (a1 : Nat) (a2 : Nat) (a3 : Nat) (a4 : Nat) :
    (notice s a1 a2 a3 a4).pending = s.pending := by simp [notice]
@[simp] theorem notice_free (s : State) (a1 : Nat) (a2 : Nat) (a3 : Nat) (a4 : Nat) :
    (notice s a1 a2 a3 a4).free = s.free := by simp [notice]
@[simp] theorem notice_out (s : State) (a1 : Nat) (a2 : Nat) (a3 : Nat) (a4 : Nat) :
    (notice s a1 a2 a3 a4).out = s.out := by simp [notice]
@[simp] theorem notice_pow (s : State) (a1 : Nat) (a2 : Nat) (a3 : Nat) (a4 : Nat) :
    (notice s a1 a2 a3 a4).pow = s.pow := by simp [notice]
@[simp] theorem notice_pins (s : State) (a1 : Nat) (a2 : Nat) (a3 : Nat) (a4 : Nat) :
    (notice s a1 a2 a3 a4).pins = s.pins := by simp [notice]
@[simp] theorem notice_cross (s : State) (a1 : Nat) (a2 : Nat) (a3 : Nat) (a4 : Nat) :
    (notice s a1 a2 a3 a4).cross = s.cross := by simp [notice]
@[simp] theorem notice_pools (s : State) (a1 : Nat) (a2 : Nat) (a3 : Nat) (a4 : Nat) :
    (notice s a1 a2 a3 a4).pools = s.pools := by simp [notice]
@[simp] theorem notice_watch (s : State) (a1 : Nat) (a2 : Nat) (a3 : Nat) (a4 : Nat) :
    (notice s a1 a2 a3 a4).watch = s.watch := by simp [notice]
@[simp] theorem notice_dict (s : State) (a1 : Nat) (a2 : Nat) (a3 : Nat) (a4 : Nat) :
    (notice s a1 a2 a3 a4).dict = s.dict := by simp [notice]
@[simp] theorem notice_mbx (s : State) (a1 : Nat) (a2 : Nat) (a3 : Nat) (a4 : Nat) :
    (notice s a1 a2 a3 a4).mbx = s.mbx := by simp [notice]
@[simp] theorem notice_host (s : State) (a1 : Nat) (a2 : Nat) (a3 : Nat) (a4 : Nat) :
    (notice s a1 a2 a3 a4).host = s.host := by simp [notice]
@[simp] theorem notice_gate (s : State) (a1 : Nat) (a2 : Nat) (a3 : Nat) (a4 : Nat) :
    (notice s a1 a2 a3 a4).gate = s.gate := by simp [notice]
@[simp] theorem notice_ctxs (s : State) (a1 : Nat) (a2 : Nat) (a3 : Nat) (a4 : Nat) :
    (notice s a1 a2 a3 a4).ctxs = s.ctxs := by simp [notice]
@[simp] theorem notice_vault (s : State) (a1 : Nat) (a2 : Nat) (a3 : Nat) (a4 : Nat) :
    (notice s a1 a2 a3 a4).vault = s.vault := by simp [notice]
@[simp] theorem notice_cipher (s : State) (a1 : Nat) (a2 : Nat) (a3 : Nat) (a4 : Nat) :
    (notice s a1 a2 a3 a4).cipher = s.cipher := by simp [notice]
@[simp] theorem notice_lc (s : State) (a1 : Nat) (a2 : Nat) (a3 : Nat) (a4 : Nat) :
    (notice s a1 a2 a3 a4).lc = s.lc := by simp [notice]
@[simp] theorem notice_dom (s : State) (a1 : Nat) (a2 : Nat) (a3 : Nat) (a4 : Nat) :
    (notice s a1 a2 a3 a4).dom = s.dom := by simp [notice]
@[simp] theorem notice_link (s : State) (a1 : Nat) (a2 : Nat) (a3 : Nat) (a4 : Nat) :
    (notice s a1 a2 a3 a4).link = s.link := by simp [notice]
@[simp] theorem notice_alloys (s : State) (a1 : Nat) (a2 : Nat) (a3 : Nat) (a4 : Nat) :
    (notice s a1 a2 a3 a4).alloys = s.alloys := by simp [notice]
@[simp] theorem notice_mem (s : State) (a1 : Nat) (a2 : Nat) (a3 : Nat) (a4 : Nat) :
    (notice s a1 a2 a3 a4).mem = s.mem := by simp [notice]
@[simp] theorem notice_tierA (s : State) (a1 : Nat) (a2 : Nat) (a3 : Nat) (a4 : Nat) :
    (notice s a1 a2 a3 a4).tierA = s.tierA := by simp [notice]
@[simp] theorem notice_arb (s : State) (a1 : Nat) (a2 : Nat) (a3 : Nat) (a4 : Nat) :
    (notice s a1 a2 a3 a4).arb = s.arb := by simp [notice]
@[simp] theorem notice_time (s : State) (a1 : Nat) (a2 : Nat) (a3 : Nat) (a4 : Nat) :
    (notice s a1 a2 a3 a4).time = s.time := by simp [notice]
@[simp] theorem notice_casts (s : State) (a1 : Nat) (a2 : Nat) (a3 : Nat) (a4 : Nat) :
    (notice s a1 a2 a3 a4).casts = s.casts := by simp [notice]
@[simp] theorem notice_boot (s : State) (a1 : Nat) (a2 : Nat) (a3 : Nat) (a4 : Nat) :
    (notice s a1 a2 a3 a4).boot = s.boot := by simp [notice]
@[simp] theorem notice_health (s : State) (a1 : Nat) (a2 : Nat) (a3 : Nat) (a4 : Nat) :
    (notice s a1 a2 a3 a4).health = s.health := by simp [notice]
@[simp] theorem msix_pending (s : State) (a1 : Nat) : (msix s a1).pending = s.pending := by simp [msix, apply_ite State.pending]
@[simp] theorem msix_free (s : State) (a1 : Nat) : (msix s a1).free = s.free := by simp [msix, apply_ite State.free]
@[simp] theorem msix_pow (s : State) (a1 : Nat) : (msix s a1).pow = s.pow := by simp [msix, apply_ite State.pow]
@[simp] theorem msix_pins (s : State) (a1 : Nat) : (msix s a1).pins = s.pins := by simp [msix, apply_ite State.pins]
@[simp] theorem msix_pools (s : State) (a1 : Nat) : (msix s a1).pools = s.pools := by simp [msix, apply_ite State.pools]
@[simp] theorem msix_net (s : State) (a1 : Nat) : (msix s a1).net = s.net := by simp [msix, apply_ite State.net]
@[simp] theorem msix_err (s : State) (a1 : Nat) : (msix s a1).err = s.err := by simp [msix, apply_ite State.err]
@[simp] theorem msix_lbx (s : State) (a1 : Nat) : (msix s a1).lbx = s.lbx := by simp [msix, apply_ite State.lbx]
@[simp] theorem msix_cnt (s : State) (a1 : Nat) : (msix s a1).cnt = s.cnt := by simp [msix, apply_ite State.cnt]
@[simp] theorem msix_watch (s : State) (a1 : Nat) : (msix s a1).watch = s.watch := by simp [msix, apply_ite State.watch]
@[simp] theorem msix_dict (s : State) (a1 : Nat) : (msix s a1).dict = s.dict := by simp [msix, apply_ite State.dict]
@[simp] theorem msix_mbx (s : State) (a1 : Nat) : (msix s a1).mbx = s.mbx := by simp [msix, apply_ite State.mbx]
@[simp] theorem msix_gate (s : State) (a1 : Nat) : (msix s a1).gate = s.gate := by simp [msix, apply_ite State.gate]
@[simp] theorem msix_ctxs (s : State) (a1 : Nat) : (msix s a1).ctxs = s.ctxs := by simp [msix, apply_ite State.ctxs]
@[simp] theorem msix_vault (s : State) (a1 : Nat) : (msix s a1).vault = s.vault := by simp [msix, apply_ite State.vault]
@[simp] theorem msix_cipher (s : State) (a1 : Nat) : (msix s a1).cipher = s.cipher := by simp [msix, apply_ite State.cipher]
@[simp] theorem msix_lc (s : State) (a1 : Nat) : (msix s a1).lc = s.lc := by simp [msix, apply_ite State.lc]
@[simp] theorem msix_dom (s : State) (a1 : Nat) : (msix s a1).dom = s.dom := by simp [msix, apply_ite State.dom]
@[simp] theorem msix_link (s : State) (a1 : Nat) : (msix s a1).link = s.link := by simp [msix, apply_ite State.link]
@[simp] theorem msix_alloys (s : State) (a1 : Nat) : (msix s a1).alloys = s.alloys := by simp [msix, apply_ite State.alloys]
@[simp] theorem msix_mem (s : State) (a1 : Nat) : (msix s a1).mem = s.mem := by simp [msix, apply_ite State.mem]
@[simp] theorem msix_tierA (s : State) (a1 : Nat) : (msix s a1).tierA = s.tierA := by simp [msix, apply_ite State.tierA]
@[simp] theorem msix_arb (s : State) (a1 : Nat) : (msix s a1).arb = s.arb := by simp [msix, apply_ite State.arb]
@[simp] theorem msix_time (s : State) (a1 : Nat) : (msix s a1).time = s.time := by simp [msix, apply_ite State.time]
@[simp] theorem msix_casts (s : State) (a1 : Nat) : (msix s a1).casts = s.casts := by simp [msix, apply_ite State.casts]
@[simp] theorem msix_boot (s : State) (a1 : Nat) : (msix s a1).boot = s.boot := by simp [msix, apply_ite State.boot]
@[simp] theorem msix_health (s : State) (a1 : Nat) : (msix s a1).health = s.health := by simp [msix, apply_ite State.health]
@[simp] theorem postEvent_pending (s : State) (a1 : Nat) (a2 : Nat) (a3 : Nat) :
    (postEvent s a1 a2 a3).pending = s.pending := by simp [postEvent, apply_ite State.pending]
@[simp] theorem postEvent_pow (s : State) (a1 : Nat) (a2 : Nat) (a3 : Nat) :
    (postEvent s a1 a2 a3).pow = s.pow := by simp [postEvent, apply_ite State.pow]
@[simp] theorem postEvent_pins (s : State) (a1 : Nat) (a2 : Nat) (a3 : Nat) :
    (postEvent s a1 a2 a3).pins = s.pins := by simp [postEvent, apply_ite State.pins]
@[simp] theorem postEvent_pools (s : State) (a1 : Nat) (a2 : Nat) (a3 : Nat) :
    (postEvent s a1 a2 a3).pools = s.pools := by simp [postEvent, apply_ite State.pools]
@[simp] theorem postEvent_net (s : State) (a1 : Nat) (a2 : Nat) (a3 : Nat) :
    (postEvent s a1 a2 a3).net = s.net := by simp [postEvent, apply_ite State.net]
@[simp] theorem postEvent_err (s : State) (a1 : Nat) (a2 : Nat) (a3 : Nat) :
    (postEvent s a1 a2 a3).err = s.err := by simp [postEvent, apply_ite State.err]
@[simp] theorem postEvent_lbx (s : State) (a1 : Nat) (a2 : Nat) (a3 : Nat) :
    (postEvent s a1 a2 a3).lbx = s.lbx := by simp [postEvent, apply_ite State.lbx]
@[simp] theorem postEvent_cnt (s : State) (a1 : Nat) (a2 : Nat) (a3 : Nat) :
    (postEvent s a1 a2 a3).cnt = s.cnt := by simp [postEvent, apply_ite State.cnt]
@[simp] theorem postEvent_watch (s : State) (a1 : Nat) (a2 : Nat) (a3 : Nat) :
    (postEvent s a1 a2 a3).watch = s.watch := by simp [postEvent, apply_ite State.watch]
@[simp] theorem postEvent_dict (s : State) (a1 : Nat) (a2 : Nat) (a3 : Nat) :
    (postEvent s a1 a2 a3).dict = s.dict := by simp [postEvent, apply_ite State.dict]
@[simp] theorem postEvent_gate (s : State) (a1 : Nat) (a2 : Nat) (a3 : Nat) :
    (postEvent s a1 a2 a3).gate = s.gate := by simp [postEvent, apply_ite State.gate]
@[simp] theorem postEvent_ctxs (s : State) (a1 : Nat) (a2 : Nat) (a3 : Nat) :
    (postEvent s a1 a2 a3).ctxs = s.ctxs := by simp [postEvent, apply_ite State.ctxs]
@[simp] theorem postEvent_vault (s : State) (a1 : Nat) (a2 : Nat) (a3 : Nat) :
    (postEvent s a1 a2 a3).vault = s.vault := by simp [postEvent, apply_ite State.vault]
@[simp] theorem postEvent_cipher (s : State) (a1 : Nat) (a2 : Nat) (a3 : Nat) :
    (postEvent s a1 a2 a3).cipher = s.cipher := by simp [postEvent, apply_ite State.cipher]
@[simp] theorem postEvent_lc (s : State) (a1 : Nat) (a2 : Nat) (a3 : Nat) :
    (postEvent s a1 a2 a3).lc = s.lc := by simp [postEvent, apply_ite State.lc]
@[simp] theorem postEvent_dom (s : State) (a1 : Nat) (a2 : Nat) (a3 : Nat) :
    (postEvent s a1 a2 a3).dom = s.dom := by simp [postEvent, apply_ite State.dom]
@[simp] theorem postEvent_link (s : State) (a1 : Nat) (a2 : Nat) (a3 : Nat) :
    (postEvent s a1 a2 a3).link = s.link := by simp [postEvent, apply_ite State.link]
@[simp] theorem postEvent_alloys (s : State) (a1 : Nat) (a2 : Nat) (a3 : Nat) :
    (postEvent s a1 a2 a3).alloys = s.alloys := by simp [postEvent, apply_ite State.alloys]
@[simp] theorem postEvent_mem (s : State) (a1 : Nat) (a2 : Nat) (a3 : Nat) :
    (postEvent s a1 a2 a3).mem = s.mem := by simp [postEvent, apply_ite State.mem]
@[simp] theorem postEvent_tierA (s : State) (a1 : Nat) (a2 : Nat) (a3 : Nat) :
    (postEvent s a1 a2 a3).tierA = s.tierA := by simp [postEvent, apply_ite State.tierA]
@[simp] theorem postEvent_arb (s : State) (a1 : Nat) (a2 : Nat) (a3 : Nat) :
    (postEvent s a1 a2 a3).arb = s.arb := by simp [postEvent, apply_ite State.arb]
@[simp] theorem postEvent_time (s : State) (a1 : Nat) (a2 : Nat) (a3 : Nat) :
    (postEvent s a1 a2 a3).time = s.time := by simp [postEvent, apply_ite State.time]
@[simp] theorem postEvent_casts (s : State) (a1 : Nat) (a2 : Nat) (a3 : Nat) :
    (postEvent s a1 a2 a3).casts = s.casts := by simp [postEvent, apply_ite State.casts]
@[simp] theorem postEvent_boot (s : State) (a1 : Nat) (a2 : Nat) (a3 : Nat) :
    (postEvent s a1 a2 a3).boot = s.boot := by simp [postEvent, apply_ite State.boot]
@[simp] theorem postEvent_health (s : State) (a1 : Nat) (a2 : Nat) (a3 : Nat) :
    (postEvent s a1 a2 a3).health = s.health := by simp [postEvent, apply_ite State.health]
@[simp] theorem postAll_pending (s : State) (a1 : Nat) (a2 : Nat) : (postAll s a1 a2).pending = s.pending := by simp [postAll]
@[simp] theorem postAll_pow (s : State) (a1 : Nat) (a2 : Nat) : (postAll s a1 a2).pow = s.pow := by simp [postAll]
@[simp] theorem postAll_pins (s : State) (a1 : Nat) (a2 : Nat) : (postAll s a1 a2).pins = s.pins := by simp [postAll]
@[simp] theorem postAll_pools (s : State) (a1 : Nat) (a2 : Nat) : (postAll s a1 a2).pools = s.pools := by simp [postAll]
@[simp] theorem postAll_net (s : State) (a1 : Nat) (a2 : Nat) : (postAll s a1 a2).net = s.net := by simp [postAll]
@[simp] theorem postAll_err (s : State) (a1 : Nat) (a2 : Nat) : (postAll s a1 a2).err = s.err := by simp [postAll]
@[simp] theorem postAll_lbx (s : State) (a1 : Nat) (a2 : Nat) : (postAll s a1 a2).lbx = s.lbx := by simp [postAll]
@[simp] theorem postAll_cnt (s : State) (a1 : Nat) (a2 : Nat) : (postAll s a1 a2).cnt = s.cnt := by simp [postAll]
@[simp] theorem postAll_watch (s : State) (a1 : Nat) (a2 : Nat) : (postAll s a1 a2).watch = s.watch := by simp [postAll]
@[simp] theorem postAll_dict (s : State) (a1 : Nat) (a2 : Nat) : (postAll s a1 a2).dict = s.dict := by simp [postAll]
@[simp] theorem postAll_gate (s : State) (a1 : Nat) (a2 : Nat) : (postAll s a1 a2).gate = s.gate := by simp [postAll]
@[simp] theorem postAll_ctxs (s : State) (a1 : Nat) (a2 : Nat) : (postAll s a1 a2).ctxs = s.ctxs := by simp [postAll]
@[simp] theorem postAll_vault (s : State) (a1 : Nat) (a2 : Nat) : (postAll s a1 a2).vault = s.vault := by simp [postAll]
@[simp] theorem postAll_cipher (s : State) (a1 : Nat) (a2 : Nat) : (postAll s a1 a2).cipher = s.cipher := by simp [postAll]
@[simp] theorem postAll_lc (s : State) (a1 : Nat) (a2 : Nat) : (postAll s a1 a2).lc = s.lc := by simp [postAll]
@[simp] theorem postAll_dom (s : State) (a1 : Nat) (a2 : Nat) : (postAll s a1 a2).dom = s.dom := by simp [postAll]
@[simp] theorem postAll_link (s : State) (a1 : Nat) (a2 : Nat) : (postAll s a1 a2).link = s.link := by simp [postAll]
@[simp] theorem postAll_alloys (s : State) (a1 : Nat) (a2 : Nat) : (postAll s a1 a2).alloys = s.alloys := by simp [postAll]
@[simp] theorem postAll_mem (s : State) (a1 : Nat) (a2 : Nat) : (postAll s a1 a2).mem = s.mem := by simp [postAll]
@[simp] theorem postAll_tierA (s : State) (a1 : Nat) (a2 : Nat) : (postAll s a1 a2).tierA = s.tierA := by simp [postAll]
@[simp] theorem postAll_arb (s : State) (a1 : Nat) (a2 : Nat) : (postAll s a1 a2).arb = s.arb := by simp [postAll]
@[simp] theorem postAll_time (s : State) (a1 : Nat) (a2 : Nat) : (postAll s a1 a2).time = s.time := by simp [postAll]
@[simp] theorem postAll_casts (s : State) (a1 : Nat) (a2 : Nat) : (postAll s a1 a2).casts = s.casts := by simp [postAll]
@[simp] theorem postAll_boot (s : State) (a1 : Nat) (a2 : Nat) : (postAll s a1 a2).boot = s.boot := by simp [postAll]
@[simp] theorem postAll_health (s : State) (a1 : Nat) (a2 : Nat) : (postAll s a1 a2).health = s.health := by simp [postAll]
@[simp] theorem quietS0_pending (s : State) (a1 : Nat) : (quietS0 s a1).pending = s.pending := id rfl
@[simp] theorem quietS0_free (s : State) (a1 : Nat) : (quietS0 s a1).free = s.free := id rfl
@[simp] theorem quietS0_out (s : State) (a1 : Nat) : (quietS0 s a1).out = s.out := id rfl
@[simp] theorem quietS0_pow (s : State) (a1 : Nat) : (quietS0 s a1).pow = s.pow := id rfl
@[simp] theorem quietS0_pins (s : State) (a1 : Nat) : (quietS0 s a1).pins = s.pins := id rfl
@[simp] theorem quietS0_cross (s : State) (a1 : Nat) : (quietS0 s a1).cross = s.cross := id rfl
@[simp] theorem quietS0_pools (s : State) (a1 : Nat) : (quietS0 s a1).pools = s.pools := id rfl
@[simp] theorem quietS0_net (s : State) (a1 : Nat) : (quietS0 s a1).net = s.net := id rfl
@[simp] theorem quietS0_lbx (s : State) (a1 : Nat) : (quietS0 s a1).lbx = s.lbx := id rfl
@[simp] theorem quietS0_watch (s : State) (a1 : Nat) : (quietS0 s a1).watch = s.watch := id rfl
@[simp] theorem quietS0_dict (s : State) (a1 : Nat) : (quietS0 s a1).dict = s.dict := id rfl
@[simp] theorem quietS0_mbx (s : State) (a1 : Nat) : (quietS0 s a1).mbx = s.mbx := id rfl
@[simp] theorem quietS0_host (s : State) (a1 : Nat) : (quietS0 s a1).host = s.host := id rfl
@[simp] theorem quietS0_gate (s : State) (a1 : Nat) : (quietS0 s a1).gate = s.gate := id rfl
@[simp] theorem quietS0_ctxs (s : State) (a1 : Nat) : (quietS0 s a1).ctxs = s.ctxs := id rfl
@[simp] theorem quietS0_vault (s : State) (a1 : Nat) : (quietS0 s a1).vault = s.vault := id rfl
@[simp] theorem quietS0_cipher (s : State) (a1 : Nat) : (quietS0 s a1).cipher = s.cipher := id rfl
@[simp] theorem quietS0_lc (s : State) (a1 : Nat) : (quietS0 s a1).lc = s.lc := id rfl
@[simp] theorem quietS0_dom (s : State) (a1 : Nat) : (quietS0 s a1).dom = s.dom := id rfl
@[simp] theorem quietS0_link (s : State) (a1 : Nat) : (quietS0 s a1).link = s.link := id rfl
@[simp] theorem quietS0_alloys (s : State) (a1 : Nat) : (quietS0 s a1).alloys = s.alloys := id rfl
@[simp] theorem quietS0_mem (s : State) (a1 : Nat) : (quietS0 s a1).mem = s.mem := id rfl
@[simp] theorem quietS0_tierA (s : State) (a1 : Nat) : (quietS0 s a1).tierA = s.tierA := id rfl
@[simp] theorem quietS0_arb (s : State) (a1 : Nat) : (quietS0 s a1).arb = s.arb := id rfl
@[simp] theorem quietS0_time (s : State) (a1 : Nat) : (quietS0 s a1).time = s.time := id rfl
@[simp] theorem quietS0_casts (s : State) (a1 : Nat) : (quietS0 s a1).casts = s.casts := id rfl
@[simp] theorem quietS0_boot (s : State) (a1 : Nat) : (quietS0 s a1).boot = s.boot := id rfl
@[simp] theorem quietS0_health (s : State) (a1 : Nat) : (quietS0 s a1).health = s.health := id rfl
@[simp] theorem genDiscard_pending (s : State) (a1 : Nat) : (genDiscard s a1).pending = s.pending := by simp [genDiscard]
@[simp] theorem genDiscard_free (s : State) (a1 : Nat) : (genDiscard s a1).free = s.free := by simp [genDiscard]
@[simp] theorem genDiscard_out (s : State) (a1 : Nat) : (genDiscard s a1).out = s.out := by simp [genDiscard]
@[simp] theorem genDiscard_pow (s : State) (a1 : Nat) : (genDiscard s a1).pow = s.pow := by simp [genDiscard]
@[simp] theorem genDiscard_pins (s : State) (a1 : Nat) : (genDiscard s a1).pins = s.pins := by simp [genDiscard]
@[simp] theorem genDiscard_cross (s : State) (a1 : Nat) : (genDiscard s a1).cross = s.cross := by simp [genDiscard]
@[simp] theorem genDiscard_pools (s : State) (a1 : Nat) : (genDiscard s a1).pools = s.pools := by simp [genDiscard]
@[simp] theorem genDiscard_net (s : State) (a1 : Nat) : (genDiscard s a1).net = s.net := by simp [genDiscard]
@[simp] theorem genDiscard_lbx (s : State) (a1 : Nat) : (genDiscard s a1).lbx = s.lbx := by simp [genDiscard]
@[simp] theorem genDiscard_watch (s : State) (a1 : Nat) : (genDiscard s a1).watch = s.watch := by simp [genDiscard]
@[simp] theorem genDiscard_dict (s : State) (a1 : Nat) : (genDiscard s a1).dict = s.dict := by simp [genDiscard]
@[simp] theorem genDiscard_mbx (s : State) (a1 : Nat) : (genDiscard s a1).mbx = s.mbx := by simp [genDiscard]
@[simp] theorem genDiscard_host (s : State) (a1 : Nat) : (genDiscard s a1).host = s.host := by simp [genDiscard]
@[simp] theorem genDiscard_gate (s : State) (a1 : Nat) : (genDiscard s a1).gate = s.gate := by simp [genDiscard]
@[simp] theorem genDiscard_vault (s : State) (a1 : Nat) : (genDiscard s a1).vault = s.vault := by simp [genDiscard]
@[simp] theorem genDiscard_cipher (s : State) (a1 : Nat) : (genDiscard s a1).cipher = s.cipher := by simp [genDiscard]
@[simp] theorem genDiscard_lc (s : State) (a1 : Nat) : (genDiscard s a1).lc = s.lc := by simp [genDiscard]
@[simp] theorem genDiscard_dom (s : State) (a1 : Nat) : (genDiscard s a1).dom = s.dom := by simp [genDiscard]
@[simp] theorem genDiscard_link (s : State) (a1 : Nat) : (genDiscard s a1).link = s.link := by simp [genDiscard]
@[simp] theorem genDiscard_alloys (s : State) (a1 : Nat) : (genDiscard s a1).alloys = s.alloys := by simp [genDiscard]
@[simp] theorem genDiscard_mem (s : State) (a1 : Nat) : (genDiscard s a1).mem = s.mem := by simp [genDiscard]
@[simp] theorem genDiscard_tierA (s : State) (a1 : Nat) : (genDiscard s a1).tierA = s.tierA := by simp [genDiscard]
@[simp] theorem genDiscard_arb (s : State) (a1 : Nat) : (genDiscard s a1).arb = s.arb := by simp [genDiscard]
@[simp] theorem genDiscard_time (s : State) (a1 : Nat) : (genDiscard s a1).time = s.time := by simp [genDiscard]
@[simp] theorem genDiscard_casts (s : State) (a1 : Nat) : (genDiscard s a1).casts = s.casts := by simp [genDiscard]
@[simp] theorem genDiscard_boot (s : State) (a1 : Nat) : (genDiscard s a1).boot = s.boot := by simp [genDiscard]
@[simp] theorem genDiscard_health (s : State) (a1 : Nat) : (genDiscard s a1).health = s.health := by simp [genDiscard]

end Sys2Proof.Machine
end

