-- ==== Sys2Proof/Laws/Keys.lean ====
section
/-!
SUPPORT. Keys.lean: what putting a key into its slot and zeroising it do (R34, R99, R109).
-/
namespace Sys2Proof.Machine

/-- Two fresh shares read back the value that they were made from. -/
@[simp] theorem shares_read (v m : BitVec 512) : (Shares.of v m).read = some v := by
  simp [Shares.of, Shares.read, Shares.sound, Shares.value]

@[simp] theorem modReg_slots (s : State) (p : KeyPath) (f : KeyReg → KeyReg) : (modReg s p f).vault.slots = s.vault.slots := rfl

@[simp] theorem keySend_vault (s : State) (leaves : List Nat) (v : Shares) : (keySend s leaves v).vault = s.vault := by
  unfold keySend; exact foldl_vault _ (by simp) _ _

@[simp] theorem loadReg_slots (s : State) (p : KeyPath) (v : BitVec 512) (a : BitVec 16) (q : Option KeyPath) (l c : Bytes) :
    (loadReg s p v a q l c).vault.slots = s.vault.slots := by
  unfold loadReg; split
  · rfl
  · dsimp only; split <;> simp [State.drew]

/-- With a random source and room for it (R88, R99, R100), a key that was put is found, with the value that it was given. -/
theorem key512_putKey (s : State) (p : KeyPath) (v : BitVec 512) (width part slot share : Nat) (attr : BitVec 16) (label : Bytes)
    (parent : Option KeyPath) (ctx : Bytes) (he : s.vault.entropyOk = true) (hr : slotRoom s p part share = true) :
    keyWide (putKey s p v width part slot share attr label parent ctx) p = some v := by
  have r := shares_read v (s.drawn 512)
  unfold putKey
  simp only [he, hr, Bool.not_true, Bool.or_self, Bool.false_eq_true, if_false]
  simp [keyWide, findKey, KeySlot.used, r]

/-- Without a random source or without room nothing changes. -/
theorem putKey_refused (s : State) (p : KeyPath) (v : BitVec 512) (width part slot share : Nat) (attr : BitVec 16) (label : Bytes)
    (parent : Option KeyPath) (ctx : Bytes) (h : s.vault.entropyOk = false ∨ slotRoom s p part share = false) :
    putKey s p v width part slot share attr label parent ctx = s := by
  unfold putKey
  rcases h with h | h <;> simp [h]

/-- The slots of other paths stay. -/
theorem findKey_putKey_other (s : State) (p q : KeyPath) (v : BitVec 512) (width part slot share : Nat) (attr : BitVec 16)
    (label : Bytes) (parent : Option KeyPath) (ctx : Bytes) (h : q ≠ p) :
    findKey (putKey s p v width part slot share attr label parent ctx) q = findKey s q := by
  have hp : (p == q) = false := by simp [Ne.symm h]
  have e : (s.vault.slots.filter fun k => k.path != p).find? (fun k => k.path == q) = s.vault.slots.find? fun k => k.path == q := by
    rw [List.find?_filter]
    congr 1
    funext k
    by_cases hk : k.path = q
    · simp [hk, h]
    · simp [hk]
  unfold putKey
  split
  · rfl
  · dsimp only
    split <;> simp [findKey, KeySlot.used, hp, e, State.drew]

/-- A dropped key is gone, from the vault and from the engines. -/
theorem findKey_dropKeys (s : State) (sel : KeyPath → Bool) (p : KeyPath) (h : sel p = true) :
    findKey (dropKeys s sel) p = none ∧ findReg (dropKeys s sel) p = none := by
  constructor
  · simp only [findKey, dropKeys, List.find?_eq_none, List.mem_filter]
    rintro k ⟨-, hk⟩ he
    have : k.path = p := by simpa using he
    simp [this, h] at hk
  · simp only [findReg, dropKeys, List.find?_eq_none, List.mem_filter]
    rintro k ⟨-, hk⟩ he
    have : k.path = p := by simpa using he
    simp [this, h] at hk

end Sys2Proof.Machine
end

