-- ==== Sys2Proof/Laws/Mailbox.lean ====
section
/-!
SUPPORT. Mailbox.lean: what the mailbox does with a command that its page takes.
-/
namespace Sys2Proof.Machine

/-- A command that its page takes is performed and answered with the code and body that its effect gives (R316). -/
theorem mailbox_takes (s : State) (h : MbxHdr) (opcode : Nat) (driver : Bool) (body : Bytes)
    (run : State → State × Code × Bytes) (t : s.takesMailbox h opcode driver body) :
    mailbox s h opcode driver body run =
      mbxAnswer (run (mbxTaken s h)).1 h opcode (run (mbxTaken s h)).2.1 (run (mbxTaken s h)).2.2 := by
  simp [mailbox, t.1, t.2]

/-- A command whose answer may come later is answered at once where its effect gives an answer (R360, R378). -/
theorem mailboxLater_answers (s t : State) (h : MbxHdr) (opcode : Nat) (driver : Bool) (body : Bytes)
    (run : State → State × Option (Code × Bytes)) (a : Code × Bytes) (g : s.takesMailbox h opcode driver body)
    (r : run (mbxTaken s h) = (t, some a)) : mailboxLater s h opcode driver body run = mbxAnswer t h opcode a.1 a.2 := by
  simp [mailboxLater, g.1, g.2, r]

/-- Where its effect gives none, its page stays busy (R360, R378). -/
theorem mailboxLater_waits (s t : State) (h : MbxHdr) (opcode : Nat) (driver : Bool) (body : Bytes)
    (run : State → State × Option (Code × Bytes)) (g : s.takesMailbox h opcode driver body)
    (r : run (mbxTaken s h) = (t, none)) :
    mailboxLater s h opcode driver body run = { t with mbx := tset t.mbx h.page { mbxPage t h.page with busy := true } } := by
  simp [mailboxLater, g.1, g.2, r]

end Sys2Proof.Machine
end

