-- ==== Sys2Proof/Laws/Memory.lean ====
section
/-!
SUPPORT. Memory.lean: the canonical form of tier-A memory, kept by every operation, and what a read finds after a write.
-/
namespace Sys2Proof.Machine

variable {α : Type}

/-- Every key of a table is above k. -/
def above (k : Nat) (t : Table α) : Prop := ∀ p ∈ t, k < p.1

theorem rising_cons (a : Nat) (v : α) (r : Table α) : rising ((a, v) :: r) = true ↔ above a r ∧ rising r = true := by
  induction r generalizing a v with
  | nil => simp [rising, above]
  | cons p r ih =>
    obtain ⟨b, w⟩ := p
    simp only [rising, Bool.and_eq_true, decide_eq_true_eq, above, List.mem_cons, forall_eq_or_imp]
    constructor
    · rintro ⟨h, hr⟩
      exact ⟨⟨h, fun p hp => Nat.lt_trans h (((ih b w).mp hr).1 p hp)⟩, hr⟩
    · rintro ⟨⟨h, -⟩, hr⟩
      exact ⟨h, hr⟩

theorem rising_filter (t : Table α) (f : Nat × α → Bool) (h : rising t = true) : rising (t.filter f) = true := by
  induction t with
  | nil => rfl
  | cons p r ih =>
    obtain ⟨a, v⟩ := p
    rw [rising_cons] at h
    rw [List.filter_cons]
    split
    · rw [rising_cons]
      exact ⟨fun q hq => h.1 q (List.mem_of_mem_filter hq), ih h.2⟩
    · exact ih h.2

theorem above_tset (t : Table α) (j k : Nat) (v : α) (h : above j t) (hk : j < k) : above j (tset t k v) := by
  induction t with
  | nil => intro p hp; simp only [tset, List.mem_singleton] at hp; subst hp; exact hk
  | cons q r ih =>
    obtain ⟨a, b⟩ := q
    have ha : j < a := h (a, b) (by simp)
    have hr : above j r := fun p hp => h p (by simp [hp])
    intro p hp
    unfold tset at hp
    split at hp
    · rcases List.mem_cons.mp hp with rfl | hp
      · exact hk
      · exact h p hp
    · split at hp
      · rcases List.mem_cons.mp hp with rfl | hp
        · exact hk
        · exact hr p hp
      · rcases List.mem_cons.mp hp with rfl | hp
        · exact ha
        · exact ih hr p hp

theorem rising_tset (t : Table α) (k : Nat) (v : α) (h : rising t = true) : rising (tset t k v) = true := by
  induction t with
  | nil => rfl
  | cons q r ih =>
    obtain ⟨a, b⟩ := q
    have hc := (rising_cons a b r).mp h
    unfold tset
    split
    · rename_i hka
      rw [rising_cons]
      refine ⟨fun p hp => ?_, h⟩
      rcases List.mem_cons.mp hp with rfl | hp
      · exact hka
      · exact Nat.lt_trans hka (hc.1 p hp)
    · split
      · rename_i hka
        subst hka
        rw [rising_cons]; exact hc
      · rw [rising_cons]
        exact ⟨above_tset r a k v hc.1 (by omega), ih hc.2⟩

theorem mem_tset (t : Table α) (k : Nat) (v : α) (p : Nat × α) (h : p ∈ tset t k v) : p = (k, v) ∨ p ∈ t := by
  induction t with
  | nil => simp only [tset, List.mem_singleton] at h; exact .inl h
  | cons q r ih =>
    obtain ⟨a, b⟩ := q
    unfold tset at h
    split at h
    · rcases List.mem_cons.mp h with h | h
      · exact .inl h
      · exact .inr h
    · split at h
      · rcases List.mem_cons.mp h with h | h
        · exact .inl h
        · exact .inr (by simp [h])
      · rcases List.mem_cons.mp h with h | h
        · exact .inr (by simp [h])
        · rcases ih h with h | h
          · exact .inl h
          · exact .inr (by simp [h])

theorem wf_iff (m : List Host.Cell) : Memory.wf m = true ↔ rising m = true ∧ ∀ c ∈ m, c.2 ≠ 0 := by
  simp [Memory.wf]

theorem wf_nil : Memory.wf [] = true := rfl

theorem wf_filter (m : List Host.Cell) (f : Host.Cell → Bool) (h : Memory.wf m = true) : Memory.wf (m.filter f) = true := by
  rw [wf_iff] at h ⊢
  exact ⟨rising_filter m f h.1, fun c hc => h.2 c (List.mem_of_mem_filter hc)⟩

theorem wf_cellSet (m : List Host.Cell) (a : Nat) (b : Byte) (h : Memory.wf m = true) : Memory.wf (cellSet m a b) = true := by
  unfold cellSet
  split
  · exact wf_filter m _ h
  · rename_i hb
    rw [wf_iff] at h ⊢
    refine ⟨rising_tset m a b h.1, fun c hc => ?_⟩
    rcases mem_tset m a b c hc with rfl | hc
    · exact hb
    · exact h.2 c hc

theorem wf_cellsSet (m : List Host.Cell) (a : Nat) (b : Bytes) (h : Memory.wf m = true) : Memory.wf (cellsSet m a b) = true := by
  induction b generalizing m a with
  | nil => exact h
  | cons x r ih => exact ih _ _ (wf_cellSet m a x h)

/-- Every operation on tier-A memory keeps its canonical form. -/
theorem wf_tierAWrite (s : State) (a : Nat) (b : Bytes) (h : Memory.wf s.tierA = true) :
    Memory.wf (tierAWrite s a b).tierA = true := wf_cellsSet _ _ _ h

theorem wf_tierAScrub (s : State) (p : Nat) (h : Memory.wf s.tierA = true) : Memory.wf (tierAScrub s p).tierA = true :=
  wf_filter _ _ h

theorem wf_reset : Memory.wf State.reset.tierA = true := rfl

theorem tget_tset_same (t : Table α) (k : Nat) (v : α) : tget (tset t k v) k = some v := by
  induction t with
  | nil => simp [tset, tget]
  | cons q r ih =>
    obtain ⟨a, b⟩ := q
    unfold tset
    split
    · simp [tget]
    · split
      · simp [tget]
      · rename_i h1 h2
        simp [tget, ih]
        intro h; exact absurd h.symm h2

theorem tget_tset_other (t : Table α) (k j : Nat) (v : α) (h : j ≠ k) : tget (tset t k v) j = tget t j := by
  induction t with
  | nil => simp [tset, tget, Ne.symm h]
  | cons q r ih =>
    obtain ⟨a, b⟩ := q
    unfold tset
    split
    · simp [tget, Ne.symm h]
    · split
      · rename_i hk; subst hk; simp [tget, Ne.symm h]
      · simp [tget, ih]

theorem tget_tdel_same (t : Table α) (k : Nat) : tget (tdel t k) k = none := by
  induction t with
  | nil => rfl
  | cons q r ih =>
    obtain ⟨a, b⟩ := q
    simp only [tdel, List.filter_cons] at ih ⊢
    split
    · rename_i h; simp at h; simp [tget, h]; exact ih
    · exact ih

theorem tget_tdel_other (t : Table α) (k j : Nat) (h : j ≠ k) : tget (tdel t k) j = tget t j := by
  induction t with
  | nil => rfl
  | cons q r ih =>
    obtain ⟨a, b⟩ := q
    simp only [tdel, List.filter_cons] at ih ⊢
    split
    · simp only [tget, ih]
    · rename_i hk
      have : a = k := by simpa using hk
      subst this
      simp [tget, Ne.symm h, ih]

/-- A byte read where it was written. -/
theorem cellSet_same (m : List Host.Cell) (a : Nat) (b : Byte) : tgetD (cellSet m a b) a 0 = b := by
  unfold cellSet tgetD
  split
  · rename_i h; rw [tget_tdel_same, h]; rfl
  · rw [tget_tset_same]; rfl

/-- A byte elsewhere reads as before. -/
theorem cellSet_other (m : List Host.Cell) (a j : Nat) (b : Byte) (h : j ≠ a) : tgetD (cellSet m a b) j 0 = tgetD m j 0 := by
  unfold cellSet tgetD
  split
  · rw [tget_tdel_other _ _ _ h]
  · rw [tget_tset_other _ _ _ _ h]

end Sys2Proof.Machine
end

