-- ==== Sys2Proof/Machine/Views.lean ====
section
/-!
DEFINITION. Views.lean: what a read of a register returns (R13, R26): the fields of each register from the state, reserved bits and
offsets as 0, and zeros for a read that R172 does not allow (R173). The reads that change state have commands of their own.
-/
namespace Sys2Proof.Machine

/-- A register word from its fields: lowest bit, width and value of each. -/
def word (l : List (Nat × Nat × Nat)) : Nat := l.foldl (fun a f => a + f.2.2 % 2 ^ f.2.1 * 2 ^ f.1) 0

/-- A register word of flags. -/
abbrev flag (b : Bool) : Nat := b2n b

/-- The highest class open in any unit (R456). -/
def highestOpen (s : State) : Nat := s.err.banks.foldl (fun m e => max m e.2.cls) 0

/-- Spares left on a die (R473). -/
def sparesOn (s : State) (die : Nat) : Nat := (s.boot.spares.filter fun c => dieOfPhys c == die).length

/-- The TCU window (R68, R173, R174, R202, R456, R481). -/
def viewTcu (s : State) (off : Nat) : Nat :=
  if off = 0x400 then word [(31, 1, flag s.cross.late), (16, 15, s.cross.lateCount), (8, 5, s.cross.lateIndex), (0, 4, s.cross.lateGroup)]
  else if off = 0x800 then
    word [(16, 16, s.lc.code.toNat), (11, 1, flag (s.lc.byGrant && s.lc.scope != 0)), (8, 3, lcStateOf s.lc.code),
      (7, 1, flag (s.lc.primary.flags.getLsbD 0)), (6, 1, flag s.lc.lockout), (4, 2, s.lc.copies), (0, 4, s.lc.failCount)]
  else if off = 0x808 then
    word [(31, 1, flag s.lc.viol), (16, 15, s.lc.violCount), (8, 8, s.lc.violMaster), (0, 4, s.lc.violRange)]
  else if off = 0xC00 then
    word [(29, 3, roleCode s), (28, 1, flag s.dom.changing), (27, 1, flag (findKey s .nextDomainKey).isSome), (0, 24, s.dom.epoch)]
  else if off = 0x1000 then
    word [(31, 1, flag s.pow.quenched), (30, 1, flag s.pins.pwrcycLow), (29, 1, flag s.err.sentA), (28, 1, flag s.err.sentB),
      (24, 4, s.err.lastAction), (16, 2, chipWindow s), (0, 16, s.err.tcuRestarts)]
  else if off = 0x1004 then word [(16, 16, (~~~s.err.hbTcu).toNat), (0, 16, s.err.hbTcu.toNat)]
  else if off = 0x1008 then word [(16, 16, (~~~s.err.hbMgmt).toNat), (0, 16, s.err.hbMgmt.toNat)]
  else if off = 0x100C then
    let age (t : Option Nat) : Nat := sat 16 ((s.ns - t.getD s.ns) / 1000000)
    word [(16, 16, age s.err.tcuBeatAt), (0, 16, age s.err.mgmtBeatAt)]
  else if off = 0x1010 then word [(29, 3, highestOpen s), (0, 16, s.err.banks.length)]
  else if off = 0x1400 then
    word [(29, 3, s.boot.phase), (27, 2, s.boot.path), (24, 3, s.boot.coldReason), (16, 8, s.boot.starts.toNat), (0, 16, s.boot.readyMs)]
  else if off = 0x1404 then word [(31, 1, flag s.boot.areaValid), (30, 1, flag s.boot.pending), (27, 3, s.boot.reason)]
  else if off = 0x1408 then word [(0, 14, s.boot.afwSrc)]
  else if off = 0x140C then word [(30, 1, flag s.boot.afwBusy), (16, 8, s.boot.afwResult), (0, 13, s.boot.afwFailed)]
  else if off = 0x1410 then word [(20, 12, s.boot.mapGen.toNat), (10, 10, sparesOn s 1), (0, 10, sparesOn s 0)]
  else if off = 0x1414 then
    word [(30, 2, s.boot.trainCmd), (29, 1, flag s.boot.trainReady), (28, 1, flag s.boot.retrainReq), (0, 18, s.boot.trainCursor)]
  else if off = 0x1418 then (s.boot.trainWords.getD s.boot.trainCursor 0).toNat
  else 0

/-- The vault window (R118). -/
def viewVault (s : State) (off : Nat) : Nat :=
  if off = 0x00 then
    word [(28, 4, s.vault.rootState), (26, 2, s.vault.lcClass), (25, 1, flag s.vault.debugMark), (24, 1, flag s.vault.entropyOk),
      (22, 2, s.vault.pufTries), (6, 13, s.vault.rawFlips), (0, 6, s.vault.bchFixed)]
  else if 0x10 ≤ off ∧ off < 0x20 then
    let p := (off - 0x10) / 4
    word [(16, 16, tcount s.vault.highWater p), (0, 16, partInUse s p)]
  else if off = 0x20 then word [(24, 8, s.vault.annealMissed), (16, 8, s.vault.lastCycleMs), (0, 16, s.vault.cycles.toNat)]
  else if off = 0x30 then word [(31, 1, flag s.vault.mismatch), (16, 15, s.vault.mismatchCount), (0, 4, s.vault.lastWhere)]
  else 0

/-- Four of 16 bytes, as a register CH_IVk or CH_TAGk holds them (R139). -/
def quarter (v : BitVec 128) (k : Nat) : Nat := fld (ofBlock v) (4 * k) 4

/-- A channel's registers (R139): TCU firmware reads CH_STATUS and CH_BIND of every channel, and of the others only those that it owns.
QDEPTH counts the operations that wait behind the executing one (R129). -/
def viewChannel (s : State) (n off : Nat) (owned : Bool) : Nat :=
  let c := chanAt s n
  if off = 0x004 then
    word [(24, 8, c.code.toNat), (23, 1, flag (c.queue != [])), (22, 1, flag c.message.isSome), (17, 5, c.queue.length - 1),
      (0, 16, c.done.toNat)]
  else if off = 0x008 then word [(31, 1, flag c.allocated), (24, 5, c.slice), (0, 12, c.ctx)]
  else if !owned then 0
  else if off = 0x000 then (c.ctrl &&& 0x6FF000FF#32).toNat
  else if off = 0x00C then word [(0, 16, c.gen)]
  else if off = 0x010 then word [(31, 1, flag c.key.isSome), (0, 13, c.keyRef)]
  else if 0x014 ≤ off ∧ off < 0x024 then quarter c.iv ((off - 0x014) / 4)
  else if off = 0x024 ∨ off = 0x028 then c.src / 2 ^ (8 * (off - 0x024)) % 2 ^ 32
  else if off = 0x02C ∨ off = 0x030 then c.dst / 2 ^ (8 * (off - 0x02C)) % 2 ^ 32
  else if off = 0x034 then word [(0, 27, c.len)]
  else if off = 0x038 then word [(0, 21, c.aadLen)]
  else if 0x040 ≤ off ∧ off < 0x050 then quarter c.tag ((off - 0x040) / 4)
  else if off = 0x050 then word [(0, 16, c.jobId)]
  else 0

/-- Which of a privileged page's two cores are good (R136, R139). -/
def pageGood (s : State) (p : Nat) : Nat := packBits ((List.range 2).map fun i => !(poolOut s uCipher (p + 1)).contains i)

/-- The cipher window (R137, R139, R148): of the privileged pages TCU firmware reads page 2; every other read of a page returns 0, and
PAGE_ACCESS_VIOLATION is its count and record. -/
def viewCipher (s : State) (off : Nat) (byFirmware : Bool) : Nat :=
  if off < 0x40000 then viewChannel s (off / 0x1000) (off % 0x1000) (byFirmware && decide (off / 0x1000 < 4))
  else if 0x80000 ≤ off ∧ off < 0x84000 then
    if byFirmware && off / 0x1000 == 0x82 then viewChannel s 66 (off % 0x1000) true else 0
  else if off = 0xF0000 then
    word ([(24, 8, poolGood s uCipher 0), (0, 7, (s.cipher.channels.filter fun c => decide (c.1 < 64) && c.2.allocated).length)] ++
      (List.range 4).map fun p => (8 + 2 * p, 2, pageGood s p))
  else if off = 0xF0004 then word [(0, 16, s.cipher.violations)]
  else if off = 0xF0008 then
    word [(31, 1, flag s.cipher.identReady), (30, 1, flag s.cipher.selfFail),
      (16, 8, (s.cipher.pkQueue.map fun q => q.2.length).foldl (· + ·) 0), (0, 16, s.cipher.pkDone.toNat)]
  else 0

/-- The gate window (R361, R388). -/
def viewGate (s : State) (off : Nat) : Nat :=
  let inSlice (n : Nat) (p : Context → Bool) : Nat := (s.ctxs.table.filter fun c => c.2.slice == n && p c.2).length
  if off = 0x00 then
    word [(31, 1, flag s.gate.ready), (26, 5, poolGood s uGate 0), (23, 3, poolGood s uGate 16),
      (12, 11, (s.gate.descs.filter fun d => d.2.hold == .walk).length)]
  else if off = 0x04 then word [(0, 19, s.gate.seals.length)]
  else if off = 0x08 then word [(31, 1, flag s.gate.failFlag), (16, 15, s.gate.failCount), (0, 8, s.gate.lastPort)]
  else if off = 0x0C then word [(16, 16, s.gate.dropUnbound.toNat), (0, 16, s.gate.reseal.toNat)]
  else if off = 0x10 then word [(0, 14, s.gate.hostList.length)]
  else if off = 0x14 then
    word [(0, 18, (s.gate.descs.filter fun d => match d.2.hold with
      | .fault _ _ _ => true
      | _ => false).length)]
  else if 0x1000 ≤ off ∧ off < 0x1080 then
    (tget s.ctxs.slices ((off - 0x1000) / 4)).elim 0 fun x => word [(29, 3, x.state), (0, 20, x.pasid.getD 0)]
  else if 0x1080 ≤ off ∧ off < 0x1100 then
    let n := (off - 0x1080) / 4
    word [(16, 12, inSlice n fun c => c.mode == .ending), (0, 12, inSlice n fun c => c.mode == .live || c.mode == .frozen)]
  else 0

/-- SPAN of ARB_STATUS (R413). -/
def spanCode : Span → Nat
  | .none => 0
  | .quantum _ _ => 0
  | .radio => 1
  | .guard => 2
  | .slack => 3

/-- The arbiter window (R413). -/
def viewArb (s : State) (off : Nat) : Nat :=
  if off = 0x00 then
    word [(30, 2, spanCode s.arb.span), (29, 1, setting s 0x4010 1),
      (24, 5, s.arb.resident.elim 0 fun r => ((tget s.ctxs.table r.1).map (·.slice)).getD 0), (20, 4, s.arb.throttle),
      (0, 9, (schedNow s).qpp)]
  else if off = 0x04 then word [(16, 16, s.arb.overruns.toNat), (0, 16, s.arb.spills.toNat)]
  else if off = 0x08 then word [(16, 16, s.arb.deferred.toNat), (0, 16, s.arb.refused.toNat)]
  else if off = 0x0C then word [(0, 32, s.arb.quantumK)]
  else 0

/-- Frames held now at a port for a key miss or a key switch (R233). -/
def heldFrames (s : State) (p : Nat) : Nat :=
  let missed := (portAt s p).misses.flatMap fun m => m.outbound.map (·.1)
  ((portAt s p).misses.map fun m => m.inbound.length).foldl (· + ·) 0 +
    (s.link.waiting.filter fun w => missed.contains w.1 ||
      (reqPort s w.2 == p && (flowAt s w.2.node).any fun f => f.held || f.awaitKey)).length

/-- A port's block of the brass window (R233), its lanes' transmit pools even and receive pools odd. -/
def viewPort (s : State) (p off : Nat) : Nat :=
  let b := portAt s p
  if off = 0x000 then
    word [(31, 1, flag b.up), (28, 3, b.activeLanes), (26, 2, b.spareState), (23, 3, b.spareFor), (0, 16, heldFrames s p)]
  else if off = 0x004 then word ((List.range 5).map fun l => (5 * l, 5, poolGood s p (2 * l)))
  else if off = 0x008 then word ((List.range 5).map fun l => (5 * l, 5, poolGood s p (2 * l + 1)))
  else if off = 0x00C then word [(16, 16, b.tagFail.toNat), (0, 16, b.drops.toNat)]
  else 0

/-- A port's alloy block (R260). -/
def viewAlloy (s : State) (p off : Nat) : Nat :=
  let a := alloyAt s p
  if off = 0x000 then
    word [(31, 1, flag a.ready), (22, 9, a.lanesGood), (15, 7, a.steps.length), (8, 7, (a.steps.filter fun t => t.2.state == 2).length)]
  else if off = 0x004 then word [(16, 16, a.nanOut.toNat), (0, 16, a.satOut.toNat)]
  else if off = 0x008 then word [(16, 16, a.unmatched.toNat), (0, 16, a.busyDrop.toNat)]
  else if off = 0x00C then word [(24, 8, a.lastFail.1.toNat), (19, 5, a.lastFail.2.1), (0, 12, a.lastFail.2.2)]
  else 0

/-- The brass window (R233, R260). -/
def viewBrass (s : State) (off : Nat) : Nat :=
  if off < 0x12000 then viewPort s (off / 0x1000) (off % 0x1000)
  else if 0x20000 ≤ off ∧ off < 0x32000 then viewAlloy s (off / 0x1000 - 0x20) (off % 0x1000)
  else if off = 0xF0000 then
    word [(19, 13, (s.link.flows.filter fun f => f.2.floor.isNone).length), (18, 1, flag s.link.winFull), (0, 13, s.link.flows.length)]
  else 0

/-- The pewter window (R301). Region r is region r / 4 of port r mod 4 (R263). -/
def viewPewter (s : State) (off : Nat) : Nat :=
  let q := off / 0x1000
  let e := pewAt s q
  if off < 0x4000 then
    if off % 0x1000 = 0x000 then
      word [(31, 1, flag e.ready), (24, 7, min (poolGood s (0x20 + q) 0) (poolGood s (0x20 + q) 1)),
        (20, 4, min (poolGood s (0x20 + q) 16) (poolGood s (0x20 + q) 17)), (9, 9, e.rotating.length)]
    else if off % 0x1000 = 0x004 then word [(16, 16, (e.cache.filter (·.dirty)).length), (0, 16, e.cache.length)]
    else if off % 0x1000 = 0x008 then word [(16, 16, e.ueGranule.toNat), (8, 8, e.ueNode), (0, 8, e.crossResets)]
    else if off % 0x1000 = 0x00C then
      word [(31, 1, flag (e.rotating != [])),
        (0, 19, e.rotating.head?.elim 0 fun r => ((tget s.mem.regions r).map (·.sweep)).getD 0)]
    else if off % 0x1000 = 0x010 then word [(0, 13, e.rotating.headD 0 / 4)]
    else 0
  else if off = 0x10000 then word [(16, 16, s.mem.rootCorrected), (0, 15, s.mem.rootLast)]
  else if 0x20000 ≤ off ∧ off < 0x20100 ∧ off % 16 = 0 then
    let c := tgetD s.mem.checkers ((off - 0x20000) / 16) Checker.reset
    word [(31, 1, flag c.ready), (16, 15, c.denied), (15, 1, flag c.scrubbing), (0, 14, s.gate.scrubs.length)]
  else 0

/-- The host seal window (R324). UPD_OUT reads 0: an old outbound generation retires in the command that supersedes it (R305). -/
def viewHost (s : State) (off : Nat) : Nat :=
  if off = 0x00 then
    word [(30, 2, s.host.session), (29, 1, flag s.host.updIn), (28, 1, flag s.host.marksOut.isSome), (20, 8, s.host.genIn), (12, 8, s.host.genOut),
      (0, 8, min (poolGood s uHse 0) (poolGood s uHse 1))]
  else if off = 0x04 then word [(16, 16, s.host.tagFail.toNat), (0, 16, s.host.otherFail.toNat)]
  else if off = 0x08 then word [(28, 4, s.host.lastReason), (23, 5, s.host.lastSlice), (0, 12, s.host.lastCtx)]
  else 0

/-- The time window (R436). -/
def viewTime (s : State) (off : Nat) : Nat :=
  if off = 0x00 then s.ns % 2 ^ 32
  else if off = 0x04 then s.time.latchHi.toNat
  else if off = 0x08 then s.time.latchFrac.toNat
  else if off = 0x10 then twos 64 s.time.doff % 2 ^ 32
  else if off = 0x14 then twos 64 s.time.doff / 2 ^ 32
  else if off = 0x20 then word [(29, 3, s.time.state), (28, 1, flag s.time.virtual), (0, 16, s.time.badEdges.toNat)]
  else if off = 0x24 then twos 32 s.time.phase
  else if off = 0x28 then twos 32 s.time.rate
  else if off = 0x30 then word [(22, 10, s.casts.table.length), (0, 16, s.casts.failed.toNat)]
  else if 0x100 ≤ off ∧ off < 0x1C8 then
    let i := (off - 0x100) / 4
    word [(31, 1, flag (tget s.casts.stopped i).isSome), (0, 16, (tgetD s.casts.stops i 0).toNat)]
  else 0

/-- A position of the leadbox (R510). -/
def lbxPos (n : Nat) : Nat := word [(31, 1, flag (decide (n < 4096))), (15, 16, lbxLapOf n), (0, 15, lbxSlotOf n)]

/-- The leadbox window (R510). -/
def viewLeadbox (s : State) (off : Nat) : Nat :=
  let a := slotUnder s s.lbx.cursor.toNat
  if off = 0x00 then s.lbx.next.toNat % 2 ^ 32
  else if off = 0x04 then s.lbx.nextHi.toNat
  else if off = 0x08 then
    word [(31, 1, flag s.lbx.ready), (30, 1, flag s.lbx.dropFlag), (21, 9, s.lbx.queue.length), (0, 16, s.lbx.dropped)]
  else if off = 0x10 then s.lbx.cursor.toNat % 2 ^ 32
  else if off = 0x14 then s.lbx.cursor.toNat / 2 ^ 32
  else if off = 0x18 then lbxPos s.lbx.cursor.toNat
  else if off = 0x1C then lbxPos s.lbx.next.toNat
  else if off = 0x20 then word [(31, 1, flag s.lbx.auto)]
  else if off = 0x24 then word [(30, 2, s.lbx.verifyResult), (28, 2, s.lbx.verifyState), (0, 16, s.lbx.verifySeq)]
  else if 0x100 ≤ off ∧ off < 0x180 then fld (fit 128 (le 8 a.seq.toNat ++ le 8 a.seqInv.toNat ++ a.body)) (off - 0x100) 4
  else 0

/-- The health window (R499). -/
def viewHealth (s : State) (off : Nat) : Nat :=
  let h := s.health
  if off = 0x00 then
    word [(28, 4, h.throttleReq), (27, 1, flag h.hot), (26, 1, flag h.life), (25, 1, flag h.opticsStale), (24, 1, flag h.over520),
      (8, 6, h.worst), (0, 8, h.plans)]
  else if off = 0x04 then word [(16, 16, h.vmargin), (8, 8, h.tmargin)]
  else if off = 0x08 then
    word [(31, 1, flag h.armed), (29, 2, h.modeAvail), (28, 1, flag s.pow.saving), (0, 16, h.vholdMv)]
  else if off = 0x0C then word [(30, 2, h.lastMode), (28, 2, h.lastResult), (16, 12, h.lastDuration), (0, 16, h.lastEndMv)]
  else if 0x100 ≤ off ∧ off < 0x200 then gaugeWord s ((off - 0x100) / 4)
  else if 0x400 ≤ off ∧ off < 0x448 then (tgetD h.optics ((off - 0x400) / 4) 0).toNat
  else 0

/-- A counter that the VTC accumulates from a neighbour's clock domain reads STALE, with the time of the last advance, while the domain
is STOPPED (R432). -/
def staleSince (s : State) (domain : Nat) : Option Nat := (tget s.casts.stopped domain).map (·.1)

/-- The live set (R511, R513): the high word of a counter is the one that the read of its low word latched. -/
def viewLive (s : State) (off : Nat) : Nat :=
  if off < 64 then fld (freezeSet s) off 4
  else if off % 8 = 0 then tcount s.cnt.live ((off - 64) / 8) % 2 ^ 32
  else s.cnt.latchHi.toNat

/-- The counters window (R513). -/
def viewCounters (s : State) (off : Nat) : Nat :=
  if off = 0x00 then s.cnt.freezeSeq.toNat
  else if off = 0x04 then word [(30, 2, s.cnt.snapSource), (0, 16, s.cnt.ignored)]
  else if off = 0x08 then s.cnt.freezeTime.toNat % 2 ^ 32
  else if off = 0x0C then s.cnt.freezeHi.toNat
  else if 0x10000 ≤ off ∧ off < 0x120C0 then fld (freezeSet s) (off - 0x10000) 4
  else if 0x20000 ≤ off ∧ off < 0x220C0 then viewLive s (off - 0x20000)
  else 0

/-- The tensor watch window (R525). -/
def viewWatch (s : State) (off : Nat) : Nat :=
  if off = 0x00 then
    word [(23, 9, s.watch.table.length), (14, 9, (s.watch.table.filter fun w => w.2.openAt.isSome).length), (9, 5, poolGood s uTcu 0)]
  else 0

/-- A read inside the VTC, by its unit window (R26): reserved offsets read 0. -/
def viewWindow (s : State) (addr : Nat) (byFirmware : Bool) : Nat :=
  let off := addr % 0x100000
  match addr / 0x100000 with
  | 0 => viewTcu s off
  | 1 => viewVault s off
  | 2 => viewCipher s off byFirmware
  | 3 => viewGate s off
  | 4 => viewArb s off
  | 5 => viewBrass s off
  | 6 => viewPewter s off
  | 7 => viewHost s off
  | 8 => viewTime s off
  | 9 => viewLeadbox s off
  | 10 => viewHealth s off
  | 11 => viewCounters s off
  | 12 => viewWatch s off
  | _ => 0

/-- An entry of a page's event ring (R318): type, data and time. -/
def eventBytes (e : Nat × Nat × Nat) : Bytes := le 2 e.1 ++ le 2 0 ++ le 4 e.2.1 ++ le 8 e.2.2

/-- The mailbox BAR (R315, R330): a page of a slice that is not in service and the doorbell pages read 0. -/
def viewBar (s : State) (off : Nat) : Nat :=
  let page := off / 0x1000
  let at_ := off % 0x1000
  if 32 < page || (page != 0 && !sliceInService s (page - 1)) then 0
  else
    let m := mbxPage s page
    if at_ = 4 then
      word [(31, 1, flag m.busy), (30, 1, flag m.respReady), (29, 1, flag m.evtOvf), (16, 8, m.lastCode.toNat), (0, 16, m.evtProd.toNat)]
    else if 0x400 ≤ at_ ∧ at_ < 0x800 then fld (((tget m.ring ((at_ - 0x400) / 16)).map eventBytes).getD []) (at_ % 16) 4
    else if 0x800 ≤ at_ ∧ at_ < 0xC00 then (tgetD m.command ((at_ - 0x800) / 4) 0).toNat
    else if 0xC00 ≤ at_ then fld m.response (at_ - 0xC00) 4
    else 0

/-- A read of a register by a master (R26, R172, R173): the host reads the mailbox BAR alone, the debug port engine control state where
its scope allows, and a read that is not allowed returns zeros. -/
def readRegister (s : State) (addr master : Nat) : Nat :=
  if addr % 4 ≠ 0 then 0
  else if 2 ^ 24 ≤ addr then (if master = byHost then viewBar s (addr - 2 ^ 24) else 0)
  else if master = byTcu ∨ master = byMgmt then viewWindow s addr (master == byTcu)
  else if master = byDebug ∧ debugMay s 1 2 addr false then viewWindow s addr false
  else 0

end Sys2Proof.Machine
end

