-- ==== Sys2Proof/Tests/Slice0.lean ====
section
/-!
SUPPORT. Slice0.lean: small tests of one step each, the ill-formed terms that WellFormed refuses, and, for every statement with
hypotheses, a state and operands that meet them.
-/
set_option maxRecDepth 20000
set_option Elab.async false

namespace Sys2Proof.Tests

open Sys2Proof Sys2Proof.Machine

/-- A unit in service: a session is open, the rails are up, VTC ready and accelerator ready. -/
def unit : State :=
  { State.reset with
    pow := { Power.reset with sessionOpen := true, iod := true, cdieA := true, cdieB := true, ready := true, readmitted := true }
    boot := { Boot.reset with phase := 5 } }
/-- A slot that holds the zero key. -/
def slotOf (p : KeyPath) (attr : BitVec 16) : KeySlot :=
  { path := p, slot := 0, part := 4, share := 32, key := Shares.of 0 0, sub := none, width := 256, attr := attr, items := Kept.of 0,
    bytes := Kept.of 0, notice := false, limit := false, label := [], parent := none, context := [] }
/-- A unit whose vault holds its root and one more key. -/
def keyed (p : KeyPath) (attr : BitVec 16) : State :=
  { unit with
    vault.rootState := 2, vault.entropyOk := true, vault.seeded := true
    vault.slots := [slotOf .lcroot 0x80, slotOf .session 0x80, slotOf p attr] }
/-- A public key with a valid point. -/
@[irreducible] def key0 : HybKey := Config.mfgKey
theorem key0_valid : pointValid (hybPoint key0) = true := by
  unfold key0 Config.mfgKey; exact pointValid_hybOnCurve Config.mfgKeyBits
/-- The key registers that hold the zero key of a path. -/
def regOf (p : KeyPath) (engine : Nat) : KeyReg :=
  { path := p, engine := engine, leaves := [], active := Shares.of 0 0, shadow := none, leftItems := Kept.of 9, leftBytes := Kept.of (2 ^ 20),
    items := Kept.of 0, bytes := Kept.of 0, parent := none, label := [], context := [] }
/-- The header of a message with a body on page 0. -/
def hdr (body : Bytes) : MbxHdr := ⟨0, mbxLen body false, 0, 0, 0, 0, 0⟩
/-- The unit with a channel 20 owned by the VTC driver, holding one key. -/
def chan (f : Channel → Channel) : State :=
  { keyed (.chan 1 9) 0x10 with cipher.channels := [(20, f { chanBlank 20 with allocated := true })] }
/-- The header of a domain message from unit 5. -/
def dmsg : DomHdr :=
  { version := 1, length := 44, domainId := 7, sender := 5, receiver := unitId, epoch := 1, term := 1, txn := 1, status := cOk, reserved := 0 }

/-- A mailbox header of a page that does not exist. -/
def badHdr : MbxHdr := { hdr [] with page := 33 }

def plainFrame : Frame :=
  { routeDst := 0, routeSrc := 0, routeUse := 0, ftype := 1, flags := 0, dstNode := 1, srcNode := 2, payloadLen := 0, seq := 0,
    reserved := 0, payload := [], tag := 0 }

def pew0 : PewReq := { region := 0, granule := 0, ctx := 0, gen := 0, slice := 0, reqId := 0 }

theorem test_wf_port : (Instr.fabLanemap 18 0).wf = false ∧ (Instr.fabLanemap 17 0).wf = true := by decide
theorem test_wf_lane : (Instr.fabLaneup 0 5 true).wf = false ∧ (Instr.fabLaneup 17 4 true).wf = true := by decide
theorem test_wf_pool : (Instr.poolTimeout 4).wf = false ∧ (Instr.poolTimeout 3).wf = true := by decide
theorem test_wf_status : (Instr.poolReadCompletion 0 0 4 [] true).wf = false := by decide
theorem test_wf_wack : (Instr.poolWack 0 32768).wf = false := by decide
theorem test_wf_queue : (Instr.doorbell 4096 0 0).wf = false ∧ (Instr.doorbell 0 64 0).wf = false ∧
    (Instr.cqHead 0 0 65536).wf = false ∧ (Instr.cqHead 4095 63 65535).wf = true := by decide
theorem test_wf_frame : (Instr.frameReceive 0 { plainFrame with payloadLen := 1 } true).wf = false ∧
    (Instr.frameReceive 0 { plainFrame with dstNode := 8192 } true).wf = false ∧
    (Instr.frameReceive 0 plainFrame true).wf = true := by decide
theorem test_wf_egress : (Instr.frameEgress 0 0 (2 ^ 48)).wf = false := by decide
theorem test_wf_seal : (Instr.frameSeal ⟨8192, 1, [], 0, 0, 0, 0, none⟩).wf = false ∧ (Instr.frameSeal ⟨0, 1, [], 33, 0, 0, 0, none⟩).wf = false := by
  decide
theorem test_wf_step : (Instr.chunkEmit 0 64).wf = false ∧ (Instr.stepTimeout 18 0).wf = false ∧
    (Instr.stepSlotRelease 0 64).wf = false ∧ (Instr.stepStage 18 0).wf = false := by decide
theorem test_wf_alloyLane : (Instr.alloyLaneTest 0 256 true).wf = false := by decide
theorem test_wf_pewter : (Instr.pewterRead { pew0 with region := 32768 }).wf = false ∧
    (Instr.pewterFullWrite { pew0 with granule := 262144 } 0).wf = false ∧
    (Instr.pewterPartialWrite { pew0 with ctx := 4096 } 0 0).wf = false ∧ (Instr.pewterRead pew0).wf = true := by decide
theorem test_wf_stack : (Instr.stkRequest 16 0 true 0 0).wf = false ∧ (Instr.stkRequest 0 12288 true 0 0).wf = false := by decide
theorem test_wf_submit : (Instr.submit 0 0 0 [] true).wf = false ∧ (Instr.submit 8 0 0 [] true).wf = false := by decide
theorem test_wf_check : (Instr.check 0 0 (2 ^ 18) []).wf = false := by decide
theorem test_wf_cpq : (Instr.cpqDone 8 0).wf = false ∧ (Instr.arrTileevt 32768).wf = false := by decide
theorem test_wf_header : (Instr.timeNow badHdr).wf = false ∧ (Instr.bounceState badHdr).wf = false ∧
    (Instr.castArm (.mailbox badHdr 0) 0 0 0 0).wf = false ∧ (Instr.timeNow (hdr [])).wf = true := by decide
theorem test_wf_vector : (Instr.msixUnmask ⟨2048, false⟩).wf = false := by decide
theorem test_wf_group : (Instr.neighbourRst .fab 32).wf = false ∧ (Instr.neighbourRstRelease .fab 32).wf = false ∧
    (Instr.neighbourFlush .fab 32).wf = false ∧ (Instr.nflushLate .fab 32).wf = false := by decide
theorem test_wf_leaf : (Instr.networkResend ⟨39, false, false⟩).wf = false := by decide
theorem test_wf_optics : (Instr.opticsIn true 18 0).wf = false ∧ (Instr.opticsStale 18).wf = false := by decide
theorem test_wf_register : (Instr.registerWrite (2 ^ 26) 0 0).wf = false := by decide
theorem test_wf_segment : (Instr.mdtSegment 0 0 0 (List.replicate 57 0)).wf = false := by decide

/-- The check value of CRC-32 for the nine digits (R533 names the polynomial and the form). -/
theorem test_crc32_check : crc32 (ascii "123456789") = 0xCBF43926 := by decide +kernel

/-- TIME_LO latches the two higher words of the same tick (R416). -/
theorem test_timeLo_latches :
    let s : State := { unit with time.now := 5 * 2 ^ 64 + 7 * 2 ^ 32 + 3 * 2 ^ 16 + 9 }
    (match execTimeLo s with | .next t => (t.time.latchHi, t.time.latchFrac) | _ => (0, 0)) = (5, 0x30000) := by decide +kernel

/-- Appendix C.3 of FIPS 197. -/
theorem test_aes256_vector :
    aesBlock 0x000102030405060708090a0b0c0d0e0f101112131415161718191a1b1c1d1e1f 0x00112233445566778899aabbccddeeff =
      0x8ea2b7ca516745bfeafc49904b496089 := by decide +kernel
theorem test_aes256_inverse :
    aesInv 0x000102030405060708090a0b0c0d0e0f101112131415161718191a1b1c1d1e1f 0x8ea2b7ca516745bfeafc49904b496089 =
      0x00112233445566778899aabbccddeeff := by decide +kernel
/-- The GCM specification's test case 14: zero key, zero IV, one block of zeros. -/
theorem test_gcm_vector :
    gcmSeal 0 0 [] (List.replicate 16 0) = (be 16 0xcea7403d4d606b6e074ec5d3baf39d18, 0xd0d1c8a799996bf0265b98b5d48ab919) := by
  decide +kernel
/-- The CMAC of the empty message under the AES-256 key of SP 800-38B's examples. -/
theorem test_cmac_vector :
    cmac 0x603deb1015ca71be2b73aef0857d77811f352c073b6108d72d9810a30914dff4 [] = 0x028962f61b7bf89efc6b551f4667d983 := by
  decide +kernel

theorem test_idle_met :
    State.reset.pow.sessionOpen = false ∧ State.reset.pending = [] ∧ unit.pow.sessionOpen = true ∧
    ({ unit with time.trefLocked := true } : State).time.trefLocked = true ∧ unit.pending = [] ∧
    unit.up = true ∧ ({ unit with pow.ready := false } : State).up = false := by decide
theorem test_recordValid_met : unit.lc.primary.valid = true ∧ unit.lc.mirror.valid = true := by decide
theorem test_recordValid_steps : step State.reset = .next State.reset := rfl
theorem test_onlyRecord_met : writesRecord .timeLo = false ∧ exec .timeLo State.reset = .next State.reset := ⟨rfl, rfl⟩
theorem test_onlyTime_met : movesTime .lcNonce = false ∧ exec .lcNonce State.reset = .next State.reset := ⟨rfl, rfl⟩
theorem test_onlyRails_met : changesRails .lcNonce = false ∧ exec .lcNonce State.reset = .next State.reset := ⟨rfl, rfl⟩
theorem test_onlyPools_met : changesPools .lcNonce = false ∧ exec .lcNonce State.reset = .next State.reset := ⟨rfl, rfl⟩
theorem test_onlyStored_met : exec .lcNonce State.reset = .next State.reset ∧ storesConfig .lcNonce = false ∧
    writesHelper .lcNonce = false ∧ writesEndorsement .lcNonce = false := ⟨rfl, rfl, rfl, rfl⟩
theorem test_codes_met : (0x96A5#16 ∈ lcCodes ∧ 0xA0F5#16 ∈ lcCodes ∧ 0x96A5#16 ≠ 0xA0F5#16) ∧
    ({ LcCopy.reset with stateInv := 0x96A5 } : LcCopy).stateInv ≠ ~~~({ LcCopy.reset with stateInv := 0x96A5 } : LcCopy).state := by
  decide
theorem test_slot_met : (4095 < 4096 ∧ lbxSlotOf 4095 = 4095) ∧ (4096 ≤ 4096 ∧ lbxSlotOf 4096 = 4096) ∧
    (4096 < 32768 ∧ lbxSlotOf 4096 = lbxSlotOf 32768) := by decide
theorem test_tierA_met : (0 < [0x5A#8].length) ∧ (4 < 5 ∨ 5 + [0x5A#8].length ≤ 4) ∧ (6 < 5 ∨ 5 + [0x5A#8].length ≤ 6) ∧
    Memory.wf State.reset.tierA = true := by decide
theorem test_sessionAndStart_met :
    (State.reset.pow.sessionOpen = false) ∧ (unit.pow.sessionOpen = true) ∧
    (unit.pow.sessionOpen = true ∧ unit.pow.heldInReset = false) ∧
    ({ unit with boot.phase := 4 } : State).up = true := by decide
theorem test_derive_met :
    let s := keyed (.store 1) 0
    let r : DeriveReq := { label := ascii "VTC.GATE", parent := .session, context := [], lenBits := 256, engine := 3, slice := 0 }
    vaultServes s = true ∧ s.vault.queue = [] ∧ reqReady s r = true ∧ reqTenant r = none ∧ reqPath s r = some .gate ∧
    ((treeRow s .gate).bind (·.parent)) = some .session ∧ reqOk s r .gate = true ∧ pathLive s .gate = true ∧
    findKey s .gate = none ∧ (findKey s .session).isSome ∧
    (slotRoom s .gate (((treeRow s .gate).map (·.part)).getD 0) 32) = true ∧ r.engine < 8 ∧
    bit (attrOf s .session (((treeRow s .gate).map (·.use)).getD 0)).toNat r.engine = true := by decide +kernel
theorem test_derive_value_met : ∃ v, deriveFrom { keyed (.store 1) 0 with
    vault.slots := [{ slotOf .session 0x80 with sub := some (Shares.of 0 0) }] } .session [] [] 256 = some v :=
  Option.isSome_iff_exists.mp (by rw [deriveFrom, Option.isSome_map]; decide +kernel)
theorem test_replace_met :
    let s := keyed .gate 0
    (findKey s .gate).isSome = true ∧ (s.vault.replacing.any fun r => r.path == KeyPath.gate) = false := by decide +kernel
theorem test_fresh_met : ∃ n, freshKey { keyed .gate 0 with
    vault.slots := { slotOf .session 0x80 with sub := some (Shares.of 0 0) } :: (keyed .gate 0).vault.slots } (slotOf .gate 0) .derived =
    some n := by
  refine Option.isSome_iff_exists.mp ?_
  simp only [freshKey]
  rw [show treeRow _ (slotOf .gate 0).path = _ from rfl]
  simp only [Option.isSome_map, deriveFrom]
  decide +kernel
theorem test_replaceComplete_met :
    let s := { keyed .gate 0 with vault.replacing := [⟨.gate, Shares.of 5 0, none, 0, 0, [], none, [], []⟩] }
    ((switchReg s .gate).vault.replacing.find? (fun r => r.path == KeyPath.gate)).isSome ∧
    (findKey (switchReg s .gate) .gate).isSome ∧ ((findReg (switchReg s .gate) .gate).any fun g => g.shadow.isSome) = false := by
  decide +kernel
theorem test_export_met :
    let s := keyed .wrap 0x4000
    wrapperPath 14 = some .wrap ∧ neverOut .wrap = false ∧ wrapRefused s .wrap = none ∧ (key256 s .wrap).isSome ∧
    (findKey s .wrap).any (fun w => bit w.attr.toNat 14 && !bit w.attr.toNat 15) = true := by
  decide +kernel
theorem test_import_met :
    let s := keyed .wrap 0
    s.up = true ∧ sliceInService s 0 = true ∧ (ctxAt s 0).slice = 0 ∧ slotRoom s (.chan 0 (freeSlotIn s 3)) 3 0 = true := by
  decide +kernel
theorem test_upkeep_met :
    let s := { keyed .wrap 0 with time.now := 10000000000 * 2 ^ 32 }
    s.pow.sessionOpen = true ∧ s.pow.iod = true ∧ s.vault.seeded = true ∧ s.vault.entropyOk = true ∧
    s.vault.reseedAt + 10000000000 ≤ s.ns ∧ s.vault.annealAt + s.vault.annealPeriod * 1000000 ≤ s.ns ∧ s.up = true ∧
    (2 ^ 20 ≤ ({ s with vault.requests := 2 ^ 20 } : State).vault.requests) := by decide +kernel
theorem test_usage_met :
    let s (p : KeyPath) := { keyed p 0 with vault.slots := [(slotOf p 0).used (2 ^ 62) (2 ^ 62)] }
    ∀ p ∈ [KeyPath.flow 1 1 0, .region 0 1, .bounce 0 0 1, .page 0], (s p).up = true ∧ ((keyLimits p).any fun l =>
      (findKey (s p) p).any fun k => !k.notice && !k.limit && (decide (l.1 ≤ k.usedItems) || decide (l.2.2.1 ≤ k.usedBytes)) &&
        (decide (l.2.1 ≤ k.usedItems) || decide (l.2.2.2 ≤ k.usedBytes))) = true := by
  decide +kernel
theorem test_channelAllocate_met :
    let s : State := { unit with ctxs.table := [(3, ⟨.live, 2, false, 0, false⟩)] }
    let u := mbxTaken s (hdr (le 2 3))
    mbxPresent s (hdr (le 2 3)) = true ∧ mbxCheck s (hdr (le 2 3)) 0 true (le 2 3) = none ∧ (ctxAt u 3).mode = .live ∧
    (chanPart u (ctxAt u 3).slice).find? (fun n => !(chanAt u n).allocated) = some 4 := by decide +kernel
theorem test_channelOwned_met :
    let s := chan id
    s.channelIdle 20 0 0 ∧ (chanAt s 20).allocated = true ∧ (s.brings 20 0 0 .detach (noBody 0 0)).isSome = true ∧
    mbxPresent s (hdr (le 1 20)) = true ∧ mbxCheck s (hdr (le 1 20)) 1 true (le 1 20) = none := by decide +kernel
theorem test_chJobDone_met :
    let j : CipherJob := ⟨0, 0, .job, { noBody 0 64 with ctrl := 0x61000000, len := 16 }, none⟩
    let s := { (chan fun c => { c with queue := [j], key := some (.chan 1 9), loaded := some (Shares.of 0 0) }) with
      mem.checkers := [] }
    (chanAt s 20).queue = [j] ∧ (Shares.of 0 0).read = some 0 ∧ (chanAt s 20).refusal = none ∧ jobOk j.body (chanAt s 20).message = true ∧
    isVerify (cMode j.body) = false ∧ jobVerdict s j = none := by decide +kernel
theorem test_chSave_met :
    let s := chan id
    (s.cipher.store.filter fun r => r.2.slice == chanShare s 20).length < storePart s (chanShare s 20) ∧
    ((List.range 1024).find? fun i => (tget s.cipher.store i).isNone) = some 0 := by decide +kernel
theorem test_chExport_met :
    let s := { keyed .wrap 0 with cipher.channels := (chan id).cipher.channels, mem.checkers := [] }
    let j : CipherJob := ⟨0, 0, .exportTo none, noBody 0 0, none⟩
    s.channelIdle 20 0 0 ∧ s.brings 20 0 0 (.exportTo none) (noBody 0 0) = some j ∧ (exported s 20 j none).isSome ∧
    tierAVerdict s 0 0 0 168 true = none ∧ (key256 s .wrap).isSome ∧ wrapRefused s .wrap = none := by decide +kernel
theorem test_chRestoreInternal_met :
    let s0 := chan id
    let r : SavedState := ⟨0, 0, 0, some (.chan 1 9), keyKcv s0 (.chan 1 9), keyUsed s0 (.chan 1 9), none⟩
    let s := { s0 with cipher.store := [(7, r)] }
    tget s.cipher.store 7 = some r ∧ (chanAt s 20).key = none ∧ (chanAt s 20).message = none ∧ r.slice = chanShare s 20 ∧
    (findKey s (.chan 1 9)).isSome = true ∧ keyKcv s (.chan 1 9) = r.kcv ∧ keyUsed s (.chan 1 9) = r.used ∧
    s.channelIdle 20 0 0 :=
  ⟨rfl, by decide +kernel, by decide +kernel, by decide +kernel, by decide +kernel, rfl, rfl, by decide +kernel⟩
theorem test_chRestoreBlob_met :
    ∃ (s : State) (b : ChanBlob) (k : Key) (pt : Bytes) (ks : KeySlot), s.channelIdle 20 0 0 ∧
    key256 s .wrap = some k ∧ gcmOpen k b.iv (chanBlobHead b) b.body b.tag = some pt ∧ b.format = 2 ∧
    (s.vault.slots.find? fun k => k.part == 3 && k.slot == b.keySlot) = some ks ∧ attached s ks.path = false ∧
    keyKcv s ks.path = b.kcv ∧ keyUsed s ks.path = fld pt 0 8 ∧ b.slice = (chanAt s 20).slice := by
  let b : ChanBlob := ⟨2, 0, 0, 0, 0, kcv 0, 9, 0, 0, [], 0⟩
  let t : Tag := gcmTag 0 0 (chanBlobHead b) []
  let ks : KeySlot := { slotOf (.chan 1 9) 0 with slot := 9, part := 3, share := 1 }
  refine ⟨{ chan id with vault.slots := ks :: (keyed .wrap 0).vault.slots }, { b with tag := t }, 0, [], ks, ?_⟩
  refine ⟨by decide +kernel, by decide +kernel, ?_, rfl, by decide +kernel, by decide +kernel,
    congrArg (fun o : Option Key => (o.map kcv).getD 0) (a₂ := some 0) (by decide +kernel), ?_, by decide +kernel⟩
  · have e : ∀ (b : ChanBlob) (t : Tag), chanBlobHead { b with tag := t } = chanBlobHead b := fun _ _ => rfl
    simp only [gcmOpen]
    rw [e, if_pos (show gcmTag 0 0 (chanBlobHead b) [] = t from rfl)]
    simp [b, xorBytes]
  · decide +kernel
theorem test_chAttach_met :
    let s := chan fun c => { c with slice := 1 }
    let s' : State := { s with vault.slots := [{ slotOf (.chan 1 9) 0x10 with part := 3, slot := 9, share := 1 }] }
    (attachKey s' 20 9).any (fun k => bit k.attr.toNat 4 && !attached s' k.path) = true := by
  decide +kernel
theorem test_pools_met : unit.up = true ∧ 27 < poolFitted 0 3 ∧ (poolAt unit 0 3).out.contains 27 = false ∧
    nextTested unit 0 25 = some 0 ∧ unit.pkTakes 1 0 (.sign [] false) ∧ unit.pkTakes 2 1 (.agree .initiate .spdmHandshake) ∧
    (keyed .gate 0).vault.entropyOk = true := by decide +kernel
theorem test_identity_met :
    (identity { unit with cipher.ident := some ⟨0, 0⟩, cipher.identReady := true }).isSome := by rfl
/-- The base point of P-384 (FIPS 186-5), uncompressed, as the leading part of a hybrid public key. -/
theorem test_basePoint_met : pointValid (hybPoint (BitVec.ofNat 21512 ((4 * 2 ^ 768 +
    0xaa87ca22be8b05378eb1c71ef320ad746e1d3b628ba79b9859f741e082542a385502f25dbf55296c3a545e3872760ab7 * 2 ^ 384 +
    0x3617de4a96262c6f5d9e98bf9292dc29f8f41dbd289a147ce9da3113b5f0b8c00a60b1ce1d7e819d7a431d7c90ea0e5f) * 2 ^ 20736))) = true := by
  decide +kernel
/-- The unit in PROVISIONED with the presence pin held, an operator binding, its identity and a nonce. -/
def bound (k : HybKey) : State :=
  { keyed .idEcc 0 with
    cipher.ident := some ⟨0, 0⟩, cipher.identReady := true
    pins.presence := true, lc.code := lcProvisioned, lc.nonce := some (5, 0), lc.primary.operBinding := left256 (keyDigest k) }
/-- A request of the unit's state, of a kind and to a state, signed by a key. -/
def req (kind signer : Nat) (toCode : BitVec 16) (session : BitVec 64) (key : HybKey) : SignedReq :=
  let r : SignedReq :=
    { length := 7508, format := 0x20, kind := kind, signer := signer, fromCode := lcProvisioned, toCode := toCode,
      unitId := unitId, sessionId := session, nonce := 5, newBinding := 0, scope := 0, opens := 0, reserved := 0,
      signerKey := key, signature := ⟨0, 0⟩, overCan := true }
  { r with signature := hybSign key (reqBytes r) 0 0 }
theorem req_passes (kind signer : Nat) (toCode : BitVec 16) (session : BitVec 64) (nonce : Option (BitVec 256)) (key : HybKey)
    (s : State) (h : lcEarly s true (reqForm (req kind signer toCode session key)) = none) (hc : s.lc.code = lcProvisioned)
    (hn : nonce = some 5) (hs : signerOk s (req kind signer toCode session key) = true) (hq : quiescent s = true)
    (hm : isMember s = false) (hp : pointValid (hybPoint key) = true) : reqCheck s (req kind signer toCode session key) true nonce session true = none := by
  have e : reqBytes (req kind signer toCode session key) =
      reqBytes { req kind signer toCode session key with signature := ⟨0, 0⟩ } := rfl
  have g : hybOk key (reqBytes (req kind signer toCode session key)) (req kind signer toCode session key).signature = true := by
    rw [e]; exact hybOk_sign _ _ _ _ hp
  unfold reqCheck
  rw [show (req kind signer toCode session key).overCan = true from rfl, h]
  simp only [hs, hq, hm]
  rw [show (req kind signer toCode session key).signerKey = key from rfl, g]
  simp [req, hc, hn]
theorem test_lcRequest_met :
    (signersOf (bound key0).lc.code lcField).contains 3 = true ∧
    reqCheck (bound key0) (req 1 3 lcField 0 key0) true (nonceNow (bound key0)) 0 true = none :=
  ⟨by decide +kernel, req_passes _ _ _ _ _ _ _ (by decide +kernel) rfl rfl (by simp [signerOk, req, bound])
    (by decide +kernel) (by decide +kernel) key0_valid⟩
theorem test_debugRequest_met :
    let s := bound key0
    debugStates s = true ∧ (identity s).isSome ∧ reqCheck { s with lc.challenge := none, lc.challengeBytes := [] }
      (req 2 3 lcProvisioned s.pow.sessionId key0) true (nonceNow s) s.pow.sessionId true = none :=
  ⟨by decide +kernel, rfl, req_passes _ _ _ _ _ _ _ (by decide +kernel) rfl rfl (by simp [signerOk, req, bound])
    (by decide +kernel) (by decide +kernel) key0_valid⟩
theorem test_debugGrant_met :
    let s := { bound key0 with lc.challenge := some (3, 5, 0) }
    debugStates s = true ∧ s.ns < 600000000000 ∧ (0 : BitVec 16) &&& ~~~3 = 0 ∧
    reqCheck s (req 3 2 lcProvisioned s.pow.sessionId Config.serviceKey) true (some 5) s.pow.sessionId true = none :=
  ⟨by decide +kernel, by decide +kernel, by decide, req_passes _ _ _ _ _ _ _ (by decide +kernel) rfl rfl (by simp [signerOk, req])
    (by decide +kernel) (by decide +kernel) (pointValid_hybOnCurve _)⟩
theorem test_lcToken_met :
    let s := { bound key0 with lc.code := lcField }
    lcEarly s true true = none ∧ tokenOf s.lc.code lcReturn = some 2 ∧ s.lc.tokensUsed.contains 2 = false ∧
    quiescent s = true ∧ isMember s = false ∧ debugMay s 0 1 0 true = false := by decide +kernel
theorem test_lcToken_digest_met : ∃ tok : BitVec 128,
    Config.sha384 (be 16 tok.toNat) = Config.sha384 (be 16 (Config.token 2).toNat) := ⟨Config.token 2, rfl⟩
theorem test_lcTimes_met :
    let s := { unit with time.now := 10 ^ 12 * 2 ^ 32, pins.presenceAt := some 0, lc.nonce := some (5, 0) }
    60000000000 ≤ s.ns ∧ 600000000000 ≤ s.ns ∧ s.pins.presence = false ∧
    { s with lc.challenge := some (0, 0, 0) }.lc.challenge.isSome ∧
    ({ s with lc.scrubPending := true, lc.pendingScope := some (3, true) } : State).lc.pendingScope = some (3, true) := by decide +kernel
/-- The unit with its identity key, in FIELD, with an empty vault but for its root. -/
def known : State :=
  { keyed .idEcc 0 with cipher.ident := some ⟨0, 0⟩, cipher.identReady := true, lc.code := lcField }
/-- The same unit as the anchor of domain 7. -/
def anchor : State :=
  { known with
    dom := { Domain.reset with
      domainId := 7, epoch := 1, term := 1, role := 1, anchor := unitId } }
/-- The same unit as a joiner, at a step of its join. -/
def joiner (f : JoinState → JoinState) : State :=
  { known with dom.role := 4, dom.join := f { JoinState.reset with domainId := 7, anchor := 5, txn := 1 } }
/-- An endorsement of a unit and key. -/
def endorsed (unit : Nat) (k : HybKey) : Endorsement :=
  let e : Endorsement := ⟨unit, keyDigest k, 2, ⟨0, 0⟩, [], [], []⟩
  { e with payload := endorsePayload e, signature := hybSign Config.mfgKey (sigStruct [] (endorsePayload e)) 0 0 }
theorem endorsed_ok (unit : Nat) (k : HybKey) : endorseOk (endorsed unit k) unit k = true := by
  have e : endorsePayload (endorsed unit k) = (endorsed unit k).payload := rfl
  simp only [endorseOk, e]
  simp [endorsed]; exact hybOk_sign _ _ _ _ (pointValid_hybOnCurve _)
/-- The payload of a policy that takes the defaults of its optional keys: an anchor, and two members at most. -/
def policyText (unit : Nat) : Bytes :=
  0xAA#8 :: [1, 7, 2, 1, 3, 0x1B] ++ be 8 unit ++ [6, 0, 7, 0x80, 8, 0x58, 32] ++ List.replicate 32 0 ++
    [9, 0x80, 10, 2, 12, 0, 13, 0]
/-- That policy, signed by its owner. -/
def policyBy (owner : HybKey) (unit : Nat) : Policy :=
  { policyDefaults with
    domainId := 7, sequence := 1, anchor := unit, states := [0xC35A], maxMembers := 2, ownerKey := owner
    payload := policyText unit, signature := hybSign owner (sigStruct [] (policyText unit)) 0 0 }
theorem policyText_map (unit : Nat) : cMapOf (policyText unit) = some
    [(1, ⟨0, 7, []⟩, []), (2, ⟨0, 1, []⟩, []), (3, ⟨0, beNat (be 8 unit), []⟩, []), (6, ⟨0, 0, []⟩, []), (7, ⟨4, 0, []⟩, []),
     (8, ⟨2, 32, List.replicate 32 0⟩, []), (9, ⟨4, 0, []⟩, []), (10, ⟨0, 2, []⟩, []), (12, ⟨0, 0, []⟩, []),
     (13, ⟨0, 0, []⟩, [])] := by rfl
theorem policyBy_ok (owner : HybKey) (unit : Nat) (h : unit < 2 ^ 64) (hp : pointValid (hybPoint owner) = true) : policyOk (policyBy owner unit) = true := by
  have e : policySpelt (policyBy owner unit) = true := by
    unfold policySpelt
    rw [show (policyBy owner unit).payload = policyText unit from rfl, policyText_map, beNat_be 8 unit h]
    simp [policyKey, cNats, cFixed, policyBy, policyDefaults, beNat, leNat, cBool]
  unfold policyOk
  rw [e]
  simp [policyBy, policyDefaults]
  exact hybOk_sign _ _ _ _ hp
/-- The base point of P-384 (FIPS 186-5). -/
def baseQ : Point := hybPoint (BitVec.ofNat 21512 ((4 * 2 ^ 768 +
  0xaa87ca22be8b05378eb1c71ef320ad746e1d3b628ba79b9859f741e082542a385502f25dbf55296c3a545e3872760ab7 * 2 ^ 384 +
  0x3617de4a96262c6f5d9e98bf9292dc29f8f41dbd289a147ce9da3113b5f0b8c00a60b1ce1d7e819d7a431d7c90ea0e5f) * 2 ^ 20736))
theorem unitId_lt : unitId < 2 ^ 64 := Nat.lt_of_lt_of_le Config.unitSerial.isLt (by decide)
theorem test_domainCreate_met : ∃ (p : Policy) (k : HybKey), known.up = true ∧ quiescent known = true ∧ known.dom.role = 0 ∧
    policyOk p = true ∧ p.anchor = unitId ∧ identity known = some k ∧ policyRefuses p (hallClaims known k 0 none false) = none ∧ known.vault.entropyOk = true :=
  ⟨policyBy key0 unitId, _, by decide +kernel, by decide +kernel, rfl, policyBy_ok _ _ unitId_lt key0_valid, rfl, rfl, by decide +kernel, by decide +kernel⟩
theorem test_domainJoin_met : joinState known.lc.code = true ∧ (identity known).isSome = true := ⟨by decide, rfl⟩
/-- The anchor after its part of a key agreement. -/
def agreedAt : State :=
  { (bumpUnit anchor.drew.drew uPk 0 1) with cipher.pkDone := anchor.cipher.pkDone + 1 }
theorem agreedAt_met : ∃ qr ct ss, kaRespond anchor baseQ 0 = (agreedAt, some (qr, ct, ss)) := by
  have e : (pointValid baseQ && kemKeyValid 0 && anchor.vault.entropyOk) = true := by decide +kernel
  exact ⟨_, _, _, if_pos e⟩
theorem test_joinHello_met : ∃ s1 qr ct ss s3 h, anchor.takesDomain dmsg false ∧ anchor.dom.role = 1 ∧
    kaRespond anchor baseQ 0 = (s1, some (qr, ct, ss)) ∧
    notHeld (keepJk s1.drew dmsg.sender ss) (.joinKey dmsg.sender) = none ∧
    makeHallmark (keepJk s1.drew dmsg.sender ss) 0 (some (joinHash [] (s1.drawn 256) qr ct)) false = (s3, some h) := by
  obtain ⟨qr, ct, ss, e⟩ := agreedAt_met
  obtain ⟨t, h, q⟩ := makeHallmark_met (keepJk agreedAt.drew dmsg.sender ss) _ 0
    (some (joinHash [] (agreedAt.drawn 256) qr ct)) false rfl rfl rfl
  exact ⟨agreedAt, qr, ct, ss, t, h, by decide +kernel, rfl, e, rfl, q⟩
/-- A hallmark of a unit in FIELD, in domain 7, signed with its endorsed key. -/
def hallOf (unit : Nat) (nonce : BitVec 256) (bind : Option Dig384) : Hallmark :=
  let h : Hallmark := { hallClaims known key0 nonce bind false with
    unitId := unit, endorse := some (endorsed unit key0), domain := some ⟨7, 1, 1, 1, 0⟩ }
  { h with signature := hybSign key0 (hallMsg h) 0 0 }
theorem hallOf_ok (unit : Nat) (nonce : BitVec 256) (bind : Option Dig384) : hallOk (hallOf unit nonce bind) nonce = true := by
  have e : hybOk (hallOf unit nonce bind).idKey (hallMsg (hallOf unit nonce bind)) (hallOf unit nonce bind).signature = true :=
    hybOk_sign _ _ _ _ key0_valid
  have g : (hallOf unit nonce bind).endorse.any (fun e => endorseOk e (hallOf unit nonce bind).unitId (hallOf unit nonce bind).idKey)
      = true := endorsed_ok unit key0
  unfold hallOk
  rw [e, g, show (hallOf unit nonce bind).nonce = nonce from rfl]; simp
theorem test_joinChallenge_met :
    let s := joiner fun j => { j with step := 1 }
    ∃ (s1 : State) (hall h : Hallmark) (d : DomClaim) (ss : BitVec 384),
    s.takesJoin dmsg 1 ∧ hallOk hall s.dom.join.nonce = true ∧ hall.bind = some (joinHash s.dom.join.hash 0 baseQ 0) ∧
    hall.unitId = dmsg.sender ∧ hall.domain = some d ∧ d.domainId = s.dom.join.domainId ∧
    kaFinish s.dom.join.ecPriv s.dom.join.kemPriv baseQ 0 = some ss ∧
    notHeld (keepJk s dmsg.sender ss) (.joinKey dmsg.sender) = none ∧
    makeHallmark (keepJk s dmsg.sender ss) 0 hall.bind false = (s1, some h) := by
  intro s
  have e : pointValid baseQ = true := by decide +kernel
  have f : ∃ ss, kaFinish s.dom.join.ecPriv s.dom.join.kemPriv baseQ 0 = some ss := ⟨_, if_pos e⟩
  obtain ⟨ss, f⟩ := f
  obtain ⟨t, h, q⟩ := makeHallmark_met (keepJk s dmsg.sender ss) _ 0 (some (joinHash s.dom.join.hash 0 baseQ 0)) false rfl rfl rfl
  exact ⟨t, hallOf 5 0 _, h, _, ss, by decide +kernel, hallOf_ok _ _ _, rfl, rfl, rfl, rfl, f, rfl, q⟩
/-- The anchor with an admission of unit 5. -/
def admitting (admitted : Bool) (owner : HybKey) : State :=
  { anchor with
    dom.policy := some (policyBy owner unitId)
    dom.admissions := [(5, ⟨5, 1, 0, 0, 0, admitted, 0, none, ⟨0, 0, 0⟩, []⟩)]
    vault.slots := slotOf (.joinKey 5) 0 :: anchor.vault.slots }
theorem test_joinEvidence_met :
    let s := admitting false key0
    ∃ a p jk, s.takesDomain dmsg false ∧ tget s.dom.admissions dmsg.sender = some a ∧ s.dom.policy = some p ∧
    key256 s (.joinKey dmsg.sender) = some jk ∧ a.admitted = false ∧
    admitCheck s p a dmsg.sender (hallOf 5 a.nonce (some a.hash)) = none := by
  refine ⟨_, _, 0, by decide +kernel, rfl, rfl, by decide +kernel, rfl, ?_⟩
  unfold admitCheck
  rw [hallOf_ok]
  decide +kernel
theorem test_joinDone_met :
    let s := admitting true key0
    s.takesDomain dmsg false ∧ (tget s.dom.admissions dmsg.sender).any (fun a => a.admitted && decide (s.ns ≤ a.startedAt + 800000)) ∧
    s.dom.policy.isSome = true := by decide +kernel
/-- The envelope of the zero domain key under the zero key. -/
def env0 : KeyEnvelope := sealEnv 0 0 0 1 7
theorem putDomainKey_held (s : State) (k : Key) (he : s.vault.entropyOk = true) (hr : slotRoom s .domainKey 4 32 = true) :
    (key256 (putDomainKey s false k) .domainKey).isSome = true := by
  simp [putDomainKey, importKey, key256, key512_putKey _ _ _ _ _ _ _ _ _ _ _ he hr]
theorem test_joinAdmit_met :
    let p := policyBy key0 5
    let s := { joiner fun j => { j with step := 2, owner := ownerDigest p, policyDigest := policyDigest p } with
      vault.slots := slotOf (.joinKey 5) 0 :: known.vault.slots }
    ∃ s1, s.takesJoin dmsg 2 ∧ ownerDigest p = s.dom.join.owner ∧ policyOk p = true ∧
    policyDigest p = s.dom.join.policyDigest ∧ key256 s (.joinKey dmsg.sender) = some 0 ∧
    openEnvs s 0 dmsg [env0] = some s1 ∧ (key256 s1 .domainKey).isSome = true := by
  intro p s
  have e : openEnv 0 env0 = some 0 := by decide +kernel
  refine ⟨putDomainKey s false 0, by decide +kernel, rfl, policyBy_ok _ _ (by decide) key0_valid, rfl, by decide +kernel, ?_, ?_⟩
  · simp only [openEnvs, e]; rfl
  · exact putDomainKey_held _ _ rfl (by decide +kernel)
theorem test_joinEnds_met :
    let s := { joiner id with time.now := 10 ^ 12 * 2 ^ 32 }
    s.up = true ∧ s.dom.role = 4 ∧ hdrOk dmsg = true ∧ dmsg.domainId = s.dom.join.domainId ∧ dmsg.sender = s.dom.join.anchor ∧
    dmsg.txn = s.dom.join.txn ∧ s.dom.join.lastAt + 100000000 ≤ s.ns ∧
    (let u := { admitting true key0 with time.now := 10 ^ 12 * 2 ^ 32 }
     u.dom.role = 1 ∧ (tget u.dom.admissions 5).any fun a => a.admitted && decide (a.startedAt + 100000000 ≤ u.ns)) := by
  decide +kernel
/-- A member of domain 7 whose anchor is unit 5. -/
def member5 : State :=
  { known with
    dom := { Domain.reset with domainId := 7, epoch := 1, term := 1, role := 3, anchor := 5, members := [⟨5, 0, 0⟩],
                               roleGrant := some ⟨1, 5, 0⟩, policy := some (policyBy key0 5) } }
theorem test_policyUpdate_met : ∃ p old : Policy,
    let s := { anchor with dom.policy := some old }
    s.up = true ∧ s.dom.policy = some old ∧ s.dom.role = 1 ∧ policyOk p = true ∧ p.ownerKey = old.ownerKey ∧
    p.domainId = old.domainId ∧ p.anchor = old.anchor ∧ old.sequence < p.sequence :=
  ⟨policyBy key0 5, { policyBy key0 5 with sequence := 0 }, by decide +kernel, rfl, rfl, policyBy_ok _ _ (by decide) key0_valid, rfl, rfl, rfl,
    by decide⟩
/-- A host's record, signed by a host-admission key. -/
def host0 : HostRec :=
  let h : HostRec := { hostId := 2 ^ 63, key := key0, admKey := key0, signature := ⟨0, 0⟩ }
  { h with signature := hybSign key0 (hostMsg h) 0 0 }
theorem test_hostMember_met : ∃ p : Policy, hostOk p host0 = true ∧
    ({ anchor with dom.policy := some p }.dom.hosts.filter fun x : HostRec => x.hostId != host0.hostId).length < 1024 := by
  refine ⟨{ policyBy key0 5 with hostKeyDigest := left256 (keyDigest key0) }, ?_, by decide⟩
  unfold hostOk
  rw [show hybOk host0.admKey (hostMsg host0) host0.signature = true from hybOk_sign _ _ _ _ key0_valid]
  simp [host0]; decide
theorem test_hallmarkNonce_met : ∃ t h, makeHallmark known 5 none false = (t, some h) :=
  makeHallmark_met known _ 5 none false rfl rfl rfl
theorem test_domainLeave_met : member5.up = true ∧ isMember member5 = true ∧ quiescent member5 = true := by decide +kernel
theorem test_memberDown_met : ∃ u, u ≠ unitId ∧ member { anchor with dom.members := [⟨u, 0, 0⟩] } u = true ∧
    ({ anchor with dom.members := [⟨u, 0, 0⟩] } : State).takesDomain { dmsg with sender := u } true :=
  ⟨unitId + 1, by omega, by simp [member], rfl, rfl, rfl, fun _ => ⟨by simp [member, dmsg], by decide⟩⟩
theorem test_memberUpdate_met : ∃ added : List Member, member5.takesDomain dmsg true ∧ member5.dom.role = 3 ∧
    dmsg.sender = member5.dom.anchor ∧ added = [⟨6, 1, 0⟩] ∧ (([] : List Nat).contains unitId) = false ∧
    member5.dom.roleGrant = some ⟨1, 5, 0⟩ := ⟨_, by decide +kernel, rfl, rfl, rfl, rfl, rfl⟩
/-- A state one thousand seconds into its session. -/
def late (s : State) : State := { s with time.now := 10 ^ 12 * 2 ^ 32 }
/-- The anchor while it changes the epoch, with unit 5 taking part. -/
def changing (p : EpochPart) : State :=
  late { anchor with
    dom.members := [⟨5, 0, 0⟩], dom.changing := true, dom.nextEpoch := 2, dom.parts := [(5, p)], dom.prepareAt := some 0
    vault.slots := slotOf .nextDomainKey 0x80 :: known.vault.slots }
theorem test_epochTimers_met :
    let s := late { anchor with dom.coalesceAt := some 0, dom.policy := some { policyBy key0 5 with maxAge := 1 } }
    s.up = true ∧ s.dom.role = 1 ∧ setting s 0x2201 6 * 1000000 ≤ s.ns ∧ s.dom.changing = false ∧
    s.dom.epochAt + 1 * 1000000000 ≤ s.ns ∧ s.dom.beatSentAt + 10000000 ≤ s.ns := by decide +kernel
theorem test_epochMember_met :
    let s := member5
    s.takesDomain dmsg true ∧ dmsg.sender = s.dom.anchor ∧ s.dom.role ≠ 1 ∧ s.dom.grace = none ∧ s.dom.committed = false :=
  ⟨by decide +kernel, rfl, by decide, rfl, rfl⟩
theorem test_epochShare_met :
    let s := changing ⟨false, false⟩
    (∃ s1 r, kaRespond s baseQ 0 = (s1, some r)) ∧ s.takesDomain dmsg true ∧ s.dom.role = 1 ∧
    tget s.dom.parts dmsg.sender = some ⟨false, false⟩ ∧ key256 s .nextDomainKey = some 0 := by
  intro s
  have e : (pointValid baseQ && kemKeyValid 0 && s.vault.entropyOk) = true := by decide +kernel
  exact ⟨⟨_, _, if_pos e⟩, by decide +kernel, rfl, by decide +kernel, by decide +kernel⟩
/-- A member that has shared its values and waits for EPOCH_KEY. -/
def sharing : State :=
  { member5 with
    dom.changing := true, dom.nextEpoch := 2, cipher.agreed := [(.epochSecret 5, 0, 0)]
    vault.slots := slotOf .nextDomainKey 0x80 :: known.vault.slots }
theorem test_epochKey_met : ∃ env, epochKeyOf sharing dmsg baseQ 0 env = some 7 ∧ (epochPriv sharing 5).isSome = true ∧
    sharing.takesDomain dmsg true ∧ sharing.dom.changing = true ∧ sharing.dom.committed = false := by
  have e : pointValid baseQ = true := by decide +kernel
  have f : ∃ ss, kaFinish 0 0 baseQ 0 = some ss := ⟨_, if_pos e⟩
  obtain ⟨ss, f⟩ := f
  refine ⟨sealEnv (left256 ss) 7 1 2 7, ?_, by decide +kernel, by decide +kernel, rfl, rfl⟩
  have p : epochPriv sharing dmsg.sender = some (0, 0) := by decide +kernel
  unfold epochKeyOf
  rw [p, Option.bind_some]
  dsimp only
  rw [f, Option.bind_some, if_pos (by simp [sealEnv, sharing, member5]), openEnv_seal _ _ _ _ _ (by decide)]
theorem test_epochAck_met :
    let s := changing ⟨true, false⟩
    s.takesDomain dmsg true ∧ tget s.dom.parts 5 = some ⟨true, false⟩ ∧ key256 s .nextDomainKey = some 0 ∧
    s.dom.prepareAt = some 0 ∧ 500000000 ≤ s.ns := by decide +kernel
theorem test_epochCommit_met : (armSwitch sharing 1000000000).2 = true ∧ (findKey sharing .nextDomainKey).isSome = true := by
  decide +kernel
theorem test_epochGrace_met :
    let s := { changing ⟨true, true⟩ with dom.grace := some 0 }
    let u := { late sharing with dom.grace := some 0 }
    s.up = true ∧ 0 ≤ s.ns ∧ (endGrace s).dom.role = 1 ∧ (endGrace u).dom.role ≠ 1 ∧ (endGrace u).dom.heldPrepare = none :=
  ⟨by decide +kernel, by decide +kernel, by decide +kernel, by decide +kernel, by decide +kernel⟩
/-- A deputy of domain 7 whose anchor is unit 5, with another deputy, unit 6, before it. -/
def deputy : State :=
  late { member5 with dom.role := 2, dom.deputies := [unitId], dom.claimAt := some 0, dom.members := [⟨5, 0, 0⟩, ⟨6, 1, 0⟩] }
theorem test_deputy_met : deputy.up = true ∧ deputy.dom.role = 2 ∧ deputyNo deputy = 1 ∧
    deputy.dom.beatAt + 100000000 ≤ deputy.ns ∧ deputy.dom.probes = [] ∧ policyOk (policyBy key0 5) = true :=
  ⟨by decide +kernel, rfl, by simp [deputyNo, deputy, late, member5], by decide +kernel, rfl, policyBy_ok _ _ (by decide) key0_valid⟩
theorem test_anchorClaim_met :
    let s := { member5 with dom.deputies := [5] }
    s.takesDomain dmsg true ∧ s.dom.role ≠ 1 ∧ s.dom.deputies.contains dmsg.sender = true ∧ s.dom.term < 2 ∧
    (let u := changing ⟨false, false⟩
     u.dom.role = 1 ∧ u.dom.term < { dmsg with term := 2 }.term ∧ member u dmsg.sender = true) := by decide +kernel
/-- The anchor with an admitted host, at a point of the SPDM exchange. -/
def hosted (session negotiated : Nat) : State :=
  { anchor with
    dom.hosts := [host0], host.session := session, host.negotiated := negotiated, host.requester := 2 ^ 63
    vault.slots := slotOf .spdmHandshake 0x80 :: known.vault.slots }
theorem test_spdmOpen_met : (hosted 0 3).up = true ∧ (hosted 0 3).crossOpen 128 = true ∧ isMember (hosted 0 3) = true ∧
    updating (hosted 2 3) = false ∧
    secretRefused ((hosted 2 3).heldIn 130) (2 * (servingSlices ((hosted 2 3).heldIn 130)).length) = none ∧
    secretRefused ((hosted 2 3).heldIn 130) (servingSlices ((hosted 2 3).heldIn 130)).length = none ∧
    secretRefused ((hosted 1 3).heldIn 130) (2 + 2 * (servingSlices (hosted 1 3)).length) = none ∧ (hostKey (hosted 0 3) (2 ^ 63)).isSome = true := by decide +kernel
theorem test_offer_met : ∃ o : SpdmOffer, offerOk o = true :=
  ⟨⟨true, [spdmSig], [spdmKex], true⟩, by simp [offerOk]⟩
theorem test_keyExchange_met : ∃ s1 r, kaRespond ((hosted 0 3).heldIn 130) baseQ 0 = (s1, some r) ∧
    ∃ s2 g, signId (putSecret s1 .spdmHandshake r.2.2) [] = (s2, some g) := by
  have e : (pointValid baseQ && kemKeyValid 0 && ((hosted 0 3).heldIn 130).vault.entropyOk) = true := by decide +kernel
  refine ⟨_, _, if_pos e, ?_⟩
  have i : ∀ (s : State) (k : HybKey) (m : Bytes), identity s = some k → s.vault.entropyOk = true →
      pointValid (hybPoint k) = true → ∃ t g, signId s m = (t, some g) := by
    intro s k m hk hr hp; simp [signId, signWith, hk, hr, hybOk_sign k _ _ _ hp]
  exact i _ _ _ rfl rfl (pointValid_pub _)
theorem test_finish_met : ∃ mac ss g, finishSigned (hosted 1 3) g = true ∧ finishOk (hosted 1 3) mac = some ss := by
  have k : keyWide (hosted 1 3) .spdmHandshake = some 0 := by decide +kernel
  refine ⟨Config.spdmFinished 0 (hosted 1 3).host.transcript, 0, hybSign key0 (hosted 1 3).host.transcript 0 0, ?_, ?_⟩
  · have h : hostKey (hosted 1 3) (hosted 1 3).host.requester = some key0 := rfl
    simp [finishSigned, h, hybOk_sign key0 _ _ _ key0_valid]
  · simp [finishOk, k]
theorem test_rekeyDue_met :
    let s := late { hosted 2 3 with host.updIn := true }
    s.host.updIn = true ∧ s.host.marksIn = none ∧ s.host.updateIn + s.host.period * 1000000 ≤ s.ns := by decide +kernel
theorem test_getHallmark_met : ∃ t h, makeHallmark ((hosted 0 3).heldIn 130) 5 none false = (t, some h) :=
  makeHallmark_met _ _ 5 none false rfl rfl rfl
/-- A flow of domain epoch 1 with its window at work. -/
def flow1 : Flow := { newFlow anchor with floor := none }
/-- A member of domain 7 at node 1, bound to its peer, unit `unitId + 1`, at node 5 behind port 0, with a flow key. -/
def linked (f : Flow) : State :=
  late { anchor with
    dom.members := [⟨unitId + 1, 5, 0⟩]
    link.nodes := [(1, (unitId, 0)), (5, (unitId + 1, 0))], link.flows := [(5, f)]
    link.ports := [(0, { BrassPort.reset with up := true, activeLanes := 4, keyCache := [(whoSys, unitId + 1, 1, 0)] })]
    vault.regs := [regOf (.flow (unitId + 1) 1 0) 3] }
theorem linked_own (f : Flow) : ownNode (linked f) = some 1 := by simp [linked, late, ownNode, unitNode]
theorem linked_unit (f : Flow) : nodeUnit (linked f) 5 = some (unitId + 1) := by simp [linked, late, nodeUnit, tget]
theorem linked_key (f : Flow) : engKey (linked f) (.flow (unitId + 1) 1 0) = some 0 := by
  simp [linked, late, engKey, findReg, regOf, Shares.of, Shares.read, Shares.sound, Shares.value]
theorem linked_member (f : Flow) : memberNode (linked f) 5 = true := by simp [memberNode, linked_unit]; simp [linked, late]
theorem linked_cached (f : Flow) : keyCached (linked f) 0 whoSys (unitId + 1) 1 0 = true := by
  simp [linked, late, keyCached, portAt, tgetD, tget]
theorem test_frameSeal_met : ∃ r : SealReq, sealable r = true ∧ memberNode (linked flow1) r.node = true ∧ (linked flow1).up = true :=
  ⟨⟨5, 1, [], 0, 0, 0, 0, none⟩, by decide, linked_member _, by decide +kernel⟩
/-- A frame that is outstanding, first sent at the start of the session. -/
def sent0 : Sent := ⟨⟨5, 1, 0, 1, 0, 5, 1, 16, 1, 0, [], 0⟩, ⟨5, 1, [], whoSys, 0, 0, 0, none⟩, 56, 0, some 0, 0, 1, 10⟩
theorem test_egress_met :
    let s := { linked { flow1 with outstanding := [(1, sent0)] } with
      link.ports := [(0, { BrassPort.reset with up := true, activeLanes := 4, egress := [(5, 1)] })] }
    sentAt s 5 1 = some sent0 ∧ (portAt s 0).egress.contains (5, 1) = true ∧ portOpen s 0 = true ∧
    egressReady s 0 (5, 1) = true ∧ sent0.issuer.slice = whoSys := by decide +kernel
theorem test_retransmit_met :
    let s := { linked { flow1 with outstanding := [(1, sent0)] } with time.now := 10 ^ 6 * 2 ^ 32 }
    sentAt s 5 1 = some sent0 ∧ sent0.lastAt + sent0.waitUs * 1000 ≤ s.ns ∧ retxOver s 5 1 0 = false ∧
    nodePort s 5 = 0 ∧ portOpen s 0 = true ∧ sent0.wire ≤ fabricLevel s 0 whoTransit := by decide +kernel
/-- A control frame of 16 bytes from node 5, and the same sealed. -/
def frame0 : Frame := ⟨1, 5, 0, ftControl, 2, 1, 5, 16, 1, 0, List.replicate 16 0, 0⟩
def frame5 : Frame := { frame0 with tag := gcmTag 0 (frameIv (unitId + 1) unitId false 1) (frameHead frame0) frame0.payload }
theorem frame5_opens :
    ∃ pt, gcmOpen 0 (frameIv (unitId + 1) unitId false frame5.seq) (frameHead frame5) frame5.payload frame5.tag = some pt := by
  have a : ∀ (f : Frame) (t : Tag), frameHead { f with tag := t } = frameHead f := fun _ _ => rfl
  simp only [frame5, a, gcmOpen]
  exact ⟨_, if_pos rfl⟩
theorem test_frameReceive_met :
    let s := linked flow1
    portOpen s 0 = true ∧ s.pow.tcuDown = false ∧ frameLegal frame5 = true ∧ ownNode s = some frame5.dstNode ∧
    flowAt s frame5.srcNode = some flow1 ∧ nodeUnit s frame5.srcNode = some (unitId + 1) ∧
    memberNode s frame5.srcNode = true ∧ frameEpochs s flow1 frame5.flags = some (1, 0) ∧
    keyCached s 0 whoSys (unitId + 1) 1 0 = true ∧ engKey s (.flow (unitId + 1) 1 0) = some 0 ∧
    (∃ pt, gcmOpen 0 (frameIv (unitId + 1) unitId false frame5.seq) (frameHead frame5) frame5.payload frame5.tag = some pt) ∧
    (∃ u w, activeFlow (touchKey (s.intake 32 2) 0 whoSys (unitId + 1) 1 0) frame5.srcNode = some (u, w) ∧
      seqKind w frame5.seq = .newAhead) :=
  ⟨by decide +kernel, rfl, by decide +kernel, linked_own _, rfl, linked_unit _, linked_member _, by decide +kernel,
    linked_cached _, linked_key _, frame5_opens, ⟨_, _, rfl, by decide +kernel⟩⟩
theorem test_pass_met : ownNode (linked flow1) ≠ some 9 := by rw [linked_own]; decide
theorem test_ackSend_met :
    let f := { flow1 with pendingAcks := [(1, cOk)] }
    let s := linked f
    switchFlow s 5 = s ∧ f.ackAt + 1000 ≤ s.ns ∧ f.held = false ∧ f.awaitKey = false ∧ nodePort s 5 = 0 ∧
    keyAllows s (sendKey (unitId + 1) f) 1 (ackPayload (f.pendingAcks.take 16)).length = true ∧
    wireOf (ackPayload (f.pendingAcks.take 16)).length ≤ fabricLevel s 0 whoSys ∧ sendKey (unitId + 1) f = .flow (unitId + 1) 1 0 := by
  intro f s
  refine ⟨?_, by decide +kernel, rfl, rfl, by decide +kernel, ?_, by decide +kernel, rfl⟩
  swap
  · simp [s, sendKey, linked, late, keyAllows, keyLimits, findReg, regOf, KeyReg.left, f]; decide
  have a : flowAt s 5 = some f := rfl
  have b : nodeUnit s 5 = some (unitId + 1) := linked_unit _
  have c : f.sound = true := by decide
  have d : atSwitch f = false := by decide
  simp [switchFlow, a, b, c, d]
theorem test_keyMissFill_met :
    let s := { linked flow1 with
      link.ports := [(0, { BrassPort.reset with misses := [⟨whoSys, 5, 1, 0, [], [], 0⟩] })]
      vault.slots := slotOf (.flow (unitId + 1) 1 0) 0 :: known.vault.slots }
    (portAt s 0).misses ≠ [] ∧ (findKey (needKey s (.flow (unitId + 1) 1 0)) (.flow (unitId + 1) 1 0)).isSome = true := by
  intro s
  have h : findKey s (.flow (unitId + 1) 1 0) = some (slotOf (.flow (unitId + 1) 1 0) 0) := by
    simp [s, findKey, slotOf]
  refine ⟨by decide +kernel, ?_⟩
  have t : pathTenant s (.flow (unitId + 1) 1 0) = none := rfl
  simp [needKey, chargeDerive, t, derive, h]
theorem test_flowKeyRetire_met :
    let s := linked { flow1 with rolloverAt := some 0 }
    flowAt s 5 = some { flow1 with rolloverAt := some 0 } ∧ setting s 0x5000 1 * 1000000 ≤ s.ns := by decide +kernel
/-- A live seal of a class, in one queue of a context. -/
def sealOf (cls : Nat) (raw : Bytes) : LiveSeal :=
  { serial := 1, wrap := 0, dispatched := true, did := 1, ctx := 3, gen := 0, slice := 1, queue := 1, cls := cls, raw := raw,
    pieceWord := 0, start := 0, len := 64, trs := [], tag := 0, objs := [], evts := [], hostEntry := none, port := none,
    waiting := false, deferUntil := none, deadline := none }
theorem test_fence_met :
    let s := { linked flow1 with gate.seals := [(4, sealOf kFence [])] }
    (tget s.gate.seals 4).isSome = true ∧ fencesOf s 3 1 < 4 ∧
    (let u := { linked flow1 with link.fences := [⟨3, 0, 1, 4, 0, [], [], cOk, 0, 1, [], none⟩] }
     (u.link.fences.find? fun f => f.ctx == 3 && f.queue == 1).any fun f => decide (f.startedAt + f.timeoutMs * 1000000 ≤ u.ns)) := by
  decide +kernel
theorem test_lanes_met : unit.pow.iod = true := rfl
/-- The body of a SEND step to node 5: one chunk of 256 elements of format 0. -/
def sendBody : Bytes :=
  List.replicate 14 0 ++ [0, 1] ++ List.replicate 4 0 ++ [5, 0, 0, 0] ++ [0, 1, 0, 0] ++ List.replicate 20 0
theorem test_stepStage_met :
    let s := { linked flow1 with gate.seals := [(4, sealOf kStep (List.replicate 32 0 ++ sendBody))] }
    (stepsWhere s fun t => t.slot == 4 && t.state != 3) = [] ∧ stepInvalid sendBody = false ∧ stRound sendBody = false ∧
    (∀ n ∈ stepIns sendBody ++ stepOuts sendBody, memberNode s n = true) ∧ (freeStep s 0 1).isSome = true := by
  intro s
  refine ⟨by decide +kernel, by decide +kernel, by decide +kernel, ?_, by decide +kernel⟩
  rw [show stepIns sendBody ++ stepOuts sendBody = [5] by decide +kernel]
  intro n hn
  rw [List.mem_singleton.mp hn]; exact linked_member _
/-- A RUNNING step with one chunk ready for node 5. -/
def step0 : StepRec :=
  { slot := 4, ctx := 3, gen := 0, slice := 1, queue := 1, body := sendBody, localA := 0, destA := 0, state := 2, code := cOk,
    timeoutMs := 1, taken := [], acc := [], input := [], fetched := [], owed := [], outQueued := [(0, 0)], outData := [(0, [1])], emitted := 1,
    outSent := [], outDone := 0, aborts := [], progressAt := 0, failAt := 0 }
/-- The linked unit with one step in slot 12 of port 0's alloy. -/
def stepping (t : StepRec) : State :=
  { linked flow1 with
    alloys := [(0, { Alloy.reset with steps := [(12, t)] })]
    link.ports := [(0, { BrassPort.reset with up := true, activeLanes := 4, keyCache := [(1, unitId + 1, 1, 0)] })] }
theorem test_chunkEmit_met :
    let s := stepping step0
    (∃ u seq, sealNow s s.link.nextReq (chunkFrame step0 0 5 [1]) = (u, .sealed seq)) ∧ (stepOuts step0.body).getD 0 0 = 5 ∧
    stepTurn (alloyAt s 0) 1 12 = true ∧ wireOf 1 ≤ fabricLevel s 0 1 := by
  intro s
  refine ⟨?_, by decide +kernel, by decide +kernel, by decide +kernel⟩
  have a : flowAt s 5 = some flow1 := rfl
  have b : nodeUnit s 5 = some (unitId + 1) := linked_unit flow1
  have c : flow1.sound = true := by decide
  have d : atSwitch flow1 = false := by decide
  have e : switchFlow s 5 = s := by simp [switchFlow, a, b, c, d]
  have m : memberNode s 5 = true := linked_member flow1
  have o : ownNode s = some 1 := linked_own flow1
  have k : engKey s (sendKey (unitId + 1) flow1) = some 0 := linked_key flow1
  have w : sealWaits s (chunkFrame step0 0 5 [1]) flow1 = false := by
    simp only [sealWaits, o]; decide +kernel
  have h : keyCached s 0 1 (unitId + 1) flow1.domainEpoch flow1.flowEpoch = true := by
    simp [s, stepping, linked, late, keyCached, portAt, tgetD, tget, flow1, newFlow, sendEpoch, anchor, known]; decide
  generalize hr : chunkFrame step0 0 5 [1] = r at w ⊢
  have rn : r.node = 5 := by rw [← hr]; rfl
  have rp : reqPort s r = 0 := by rw [← hr]; rfl
  have rs : r.slice = 1 := by rw [← hr]; rfl
  have al : keyAllows s (sendKey (unitId + 1) flow1) 1 (sealPayload r.payload).length = true := by
    rw [← hr]; simp [s, stepping, sendKey, linked, late, keyAllows, keyLimits, findReg, regOf, KeyReg.left, flow1, newFlow]; decide
  simp [sealNow, rn, m, e, a, b, o, rp, rs, w, h, k, al]
theorem test_stepEnds_met :
    let s := stepping step0
    stepAt s 0 12 = some step0 ∧ stepLate s step0 = [] ∧ step0.progressAt + step0.timeoutMs * 1000000 ≤ s.ns ∧
    stepAwaits step0 ≠ 0 ∧ (alloyAt s 0).lanesOut.contains 3 = false ∧
    (stepAt (stepping { step0 with state := 3 }) 0 12).any (fun t => t.state == 3) := by decide +kernel
/-- The unit with region 4 in a state, and one read outstanding at its port 0. -/
def tierB (state : Nat) : State :=
  late { unit with
    mem.regions := [(4, ⟨state, 1, false, 1, 3, 0, 0, 0, 0, 0, false, true, false, 0, 1⟩)]
    mem.ports := [(0, { Pewter.reset with reads := [⟨7, 0, 256, 0, false, false, .granule 0⟩] })]
    gate.scrubs := [(9, ⟨List.range 16, [], [2], false⟩)] }
theorem test_tierB_met :
    let s := tierB 1
    s.up = true ∧ (tget s.mem.regions 4).any (fun g => g.state == 1) ∧ ((pewAt s 0).reads.find? fun r => r.tag == 7).any (fun r => !r.stale) ∧
    (pewAt s 0).rotQueue = [] ∧
    (pewAt s 0).reads.any (fun r => decide (r.sent + setting s 0x5100 5 * 1000 ≤ s.ns)) ∧ (pewAt s 0).rotating.length < 256 ∧
    (let u := tierB 2
     (tget u.mem.regions 4).any (fun g => g.state == 2 && decide (g.sweep < 262144)) ∧
     ((pewAt u 0).jobs.any fun j => j.2.r.region == 4 && j.2.op == .sweep) = false ∧
     (pewAt u 0).assayed.contains 4 = false) := by decide +kernel
theorem test_checkers_met :
    let s := tierB 1
    s.cross.nrst.contains (96 + 1) = false ∧ (tget s.gate.scrubs 9).any (fun x => !x.withheld && decide (16 ≤ x.acks.length)) ∧
    (tget s.gate.scrubs 9).any (fun x => !x.failed.contains 1 && x.failed.contains 2) := by decide +kernel
/-- The unit with an open SPDM session, slice 1 in service with its bounce keys, and a live context 3 of it. -/
def sliced : State :=
  { known with
    host.session := 2, ctxs.slices := [(1, ⟨1, some 7⟩)]
    ctxs.table := [(3, ⟨.live, 0, false, 1, false⟩)]
    vault.regs := [regOf (.bounce 1 0 0) 5, regOf (.bounce 1 1 0) 5] }
/-- The header of a slice page's command under an inbound key, with its tag. -/
def sliceHdr (s : State) (slice opcode ctx : Nat) (k : Key) (body : Bytes) : MbxHdr :=
  let seq := (mbxPage s (slice + 1)).nextSeq
  ⟨slice + 1, mbxLen body true, seq, ctx, 0, 0, gmac k (mbxIv slice seq) (mbxMessage opcode (mbxLen body true) seq ctx 0 0 body)⟩
/-- A slice page takes a command that carries its tag. -/
theorem takes_slice (s : State) (slice opcode ctx : Nat) (k : Key) (body : Bytes) (h : engKey s (bounceNow s slice 0) = some k)
    (p : mbxPresent s ⟨slice + 1, 0, 0, 0, 0, 0, 0⟩ = true) (c : ctx < 4096) (n : mbxLen body true ≤ 1024)
    (v : (!s.serving || !s.pow.readmitted || s.boot.loader) = false) (o : s.host.session = 2)
    (a : keyAllows s (bounceNow s slice 0) 1 0 = true) :
    s.takesMailbox (sliceHdr s slice opcode ctx k body) opcode false body := by
  refine ⟨p, ?_⟩
  simp [mbxCheck, sliceHdr, v, o, a, mbxTag, hdrBad, h, Nat.not_le.mpr c, Nat.not_lt.mpr n]
theorem sliced_takes (opcode ctx : Nat) (body : Bytes) (c : ctx < 4096) (n : mbxLen body true ≤ 1024) :
    sliced.takesMailbox (sliceHdr sliced 1 opcode ctx 0 body) opcode false body :=
  takes_slice _ _ _ _ _ _ (by decide +kernel) (by decide +kernel) c n (by decide +kernel) rfl (by decide +kernel)
theorem test_bounceState_met : ∃ h, sliced.takesMailbox h 0x0101 false [] ∧ ctxExists (mbxTaken sliced h) h.ctxId = true ∧
    (ctxAt (mbxTaken sliced h) h.ctxId).slice = hslice h :=
  ⟨_, sliced_takes 0x0101 3 [] (by decide) (by decide), rfl, rfl⟩
/-- The same unit with an inbound and an outbound host-DMA piece of no bytes, the inbound one started or not. -/
def dma (work : List HostWork) : State :=
  { sliced with
    gate.seals := [(4, sealOf kHostDma []), (5, sealOf kHostDma (List.replicate 32 0 ++ [1]))], host.work := work }
theorem test_hostInbound_met : ∃ l, hostPiece (dma []) 4 false = some l ∧ hostStarted (dma []) 4 = false ∧
    (dma []).crossOpen 128 = true ∧ ctxCurrent (dma []) l.ctx l.gen = true ∧ verifyUsed (dma []) + hdLen l.raw ≤ 4194304 ∧
    hostRoom (dma []) l.slice 0 (48 + hdLen l.raw) = true :=
  ⟨sealOf kHostDma [], by decide +kernel, by decide +kernel, by decide +kernel, by decide +kernel, by decide +kernel,
    by decide +kernel⟩
/-- A record of that piece. -/
def record0 : BounceRec := ⟨4, 0, 1, 0, 3, 0, 1, 0, 0, 0, [], 0⟩
theorem test_hostRecordArrive_met : ∃ (l : LiveSeal) (r : BounceRec), hostPiece (dma [⟨4, 0⟩]) 4 false = some l ∧
    hostStarted (dma [⟨4, 0⟩]) 4 = true ∧ recordRefuses (dma [⟨4, 0⟩]) l r = none ∧
    inboundGen (dma [⟨4, 0⟩]) l.slice r.keyGen = some 0 ∧ engKey (dma [⟨4, 0⟩]) (.bounce 1 0 0) = some 0 ∧
    keyAllows (dma [⟨4, 0⟩]) (.bounce 1 0 0) 1 0 = true ∧
    (gcmOpen 0 (recordIv r.ctxId r.ctxGen r.seq) (recordAad r) r.payload r.tag).isSome = true := by
  have a : ∀ (r : BounceRec) (t : Tag), recordAad { r with tag := t } = recordAad r := fun _ _ => rfl
  have b : ∀ (s : State) (l : LiveSeal) (r : BounceRec) (t : Tag), recordRefuses s l { r with tag := t } = recordRefuses s l r :=
    fun _ _ _ _ => rfl
  refine ⟨sealOf kHostDma [], { record0 with tag := gcmTag 0 (recordIv 3 0 1) (recordAad record0) [] }, by decide +kernel,
    by decide +kernel, ?_, by decide +kernel, by decide +kernel, by decide +kernel, ?_⟩
  · rw [b]; decide +kernel
  · exact (congrArg Option.isSome (gcmOpen_own 0 (recordIv 3 0 1) (recordAad record0) [])).trans rfl
theorem test_hostOutbound_met : ∃ l, hostPiece (dma []) 5 true = some l ∧ hostRoom (dma []) l.slice 1 (48 + hdLen l.raw) = true ∧
    hostDenied (dma []) l (hdTierA l) (hdLen l.raw) false = none ∧ engKey (dma []) (bounceNow (dma []) l.slice 1) = some 0 ∧
    keyAllows (dma []) (bounceNow (dma []) l.slice 1) 1 0 = true :=
  ⟨sealOf kHostDma (List.replicate 32 0 ++ [1]), by decide +kernel, by decide +kernel, by decide +kernel, by decide +kernel,
    by decide +kernel⟩
theorem test_msix_met : ({ unit with host.msixPending := [3] } : State).host.msixPending.contains 3 = true ∧
    unit.host.msixPending.contains 3 = false := by decide
/-- A descriptor of queue 1 of context 3 that waits in a way. -/
def descOf (h : Hold) (raw : Bytes) : Desc :=
  { ctx := 3, gen := 0, slice := 1, queue := 1, cp := 0, raw := raw, nextElem := 0, total := 1, piece := 0, live := 0, hold := h,
    admitted := true, outcome := cOk, deferral := 0, admittedAt := 0, code := cOk, detail := 0, faultAddr := 0, charge := 0,
    host := [], reseal := none, reserved := false, held := false }
/-- A bound queue of context 3. -/
def queue0 : Queue :=
  { gen := 0, slice := 1, ring := 0, ringSize := 16, head := 0, tail := 0, cring := 0, cringSize := 16, chead := 0, ctail := 0,
    vector := 0, stopped := false }
/-- The unit with that queue, one descriptor and one live seal in slot 1. -/
def gated (h : Hold) (l : LiveSeal) : State :=
  late { sliced with gate.queues := [(qid 3 1, queue0)], gate.descs := [(1, descOf h (kHostDma :: List.replicate 35 1))], gate.seals := [(1, l)] }
theorem test_submit_met :
    let s := gated .none (sealOf kArray [])
    s.up = true ∧ s.crossOpen 160 = true ∧ tget s.gate.queues (qid 3 1) = some queue0 ∧ queue0.stopped = false ∧
    (ctxAt s 3).mode ≠ .frozen ∧ (tget s.gate.seals 1).any (fun l => l.dispatched && execOf l.raw != 5) ∧
    ctxCurrent s 3 0 = true := by decide +kernel
theorem test_waits_met :
    (waitingDesc (gated .room (sealOf kArray [])) 3 1 Hold.isRoom).isSome ∧
    (waitingDesc (gated .walk (sealOf kArray [])) 3 1 Hold.isWalk).isSome ∧
    (waitingDesc (gated (.ats false false) (sealOf kArray [])) 3 1 Hold.isAts).any (fun d => (hostNext d.2).isSome) ∧
    (waitingDesc (gated (.prg true) (sealOf kArray [])) 3 1 Hold.isPrg).isSome ∧
    (waitingDesc (gated (.fault 0 0 1) (sealOf kArray [])) 3 1 Hold.isFault).isSome ∧
    1 * 1000000 ≤ (gated .none (sealOf kArray [])).ns ∧ (gated .none (sealOf kArray [])).crossOpen 128 = true ∧
    slicePasid (gated .none (sealOf kArray [])) 1 = some 7 := by decide +kernel
theorem test_check_met :
    let s := gated .none { sealOf kArray [] with dispatched := false }
    s.crossOpen 160 = true ∧ ∃ desc : Bytes, fld desc 96 8 = 1 ∧ (s.gate.lostSeals.find? fun p => p.1 == 1) = none ∧
    (tget s.gate.seals 1).any (fun l => decide (l.serial.toNat = 1) && !l.dispatched && l.port.isNone && !staleHost s l) ∧
    desc.drop 144 = be 16 (sealTag s (desc.take 144) 0 (BitVec.ofNat 64 1)).toNat ∧
    (tget s.gate.descs 1).bind (·.reseal) = none := by
  intro s
  let d : Bytes := List.replicate 96 0 ++ [1] ++ List.replicate 47 0
  have a : ∀ t : Bytes, (d ++ t).take 144 = d := fun t => List.take_left' rfl
  have b : ∀ t : Bytes, (d ++ t).drop 144 = t := fun t => List.drop_left' rfl
  refine ⟨by decide +kernel, d ++ be 16 (sealTag s d 0 (BitVec.ofNat 64 1)).toNat, ?_, by decide +kernel, by decide +kernel, ?_, by decide +kernel⟩
  · unfold fld
    rw [List.drop_append_of_le_length (by decide), List.take_append_of_le_length (by decide)]; decide
  · rw [a, b]
/-- An object of slice 1 that context 3 holds, at index 1. -/
def object0 : MemObj :=
  { state := 1, kind := 1, slice := 1, rights := 3, gen := 0, owner := 3, holders := [3], qrefs := 0, size := 0, peers := none,
    frames := [], tierB := false, group := none, tokens := 0, stride := 0, blocks := [] }
/-- The unit with that object, an event at index 1, and a dispatched piece of a class naming handle 4096 or 1. -/
def allocating (cls : Nat) (raw : Bytes) : State :=
  { gated .none (sealOf cls raw) with
    gate.objs := [(1, object0), (2, { object0 with holders := [] })], gate.evts := [(1, ⟨1, cOk, 1, 3, 0, [3], 0⟩), (2, ⟨1, cOk, 1, 3, 0, [], 0⟩)] }
theorem test_queueCreate_met :
    let s := gated .none (sealOf kArray [])
    let body (q : Nat) : Bytes := le 2 3 ++ le 1 q ++ le 8 0 ++ le 4 16 ++ le 8 0 ++ le 4 16 ++ le 2 40
    s.takesMailbox (hdr (body 2)) 0x0301 true (body 2) ∧ s.takesMailbox (hdr (body 1)) 0x0301 true (body 1) ∧
    (ctxAt (mbxTaken s (hdr (body 2))) 3).mode = .live ∧ tget (mbxTaken s (hdr (body 2))).gate.queues (qid 3 2) = none ∧
    tget (mbxTaken s (hdr (body 1))).gate.queues (qid 3 1) = some queue0 := by decide +kernel
theorem test_queueDestroy_met :
    let s := { gated .none (sealOf kArray []) with gate.descs := [], gate.seals := [] }
    let h := hdr (le 2 3 ++ le 1 1)
    let u := mbxTaken s h
    s.takesMailbox h 0x0302 true (le 2 3 ++ le 1 1) ∧ (settle { u with gate.queues := tset u.gate.queues (qid 3 1) { queue0 with stopped := true } }).gate.descs = [] := by
  decide +kernel
theorem test_windowExport_met :
    let s := { sliced with gate.objs := [(1, object0)] }
    ∃ h, s.takesMailbox h 0x0303 false (le 4 4096 ++ le 1 4 ++ ([5].flatMap (le 2))) ∧
    sliceObj (mbxTaken s h) (hslice h) 4096 = .ok (1, object0) ∧ bits 4 4 2 = 1 ∧
    ((peerSets (mbxTaken s h)).filter fun p => p.2.slice == hslice h).length < peerPart (mbxTaken s h) (hslice h) :=
  ⟨sliceHdr _ 1 0x0303 3 0 _, takes_slice _ _ _ _ _ _ (by decide +kernel) (by decide +kernel) (by decide) (by decide) (by decide +kernel) rfl
    (by decide +kernel), rfl, by decide, by decide +kernel⟩
theorem test_objectInfo_met :
    let s := { sliced with gate.objs := [(1, object0)] }
    ∃ h, s.takesMailbox h 0x0304 false (le 4 4096) ∧ sliceObj (mbxTaken s h) (hslice h) 4096 = .ok (1, object0) :=
  ⟨sliceHdr _ 1 0x0304 3 0 _, takes_slice _ _ _ _ _ _ (by decide +kernel) (by decide +kernel) (by decide) (by decide) (by decide +kernel) rfl
    (by decide +kernel), rfl⟩
theorem test_alloc_met :
    (allocPiece (allocating kAlloc []) 1 kAlloc).isSome ∧
    (allocPiece (allocating kFree (List.replicate 32 0 ++ [0, 16, 0, 0])) 1 kFree).any
      (fun l => (objCheck (allocServed (allocating kFree []) l) l.ctx l.slice (dBody l.raw 0 4)).isNone) ∧
    (allocPiece (allocating kEventCreate []) 1 kEventCreate).any
      (fun l => decide (evtsUsed (allocating kEventCreate []) l.slice < evtPart (allocating kEventCreate []) l.slice)) ∧
    (allocPiece (allocating kEventFree (List.replicate 32 0 ++ [1, 0, 0, 0])) 1 kEventFree).any
      (fun l => (evtCheck (allocating kEventFree []) l.ctx l.slice (dBody l.raw 0 4)).isNone) ∧
    objIdle (allocating kFree []) 2 { object0 with holders := [] } = true ∧
    evtIdle (allocating kFree []) 2 ⟨1, cOk, 1, 3, 0, [], 0⟩ = true := by decide +kernel
/-- The unit with slice 1 at a state, session 2 open, and context 3 of that slice. -/
def slicing (state : Nat) : State :=
  { sliced with
    ctxs.slices := [(1, ⟨state, some 7⟩)], ctxs.table := [(3, ⟨.live, 0, false, 1, false⟩), (4, ⟨.live, 0, false, 1, false⟩)]
    gate.evts := [(1, ⟨1, cOk, 1, 3, 0, [3], 0⟩)], gate.objs := [(1, object0)] }
theorem test_pasidBind_met :
    let u := mbxTaken (slicing 1) (hdr (le 1 2 ++ le 4 8))
    (slicing 1).takesMailbox (hdr (le 1 2 ++ le 4 8)) 0x0401 true (le 1 2 ++ le 4 8) ∧ sliceExists u 2 = true ∧ slicePasid u 2 = none ∧
    sliceCtxs u 2 = 0 ∧ pasidTaken u 2 8 = false ∧ bounceRefused u 2 = none := by decide +kernel
theorem test_contextCreate_met :
    let u := mbxTaken (slicing 1) (hdr [])
    (slicing 1).takesMailbox (hdr (le 1 1 ++ le 2 5 ++ le 1 0)) 0x0402 true (le 1 1 ++ le 2 5 ++ le 1 0) ∧ sliceExists u 1 = true ∧ (slicePasid u 1).isSome = true ∧
    sliceFrozen u 1 = false ∧ sliceCtxs u 1 < ctxQuota u 1 ∧ ctxPick u 5 = some 5 ∧
    (slicing 1).takesMailbox (hdr (le 2 3)) 0x0403 true (le 2 3) ∧ ctxExists u 3 = true := by decide +kernel
theorem test_eventShare_met :
    ∃ h, (slicing 1).takesMailbox h 0x0404 false (le 4 1 ++ le 2 4) ∧
    (sliceEvt (mbxTaken (slicing 1) h) (hslice h) 1).toOption.isSome ∧ shareTarget (mbxTaken (slicing 1) h) (hslice h) 4 = none :=
  ⟨sliceHdr _ 1 0x0404 3 0 _, takes_slice _ _ _ _ _ _ (by decide +kernel) (by decide +kernel) (by decide) (by decide) (by decide +kernel) rfl
    (by decide +kernel), by decide +kernel, by decide +kernel⟩
theorem test_eventQuery_met :
    ∃ h, (slicing 1).takesMailbox h 0x0406 false (le 4 1) ∧
    (sliceEvt (mbxTaken (slicing 1) h) (hslice h) 1).toOption.isSome :=
  ⟨sliceHdr _ 1 0x0406 3 0 _, takes_slice _ _ _ _ _ _ (by decide +kernel) (by decide +kernel) (by decide) (by decide) (by decide +kernel) rfl
    (by decide +kernel), by decide +kernel⟩
theorem test_memoryShare_met :
    ∃ h, (slicing 1).takesMailbox h 0x0405 false (le 4 4096 ++ le 2 4 ++ le 8 0 ++ le 1 1) ∧
    (let u := mbxTaken (slicing 1) h
     sliceObj u (hslice h) 4096 = .ok (1, object0) ∧ shareTarget u (hslice h) 4 = none ∧ shareVa u 4 0 object0 = none ∧
     (shareGroup u 1 object0).any fun r => decide (((tgetD r.1.gate.groups r.2 []).filter fun m => m.1 != 4).length < 16)) :=
  ⟨sliceHdr _ 1 0x0405 3 0 _, takes_slice _ _ _ _ _ _ (by decide +kernel) (by decide +kernel) (by decide) (by decide) (by decide +kernel) rfl
    (by decide +kernel), by decide +kernel, by decide +kernel, by decide +kernel, by decide +kernel⟩
theorem test_ctxUsage_met :
    (∃ h, (slicing 1).takesMailbox h 0x0407 false (le 2 0)) ∧
    ∃ h, (slicing 1).takesMailbox h 0x0407 false (le 2 3) ∧ ctxExists (mbxTaken (slicing 1) h) 3 = true ∧
    (ctxAt (mbxTaken (slicing 1) h) 3).slice = hslice h :=
  ⟨⟨sliceHdr _ 1 0x0407 3 0 _, takes_slice _ _ _ _ _ _ (by decide +kernel) (by decide +kernel) (by decide) (by decide) (by decide +kernel) rfl
    (by decide +kernel)⟩,
   sliceHdr _ 1 0x0407 3 0 _, takes_slice _ _ _ _ _ _ (by decide +kernel) (by decide +kernel) (by decide) (by decide) (by decide +kernel) rfl
    (by decide +kernel), by decide +kernel, by decide +kernel⟩
theorem test_sliceFreeze_met :
    (slicing 1).takesMailbox (hdr (le 1 1)) 0x0408 true (le 1 1) ∧ (tget (mbxTaken (slicing 1) (hdr (le 1 1))).ctxs.slices 1).map (·.state) = some 1 ∧
    sliceSteps (mbxTaken (slicing 1) (hdr (le 1 1))) 1 = false ∧ (slicing 3).takesMailbox (hdr (le 1 1)) 0x0409 true (le 1 1) ∧
    (tget (mbxTaken (slicing 3) (hdr (le 1 1))).ctxs.slices 1).map (·.state) = some 3 := by decide +kernel
theorem test_tenantSlices_met : unit.up = true ∧ tenantsEmpty unit = true := by decide +kernel
/-- The unit with its identity, a slice at a state with no context, and an operator key that holds 0. -/
def migrating (state : Nat) : State :=
  late { known with
    ctxs.slices := [(1, ⟨state, some 7⟩)], vault.slots := slotOf .oper 0x2000 :: known.vault.slots
    ctxs.offers := [(0, ⟨1, [], 0, 0, 0, 0, 1⟩)] }
/-- A key of zeros wrapped under an operator key of zeros. -/
def blob0 : WrappedBlob :=
  let b : WrappedBlob := ⟨1, 3, 0x2000, 8, 0, 0, [], kcv 0, 0⟩
  let r := gcmSeal 0 0 (blobAad b) (le 8 0 ++ be 32 0)
  { b with body := r.1, tag := r.2 }
theorem blob0_opens (s : State) (h : key256 s .oper = some 0) : unwrap s 3 blob0 = some (0, 0) := by
  have g : gcmOpen 0 blob0.iv (blobAad blob0) blob0.body blob0.tag = some (le 8 0 ++ be 32 0) := gcmOpen_seal 0 0 _ _
  have p : wrapperPath blob0.wrapper = some .oper := rfl
  have a : attrAllowed s blob0 = true := by

    have b : bit blob0.attr.toNat 12 = false := by decide
    simp only [attrAllowed, b, Bool.not_false, Bool.true_or]
    decide
  simp only [unwrap, p, Option.bind_some, h, g]
  rw [if_pos ⟨rfl, rfl, rfl, by decide, a, rfl⟩]
  decide
/-- An image of an empty slice of this unit, its key wrapped and its header signed. -/
def image0 : SliceImage :=
  let m : SliceImage :=
    { format := 5, target := 0, slice := 1, srcUnit := unitId, srcSession := 0, dstUnit := unitId, domainId := 0, saveTime := 0,
      offerDigest := 0, q := 0, ct := 0, blob := some blob0, reserved := 0, hallmark := none, signature := ⟨0, 0⟩, owner := 0,
      ctxs := [], objs := [], evts := [], pend := [], chans := [], recordsOk := true }
  { m with signature := hybSign (IdentKeys.pub ⟨0, 0⟩) (imageHeader m) 0 0 }
theorem test_sliceOffer_met :
    let u := mbxTaken (migrating 1) (hdr (le 1 1 ++ le 8 0))
    let k := kaKeys u.drew
    (migrating 1).takesMailbox (hdr (le 1 1 ++ le 8 0)) 0x040A true (le 1 1 ++ le 8 0) ∧ notTenant u 1 = none ∧ (u.ctxs.offers.filter fun o => offerLive u o.2).length < 4 ∧ u.vault.entropyOk = true ∧
    ∃ t h, makeHallmark k.1 (offerDigest (offerBody unitId u.pow.sessionId 1 (u.drawn 256) (Config.ecPoint k.2.1)
      (Config.kemKey k.2.2))) none true = (t, some h) :=
  ⟨by decide +kernel, by decide +kernel, by decide +kernel, by decide +kernel, makeHallmark_met _ _ _ _ _ rfl rfl rfl⟩
theorem test_offerExpire_met :
    (tget (migrating 1).ctxs.offers 0).any (fun o => decide (o.madeAt + o.lifetime * 1000000000 ≤ (migrating 1).ns)) = true := by
  decide +kernel
theorem test_saveSelf_met :
    let u := mbxTaken (migrating 3) (hdr (le 1 1 ++ le 1 0 ++ le 8 0))
    let u1 := needKey (putImageKey u.drew 1 (u.drawn 256)) .oper
    (migrating 3).takesMailbox (hdr (le 1 1 ++ le 1 0 ++ le 8 0)) 0x040B true (le 1 1 ++ le 1 0 ++ le 8 0) ∧ notTenant u 1 = none ∧
    (tget u.ctxs.slices 1).map (·.state) = some 3 ∧ saveDenied u 1 = none ∧ u.vault.entropyOk = true ∧ (findKey u1 (.imageKey 1)).isSome = true ∧ saveRefused u1 1 = none ∧
    key256 u1 .oper = some 0 := by decide +kernel
/-- The anchor with unit 5 a member under its policy, and slice 1 frozen. -/
def peering : State :=
  { anchor with
    ctxs.slices := [(1, ⟨3, some 7⟩)], dom.members := [⟨5, 0, 0⟩], dom.policy := some (policyBy key0 unitId) }
theorem test_savePeer_met :
    let u := mbxTaken peering (hdr (le 1 1 ++ le 1 1 ++ le 8 0))
    let body := offerBody 5 0 1 0 baseQ 0
    peering.takesMailbox (hdr (le 1 1 ++ le 1 1 ++ le 8 0)) 0x040B true (le 1 1 ++ le 1 1 ++ le 8 0) ∧ notTenant u 1 = none ∧
    (tget u.ctxs.slices 1).map (·.state) = some 3 ∧ saveDenied u 1 = none ∧ peerOk u 5 body (hallOf 5 (offerDigest body) none) = true ∧
    ∃ s1 qr ct ss t own, kaRespond u baseQ 0 = (s1, some (qr, ct, ss)) ∧
    (findKey (putImageKey s1 1 (left256 ss)) (.imageKey 1)).isSome = true ∧
    makeHallmark (putImageKey s1 1 (left256 ss)) 0 none true = (t, some own) := by
  intro u body
  have e : (pointValid baseQ && kemKeyValid 0 && u.vault.entropyOk) = true := by decide +kernel
  have k : ∃ qr ct ss, kaRespond u baseQ 0 = ({ (bumpUnit u.drew.drew uPk 0 1) with cipher.pkDone := u.cipher.pkDone + 1 },
    some (qr, ct, ss)) := ⟨_, _, _, if_pos e⟩
  obtain ⟨qr, ct, ss, k⟩ := k
  obtain ⟨t, own, q⟩ := makeHallmark_met (putImageKey { (bumpUnit u.drew.drew uPk 0 1) with cipher.pkDone := u.cipher.pkDone + 1 }
    1 (left256 ss)) _ 0 none true rfl rfl rfl
  refine ⟨by decide +kernel, by decide +kernel, by decide +kernel, by decide +kernel, ?_, _, qr, ct, ss, t, own, k, by rfl, q⟩
  unfold peerOk
  rw [hallOf_ok]
  decide +kernel
theorem test_restore_met :
    let u := mbxTaken (migrating 1) (hdr (le 1 1))
    (migrating 1).takesMailbox (hdr (le 1 1)) 0x040C true (le 1 1) ∧ notTenant u 1 = none ∧ (slicePasid u 1).isSome = true ∧
    sliceCtxs u 1 = 0 ∧ sliceFrozen u 1 = false ∧ imageGood u 1 image0 = true ∧ imageFits u 1 image0 = true := by
  refine ⟨by decide +kernel, by decide +kernel, by decide +kernel, by decide +kernel, by decide +kernel, ?_, by decide +kernel⟩
  have o : unwrap (mbxTaken (migrating 1) (hdr (le 1 1))) 3 blob0 = some (0, 0) := blob0_opens _ (by decide +kernel)
  have i : identity (mbxTaken (migrating 1) (hdr (le 1 1))) = some (IdentKeys.pub ⟨0, 0⟩) := rfl
  have e : imageHeader image0 = imageHeader { image0 with signature := ⟨0, 0⟩ } := rfl
  have g : hybOk (IdentKeys.pub ⟨0, 0⟩) (imageHeader image0) image0.signature = true := by
    rw [e]; exact hybOk_sign _ _ _ _ (pointValid_pub _)
  have w : blob0.wrapper = 8 := rfl
  unfold imageGood
  rw [i, Option.any_some, g, show image0.blob = some blob0 from rfl, Option.any_some, o, w]
  simp [image0]
theorem test_arrayClean_met :
    let s := { unit with cross.arrayClean := false }
    s.crossOpen 192 = true ∧ s.arb.paused = false ∧ (s.arb.cutAt.any fun t => decide (t + 1500 < s.ns)) = false ∧
    (late { s with arb.cutAt := some 0, err.arbResetAt := some 0 }).up = true ∧
    10000000 ≤ (late { s with arb.cutAt := some 0, err.arbResetAt := some 0 }).ns := by decide +kernel
/-- A unit with one piece in slot 1 of slice 1, whose deferral and deadline have passed. -/
def deferred : State :=
  late { sliced with
    gate.seals := [(1, { sealOf kArray [] with dispatched := false, deferUntil := some 0, port := some 2, deadline := some 0 })] }
theorem test_deferral_met :
    (tget deferred.gate.seals 1).any (fun l => l.deferUntil == some 0 && l.port == some 2 && !l.dispatched && !l.waiting &&
      l.slice != 0 && !started deferred 1 l && l.deadline == some 0) = true ∧ 0 < deferred.domNs := by decide +kernel
theorem test_tileevt_met :
    let s := { deferred with arb.runSlot := some 1, arb.span := .quantum 0 1 }
    (tget s.gate.seals 1).map (·.slice) = spanOwner s ∧ (tget s.gate.seals 1).map (·.slice) ≠ spanOwner { s with arb.span := .guard } := by
  decide +kernel
theorem test_castArm_met : (armCast unit ownTcu 6 0 20000 0 none).2.1 = cOk ∧ (armCast unit ownArb 1 0 20000 0 none).2.1 = cOk ∧
    ∃ h, sliced.takesMailbox h 0x0501 false (le 1 4 ++ le 1 0 ++ le 2 0 ++ le 8 20000 ++ le 8 0) ∧
    headerCtx (mbxTaken sliced h) h = true ∧
    (armCast (mbxTaken sliced h) (hslice h) 4 0 20000 0 (some (h.ctxId, (ctxAt (mbxTaken sliced h) h.ctxId).gen))).2.1 = cOk :=
  ⟨by decide +kernel, by decide +kernel, _, sliced_takes 0x0501 3 _ (by decide) (by decide), by decide +kernel, by decide +kernel⟩
/-- A cast of slice 1 with one target, acknowledged or not, that fires at a time. -/
def castOf (fire : Nat) (acked : List Nat) : Cast :=
  { owner := 1, kind := 3, param := 0, flags := 0, fire := fire, fireInv := 2 ^ 64 - 1 - fire, seq := 1, targets := [tgArray],
    acked := acked, ctx := none, captured := [], resting := false, outcome := cOk }
/-- The unit with that cast under number 0. -/
def casting (fire : Nat) (acked : List Nat) : State := { sliced with casts.table := [(0, castOf fire acked)] }
theorem test_castAck_met : (casting 5 []).aon = true ∧ tget (casting 5 []).casts.table 0 = some (castOf 5 []) ∧
    (castOf 5 []).targets.contains tgArray = true ∧ (castOf 5 []).resting = false ∧ (casting 5 []).ns < 5 ∧
    ∃ h, (casting 5 []).takesMailbox h 0x0502 false (le 2 0 ++ le 2 1) ∧
      tget (mbxTaken (casting 5 []) h).casts.table 0 = some (castOf 5 []) ∧ (castOf 5 []).owner = hslice h :=
  ⟨by decide +kernel, by decide +kernel, by decide +kernel, by decide +kernel, by decide +kernel,
   sliceHdr _ 1 0x0502 3 0 _, takes_slice _ _ _ _ _ _ (by decide +kernel) (by decide +kernel) (by decide) (by decide) (by decide +kernel) rfl
    (by decide +kernel), rfl, rfl⟩
theorem test_timeNow_met : ∃ h, sliced.takesMailbox h 0x0503 false [] := ⟨_, sliced_takes 0x0503 3 [] (by decide) (by decide)⟩
theorem test_castFire_met : (late (casting 5 [tgArray])).up = true ∧ (castOf 5 [tgArray]).fire ≤ (late (casting 5 [tgArray])).ns ∧
    ((castOf 5 [tgArray]).fireInv = 2 ^ 64 - 1 - 5 ∧ ∀ t ∈ (castOf 5 [tgArray]).targets, t ∈ (castOf 5 [tgArray]).acked) ∧
    ¬ ∀ t ∈ (castOf 5 []).targets, t ∈ (castOf 5 []).acked := by decide +kernel
/-- The unit with logical core 0 vacant, spares on its die, and one of them under test. -/
def filling (testing : Option (Nat × Nat × Nat)) : State :=
  { unit with
    boot.vacant := [0], boot.spares := (List.range 600).filter (fun c => dieOfPhys c == dieOf 0), boot.testing := testing
    dom.manifest := some (1, 0, 0, 0), dom.roleGrant := some ⟨1, 5, 0⟩ }
theorem test_mapFill_met : (filling none).up = true ∧ (filling none).boot.stagedFill = none ∧
    (filling none).boot.vacant.contains 0 = true ∧ (pickSpare (filling none) 0).isSome = true ∧
    (ccEvents ((filling none).heldIn 194) 193 192 1).2 ≠ 0 := by decide +kernel
theorem test_spareCheck_met :
    let c := (pickSpare (filling none) 0).getD 0
    let s := filling (some (0, c, 20000000))
    s.boot.spares.contains c = true ∧
    (stageMap { s with boot.testing := none, boot.stagedFill := some (0, c) } 20000000).2.1 = cOk := by decide +kernel
theorem test_mapRole_met : (filling none).takesMailbox (hdr (le 4 1 ++ le 8 20000000)) 0x0604 true (le 4 1 ++ le 8 20000000) ∧
    (stageMap { mbxTaken (filling none) (hdr (le 4 1 ++ le 8 20000000)) with boot.stagedRole := some 1 } 20000000).2.1 = cOk := by decide +kernel
theorem test_mapVacant_met : ∃ h, sliced.takesMailbox h 0x0605 false [] := ⟨_, sliced_takes 0x0605 3 [] (by decide) (by decide)⟩
theorem test_train_met :
    let s := { unit with boot.trainWords := [1], boot.trainCursor := 1 }
    trainOk 4 (wordBytes [1]) = true ∧ s.aon = true ∧ s.pow.iod = true ∧ s.boot.trainCmd ≠ 2 ∧
    (portAt s 0).spareState ≠ 1 ∧ (portAt s 0).spareState ≠ 3 := by decide +kernel
theorem test_timeReference_met :
    let s := late { unit with time := { unit.time with trefLocked := true, state := 3, lastEdge := some 0, grid0 := some 0, virtual := true } }
    s.aon = true ∧ s.time.trefLocked = true ∧ edgeOk s.time 1000000000 = true ∧ edgeOk s.time 1500000000 = false ∧
    unit.time.trefLocked = false ∧ unit.time.lastEdge = none := by
  decide +kernel
theorem test_timeBase_met :
    let s := late { unit with time := { unit.time with trefLocked := true, state := 3, lastEdge := some 0, grid0 := some 0, virtual := true } }
    s.aon = true ∧ 1000000000 ≤ s.ns ∧ s.time.trefLocked = true ∧ s.time.state = 3 ∧ s.time.lastEdge = some 0 ∧ s.time.virtual = true := by
  decide +kernel
theorem test_clockDomain_met : unit.aon = true ∧ tget unit.casts.stopped 3 = none ∧ domainInReset unit 3 = false ∧
    tget ({ unit with casts.stopped := [(3, (0, 0))] } : State).casts.stopped 3 = some (0, 0) := by decide +kernel
/-- The unit late in its session, with levels, a message, an error, a notice and requests waiting. -/
def upset (tries cls restarts : Nat) : State :=
  late { unit with
    cross.nrst := [64], cross.vrst := [32], cross.vrstAt := [(32, 0)]
    net := [(3, ⟨⟨1, [⟨.stage, 0, 3, 0, 0, [], 0, tries⟩], 0⟩, ⟨0, [], 0⟩, false, false⟩)]
    err.banks := [(2, ⟨cls, 1, 0, .partition 0, 0, none, 0, restarts⟩)], err.noticePending := [[]], err.noticeAt := 0 }
theorem test_levels_met :
    let s := upset 0 3 0
    s.up = true ∧ s.pow.iod = true ∧ s.cross.nrst.contains (groupLevel .fab 0) = false ∧ 0 < groupSize .fab ∧ 0 < groupSize .pool ∧
    s.cross.nrst.contains (groupLevel .pool 0) = true ∧ s.cross.vrst.contains (groupLevel .fab 0) = true ∧
    levelFlushed s (groupLevel .fab 0) = false ∧ (tget s.cross.vrstAt (groupLevel .fab 0)).any (fun t => decide (t + 1000000 ≤ s.ns)) := by
  decide +kernel
theorem test_resend_met :
    (netLink (upset 0 3 0) 3).failed = false ∧ (netLink (upset 0 3 0) 3).down.sent.any (fun m => decide (m.tries + 1 < 3)) ∧
    (netLink (upset 2 3 0) 3).down.sent.any (fun m => decide (3 ≤ m.tries + 1)) := by decide +kernel
theorem test_latch_met : unitExists 2 = true ∧ unitExists uGate = true ∧ resetting unit 2 = false ∧ (2 : Nat) ≠ uTcu ∧ sliceExists unit 0 = true := by
  decide +kernel
theorem test_deadline_met :
    (tget (upset 0 3 0).err.banks 2).any (fun o => handlerDeadline o == some 20000000 && decide (o.latchedAt + 20000000 ≤ (upset 0 3 0).ns) &&
      o.restarts == 0) ∧
    (tget (upset 0 3 1).err.banks 2).any (fun o => handlerDeadline o == some 20000000 && decide (1 ≤ o.restarts)) ∧
    (tget (upset 0 4 0).err.banks 2).any (fun o => handlerDeadline o == some 10000000 && decide (o.latchedAt + 10000000 ≤ (upset 0 4 0).ns)) ∧
    (tget (upset 0 1 0).err.banks 2).any (fun o => decide (o.cls ≤ 2)) ∧ (upset 0 1 0).pow.tcuDown = false ∧
    (upset 0 3 0).err.banks.any (fun b => b.2.cls == 3 && b.2.scope == .partition 0) = true ∧
    (upset 0 1 0).err.banks.any (fun b => b.2.cls == 3 && b.2.scope == .partition 0) = false := by decide +kernel
theorem test_chipReset_met :
    let s := upset 0 3 0
    s.aon = true ∧ s.pow.heldInReset = false ∧ chipWaits s = false ∧ s.boot.wasReset = false ∧ s.err.noticePending = [[]] ∧ s.err.noticeAt + 10000000 ≤ s.ns := by
  decide +kernel
theorem test_release_met :
    let s := { bound key0 with pow.quenched := true }
    let r := req 5 3 lcProvisioned s.pow.sessionId key0
    s.aon = true ∧ lcBusy s = false ∧ s.lc.lockout = false ∧ r.length = 7508 ∧ r.format = 0x20 ∧ r.reserved = 0 ∧ r.opens = 0 ∧
    r.newBinding = 0 ∧ r.scope = 0 ∧ releaseSigner r = true ∧ s.pow.quenched = true ∧ r.unitId = unitId ∧ r.fromCode = s.lc.code ∧
    r.sessionId = s.pow.sessionId ∧ nonceNow s = some r.nonce ∧ signerOk s r = true ∧
    hybOk r.signerKey (reqBytes r) r.signature = true := by
  refine ⟨by decide +kernel, by decide +kernel, rfl, rfl, rfl, rfl, rfl, rfl, rfl, rfl, rfl, rfl, rfl, rfl, by decide +kernel, by simp [signerOk, req, bound], ?_⟩
  have e : reqBytes (req 5 3 lcProvisioned ({ bound key0 with pow.quenched := true } : State).pow.sessionId key0) =
      reqBytes { req 5 3 lcProvisioned ({ bound key0 with pow.quenched := true } : State).pow.sessionId key0 with signature := ⟨0, 0⟩ } := rfl
  show hybOk key0 _ _ = true
  rw [e]; exact hybOk_sign _ _ _ _ key0_valid
theorem test_beat_met : unit.aon = true ∧ unit.pow.iod = true ∧ tcuWaits unit = false := by decide +kernel
theorem test_sentinel_met :
    let s := late { unit with
      boot.starts := 1, boot.wasReset := false, err.sentA := true, err.sentB := true, err.arm5 := true, err.arm50 := true, err.tcuBeatAt := some 0, err.armMgmt := true, err.mgmtBeatAt := some 0 }
    watched s = true ∧ s.err.arm5 = true ∧ 10000000000 ≤ s.ns ∧ setting s 0x7F01 2 * 1000000 ≤ s.ns ∧ s.pow.pendingChip = none ∧
    s.pow.ready = true ∧ s.boot.wasReset = false ∧ s.err.startBeat = false ∧ s.err.startAt = 0 ∧ s.err.sentA = true ∧ s.err.sentB = true ∧
    (late unit).err.armMgmt = false ∧ watched (late unit) = true ∧ (late unit).err.readyAt = 0 := by decide +kernel
theorem serviceKey_valid : pointValid (hybPoint Config.serviceKey) = true := by unfold Config.serviceKey; exact pointValid_hybOnCurve _
theorem firmwareKey_valid : pointValid (hybPoint Config.firmwareKey) = true := by unfold Config.firmwareKey; exact pointValid_hybOnCurve _
/-- An envelope of the service key for an entry, holding a value, before it is signed, and signed. -/
def envBare (index sub : Nat) (session : BitVec 64) (value : Bytes) : Envelope :=
  { format := 0x21, signer := 2, index := index, sub := sub, unitId := unitId, sessionId := session, nonce := 5,
    valueLen := value.length, reserved := 0, signerKey := Config.serviceKey, value := value, signature := ⟨0, 0⟩ }
def envOf (index sub : Nat) (session : BitVec 64) (value : Bytes) : Envelope :=
  { envBare index sub session value with
    signature := hybSign (envBare index sub session value).signerKey (writeBytes (envBare index sub session value)) 0 0 }
theorem envelope_signed (e : Envelope) (v : pointValid (hybPoint e.signerKey) = true) :
    let x := { e with signature := hybSign e.signerKey (writeBytes e) 0 0 }
    hybOk x.signerKey (writeBytes x) x.signature = true := hybOk_sign e.signerKey (writeBytes e) 0 0 v
theorem envOf_passes (s : State) (index sub : Nat) (value : Bytes) (h : lcBusy s = false) (hl : s.lc.lockout = false)
    (hv : 1 ≤ value.length ∧ value.length ≤ 256) (hs : envSigner s 2 = true) (hn : nonceNow s = some 5) : envCheck s index sub (envOf index sub s.pow.sessionId value) = 1 := by
  have g : hybOk (envOf index sub s.pow.sessionId value).signerKey (writeBytes (envOf index sub s.pow.sessionId value))
      (envOf index sub s.pow.sessionId value).signature = true :=
    envelope_signed (envBare index sub s.pow.sessionId value) (by simp only [envBare]; exact serviceKey_valid)
  have f : envForm (envOf index sub s.pow.sessionId value) = true := by simp [envForm, envOf, envBare, hv.1, hv.2]
  have k : envKey s (envOf index sub s.pow.sessionId value) = true := by simp [envKey, envOf, envBare]
  unfold envCheck
  simp only [h, hl, f, g, k, show (envOf index sub s.pow.sessionId value).signer = 2 from rfl, hs, hn]
  simp [envOf, envBare]
theorem test_envelope_met :
    let s := { bound key0 with lc.code := lcTest }
    ∃ e d, s.up = true ∧ envCheck s 0x7F01 1 e = 1 ∧ envCheck s 0x7200 2 d = 1 :=
  ⟨envOf 0x7F01 1 _ [3, 0], envOf 0x7200 2 _ [1], by decide +kernel,
    envOf_passes _ _ _ _ (by decide +kernel) rfl (by decide) (by decide +kernel) (by decide +kernel),
    envOf_passes _ _ _ _ (by decide +kernel) rfl (by decide) (by decide +kernel) (by decide +kernel)⟩
/-- An image of one byte, before it is signed with the firmware key, and signed. -/
def imageBare (kind : Nat) : Image :=
  { format := 0x30, kind := kind, version := 0xFFFFFFFF, build := 0, bodyLen := 1, reserved := 0, bodyDigest := Config.sha384 [0],
    signerKey := Config.firmwareKey, signature := ⟨0, 0⟩, body := [0], tail := [] }
def imageOf (kind : Nat) : Image :=
  { imageBare kind with signature := hybSign (imageBare kind).signerKey (imageMsg (imageBare kind)) 0 0 }
theorem image_signed (i : Image) (v : pointValid (hybPoint i.signerKey) = true) :
    let x := { i with signature := hybSign i.signerKey (imageMsg i) 0 0 }
    hybOk x.signerKey (imageMsg x) x.signature = true := hybOk_sign i.signerKey (imageMsg i) 0 0 v
theorem imageOf_passes (s : State) (kind : Nat) (h : imageForm (imageOf kind) = true)
    (v : (if kind = 2 then decide (setting s 0x2010 4 ≤ 0xFFFFFFFF) else (versionNow s).any fun v => decide (v ≤ 0xFFFFFFFF)) = true) :
    imageCheck s (imageOf kind) kind = 0 := by
  have g : hybOk (imageOf kind).signerKey (imageMsg (imageOf kind)) (imageOf kind).signature = true := image_signed (imageBare kind) (by simp only [imageBare]; exact firmwareKey_valid)
  unfold imageCheck
  simp only [h, g, show (imageOf kind).version = 0xFFFFFFFF from rfl, v]
  simp [imageOf, imageBare]
theorem test_image_met : takesImage unit = true ∧ imageCheck unit (imageOf 1) 1 = 0 ∧
    imageCheck (lockPages (unlockPages { unit with boot.afwBusy := false }) (7552 + (imageOf 2).bodyLen)) (imageOf 2) 2 = 0 :=
  ⟨by decide +kernel, imageOf_passes _ _ (by decide +kernel) (by decide +kernel),
    imageOf_passes _ _ (by decide +kernel) (by decide +kernel)⟩
theorem test_fwMailbox_met : unit.takesMailbox (hdr (le 4 0 ++ [1])) 0x0601 true (le 4 0 ++ [1]) ∧ unit.takesMailbox (hdr (le 4 0)) 0x0602 true (le 4 0) ∧
    unit.takesMailbox (hdr (le 2 0)) 0x0603 true (le 2 0) ∧ unit.boot.loader = false ∧ (mbxTaken unit (hdr [])).boot.afwBusy = false ∧
    (mbxTaken unit (hdr [])).boot.fillArmed = none := by decide +kernel
theorem test_health_met : (late unit).health.creepAt ≤ (late unit).ns ∧ opticsStaleAt (late unit) 0 = false ∧
    tgetD (late unit).health.opticsAt 0 (late unit).err.readyAt + 1000000000 ≤ (late unit).ns := by decide +kernel
theorem test_pfail_met : unit.aon = true ∧ unit.pow.saving = false ∧ unit.pow.iod = true ∧
    canSave (keyed (.store 1) 0) = some 0 ∧ canSave unit = none := by decide +kernel
theorem test_leadbox_met :
    let s := { unit with
      lbx.queue := [mkRec unit 1 7 srcLbx []], lbx.ready := true, lbx.next := 5, lbx.nextInv := ~~~(5 : BitVec 64), lbx.auto := true }
    s.aon = true ∧ s.lbx.queue.length = 1 ∧ nextOk s = true ∧ s.lbx.ready = true ∧ s.pow.iod = true ∧ s.lbx.auto = true ∧ dictMode s ≠ 0 := by
  decide +kernel
/-- The body of a watch on a collective, with its RESULT in the page mapped at 0. -/
def watchBody : WatchBody :=
  { tap := 2, fmt := 0, modes := 0, selKind := 1, sel := 0, length := 0, cast := 0, castSeq := 0, result := 0, dumpVa := 0, event := 1 }
/-- The unit with context 3, its event 1, a page mapped at 0, and one watch open since 0. -/
def watching (modes : Nat) : State :=
  { sliced with
    gate.evts := [(1, ⟨1, cOk, 1, 3, 0, [3], 0⟩)], gate.objs := [(1, { object0 with frames := [0] })]
    gate.tops := [(3, [(0, ⟨3, false, false, false, 0, 0⟩)])], gate.maps := [(3, [(0, ⟨1, false, true, true, 1, 0⟩)])]
    watch.table := [(0, ⟨1, 3, 0, { watchBody with modes := modes }, 0, some 0, 1, none, [], WatchStats.empty, 0, 0, false, false, false, 0⟩)] }
theorem test_watchArm_met : ∃ h, (watching 0).takesMailbox h 0x0701 false (watchBytes watchBody) ∧
    (let u := mbxTaken (watching 0) h
     watchUse u (hslice h) < watchQuota u (hslice h) ∧ watchRights u h watchBody = none ∧ watchMapped u h.ctxId watchBody = true ∧
     watchValid watchBody = true) :=
  ⟨sliceHdr _ 1 0x0701 3 0 _, takes_slice _ _ _ _ _ _ (by decide +kernel) (by decide +kernel) (by decide) (by decide) (by decide +kernel) rfl
    (by decide +kernel), by decide +kernel, by decide +kernel, by decide +kernel, by decide +kernel⟩
theorem test_watchCancel_met : ∃ h, (watching 0).takesMailbox h 0x0702 false (le 2 0) ∧
    (tget (mbxTaken (watching 0) h).watch.table 0).any (fun w => w.slice == hslice h && w.ctx == h.ctxId) :=
  ⟨sliceHdr _ 1 0x0702 3 0 _, takes_slice _ _ _ _ _ _ (by decide +kernel) (by decide +kernel) (by decide) (by decide) (by decide +kernel) rfl
    (by decide +kernel), by decide +kernel⟩
theorem test_digestRotate_met : (∃ h, sliced.takesMailbox h 0x0703 false [] ∧ digestOpen (mbxTaken sliced h) (hslice h) = false) ∧
    ∃ h, (watching 2).takesMailbox h 0x0703 false [] ∧ digestOpen (mbxTaken (watching 2) h) (hslice h) = true :=
  ⟨⟨_, sliced_takes 0x0703 3 [] (by decide) (by decide), by decide +kernel⟩,
   sliceHdr _ 1 0x0703 3 0 _, takes_slice _ _ _ _ _ _ (by decide +kernel) (by decide +kernel) (by decide) (by decide) (by decide +kernel) rfl
    (by decide +kernel), by decide +kernel⟩
theorem test_watchTimeout_met : countersUp unit = true ∧
    (tget (late (watching 0)).watch.table 0).any (fun w => w.openAt == some 0 && decide (w.timeoutMs * 1000000 ≤ (late (watching 0)).ns)) := by
  decide +kernel
theorem test_read_met : canUp unit = true ∧ initiateCheck (unit.heldIn 224) 1 2 0x1100 1 (served (unit.heldIn 224) 0x1100 1) = none ∧
    (canEntry 0x1100 1).any (fun e => e.access != .wo) ∧ ekey 0x1100 1 ≠ 0x200003 ∧ ekey 0x2000 3 = 0x200003 ∧ ((keyed .oper 0).heldIn 224).vault.entropyOk = true ∧
    canUp (keyed .oper 0) = true ∧
    initiateCheck ((keyed .oper 0).heldIn 224) 1 2 0x2000 3 (served ((keyed .oper 0).heldIn 224) 0x2000 3) = none ∧
    (canEntry 0x2000 3).any (fun e => e.access != .wo) := by decide +kernel
theorem test_write_met : writeCheck (unit.heldIn 224) 1 2 0x1100 1 1 = none ∧ writeCheck (unit.heldIn 224) 1 2 0x2010 1 100 = none := by
  decide +kernel
/-- The unit late in its session, with one transfer, a write or a read of 100 bytes. -/
def transferring (write : Bool) : State :=
  late { unit with dict.transfers := [⟨0, 1, 2, write, 0x1100, 1, 100, 0, List.replicate 48 0, 0, 0, 0⟩] }
theorem test_transfer_met : canUp (transferring true) = true ∧ dictMode (transferring true) ≠ 0 ∧
    (transferOf ((transferring true).heldIn 224) 1 2).any (fun t => t.write) ∧
    (transferOf ((transferring false).heldIn 224) 1 2).any (fun t => !t.write && decide (t.acked + 1 ≤ 1) && decide (1 ≤ t.segno + 1)) ∧
    (transferOf (transferring true) 1 2).any (fun t => decide (t.lastAt + 100000000 ≤ (transferring true).ns)) ∧
    servedWrite (unit.heldIn 224) 0x1100 1 = true := by decide +kernel
theorem test_bus_met : unit.cross.busOff = false ∧ ({ unit with cross.busOff := true } : State).cross.busOff = true ∧
    configStale { unit with dict.boot := [(1, 1)] } = true ∧ (unit.dict.noticeInBusOff = true ∧ unit.err.lastNotice ≠ []) = False := by
  refine ⟨by decide +kernel, rfl, by decide +kernel, by decide +kernel⟩
theorem test_page_met : mbxSliceBad (hdr (le 2 0x1000 ++ le 1 1 ++ le 1 0)) 0 = false ∧ mbxEntry (hdr (le 2 0x1000 ++ le 1 1 ++ le 1 0)) 0x1000 1 0 = some (0x1000, 1) ∧ (canEntry 0x1000 1).isSome ∧
    unit.takesMailbox (hdr (le 2 0x1000 ++ le 1 1 ++ le 1 0)) 0x0801 (decide ((hdr (le 2 0x1000 ++ le 1 1 ++ le 1 0)).page = 0)) (le 2 0x1000 ++ le 1 1 ++ le 1 0) ∧
    unit.takesMailbox (hdr (le 2 0x1000 ++ le 1 1 ++ le 1 0)) 0x0802 (decide ((hdr (le 2 0x1000 ++ le 1 1 ++ le 1 0)).page = 0)) (le 2 0x1000 ++ le 1 1 ++ le 1 0) := by decide +kernel

end Sys2Proof.Tests
end

/-!
The code distances of R151 (the weight of the codes, of their pairs and of their complements) and the complement that a valid
copy of the life-cycle record carries (R153).
-/
namespace Sys2Proof.Machine

/-- The weight of R151: how many of the 16 bits are 1. -/
def codeWeight (b : BitVec 16) : Nat := ((List.range 16).filter fun i => b.getLsbD i).length

/-- Two words that differ in at least 6 bits. -/
abbrev SixApart (a b : BitVec 16) : Prop := 6 ≤ codeWeight (a ^^^ b)

/-- Each of the 16 bits counts either in a word or in its complement, the word's difference from 0xFFFF. -/
theorem codeWeight_add_codeWeight_xor_ones (b : BitVec 16) : codeWeight b + codeWeight (b ^^^ 0xFFFF) = 16 := by
  have complement : ∀ i ∈ List.range 16, (b ^^^ 0xFFFF).getLsbD i = !b.getLsbD i := by
    intro i hi
    have ones : (0xFFFF : BitVec 16) = BitVec.allOnes 16 := rfl
    rw [ones, BitVec.xor_allOnes, BitVec.getLsbD_not, decide_eq_true (List.mem_range.mp hi), Bool.true_and]
  have zeros := (List.range 16).length_eq_length_filter_add fun i => b.getLsbD i
  rw [List.length_range] at zeros
  rw [codeWeight, codeWeight, List.filter_congr complement, ← zeros]

/-- The model's codes are those of the table of R151. -/
theorem lcCodes_eq_table : lcCodes = [0x96A5, 0x6C3A, 0x39C6, 0xC35A, 0x5F05, 0xA0F5] := rfl

theorem codeWeight_of_mem_lcCodes (a : BitVec 16) (ha : a ∈ lcCodes) : codeWeight a = 8 := by
  have all : lcCodes.all (fun c => codeWeight c = 8) = true := by decide
  exact of_decide_eq_true (List.all_eq_true.mp all a ha)

/-- Each of the 15 pairs of codes, taken in the order of the table, differs in at least 6 bits. -/
theorem lcCodes_pairwise_sixApart : lcCodes.Pairwise SixApart := by decide

/-- The distance is symmetric, so the order of the table does not matter. -/
theorem sixApart_of_mem_lcCodes (a : BitVec 16) (ha : a ∈ lcCodes) (b : BitVec 16) (hb : b ∈ lcCodes) (hne : a ≠ b) :
    SixApart a b :=
  have : Std.Symm SixApart := ⟨fun a b h => by rwa [SixApart, BitVec.xor_comm]⟩
  lcCodes_pairwise_sixApart.forall ha hb hne

/-- A valid copy stores its state together with the bitwise complement (R151, R153). -/
theorem LcCopy.stateInv_eq_of_valid (c : LcCopy) (h : c.valid = true) : c.stateInv = ~~~c.state := by
  simp only [LcCopy.valid, Bool.and_eq_true, beq_iff_eq] at h
  obtain ⟨⟨⟨⟨⟨-, hstate⟩, -⟩, -⟩, -⟩, -⟩ := h
  exact hstate

/-- Settles O11: the weights and distances of the six codes are finite facts, the distance from 0xFFFF is 16 less the weight, and
validity demands the complement. -/
theorem lifeCycleCodesAreFarApart : Obligations.LifeCycleCodesAreFarApart := by
  refine ⟨lcCodes_eq_table, fun a ha => ?_, sixApart_of_mem_lcCodes, fun c hc => ?_⟩
  · have weight : codeWeight a = 8 := codeWeight_of_mem_lcCodes a ha
    have fromOnes : codeWeight (a ^^^ 0xFFFF) = 8 := by
      have := codeWeight_add_codeWeight_xor_ones a
      omega
    have fromZero : codeWeight (a ^^^ 0) = 8 := by rwa [show a ^^^ 0 = a from BitVec.xor_zero]
    exact ⟨weight, fromZero, fromOnes⟩
  · exact Bool.eq_false_iff.mpr fun valid => hc (c.stateInv_eq_of_valid valid)

end Sys2Proof.Machine

/-!
Where a record of the leadbox stands (R501): its slot in the head, or its slot and lap in the tail.
-/
namespace Sys2Proof.Machine

@[simp] theorem lbxSlotOf_of_lt {n : Nat} (h : n < 4096) : lbxSlotOf n = n := if_pos h

@[simp] theorem lbxSlotOf_of_le {n : Nat} (h : 4096 ≤ n) : lbxSlotOf n = 4096 + (n - 4096) % 28672 :=
  if_neg (Nat.not_lt.mpr h)

@[simp] theorem lbxLapOf_of_le {n : Nat} (h : 4096 ≤ n) : lbxLapOf n = (n - 4096) / 28672 :=
  if_neg (Nat.not_lt.mpr h)

/-- Head records stand in head slots and tail records in tail slots. -/
theorem lbxSlotOf_lt_head_iff (n : Nat) : lbxSlotOf n < 4096 ↔ n < 4096 := by
  rcases Nat.lt_or_ge n 4096 with head | tail
  · rw [lbxSlotOf_of_lt head]
  · rw [lbxSlotOf_of_le tail]
    omega

theorem lbxSlotOf_lt_area (n : Nat) : lbxSlotOf n < 32768 := by
  rcases Nat.lt_or_ge n 4096 with head | tail
  · rw [lbxSlotOf_of_lt head]
    omega
  · rw [lbxSlotOf_of_le tail]
    have := Nat.mod_lt (n - 4096) (show 28672 > 0 by decide)
    omega

/-- Slot and lap give the number of a tail record back. -/
theorem lbxSlotOf_add_lbxLapOf {n : Nat} (tail : 4096 ≤ n) : lbxSlotOf n + 28672 * lbxLapOf n = n := by
  rw [lbxSlotOf_of_le tail, lbxLapOf_of_le tail, Nat.add_assoc, Nat.mod_add_div, Nat.add_sub_cancel' tail]

/-- A head record shares its slot with no other record. -/
theorem eq_of_lbxSlotOf_eq_of_head {m n : Nat} (head : m < 4096) (same : lbxSlotOf m = lbxSlotOf n) : m = n := by
  have nHead : n < 4096 := by rwa [← lbxSlotOf_lt_head_iff, ← same, lbxSlotOf_lt_head_iff]
  rwa [lbxSlotOf_of_lt head, lbxSlotOf_of_lt nHead] at same

/-- Records that share a slot are of the tail, and their numbers differ by whole laps. -/
theorem tail_and_sub_eq_laps_of_lbxSlotOf_eq {m n : Nat} (hlt : m < n) (same : lbxSlotOf m = lbxSlotOf n) :
    4096 ≤ m ∧ n - m = 28672 * (lbxLapOf n - lbxLapOf m) := by
  have tail : 4096 ≤ m := Nat.le_of_not_lt fun head => hlt.ne (eq_of_lbxSlotOf_eq_of_head head same)
  have hm := lbxSlotOf_add_lbxLapOf tail
  have hn := lbxSlotOf_add_lbxLapOf (tail.trans hlt.le)
  exact ⟨tail, by omega⟩

/-- Settles O12: two records of one slot are of the tail and at least one whole lap of 28,672 apart. -/
theorem recordSlotAndLap : Obligations.RecordSlotAndLap := by
  refine ⟨lbxSlotOf_lt_area, fun n head => ⟨lbxSlotOf_of_lt head, (lbxSlotOf_lt_head_iff n).mpr head⟩,
    fun n tail => ⟨lbxSlotOf_of_le tail, lbxLapOf_of_le tail⟩, fun m n hlt same => ?_⟩
  obtain ⟨tail, laps⟩ := tail_and_sub_eq_laps_of_lbxSlotOf_eq hlt same
  have lap : 28672 ≤ n - m := Nat.le_of_dvd (Nat.sub_pos_of_lt hlt) ⟨_, laps⟩
  exact ⟨tail, by omega, Nat.mod_eq_zero_of_dvd ⟨_, laps⟩⟩

end Sys2Proof.Machine

/-!
What a command keeps of the parts of the state that few commands change (`State.held`): the vocabulary, and one rule for each
wrapper that the commands share.
-/
namespace Sys2Proof.Machine

/-- The parts that `State.held` collects: queue and life-cycle record; session and rails; session time; stored settings; pools. -/
abbrev Held :=
  ((List Instr × LcCopy × LcCopy × List Nat) × (Bool × Bool × Bool × Bool × BitVec 64) × (Nat × Nat) ×
      (Table ConfigCopy × Option Helper × Option Helper × Option Endorsement)) × Table Pool

namespace Held
variable (h : Held)

def queue := h.1.1.1
def record := h.1.1.2
def rails := h.1.2.1
def time := h.1.2.2.1
def copies := h.1.2.2.2.1
def helper := (h.1.2.2.2.2.1, h.1.2.2.2.2.2.1)
def endorsement := h.1.2.2.2.2.2.2
def pools := h.2

def butPools := h.1
def butTime := (h.queue, h.record, h.rails, h.copies, h.helper, h.endorsement, h.pools)
def butRails := (h.queue, h.record, h.time, h.copies, h.helper, h.endorsement, h.pools)
def butCopies := (h.queue, h.record, h.rails, h.time, h.helper, h.endorsement, h.pools)
def butEndorsement := (h.queue, h.record, h.rails, h.time, h.copies, h.helper, h.pools)
def butRecord := (h.queue, h.rails, h.time, h.copies, h.helper, h.endorsement, h.pools)
/-- All but what a write over the dictionary may change: the record, the stored configuration and the endorsement. -/
def butWritten := (h.queue, h.rails, h.time, h.helper, h.pools)

end Held

/-- The outcome is a next state that has the given part of the held parts as it was. -/
def Keeps {β : Type} (part : Held → β) (o : Host.Outcome State Fault Refusal) (s : State) : Prop :=
  ∃ t, o = .next t ∧ part t.held = part s.held

/-- The outcome is a next state that keeps all the held parts. -/
abbrev KeepsHeld (o : Host.Outcome State Fault Refusal) (s : State) : Prop := Keeps id o s

section
variable {β : Type} {part : Held → β} {s : State}

theorem keeps_done {t : State} (h : part t.held = part s.held) : Keeps part (done t) s := ⟨t, rfl, h⟩

theorem Keeps.after {o : Host.Outcome State Fault Refusal} (h : Keeps part o s) :
    part (Machine.after o s).held = part s.held := by
  obtain ⟨t, rfl, kept⟩ := h
  exact kept

/-- What is a function of a kept part is kept. -/
theorem Keeps.of {γ : Type} {o : Host.Outcome State Fault Refusal} (f : β → γ) (h : Keeps part o s) :
    Keeps (fun x => f (part x)) o s := by
  obtain ⟨t, rfl, kept⟩ := h
  exact ⟨t, rfl, congrArg f kept⟩

theorem keeps_whenUp {f : State → State} (h : ∀ s, part (f s).held = part s.held) : Keeps part (done (whenUp s f)) s := by
  refine keeps_done ?_
  unfold whenUp
  split
  · exact h s
  · rfl

theorem keeps_whenAon {f : State → State} (h : ∀ s, part (f s).held = part s.held) : Keeps part (done (whenAon s f)) s := by
  refine keeps_done ?_
  unfold whenAon
  split
  · exact h s
  · rfl

end

section
variable {s : State}

theorem keepsHeld_done {t : State} (h : t.held = s.held) : KeepsHeld (done t) s := keeps_done h

theorem keepsHeld_whenUp {f : State → State} (h : ∀ s, (f s).held = s.held) : KeepsHeld (done (whenUp s f)) s := keeps_whenUp h

theorem keepsHeld_whenAon {f : State → State} (h : ∀ s, (f s).held = s.held) : KeepsHeld (done (whenAon s f)) s :=
  keeps_whenAon h

theorem keepsHeld_fromHost {line : Nat} {f : State → State} (h : ∀ s, (f s).held = s.held) :
    KeepsHeld (done (fromHost s line f)) s := keepsHeld_done (fromHost_held s line f h)

theorem keepsHeld_mailbox {h : MbxHdr} {opcode : Nat} {driver : Bool} {body : Bytes} {run : State → State × Code × Bytes}
    (k : ∀ s, (run s).1.held = s.held) : KeepsHeld (done (mailbox s h opcode driver body run)) s :=
  keepsHeld_done (mailbox_held s h opcode driver body run k)

theorem keepsHeld_mailboxLater {h : MbxHdr} {opcode : Nat} {driver : Bool} {body : Bytes}
    {run : State → State × Option (Code × Bytes)} (k : ∀ s, (run s).1.held = s.held) :
    KeepsHeld (done (mailboxLater s h opcode driver body run)) s :=
  keepsHeld_done (mailboxLater_held s h opcode driver body run k)

/-- The state that a pair carries keeps what the pair's producer keeps. -/
theorem held_of_pair {α : Type} {p : State × α} {t : State} {x : α} (h : p = (t, x)) (k : p.1.held = s.held) : t.held = s.held :=
  (fst_held h).trans k

end

end Sys2Proof.Machine

/-!
Every command but those of the next part keeps all of the held parts: one lemma for each.
-/
namespace Sys2Proof.Machine

/-! Start and key vault (chapters 3 and 16) -/

theorem execAccelReady_keeps (failedCores lanes : List Nat) (training : List (BitVec 32)) (s : State) :
    KeepsHeld (execAccelReady failedCores lanes training s) s := by
  refine keepsHeld_whenUp fun s => ?_
  simp [apply_ite State.held]

theorem execEntropyHealthFail_keeps (s : State) : KeepsHeld (execEntropyHealthFail s) s := by
  refine keepsHeld_done ?_
  simp [apply_ite State.held]

theorem execDrbgReseed_keeps (s : State) : KeepsHeld (execDrbgReseed s) s := by
  refine keepsHeld_done ?_
  simp [apply_ite State.held]

theorem execKeyDerivation_keeps (r : DeriveReq) (s : State) : KeepsHeld (execKeyDerivation r s) s := by
  refine keepsHeld_done ?_
  simp [apply_ite State.held]

theorem execReplace_keeps (p : KeyPath) (src : ReplaceSrc) (want : BitVec 32) (s : State) :
    KeepsHeld (execReplace p src want s) s := by
  refine keepsHeld_done ?_
  simp [apply_ite State.held]

theorem execReplaceComplete_keeps (p : KeyPath) (s : State) : KeepsHeld (execReplaceComplete p s) s := by
  refine keepsHeld_done ?_
  dsimp only
  (repeat' split) <;> simp

theorem execDestroy_keeps (p : KeyPath) (s : State) : KeepsHeld (execDestroy p s) s := by
  refine keepsHeld_done ?_
  (repeat' split) <;> simp

theorem execKeyExport_keeps (p : KeyPath) (wrapper : Nat) (s : State) : KeepsHeld (execKeyExport p wrapper s) s := by
  refine keepsHeld_done ?_
  dsimp only
  (repeat' split) <;> simp [↓held_mk]

theorem execKeyImport_keeps (slice ctx : Nat) (b : WrappedBlob) (s : State) : KeepsHeld (execKeyImport slice ctx b s) s := by
  refine keepsHeld_done ?_
  simp [apply_ite State.held]

theorem execAnnealCycle_keeps (durationMs : Nat) (s : State) : KeepsHeld (execAnnealCycle durationMs s) s := by
  refine keepsHeld_done ?_
  simp [apply_ite State.held]

theorem execUsageReport_keeps (_engine : Nat) (p : KeyPath) (items bytes : Nat) (s : State) :
    KeepsHeld (execUsageReport _engine p items bytes s) s := by
  refine keepsHeld_done ?_
  simp [apply_ite State.held]

theorem execKeyUsageNotice_keeps (p : KeyPath) (s : State) : KeepsHeld (execKeyUsageNotice p s) s := by
  refine keepsHeld_done ?_
  dsimp only
  (repeat' split) <;> simp [↓startReplace_held, ↓held_mk]

theorem execKeyUsageLimit_keeps (p : KeyPath) (s : State) : KeepsHeld (execKeyUsageLimit p s) s := by
  refine keepsHeld_done ?_
  (repeat' split) <;> simp

theorem execVaultComplementMismatch_keeps (w : MismatchOf) (s : State) : KeepsHeld (execVaultComplementMismatch w s) s := by
  refine keepsHeld_done ?_
  simp [apply_ite State.held]

/-! Cipher engines (chapter 4) -/

theorem execChannelAllocate_keeps (h : MbxHdr) (ctx : Nat) (s : State) : KeepsHeld (execChannelAllocate h ctx s) s := by
  refine keepsHeld_mailbox fun s => ?_
  dsimp only
  (repeat' split) <;> simp

theorem execChannelFree_keeps (h : MbxHdr) (ch : Nat) (s : State) : KeepsHeld (execChannelFree h ch s) s := by
  refine keepsHeld_mailbox fun s => ?_
  (repeat' split) <;> simp

theorem execChJob_keeps (ch ctx gen : Nat) (b : CipherBody) (s : State) : KeepsHeld (execChJob ch ctx gen b s) s := by
  refine keepsHeld_whenUp fun s => ?_
  simp

theorem execChJobDone_keeps (ch : Nat) (s : State) : KeepsHeld (execChJobDone ch s) s := by
  refine keepsHeld_whenUp fun s => ?_
  simp [apply_ite State.held]

theorem execChSave_keeps (ch ctx gen : Nat) (s : State) : KeepsHeld (execChSave ch ctx gen s) s := by
  refine keepsHeld_whenUp fun s => ?_
  simp

theorem execChExport_keeps (ch ctx gen : Nat) (dest : ExportTo) (s : State) :
    KeepsHeld (execChExport ch ctx gen dest s) s := by
  refine keepsHeld_whenUp fun s => ?_
  simp

theorem execChRestoreInternal_keeps (ch ctx gen record : Nat) (s : State) :
    KeepsHeld (execChRestoreInternal ch ctx gen record s) s := by
  refine keepsHeld_whenUp fun s => ?_
  simp

theorem execChRestoreBlob_keeps (ch ctx gen : Nat) (b : ChanBlob) (s : State) :
    KeepsHeld (execChRestoreBlob ch ctx gen b s) s := by
  refine keepsHeld_whenUp fun s => ?_
  simp

theorem execChAttach_keeps (ch ctx gen slot : Nat) (label : BitVec 256) (s : State) :
    KeepsHeld (execChAttach ch ctx gen slot label s) s := by
  refine keepsHeld_whenUp fun s => ?_
  simp

theorem execChDetach_keeps (ch ctx gen : Nat) (s : State) : KeepsHeld (execChDetach ch ctx gen s) s := by
  refine keepsHeld_whenUp fun s => ?_
  simp

theorem execBucketRefill_keeps (s : State) : KeepsHeld (execBucketRefill s) s := by
  refine keepsHeld_whenUp fun s => ?_
  simp

theorem execPageAccessViolation_keeps (page master : Nat) (s : State) :
    KeepsHeld (execPageAccessViolation page master s) s := by
  refine keepsHeld_whenUp fun s => ?_
  simp

theorem execHybridSign_keeps (cls slice : Nat) (msg : Bytes) (corrupted : Bool) (s : State) :
    KeepsHeld (execHybridSign cls slice msg corrupted s) s := by
  refine keepsHeld_whenUp fun s => ?_
  simp

theorem execHybridVerify_keeps (cls slice keyLen sigLen : Nat) (key : HybKey) (msg : Bytes) (sig : HybSig) (s : State) :
    KeepsHeld (execHybridVerify cls slice keyLen sigLen key msg sig s) s := by
  refine keepsHeld_whenUp fun s => ?_
  simp

theorem execHybridKeyAgreement_keeps (cls slice : Nat) (step : KaStep) (dest : KeyPath) (s : State) :
    KeepsHeld (execHybridKeyAgreement cls slice step dest s) s := by
  refine keepsHeld_whenUp fun s => ?_
  simp

/-! Life cycle (chapter 5) -/

theorem execLcNonce_keeps (s : State) : KeepsHeld (execLcNonce s) s := by
  refine keepsHeld_whenAon fun s => ?_
  dsimp only
  split <;> simp [↓answer_held, ↓held_mk]

theorem execNonceExpire_keeps (s : State) : KeepsHeld (execNonceExpire s) s := by
  refine keepsHeld_done ?_
  (repeat' split) <;> simp

theorem execDebugRequest_keeps (r : SignedReq) (s : State) : KeepsHeld (execDebugRequest r s) s := by
  refine keepsHeld_whenAon fun s => ?_
  dsimp only
  split
  · simp
  · split
    · rename_i h
      simp [↓lcResult_held, ↓held_mk, held_of_pair h rfl]
    · rename_i h
      simp [↓lcResult_held, ↓held_mk, held_of_pair h rfl]

theorem execChallengeExpire_keeps (s : State) : KeepsHeld (execChallengeExpire s) s := by
  refine keepsHeld_done ?_
  (repeat' split) <;> simp

theorem execDebugScrubDone_keeps (s : State) : KeepsHeld (execDebugScrubDone s) s := by
  refine keepsHeld_whenAon fun s => ?_
  (repeat' split) <;> simp

theorem execPresenceEdge_keeps (s : State) : KeepsHeld (execPresenceEdge s) s := by
  refine keepsHeld_whenAon fun s => ?_
  simp

theorem execPresenceWindowEnd_keeps (s : State) : KeepsHeld (execPresenceWindowEnd s) s := by
  refine keepsHeld_whenAon fun s => ?_
  simp [apply_ite State.held]

theorem execProtectViolation_keeps (master range : Nat) (reach : Reach) (s : State) :
    KeepsHeld (execProtectViolation master range reach s) s := by
  refine keepsHeld_whenAon fun s => ?_
  simp [apply_ite State.held]

/-! Domain (chapter 6) -/

theorem execDomainCreate_keeps (p : Policy) (s : State) : KeepsHeld (execDomainCreate p s) s := by
  refine keepsHeld_whenUp fun s => ?_
  (repeat' split) <;> simp

theorem execDomainJoin_keeps (domainId anchor : Nat) (ownerDigest : BitVec 256) (s : State) :
    KeepsHeld (execDomainJoin domainId anchor ownerDigest s) s := by
  refine keepsHeld_whenUp fun s => ?_
  simp [apply_ite State.held]

theorem execJoinHello_keeps (m : DomHdr) (nonce : BitVec 256) (q : Point) (ek : KemBlob) (role : Nat) (s : State) :
    KeepsHeld (execJoinHello m nonce q ek role s) s := by
  refine keepsHeld_whenUp fun s => domTake_held _ _ _ _ _ fun s => ?_
  dsimp only
  split
  · split <;> simp
  · split
    · rename_i agreed
      simp [held_of_pair agreed rfl]
    · rename_i agreed
      split
      · simp [held_of_pair agreed rfl]
      · split <;> (rename_i made; simp [↓sendDom_held, ↓held_mk, held_of_pair made rfl, held_of_pair agreed rfl])

theorem execJoinChallenge_keeps (m : DomHdr) (nonce : BitVec 256) (q : Point) (ct : KemBlob) (hall : Hallmark) (s : State) :
    KeepsHeld (execJoinChallenge m nonce q ct hall s) s := by
  refine keepsHeld_whenUp fun s => joinTake_held _ _ _ _ fun s => ?_
  dsimp only
  split
  · simp
  · split
    · simp
    · split
      · simp
      · split <;> (rename_i made; simp [↓sendDom_held, ↓held_mk, held_of_pair made rfl])

theorem execJoinEvidence_keeps (m : DomHdr) (hall : Hallmark) (s : State) : KeepsHeld (execJoinEvidence m hall s) s := by
  refine keepsHeld_whenUp fun s => anchorTake_held _ _ _ _ _ fun s => ?_
  dsimp only
  (repeat' split) <;> simp

theorem execJoinAdmit_keeps (m : DomHdr) (p : Policy) (list : MemberList) (deputies : List Nat) (aEdge : Int) (aAge : Nat)
    (role : RoleGrant) (envs : List KeyEnvelope) (switchAt : Nat) (s : State) :
    KeepsHeld (execJoinAdmit m p list deputies aEdge aAge role envs switchAt s) s := by
  refine keepsHeld_whenUp fun s => joinTake_held _ _ _ _ fun s => ?_
  split
  · simp
  · split
    · simp
    · split
      · simp
      · split
        · simp
        · rename_i opened
          split <;> simp [openEnvs_held _ _ _ _ _ opened]

theorem execJoinDone_keeps (m : DomHdr) (node port : Nat) (kcvs : List (BitVec 32)) (s : State) :
    KeepsHeld (execJoinDone m node port kcvs s) s := by
  refine keepsHeld_whenUp fun s => anchorTake_held _ _ _ _ _ fun s => ?_
  dsimp only
  (repeat' split) <;> simp [↓addMember_held, ↓held_mk]

theorem execJoinRefuse_keeps (m : DomHdr) (s : State) : KeepsHeld (execJoinRefuse m s) s := by
  refine keepsHeld_whenUp fun s => ?_
  simp [apply_ite State.held]

theorem execJoinTimeout_keeps (peer : Nat) (s : State) : KeepsHeld (execJoinTimeout peer s) s := by
  refine keepsHeld_whenUp fun s => ?_
  dsimp only
  (repeat' split) <;> simp [↓held_mk]

theorem execPolicyUpdate_keeps (p : Policy) (s : State) : KeepsHeld (execPolicyUpdate p s) s := by
  refine keepsHeld_whenUp fun s => ?_
  dsimp only
  (repeat' split) <;> simp

theorem execHostMember_keeps (h : HostRec) (s : State) : KeepsHeld (execHostMember h s) s := by
  refine keepsHeld_whenUp fun s => ?_
  (repeat' split) <;> simp

theorem execHallmarkNonce_keeps (nonce : BitVec 256) (s : State) : KeepsHeld (execHallmarkNonce nonce s) s := by
  refine keepsHeld_whenUp fun s => ?_
  split <;> (rename_i made; simp [held_of_pair made rfl])

theorem execDomainLeave_keeps (value : Nat) (s : State) : KeepsHeld (execDomainLeave value s) s := by
  refine keepsHeld_whenUp fun s => ?_
  simp [apply_ite State.held]

theorem execMemberDownReceived_keeps (n : Notice) (s : State) : KeepsHeld (execMemberDownReceived n s) s := by
  refine keepsHeld_whenUp fun s => ?_
  simp [apply_ite State.held]

theorem execMemberLeave_keeps (m : DomHdr) (s : State) : KeepsHeld (execMemberLeave m s) s := by
  refine keepsHeld_whenUp fun s => ?_
  simp [apply_ite State.held]

theorem execEpochCoalesceExpire_keeps (s : State) : KeepsHeld (execEpochCoalesceExpire s) s := by
  refine keepsHeld_whenUp fun s => ?_
  (repeat' split) <;> simp

theorem execEpochAgeLimit_keeps (s : State) : KeepsHeld (execEpochAgeLimit s) s := by
  refine keepsHeld_whenUp fun s => ?_
  simp [apply_ite State.held]

theorem execEpochPrepare_keeps (m : DomHdr) (next : Nat) (s : State) : KeepsHeld (execEpochPrepare m next s) s := by
  refine keepsHeld_whenUp fun s => ?_
  simp [apply_ite State.held]

theorem execEpochShare_keeps (m : DomHdr) (q : Point) (ek : KemBlob) (s : State) :
    KeepsHeld (execEpochShare m q ek s) s := by
  refine keepsHeld_whenUp fun s => anchorTake_held _ _ _ _ _ fun s => ?_
  dsimp only
  split
  · split
    · simp
    · split <;> (rename_i agreed; simp [↓sendDom_held, ↓held_mk, held_of_pair agreed rfl])
  · simp

theorem execEpochKey_keeps (m : DomHdr) (q : Point) (ct : KemBlob) (env : KeyEnvelope) (s : State) :
    KeepsHeld (execEpochKey m q ct env s) s := by
  refine keepsHeld_whenUp fun s => fromAnchor_held _ _ _ _ fun s => ?_
  (repeat' split) <;> simp

theorem execEpochAck_keeps (m : DomHdr) (k : BitVec 32) (s : State) : KeepsHeld (execEpochAck m k s) s := by
  refine keepsHeld_whenUp fun s => anchorTake_held _ _ _ _ _ fun s => ?_
  (repeat' split) <;> simp

theorem execEpochCommit_keeps (m : DomHdr) (switchAt : Nat) (s : State) : KeepsHeld (execEpochCommit m switchAt s) s := by
  refine keepsHeld_whenUp fun s => ?_
  simp [apply_ite State.held]

theorem execEpochAckTimeout_keeps (unit : Nat) (s : State) : KeepsHeld (execEpochAckTimeout unit s) s := by
  refine keepsHeld_whenUp fun s => ?_
  simp [apply_ite State.held]

theorem execEpochGraceEnd_keeps (s : State) : KeepsHeld (execEpochGraceEnd s) s := by
  refine keepsHeld_whenUp fun s => ?_
  split
  · rw [← endGrace_held s]
    generalize endGrace s = u
    dsimp only
    split
    · have all : (anchorState (memberUpdate ((u.dom.triggers.filter (member u)).foldl dropMember u) []
          (u.dom.triggers.filter (member u)) [] none)).held = u.held := by simp
      rw [← all]
      generalize anchorState _ = v
      split <;> simp
    · split
      · split <;> simp [↓sendShare_held]
      · rfl
  · rfl

theorem execMemberUpdate_keeps (m : DomHdr) (added : List Member) (removed : List Nat) (hosts : List HostRec)
    (after : AfterUpdate) (s : State) :
    KeepsHeld (execMemberUpdate m added removed hosts after s) s := by
  refine keepsHeld_whenUp fun s => domTake_held _ _ _ _ _ fun s => ?_
  (repeat' split) <;> simp

theorem execAnchorBeatTimer_keeps (s : State) : KeepsHeld (execAnchorBeatTimer s) s := by
  refine keepsHeld_whenUp fun s => ?_
  simp [apply_ite State.held]

theorem execAnchorBeat_keeps (m : DomHdr) (s : State) : KeepsHeld (execAnchorBeat m s) s := by
  refine keepsHeld_whenUp fun s => ?_
  simp

theorem execAnchorState_keeps (m : DomHdr) (members : List Member) (hosts : List HostRec) (policy : Policy)
    (view : AnchorView) (s : State) :
    KeepsHeld (execAnchorState m members hosts policy view s) s := by
  refine keepsHeld_whenUp fun s => ?_
  simp

theorem execAnchorProbe_keeps (m : DomHdr) (s : State) : KeepsHeld (execAnchorProbe m s) s := by
  refine keepsHeld_whenUp fun s => ?_
  simp

theorem execAnchorSilence_keeps (reported : Bool) (s : State) : KeepsHeld (execAnchorSilence reported s) s := by
  refine keepsHeld_whenUp fun s => ?_
  simp [apply_ite State.held]

theorem execClaimWaitExpire_keeps (s : State) : KeepsHeld (execClaimWaitExpire s) s := by
  refine keepsHeld_whenUp fun s => ?_
  simp [apply_ite State.held]

theorem execAnchorClaim_keeps (m : DomHdr) (term : Nat) (deputies : List Nat) (s : State) :
    KeepsHeld (execAnchorClaim m term deputies s) s := by
  refine keepsHeld_whenUp fun s => ?_
  simp [apply_ite State.held]

theorem execDomainTermStale_keeps (m : DomHdr) (s : State) : KeepsHeld (execDomainTermStale m s) s := by
  refine keepsHeld_whenUp fun s => ?_
  simp [apply_ite State.held]

theorem execRoleHandoff_keeps (m : DomHdr) (role joiner step : Nat) (s : State) :
    KeepsHeld (execRoleHandoff m role joiner step s) s := by
  refine keepsHeld_whenUp fun s => ?_
  simp

theorem execStateManifest_keeps (m : DomHdr) (role step bytes regions received : Nat) (fence : Code) (s : State) :
    KeepsHeld (execStateManifest m role step bytes regions received fence s) s := by
  refine keepsHeld_whenUp fun s => domTake_held _ _ _ _ _ fun s => ?_
  (repeat' split) <;> simp

/-! SPDM (chapters 6, 9 and 10) -/

theorem execGetVersion_keeps (s : State) : KeepsHeld (execGetVersion s) s := by
  refine keepsHeld_fromHost fun s => ?_
  simp

theorem execGetCapabilities_keeps (requested : BitVec 32) (s : State) : KeepsHeld (execGetCapabilities requested s) s := by
  refine keepsHeld_fromHost fun s => ?_
  simp [apply_ite State.held]

theorem execNegotiateAlgorithms_keeps (offered : SpdmOffer) (s : State) :
    KeepsHeld (execNegotiateAlgorithms offered s) s := by
  refine keepsHeld_fromHost fun s => ?_
  simp [apply_ite State.held]

theorem execKeyExchange_keeps (host : Nat) (q : Point) (ek : KemBlob) (s : State) :
    KeepsHeld (execKeyExchange host q ek s) s := by
  refine keepsHeld_fromHost fun s => ?_
  dsimp only
  split
  · simp
  · split
    · simp
    · split
      · simp
      · split
        · rename_i agreed
          simp [held_of_pair agreed rfl]
        · rename_i agreed
          split <;> (rename_i signed; simp [↓State_emit_held, ↓held_mk, held_of_pair signed rfl, held_of_pair agreed rfl])

theorem execFinish_keeps (mac : BitVec 384) (sig : HybSig) (s : State) : KeepsHeld (execFinish mac sig s) s := by
  refine keepsHeld_fromHost fun s => ?_
  (repeat' split) <;> simp

theorem execUpdateKey_keeps (s : State) : KeepsHeld (execUpdateKey s) s := by
  refine keepsHeld_fromHost fun s => ?_
  simp [apply_ite State.held]

theorem execUpdateAllKeys_keeps (s : State) : KeepsHeld (execUpdateAllKeys s) s := by
  refine keepsHeld_fromHost fun s => ?_
  simp [apply_ite State.held]

theorem execVerifyNewKey_keeps (s : State) : KeepsHeld (execVerifyNewKey s) s := by
  refine keepsHeld_fromHost fun s => ?_
  simp [apply_ite State.held]

theorem execHeartbeat_keeps (s : State) : KeepsHeld (execHeartbeat s) s := by
  refine keepsHeld_fromHost fun s => ?_
  simp

theorem execEndSession_keeps (s : State) : KeepsHeld (execEndSession s) s := by
  refine keepsHeld_fromHost fun s => ?_
  simp

theorem execGetHallmark_keeps (nonce : BitVec 256) (s : State) : KeepsHeld (execGetHallmark nonce s) s := by
  refine keepsHeld_fromHost fun s => ?_
  split
  · simp
  · split <;> (rename_i made; simp [held_of_pair made rfl])

/-! Link sealing (chapter 7) -/

theorem execFrameSeal_keeps (r : SealReq) (s : State) : KeepsHeld (execFrameSeal r s) s := by
  refine keepsHeld_whenUp fun s => ?_
  simp [apply_ite State.held]

theorem execFrameEgress_keeps (port peer seq : Nat) (s : State) : KeepsHeld (execFrameEgress port peer seq s) s := by
  refine keepsHeld_whenUp fun s => ?_
  dsimp only
  (repeat' split) <;> simp

theorem execFrameReceive_keeps (port : Nat) (f : Frame) (parityOk : Bool) (s : State) :
    KeepsHeld (execFrameReceive port f parityOk s) s := by
  refine keepsHeld_whenUp fun s => ?_
  simp [apply_ite State.held]

theorem execAckSend_keeps (peer : Nat) (s : State) : KeepsHeld (execAckSend peer s) s := by
  refine keepsHeld_whenUp fun s => ?_
  dsimp only
  (repeat' split) <;> simp

theorem execAck_keeps (peer : Nat) (entries : List (Nat × Code)) (s : State) : KeepsHeld (execAck peer entries s) s := by
  refine keepsHeld_whenUp fun s => ?_
  simp

theorem execRetransmitTimer_keeps (peer seq : Nat) (s : State) : KeepsHeld (execRetransmitTimer peer seq s) s := by
  refine keepsHeld_whenUp fun s => ?_
  dsimp only
  (repeat' split) <;> simp

theorem execKeyMissFill_keeps (port peer domEpoch flowEpoch : Nat) (s : State) :
    KeepsHeld (execKeyMissFill port peer domEpoch flowEpoch s) s := by
  refine keepsHeld_whenUp fun s => ?_
  dsimp only
  (repeat' split) <;> simp

theorem execFlowEpochSwitch_keeps (peer : Nat) (s : State) : KeepsHeld (execFlowEpochSwitch peer s) s := by
  refine keepsHeld_whenUp fun s => ?_
  simp

theorem execFlowKeyRetire_keeps (peer : Nat) (s : State) : KeepsHeld (execFlowKeyRetire peer s) s := by
  refine keepsHeld_whenUp fun s => ?_
  (repeat' split) <;> simp

theorem execFence_keeps (ctx queue report slot : Nat) (s : State) : KeepsHeld (execFence ctx queue report slot s) s := by
  refine keepsHeld_whenUp fun s => ?_
  (repeat' split) <;> simp

theorem execFenceTimeout_keeps (ctx queue : Nat) (s : State) : KeepsHeld (execFenceTimeout ctx queue s) s := by
  refine keepsHeld_whenUp fun s => ?_
  (repeat' split) <;> simp

theorem execNodeBinding_keeps (node unit port : Nat) (s : State) : KeepsHeld (execNodeBinding node unit port s) s := by
  refine keepsHeld_whenUp fun s => ?_
  simp

theorem execFabLanemap_keeps (port : Nat) (map : BitVec 15) (s : State) : KeepsHeld (execFabLanemap port map s) s := by
  refine keepsHeld_done ?_
  simp [apply_ite State.held]

theorem execFabLaneup_keeps (port lane : Nat) (up : Bool) (s : State) : KeepsHeld (execFabLaneup port lane up s) s := by
  refine keepsHeld_done ?_
  simp [apply_ite State.held]

/-! Alloys (chapter 8) -/

theorem execStepStage_keeps (port slot : Nat) (s : State) : KeepsHeld (execStepStage port slot s) s := by
  refine keepsHeld_whenUp fun s => ?_
  dsimp only
  (repeat' split) <;> simp

theorem execChunkEmit_keeps (port stepSlot : Nat) (s : State) : KeepsHeld (execChunkEmit port stepSlot s) s := by
  refine keepsHeld_whenUp fun s => ?_
  (repeat' split) <;> simp

theorem execStepTimeout_keeps (port stepSlot : Nat) (s : State) : KeepsHeld (execStepTimeout port stepSlot s) s := by
  refine keepsHeld_whenUp fun s => ?_
  dsimp only
  (repeat' split) <;> simp

theorem execStepSlotRelease_keeps (port stepSlot : Nat) (s : State) : KeepsHeld (execStepSlotRelease port stepSlot s) s := by
  refine keepsHeld_whenUp fun s => ?_
  (repeat' split) <;> simp

theorem execAlloyLaneTest_keeps (port lane : Nat) (pass : Bool) (s : State) :
    KeepsHeld (execAlloyLaneTest port lane pass s) s := by
  refine keepsHeld_whenUp fun s => ?_
  simp [apply_ite State.held]

/-! Tier B and tier A (chapter 9) -/

theorem execPewterRead_keeps (r : PewReq) (s : State) : KeepsHeld (execPewterRead r s) s := by
  refine keepsHeld_whenUp fun s => ?_
  simp

theorem execPewterFullWrite_keeps (r : PewReq) (data : BitVec 2048) (s : State) :
    KeepsHeld (execPewterFullWrite r data s) s := by
  refine keepsHeld_whenUp fun s => ?_
  simp

theorem execPewterPartialWrite_keeps (r : PewReq) (mask : BitVec 256) (data : BitVec 2048) (s : State) :
    KeepsHeld (execPewterPartialWrite r mask data s) s := by
  refine keepsHeld_whenUp fun s => ?_
  simp

theorem execPoolReadCompletion_keeps (port tag status : Nat) (data : Bytes) (parityOk : Bool) (s : State) :
    KeepsHeld (execPoolReadCompletion port tag status data parityOk s) s := by
  refine keepsHeld_whenUp fun s => ?_
  (repeat' split) <;> simp

theorem execPoolTimeout_keeps (port : Nat) (s : State) : KeepsHeld (execPoolTimeout port s) s := by
  refine keepsHeld_whenUp fun s => ?_
  simp [apply_ite State.held]

theorem execRegionRotate_keeps (region : Nat) (s : State) : KeepsHeld (execRegionRotate region s) s := by
  refine keepsHeld_whenUp fun s => ?_
  (repeat' split) <;> simp

theorem execRotationSweep_keeps (region : Nat) (s : State) : KeepsHeld (execRotationSweep region s) s := by
  refine keepsHeld_whenUp fun s => ?_
  dsimp only
  (repeat' split) <;> simp

theorem execStkRequest_keeps (stack page : Nat) (isWrite : Bool) (ctx gen : Nat) (s : State) :
    KeepsHeld (execStkRequest stack page isWrite ctx gen s) s := by
  refine keepsHeld_whenUp fun s => ?_
  simp [apply_ite State.held]

theorem execScrubDone_keeps (page : Nat) (s : State) : KeepsHeld (execScrubDone page s) s := by
  refine keepsHeld_whenUp fun s => ?_
  (repeat' split) <;> simp

theorem execScrubWriteFail_keeps (page stack : Nat) (s : State) : KeepsHeld (execScrubWriteFail page stack s) s := by
  refine keepsHeld_whenUp fun s => ?_
  (repeat' split) <;> simp

/-! Host sealing (chapter 10) -/

theorem execHostInbound_keeps (slot : Nat) (s : State) : KeepsHeld (execHostInbound slot s) s := by
  refine keepsHeld_whenUp fun s => ?_
  (repeat' split) <;> simp [apply_ite State.held]

theorem execHostRecordArrive_keeps (slot : Nat) (r : BounceRec) (transportOk : Bool) (s : State) :
    KeepsHeld (execHostRecordArrive slot r transportOk s) s := by
  refine keepsHeld_whenUp fun s => ?_
  dsimp only
  (repeat' split) <;> simp

theorem execHostOutbound_keeps (slot : Nat) (accepted : Bool) (s : State) :
    KeepsHeld (execHostOutbound slot accepted s) s := by
  refine keepsHeld_whenUp fun s => ?_
  split
  · rfl
  · refine hostStart_held _ _ _ _ fun s => ?_
    (repeat' split) <;> simp

theorem execBounceState_keeps (h : MbxHdr) (s : State) : KeepsHeld (execBounceState h s) s := by
  refine keepsHeld_mailbox fun s => ?_
  (repeat' split) <;> simp

theorem execRekeyDue_keeps (s : State) : KeepsHeld (execRekeyDue s) s := by
  refine keepsHeld_whenUp fun s => ?_
  simp [apply_ite State.held]

theorem execMsixUnmask_keeps (m : MsixMask) (s : State) : KeepsHeld (execMsixUnmask m s) s := by
  refine keepsHeld_whenUp fun s => ?_
  simp [apply_ite State.held]

/-! Descriptor gate (chapter 11) -/

theorem execAtsInvalidate_keeps (pasid addr size : Nat) (s : State) : KeepsHeld (execAtsInvalidate pasid addr size s) s := by
  refine keepsHeld_fromHost fun s => ?_
  simp

theorem execAtsCompletion_keeps (ctx queue : Nat) (a : AtsAnswer) (s : State) :
    KeepsHeld (execAtsCompletion ctx queue a s) s := by
  refine keepsHeld_fromHost fun s => ?_
  (repeat' split) <;> simp

theorem execPrgResponse_keeps (ctx queue : Nat) (success : Bool) (s : State) :
    KeepsHeld (execPrgResponse ctx queue success s) s := by
  refine keepsHeld_fromHost fun s => ?_
  (repeat' split) <;> simp

theorem execSubmit_keeps (cp ctx queue : Nat) (raw : Bytes) (parityOk : Bool) (s : State) :
    KeepsHeld (execSubmit cp ctx queue raw parityOk s) s := by
  refine keepsHeld_whenUp fun s => ?_
  dsimp only
  (repeat' split) <;> simp

theorem execPendingPieceSeal_keeps (ctx queue : Nat) (s : State) : KeepsHeld (execPendingPieceSeal ctx queue s) s := by
  refine keepsHeld_whenUp fun s => ?_
  (repeat' split) <;> simp

theorem execTranslationWalk_keeps (ctx queue : Nat) (s : State) : KeepsHeld (execTranslationWalk ctx queue s) s := by
  refine keepsHeld_whenUp fun s => ?_
  (repeat' split) <;> simp

theorem execCheck_keeps (cp exec queueId : Nat) (desc : Bytes) (s : State) :
    KeepsHeld (execCheck cp exec queueId desc s) s := by
  refine keepsHeld_whenUp fun s => ?_
  dsimp only
  (repeat' split) <;> simp

theorem execPieceRetire_keeps (slot : Nat) (code : Code) (detail : Nat) (s : State) :
    KeepsHeld (execPieceRetire slot code detail s) s := by
  refine keepsHeld_whenUp fun s => ?_
  (repeat' split) <;> simp

theorem execCpqDone_keeps (cp count : Nat) (s : State) : KeepsHeld (execCpqDone cp count s) s := by
  refine keepsHeld_whenUp fun s => ?_
  dsimp only
  rw [foldl_held]
  · simp [↓held_mk]
  · intro s serial
    (repeat' split) <;> simp

theorem execDoorbell_keeps (ctx queue tail : Nat) (s : State) : KeepsHeld (execDoorbell ctx queue tail s) s := by
  refine keepsHeld_whenUp fun s => ?_
  (repeat' split) <;> simp

theorem execCqHead_keeps (ctx queue head : Nat) (s : State) : KeepsHeld (execCqHead ctx queue head s) s := by
  refine keepsHeld_whenUp fun s => ?_
  (repeat' split) <;> simp

theorem execFaultHoldLimit_keeps (ctx queue : Nat) (s : State) : KeepsHeld (execFaultHoldLimit ctx queue s) s := by
  refine keepsHeld_whenUp fun s => ?_
  (repeat' split) <;> simp

@[simp] theorem endAlloc_held (r : State × AllocEnd) (slot : Nat) (l : LiveSeal) : (endAlloc r slot l).held = r.1.held := by
  unfold endAlloc
  dsimp only
  split <;> simp

theorem execAlloc_keeps (slot : Nat) (s : State) : KeepsHeld (execAlloc slot s) s := by
  refine keepsHeld_whenUp fun s => ?_
  split <;> simp

theorem execFree_keeps (slot : Nat) (s : State) : KeepsHeld (execFree slot s) s := by
  refine keepsHeld_whenUp fun s => ?_
  dsimp only
  (repeat' split) <;> simp

theorem execObjectRelease_keeps (isEvent : Bool) (index : Nat) (s : State) :
    KeepsHeld (execObjectRelease isEvent index s) s := by
  refine keepsHeld_whenUp fun s => ?_
  (repeat' split) <;> simp

theorem execEventCreate_keeps (slot : Nat) (s : State) : KeepsHeld (execEventCreate slot s) s := by
  refine keepsHeld_whenUp fun s => ?_
  dsimp only
  (repeat' split) <;> simp

theorem execEventFree_keeps (slot : Nat) (s : State) : KeepsHeld (execEventFree slot s) s := by
  refine keepsHeld_whenUp fun s => ?_
  dsimp only
  (repeat' split) <;> simp

theorem execQueueCreate_keeps (h : MbxHdr) (ctx queue ring ringSize cring cringSize vector : Nat) (s : State) :
    KeepsHeld (execQueueCreate h ctx queue ring ringSize cring cringSize vector s) s := by
  refine keepsHeld_mailbox fun s => ?_
  (repeat' split) <;> simp

theorem execQueueDestroy_keeps (h : MbxHdr) (ctx queue : Nat) (undrained : List Bytes) (s : State) :
    KeepsHeld (execQueueDestroy h ctx queue undrained s) s := by
  refine keepsHeld_mailboxLater fun s => ?_
  dsimp only
  (repeat' split) <;> simp

theorem execWindowExport_keeps (h : MbxHdr) (handle rights : Nat) (nodes : List Nat) (s : State) :
    KeepsHeld (execWindowExport h handle rights nodes s) s := by
  refine keepsHeld_mailbox fun s => ?_
  dsimp only
  (repeat' split) <;> simp

theorem execObjectInfo_keeps (h : MbxHdr) (handle : Nat) (s : State) : KeepsHeld (execObjectInfo h handle s) s := by
  refine keepsHeld_mailbox fun s => ?_
  (repeat' split) <;> simp

/-! Contexts and slices (chapter 12) -/

theorem execPasidBind_keeps (h : MbxHdr) (slice pasid : Nat) (s : State) : KeepsHeld (execPasidBind h slice pasid s) s := by
  refine keepsHeld_mailbox fun s => ?_
  (repeat' split) <;> simp

theorem execContextCreate_keeps (h : MbxHdr) (slice id flags : Nat) (s : State) :
    KeepsHeld (execContextCreate h slice id flags s) s := by
  refine keepsHeld_mailbox fun s => ?_
  (repeat' split) <;> simp

theorem execContextDestroy_keeps (h : MbxHdr) (id : Nat) (undrained : List (Nat × Bytes)) (s : State) :
    KeepsHeld (execContextDestroy h id undrained s) s := by
  refine keepsHeld_mailbox fun s => ?_
  (repeat' split) <;> simp

theorem execEventShare_keeps (h : MbxHdr) (handle other : Nat) (s : State) :
    KeepsHeld (execEventShare h handle other s) s := by
  refine keepsHeld_mailbox fun s => ?_
  (repeat' split) <;> simp

theorem shareGroup_held {s t : State} {i : Nat} {o : MemObj} {g : Nat} (h : shareGroup s i o = some (t, g)) : t.held = s.held := by
  unfold shareGroup at h
  dsimp only at h
  split at h
  · cases h
    rfl
  · split at h
    · cases h
    · rw [Option.some.injEq, Prod.mk.injEq] at h
      rw [← h.1]
      simp [↓held_mk]

theorem execMemoryShare_keeps (h : MbxHdr) (handle other va rights : Nat) (s : State) :
    KeepsHeld (execMemoryShare h handle other va rights s) s := by
  refine keepsHeld_done ((settle_held _).trans (mailboxLater_held _ _ _ _ _ _ fun s => ?_))
  dsimp only
  split
  · rfl
  · rfl
  · split
    · rfl
    · split
      · rfl
      · split
        · rfl
        · rename_i group
          split
          · rfl
          · simp [↓held_mk, shareGroup_held group]

theorem execEventQuery_keeps (h : MbxHdr) (handle : Nat) (s : State) : KeepsHeld (execEventQuery h handle s) s := by
  refine keepsHeld_mailbox fun s => ?_
  (repeat' split) <;> simp

theorem execCtxUsage_keeps (h : MbxHdr) (id : Nat) (s : State) : KeepsHeld (execCtxUsage h id s) s := by
  refine keepsHeld_mailbox fun s => ?_
  (repeat' split) <;> simp

theorem execSliceFreeze_keeps (h : MbxHdr) (slice tilesDone : Nat) (s : State) :
    KeepsHeld (execSliceFreeze h slice tilesDone s) s := by
  refine keepsHeld_done ((settle_held _).trans (mailboxLater_held _ _ _ _ _ _ fun s => ?_))
  dsimp only
  (repeat' split) <;> simp [↓held_mk]

theorem execSliceThaw_keeps (h : MbxHdr) (slice : Nat) (s : State) : KeepsHeld (execSliceThaw h slice s) s := by
  refine keepsHeld_mailbox fun s => ?_
  (repeat' split) <;> simp

theorem execSliceOffer_keeps (h : MbxHdr) (slice hostAddr : Nat) (s : State) :
    KeepsHeld (execSliceOffer h slice hostAddr s) s := by
  refine keepsHeld_mailbox fun s => ?_
  dsimp only
  split
  · rfl
  · split
    · simp
    · split
      · simp
      · split <;> (rename_i made; simp [↓State_emit_held, ↓held_mk, held_of_pair made rfl])

theorem execOfferExpire_keeps (offer : Nat) (s : State) : KeepsHeld (execOfferExpire offer s) s := by
  refine keepsHeld_whenUp fun s => ?_
  (repeat' split) <;> simp

theorem execSliceSave_keeps (h : MbxHdr) (slice target : Nat)
    (offer : Option (Nat × BitVec 64 × Nat × BitVec 256 × Point × KemBlob)) (hall : Option Hallmark) (extents : Nat)
    (s : State) : KeepsHeld (execSliceSave h slice target offer hall extents s) s := by
  refine keepsHeld_mailbox fun s => ?_
  split
  · rfl
  · split
    · simp
    · split
      · simp
      · split
        · cases saveDenied s slice <;> simp
        · (repeat' split) <;> simp

theorem execSliceRestore_keeps (h : MbxHdr) (slice : Nat) (image : SliceImage) (s : State) :
    KeepsHeld (execSliceRestore h slice image s) s := by
  refine keepsHeld_mailbox fun s => ?_
  (repeat' split) <;> simp

theorem execTenantSlices_keeps (n : Nat) (s : State) : KeepsHeld (execTenantSlices n s) s := by
  refine keepsHeld_whenUp fun s => ?_
  simp [apply_ite State.held]

/-! Admission (chapter 13) -/

theorem execArrayClean_keeps (s : State) : KeepsHeld (execArrayClean s) s := by
  refine keepsHeld_whenUp fun s => ?_
  simp [apply_ite State.held]

theorem execArrTileevt_keeps (count : Nat) (s : State) : KeepsHeld (execArrTileevt count s) s := by
  refine keepsHeld_whenUp fun s => ?_
  dsimp only
  (repeat' split) <;> simp [↓held_mk]

theorem execArrFaultevt_keeps (code core : Nat) (coreFailed : Bool) (s : State) :
    KeepsHeld (execArrFaultevt code core coreFailed s) s := by
  refine keepsHeld_whenUp fun s => ?_
  dsimp only
  (repeat' split) <;> simp [↓arbWake_held, ↓retire_held, ↓held_mk]

theorem execArrayCleanTimeout_keeps (s : State) : KeepsHeld (execArrayCleanTimeout s) s := by
  refine keepsHeld_whenUp fun s => ?_
  simp [apply_ite State.held]

theorem execArrayRecoveryTimeout_keeps (s : State) : KeepsHeld (execArrayRecoveryTimeout s) s := by
  refine keepsHeld_whenUp fun s => ?_
  simp [apply_ite State.held]

theorem execDeferralExpire_keeps (slot : Nat) (s : State) : KeepsHeld (execDeferralExpire slot s) s := by
  refine keepsHeld_whenUp fun s => ?_
  (repeat' split) <;> simp

theorem execDeadlineWithdraw_keeps (slot : Nat) (s : State) : KeepsHeld (execDeadlineWithdraw slot s) s := by
  refine keepsHeld_whenUp fun s => ?_
  (repeat' split) <;> simp

theorem execThrottleWindow_keeps (s : State) : KeepsHeld (execThrottleWindow s) s := by
  refine keepsHeld_whenUp fun s => ?_
  simp [apply_ite State.held]

theorem execCapacityChange_keeps (s : State) : KeepsHeld (execCapacityChange s) s := by
  refine keepsHeld_whenUp fun s => ?_
  simp

/-! Time and casts (chapter 14) -/

theorem execVirtualEdge_keeps (s : State) : KeepsHeld (execVirtualEdge s) s := by
  refine keepsHeld_whenAon fun s => ?_
  simp [apply_ite State.held]

theorem execTimeLo_keeps (s : State) : KeepsHeld (execTimeLo s) s := by
  refine keepsHeld_whenAon fun s => ?_
  simp

theorem execCastArm_keeps (via : CastVia) (kind flags fire param : Nat) (s : State) :
    KeepsHeld (execCastArm via kind flags fire param s) s := by
  refine keepsHeld_whenUp fun s => ?_
  cases via with
  | arbiter => simp
  | tcu => simp
  | mailbox h r =>
    refine mailbox_held _ _ _ _ _ _ fun s => ?_
    dsimp only
    (repeat' split) <;> simp

theorem execCastStageAck_keeps (number target : Nat) (s : State) : KeepsHeld (execCastStageAck number target s) s := by
  refine keepsHeld_whenAon fun s => ?_
  dsimp only
  (repeat' split) <;> simp

theorem execCastCancel_keeps (h : MbxHdr) (number seq : Nat) (s : State) : KeepsHeld (execCastCancel h number seq s) s := by
  refine keepsHeld_mailbox fun s => ?_
  (repeat' split) <;> simp

theorem execTimeNow_keeps (h : MbxHdr) (s : State) : KeepsHeld (execTimeNow h s) s := by
  refine keepsHeld_done ?_
  simp

theorem execCastFire_keeps (number : Nat) (s : State) : KeepsHeld (execCastFire number s) s := by
  refine keepsHeld_whenUp fun s => ?_
  (repeat' split) <;> simp

theorem execCommitAt_keeps (time : Nat) (s : State) : KeepsHeld (execCommitAt time s) s := by
  refine keepsHeld_whenUp fun s => ?_
  simp

theorem execFreezeAt_keeps (time : Nat) (s : State) : KeepsHeld (execFreezeAt time s) s := by
  refine keepsHeld_whenUp fun s => ?_
  simp

theorem execClkdStop_keeps (i : Nat) (s : State) : KeepsHeld (execClkdStop i s) s := by
  refine keepsHeld_whenAon fun s => ?_
  simp [apply_ite State.held]

theorem execClkdResume_keeps (i : Nat) (s : State) : KeepsHeld (execClkdResume i s) s := by
  refine keepsHeld_whenAon fun s => ?_
  (repeat' split) <;> simp

/-! Errors and recovery (chapter 15) -/

theorem execNeighbourRstRelease_keeps (g : Group) (index : Nat) (s : State) :
    KeepsHeld (execNeighbourRstRelease g index s) s := by
  refine keepsHeld_whenAon fun s => ?_
  simp [apply_ite State.held]

theorem execNetworkResend_keeps (r : Resend) (s : State) : KeepsHeld (execNetworkResend r s) s := by
  refine keepsHeld_whenUp fun s => ?_
  dsimp only
  (repeat' split) <;> simp

theorem execErrorLatch_keeps (unit cls cause whereAt : Nat) (scope : ErrScope) (s : State) :
    KeepsHeld (execErrorLatch unit cls cause whereAt scope s) s := by
  refine keepsHeld_whenUp fun s => ?_
  simp [apply_ite State.held]

theorem execErrorClose_keeps (unit : Nat) (s : State) : KeepsHeld (execErrorClose unit s) s := by
  refine keepsHeld_whenUp fun s => ?_
  (repeat' split) <;> simp

theorem execPartitionReset_keeps (slice : Nat) (s : State) : KeepsHeld (execPartitionReset slice s) s := by
  refine keepsHeld_whenUp fun s => ?_
  simp [apply_ite State.held]

theorem execNoticeRepeat_keeps (s : State) : KeepsHeld (execNoticeRepeat s) s := by
  refine keepsHeld_whenAon fun s => ?_
  (repeat' split) <;> simp

theorem execQuench_keeps (unit check whereAt : Nat) (s : State) : KeepsHeld (execQuench unit check whereAt s) s := by
  refine keepsHeld_whenUp fun s => ?_
  simp [apply_ite State.held]

theorem execQuenchRelease_keeps (r : SignedReq) (s : State) : KeepsHeld (execQuenchRelease r s) s := by
  refine keepsHeld_whenAon fun s => ?_
  simp [apply_ite State.held]

theorem execHbTcu_keeps (fromTcu : Bool) (beat inv : BitVec 16) (s : State) :
    KeepsHeld (execHbTcu fromTcu beat inv s) s := by
  refine keepsHeld_done ?_
  simp [apply_ite State.held]

theorem execHbMgmt_keeps (fromMgmt : Bool) (beat inv : BitVec 16) (s : State) :
    KeepsHeld (execHbMgmt fromMgmt beat inv s) s := by
  refine keepsHeld_done ?_
  simp [apply_ite State.held]

theorem execTcuBeatTimeout50ms_keeps (s : State) : KeepsHeld (execTcuBeatTimeout50ms s) s := by
  refine keepsHeld_done ?_
  simp [apply_ite State.held]

theorem execMgmtHbTimeout_keeps (s : State) : KeepsHeld (execMgmtHbTimeout s) s := by
  refine keepsHeld_done ?_
  simp [apply_ite State.held]

theorem execMgmtHbNotArmed_keeps (s : State) : KeepsHeld (execMgmtHbNotArmed s) s := by
  refine keepsHeld_done ?_
  simp [apply_ite State.held]

theorem execStartBeatTimeout_keeps (s : State) : KeepsHeld (execStartBeatTimeout s) s := by
  refine keepsHeld_done ?_
  simp [apply_ite State.held]

theorem execSentinelSilent_keeps (silentB : Bool) (s : State) : KeepsHeld (execSentinelSilent silentB s) s := by
  refine keepsHeld_done ?_
  simp [apply_ite State.held]

/-! Firmware, unit map and training (chapter 16) -/

theorem execResetRequest_keeps (e : Envelope) (s : State) : KeepsHeld (execResetRequest e s) s := by
  refine keepsHeld_done ?_
  simp [apply_ite State.held]

theorem execFwImage_keeps (img : Image) (s : State) : KeepsHeld (execFwImage img s) s := by
  refine keepsHeld_done ?_
  simp [apply_ite State.held]

theorem execFwChunk_keeps (h : MbxHdr) (offset : Nat) (data : Bytes) (s : State) :
    KeepsHeld (execFwChunk h offset data s) s := by
  refine keepsHeld_done ?_
  (repeat' split) <;> simp

theorem execFwCommit_keeps (h : MbxHdr) (total : Nat) (s : State) : KeepsHeld (execFwCommit h total s) s := by
  refine keepsHeld_done ?_
  simp

theorem execAfwLoad_keeps (h : MbxHdr) (page : Nat) (s : State) : KeepsHeld (execAfwLoad h page s) s := by
  refine keepsHeld_mailbox fun s => ?_
  (repeat' split) <;> simp

theorem execAfwCtrlGo_keeps (img : Image) (coresFailed : List Nat) (s : State) :
    KeepsHeld (execAfwCtrlGo img coresFailed s) s := by
  refine keepsHeld_whenUp fun s => ?_
  simp [apply_ite State.held]

theorem execMapFill_keeps (core time : Nat) (s : State) : KeepsHeld (execMapFill core time s) s := by
  refine keepsHeld_whenUp fun s => ?_
  (repeat' split) <;> simp

theorem execSpareCheckDone_keeps (pass : Bool) (s : State) : KeepsHeld (execSpareCheckDone pass s) s := by
  refine keepsHeld_whenUp fun s => ?_
  dsimp only
  (repeat' split) <;> simp

theorem execMapRole_keeps (h : MbxHdr) (role time : Nat) (s : State) : KeepsHeld (execMapRole h role time s) s := by
  refine keepsHeld_mailbox fun s => ?_
  dsimp only
  (repeat' split) <;> simp

theorem execMapVacant_keeps (h : MbxHdr) (s : State) : KeepsHeld (execMapVacant h s) s := by
  refine keepsHeld_done ?_
  simp

theorem execTrainSave_keeps (fromMgmt : Bool) (s : State) : KeepsHeld (execTrainSave fromMgmt s) s := by
  refine keepsHeld_whenUp fun s => ?_
  simp [apply_ite State.held]

theorem execTrainLoad_keeps (s : State) : KeepsHeld (execTrainLoad s) s := by
  refine keepsHeld_done ?_
  simp [apply_ite State.held]

theorem execTrainData_keeps (write : Option (BitVec 32)) (s : State) : KeepsHeld (execTrainData write s) s := by
  refine keepsHeld_done ?_
  (repeat' split) <;> simp

theorem execRetrain_keeps (ports : BitVec 32) (s : State) : KeepsHeld (execRetrain ports s) s := by
  refine keepsHeld_whenUp fun s => ?_
  simp [apply_ite State.held]

/-! Health (chapter 17) -/

/-- A fold over a state with its errors keeps what each of its steps keeps. -/
theorem foldl_plan_held {α : Type} (f : Plan → α → Plan) (h : ∀ p a, (f p a).1.held = p.1.held) (l : List α) (p : Plan) :
    (l.foldl f p).1.held = p.1.held := by
  induction l generalizing p with
  | nil => rfl
  | cons a l ih => rw [List.foldl_cons, ih, h]

@[simp] theorem excludeGauges_held (s : State) (gs : List (GaugeRead × Nat)) : (excludeGauges s gs).1.held = s.held := by
  refine foldl_plan_held _ (fun p x => ?_) gs (s, [])
  dsimp only
  split <;> simp

@[simp] theorem healthFlags_held (s : State) (fs : List GaugeFind) : (healthFlags s fs).1.held = s.held := rfl

@[simp] theorem planUnit_held (fs : List GaugeFind) (p : Plan) (u : Nat) : (planUnit fs p u).1.held = p.1.held := by
  unfold planUnit
  dsimp only
  (repeat' split) <;> simp

@[simp] theorem planLane_held (port : Nat) (p : Plan) (lane : Nat) : (planLane port p lane).1.held = p.1.held := by
  unfold planLane
  dsimp only
  (repeat' split) <;> simp

@[simp] theorem planOptics_held (p : Plan) : (planOptics p).1.held = p.1.held := by
  refine foldl_plan_held _ (fun p port => ?_) _ p
  split
  · rfl
  · exact foldl_plan_held _ (planLane_held port) _ p

theorem execHealthPlan_keeps (gauges : List GaugeRead) (s : State) : KeepsHeld (execHealthPlan gauges s) s := by
  refine keepsHeld_whenUp fun s => ?_
  dsimp only
  have units := foldl_plan_held _ (planUnit_held (usedGauges (excludeGauges s (gauges.take 64).zipIdx).1 (gauges.take 64).zipIdx)) allUnits
  split <;> simp [↓held_mk, units]

theorem execCreepRecord_keeps (s : State) : KeepsHeld (execCreepRecord s) s := by
  refine keepsHeld_whenUp fun s => ?_
  simp [apply_ite State.held]

theorem execOpticsIn_keeps (fromMgmt : Bool) (port : Nat) (word : BitVec 32) (s : State) :
    KeepsHeld (execOpticsIn fromMgmt port word s) s := by
  refine keepsHeld_whenUp fun s => ?_
  simp [apply_ite State.held]

theorem execOpticsStale_keeps (port : Nat) (s : State) : KeepsHeld (execOpticsStale port s) s := by
  refine keepsHeld_whenUp fun s => ?_
  simp [apply_ite State.held]

theorem execVholdSample_keeps (mv : Nat) (s : State) : KeepsHeld (execVholdSample mv s) s := by
  refine keepsHeld_whenAon fun s => ?_
  simp [apply_ite State.held]

/-! Leadbox, counters and watches (chapter 18) -/

theorem execLeadboxRecord_keeps (s : State) : KeepsHeld (execLeadboxRecord s) s := by
  refine keepsHeld_whenAon fun s => ?_
  (repeat' split) <;> simp

theorem execNextComplementMismatch_keeps (s : State) : KeepsHeld (execNextComplementMismatch s) s := by
  refine keepsHeld_whenAon fun s => ?_
  simp

theorem execSummaryFold_keeps (s : State) : KeepsHeld (execSummaryFold s) s := by
  refine keepsHeld_whenAon fun s => ?_
  simp

theorem execLbxCursorHi_keeps (hi : BitVec 32) (s : State) : KeepsHeld (execLbxCursorHi hi s) s := by
  refine keepsHeld_done ?_
  simp [apply_ite State.held]

theorem execLbxWindowAuto_keeps (s : State) : KeepsHeld (execLbxWindowAuto s) s := by
  refine keepsHeld_done ?_
  simp [apply_ite State.held]

theorem execLbxVerify_keeps (s : State) : KeepsHeld (execLbxVerify s) s := by
  refine keepsHeld_done ?_
  simp [apply_ite State.held]

theorem execLbxNextLo_keeps (s : State) : KeepsHeld (execLbxNextLo s) s := by
  refine keepsHeld_done ?_
  simp [apply_ite State.held]

theorem execLbxRecord_keeps (s : State) : KeepsHeld (execLbxRecord s) s := by
  refine keepsHeld_done ?_
  simp [apply_ite State.held]

theorem execLbxCursor_keeps (n : Nat) (s : State) : KeepsHeld (execLbxCursor n s) s := by
  refine keepsHeld_done ?_
  simp [apply_ite State.held]

theorem execFreezeIn_keeps (s : State) : KeepsHeld (execFreezeIn s) s := by
  refine keepsHeld_done ?_
  simp [apply_ite State.held]

theorem execFrzTimeLo_keeps (s : State) : KeepsHeld (execFrzTimeLo s) s := by
  refine keepsHeld_done ?_
  simp [apply_ite State.held]

theorem execLiveCounterLo_keeps (offset : Nat) (s : State) : KeepsHeld (execLiveCounterLo offset s) s := by
  refine keepsHeld_done ?_
  simp [apply_ite State.held]

theorem execWatchArm_keeps (h : MbxHdr) (b : WatchBody) (s : State) : KeepsHeld (execWatchArm h b s) s := by
  refine keepsHeld_mailbox fun s => ?_
  (repeat' split) <;> simp

theorem execWatchCancel_keeps (h : MbxHdr) (watch : Nat) (s : State) : KeepsHeld (execWatchCancel h watch s) s := by
  refine keepsHeld_mailbox fun s => ?_
  (repeat' split) <;> simp

theorem execDigestRotate_keeps (h : MbxHdr) (s : State) : KeepsHeld (execDigestRotate h s) s := by
  refine keepsHeld_mailboxLater fun s => ?_
  (repeat' split) <;> simp

theorem execWatchTimeout_keeps (watch : Nat) (s : State) : KeepsHeld (execWatchTimeout watch s) s := by
  refine keepsHeld_whenUp fun s => ?_
  (repeat' split) <;> simp

theorem execDumpEnable_keeps (e : Envelope) (s : State) : KeepsHeld (execDumpEnable e s) s := by
  refine keepsHeld_whenUp fun s => ?_
  simp

/-! Dictionary and management network (chapter 19) -/

theorem execInitiateRead_keeps (requester txn index sub : Nat) (shadow : Bool) (s : State) :
    KeepsHeld (execInitiateRead requester txn index sub shadow s) s := by
  refine keepsHeld_done ?_
  dsimp only
  (repeat' split) <;> simp [↓answerRead_held, ↓held_mk]

theorem execInitiateDescribe_keeps (requester txn index sub : Nat) (s : State) :
    KeepsHeld (execInitiateDescribe requester txn index sub s) s := by
  refine keepsHeld_done ?_
  dsimp only
  (repeat' split) <;> simp

theorem execMdtAck_keeps (requester txn next : Nat) (s : State) : KeepsHeld (execMdtAck requester txn next s) s := by
  refine keepsHeld_done ?_
  dsimp only
  (repeat' split) <;> simp

theorem execMdtAbort_keeps (requester txn result : Nat) (s : State) : KeepsHeld (execMdtAbort requester txn result s) s := by
  refine keepsHeld_done ?_
  dsimp only
  (repeat' split) <;> simp

theorem execTransferTimeout_keeps (requester txn : Nat) (s : State) : KeepsHeld (execTransferTimeout requester txn s) s := by
  refine keepsHeld_done ?_
  (repeat' split) <;> simp

theorem execStatusFrame_keeps (s : State) : KeepsHeld (execStatusFrame s) s := by
  refine keepsHeld_done ?_
  simp [apply_ite State.held]

theorem execMgtBusoff_keeps (s : State) : KeepsHeld (execMgtBusoff s) s := by
  refine keepsHeld_done ?_
  simp [apply_ite State.held]

theorem execDictRead_keeps (h : MbxHdr) (index sub slice : Nat) (s : State) :
    KeepsHeld (execDictRead h index sub slice s) s := by
  refine keepsHeld_done ?_
  (repeat' split) <;> simp

theorem execDictDescribe_keeps (h : MbxHdr) (index sub slice : Nat) (s : State) :
    KeepsHeld (execDictDescribe h index sub slice s) s := by
  refine keepsHeld_done ?_
  (repeat' split) <;> simp

theorem execRegisterWrite_keeps (addr : Nat) (value : BitVec 32) (master : Nat)
    (s : State) : KeepsHeld (execRegisterWrite addr value master s) s := by
  refine keepsHeld_done ?_
  (repeat' split) <;> simp [execPageAccessViolation]

theorem execBusOffRecovery_keeps (s : State) : KeepsHeld (execBusOffRecovery s) s := by
  refine keepsHeld_done ?_
  simp [apply_ite State.held]

theorem execRecordLimitWindow_keeps (s : State) : KeepsHeld (execRecordLimitWindow s) s := by
  refine keepsHeld_whenUp fun s => ?_
  simp

end Sys2Proof.Machine

namespace Sys2Proof.Machine

/-! Commands that may change the pools (R445, R446, R47). -/

theorem execCoreParityMispredict_keeps (unit : Nat) (core : PoolCore) (s : State) :
    Keeps Held.butPools (execCoreParityMispredict unit core s) s := by
  refine keeps_whenUp fun s => ?_
  unfold Held.butPools
  split <;> simp
theorem execCoreKatTest_keeps (unit pool : Nat) (pass : Bool) (s : State) :
    Keeps Held.butPools (execCoreKatTest unit pool pass s) s := by
  refine keeps_whenUp fun s => ?_
  unfold Held.butPools
  dsimp only
  (repeat' split) <;> simp
theorem execNeighbourRst_keeps (g : Group) (index : Nat) (s : State) :
    Keeps Held.butPools (execNeighbourRst g index s) s := by
  refine keeps_whenAon fun s => ?_
  unfold Held.butPools
  dsimp only
  (repeat' split) <;> simp [↓settleResets_kept, ↓kept_mk]
theorem execNeighbourFlush_keeps (g : Group) (index : Nat) (s : State) :
    Keeps Held.butPools (execNeighbourFlush g index s) s := by
  refine keeps_whenAon fun s => ?_
  unfold Held.butPools
  split <;> simp
theorem execNflushLate_keeps (g : Group) (index : Nat) (s : State) :
    Keeps Held.butPools (execNflushLate g index s) s := by
  refine keeps_whenAon fun s => ?_
  unfold Held.butPools
  dsimp only
  split <;> simp
theorem execTcuRestart_keeps (c : TcuCause) (s : State) : Keeps Held.butPools (execTcuRestart c s) s := by
  refine keeps_whenUp fun s => ?_
  unfold Held.butPools
  split <;> simp
theorem execLockstepMismatch_keeps (s : State) : Keeps Held.butPools (execLockstepMismatch s) s := by
  refine keeps_whenUp fun s => ?_
  unfold Held.butPools
  simp
theorem execHandlerDeadlineMiss_keeps (unit : Nat) (s : State) : Keeps Held.butPools (execHandlerDeadlineMiss unit s) s := by
  refine keeps_whenUp fun s => ?_
  unfold Held.butPools
  (repeat' split) <;> simp
theorem execEngineReset_keeps (unit : Nat) (pools : List (Nat × List Nat)) (s : State) :
    Keeps Held.butPools (execEngineReset unit pools s) s := by
  refine keeps_whenUp fun s => ?_
  unfold Held.butPools
  (repeat' split) <;> simp
theorem execChipWarmReset_keeps (c : ChipCause) (s : State) : Keeps Held.butPools (execChipWarmReset c s) s := by
  refine keeps_whenAon fun s => ?_
  unfold Held.butPools
  (repeat' split) <;> simp
theorem execTcuBeatTimeout5ms_keeps (s : State) : Keeps Held.butPools (execTcuBeatTimeout5ms s) s := by
  refine keeps_done ?_
  unfold Held.butPools
  split <;> simp
theorem execPoolWack_keeps (port count : Nat) (s : State) : Keeps Held.butPools (execPoolWack port count s) s := by
  refine keeps_whenUp fun s => ?_
  unfold Held.butPools
  simp

/-! Commands that may move session time (R415 to R419). -/

theorem timeTo_keeps (s : State) (new : Nat) : Held.butTime (timeTo s new).held = Held.butTime s.held := by
  unfold timeTo
  dsimp only
  split
  · rfl
  · split
    · rfl
    · rw [latch_held]
      rfl

theorem setTime_keeps (s : State) (t : Time) : Held.butTime { s with time := t }.held = Held.butTime s.held := rfl

theorem takeEdge_keeps (s : State) (e : Nat) : Held.butTime (takeEdge s e).held = Held.butTime s.held := by
  unfold takeEdge
  extract_lets err good t s1 s2
  split
  · rw [setTime_keeps, timeTo_keeps, setTime_keeps]
  · split
    · rw [timeTo_keeps, setTime_keeps]
    · rw [setTime_keeps, setTime_keeps]

theorem rejectEdge_keeps (s : State) (e : Nat) : Held.butTime (rejectEdge s e).held = Held.butTime s.held := by
  unfold rejectEdge
  extract_lets err inRow run s1 s2
  split
  · rw [setTime_keeps]
  · split
    · rw [takeEdge_keeps, timeTo_keeps, latch_held, setTime_keeps, setTime_keeps]
    · split
      · rw [timeTo_keeps, setTime_keeps]
      · rw [setTime_keeps]

theorem execTrefLock_keeps (s : State) : Keeps Held.butTime (execTrefLock s) s := by
  refine keeps_whenAon fun s => ?_
  split
  · rfl
  · dsimp only
    split
    · rfl
    · exact timeTo_keeps _ 1
theorem execTrefLoss_keeps (s : State) : Keeps Held.butTime (execTrefLoss s) s := by
  refine keeps_whenAon fun s => ?_
  split
  · exact timeTo_keeps _ 0
  · rfl
theorem execTpulseEdge_keeps (at125ps : Nat) (s : State) : Keeps Held.butTime (execTpulseEdge at125ps s) s := by
  refine keeps_whenAon fun s => ?_
  split
  · rfl
  · dsimp only
    split
    · rw [takeEdge_keeps]
      rfl
    · rw [rejectEdge_keeps]
      rfl
theorem execTpulseMissing_keeps (s : State) : Keeps Held.butTime (execTpulseMissing s) s := by
  refine keeps_whenAon fun s => ?_
  split
  · exact timeTo_keeps _ 4
  · rfl
theorem execTpulseSilence_keeps (s : State) : Keeps Held.butTime (execTpulseSilence s) s := by
  refine keeps_whenAon fun s => ?_
  split
  · exact timeTo_keeps _ 1
  · rfl

/-! A failing supply (R493). -/


theorem setPow_keeps (s : State) (p : Power) (c : Crossings) (e : Errors) (h : Health) :
    Held.butRails { s with pow := p, cross := c, err := e, health := h }.held = Held.butRails s.held := rfl

theorem execPfailN_keeps (e : SaveEnv) (s : State) : Keeps Held.butRails (execPfailN e s) s := by
  refine keeps_whenAon fun s => ?_
  dsimp only
  split
  · rfl
  · rw [setPow_keeps]
    refine congrArg Held.butRails ?_
    rw [resetRec_held, zeroiseKeys_held, dropCasts_held]
    split <;> simp

/-! Commands that may write the stored configuration or the endorsement (R178, R541, R542). -/

theorem storeConfig_keeps (s : State) : Held.butCopies (storeConfig s).held = Held.butCopies s.held := by
  unfold storeConfig
  dsimp only
  split
  · rfl
  · split
    · refine Eq.trans (b := Held.butCopies (spendKey (needKey s .oper).drew .oper 1 0).held) rfl ?_
      rw [spendKey_held, State_drew_held, needKey_held]
    · rw [notice_held, needKey_held]

theorem execConfigStore_keeps (s : State) : Keeps Held.butCopies (execConfigStore s) s := by
  refine keeps_whenUp fun s => ?_
  split
  · exact storeConfig_keeps s
  · rfl

theorem putSetting_keeps (s : State) (e : Entry) (key v : Nat) :
    Held.butCopies (putSetting s e key v).1.held = Held.butCopies s.held := by
  unfold putSetting
  cases e.change with
  | live => rfl
  | commit => rfl
  | quiesce => dsimp only; split <;> rfl
  | boot => exact storeConfig_keeps _

theorem writeSetting_keeps (index sub : Nat) (s : State) (b : Bytes) :
    Held.butCopies (writeSetting index sub s b).1.held = Held.butCopies s.held := by
  unfold writeSetting
  dsimp only
  split
  · rfl
  · split
    · rfl
    · split
      · rfl
      · exact putSetting_keeps ..

theorem execAddressAssign_keeps (unit address : Nat) (s : State) : Keeps Held.butCopies (execAddressAssign unit address s) s := by
  refine keeps_done ?_
  dsimp only
  split
  · split
    · rw [canReply_held, State_heldIn_held]
    · split
      · rw [canReply_held, State_heldIn_held]
      · rw [writeSetting_keeps, canReply_held, State_heldIn_held]
  · rfl

theorem execIdentityEndorsement_keeps (e : Endorsement) (s : State) :
    Keeps Held.butEndorsement (execIdentityEndorsement e s) s := by
  refine keeps_whenUp fun s => ?_
  split <;> (rw [answerWrite_held]) <;> rfl
end Sys2Proof.Machine

namespace Sys2Proof.Machine

/-! Commands that may write the life-cycle record (R153, R162, R163, R167). -/

theorem setLc_keeps (s : State) (l : LifeCycle) : Held.butRecord { s with lc := l }.held = Held.butRecord s.held := rfl

theorem lcWrite_keeps (s : State) (c : LcCopy) : Held.butRecord (lcWrite s c).held = Held.butRecord s.held := rfl

theorem transition_keeps (s : State) (target : BitVec 16) (binding : Option (BitVec 256)) (signer token : Nat) :
    Held.butRecord (transition s target binding signer token).held = Held.butRecord s.held := by
  unfold transition
  extract_lets r gen src r' s1 s2
  refine Eq.trans (b := Held.butRecord s2.held) rfl ?_
  rw [record_held, lcWrite_keeps]

theorem openDebug_keeps (s : State) (scope : BitVec 16) : Held.butRecord (openDebug s scope).held = Held.butRecord s.held := by
  unfold openDebug
  extract_lets r src s1 s2
  rw [sessionKeys_held]
  refine Eq.trans (b := Held.butRecord s2.held) rfl ?_
  rw [dropKeys_held, lcWrite_keeps]

theorem execLcRequest_keeps (r : SignedReq) (s : State) : Keeps Held.butRecord (execLcRequest r s) s := by
  refine keeps_whenAon fun s => ?_
  dsimp only
  split
  · rw [lcResult_held]
  · rw [transition_keeps, lcResult_held]

theorem execLcToken_keeps (target : BitVec 16) (tok : BitVec 128) (overCan : Bool) (s : State) :
    Keeps Held.butRecord (execLcToken target tok overCan s) s := by
  refine keeps_whenAon fun s => ?_
  dsimp only
  split
  · rw [lcResult_held]
  · split
    · rw [lcResult_held]
    · split
      · rw [lcResult_held]
      · split
        · rw [lcResult_held]
        · rw [setLc_keeps, transition_keeps, lcResult_held]

theorem execDebugGrant_keeps (r : SignedReq) (s : State) : Keeps Held.butRecord (execDebugGrant r s) s := by
  refine keeps_whenAon fun s => ?_
  dsimp only
  split
  · rw [lcResult_held]
  · rw [lcResult_held]
  · split
    · rw [lcResult_held]
    · rw [openDebug_keeps, lcResult_held]

/-! Writes over the dictionary (R535 to R540): they may do what the written entry's own command does. -/

theorem Held.butWritten_of_butCopies {h k : Held} (e : Held.butCopies h = Held.butCopies k) : Held.butWritten h = Held.butWritten k :=
  congrArg (fun x => (x.1, x.2.2.1, x.2.2.2.1, x.2.2.2.2.1, x.2.2.2.2.2.2)) e

theorem Held.butWritten_of_butRecord {h k : Held} (e : Held.butRecord h = Held.butRecord k) : Held.butWritten h = Held.butWritten k :=
  congrArg (fun x => (x.1, x.2.1, x.2.2.1, x.2.2.2.2.1, x.2.2.2.2.2.2)) e

theorem Held.butWritten_of_butEndorsement {h k : Held} (e : Held.butEndorsement h = Held.butEndorsement k) :
    Held.butWritten h = Held.butWritten k :=
  congrArg (fun x => (x.1, x.2.2.1, x.2.2.2.1, x.2.2.2.2.2.1, x.2.2.2.2.2.2)) e

/-- A signed write keeps what the entry's own write keeps. -/
theorem signedWrite_keeps {β : Type} (part : Held → β) (s : State) (index sub : Nat) (e : Envelope) (apply : State → Bytes → State × Verdict)
    (h : ∀ s b, part (apply s b).1.held = part s.held) : part (signedWrite s index sub e apply).held = part s.held := by
  unfold signedWrite
  dsimp only
  split
  · rw [answerSigned_held, lcSet_held]
  · rw [answer_held, h, lcSet_held]

theorem writeSigned_keeps (s : State) (index sub : Nat) (b : Bytes) :
    Held.butCopies (writeSigned s index sub b).held = Held.butCopies s.held := by
  unfold writeSigned
  dsimp only
  split
  · exact congrArg Held.butCopies (execResetRequest_keeps _ s).after
  · split
    · exact congrArg Held.butCopies (execDumpEnable_keeps _ s).after
    · exact signedWrite_keeps _ s index sub _ _ (writeSetting_keeps index sub)

/-- A write of an entry with a command of its own runs that command; three of these write the record, one the endorsement, and
the others keep all of the held parts. -/
theorem writeA_cases {s t : State} {key : Nat} {b : Bytes} (h : writeA s key b = some t) :
    t.held = s.held ∨ (∃ r, t = after (execLcRequest r s) s) ∨ (∃ target tok, t = after (execLcToken target tok true s) s) ∨
      (∃ r, t = after (execDebugGrant r s) s) ∨ ∃ e, t = after (execIdentityEndorsement e s) s := by
  unfold writeA at h
  dsimp only at h
  split at h
  · cases h
    exact .inr (.inl ⟨_, rfl⟩)
  split at h
  · split at h
    · cases h
      exact .inr (.inr (.inl ⟨_, _, rfl⟩))
    · cases h
      exact .inl (lcResult_held ..)
  split at h
  · cases h
    exact .inl (execDebugRequest_keeps _ s).after
  split at h
  · cases h
    exact .inr (.inr (.inr (.inl ⟨_, rfl⟩)))
  split at h
  · cases h
    exact .inl (execQuenchRelease_keeps _ s).after
  split at h
  · cases h
    exact .inl (execFwImage_keeps _ s).after
  split at h
  · split at h
    · cases h
      exact .inl (execDomainCreate_keeps _ s).after
    · cases h
      exact .inl (answerWrite_held ..)
  split at h
  · split at h
    · cases h
      exact .inl (execPolicyUpdate_keeps _ s).after
    · cases h
      exact .inl (answerWrite_held ..)
  split at h
  · split at h
    · cases h
      exact .inl (execHostMember_keeps _ s).after
    · cases h
      exact .inl (answerWrite_held ..)
  split at h
  · split at h
    · cases h
      exact .inr (.inr (.inr (.inr ⟨_, rfl⟩)))
    · cases h
      exact .inl (answerWrite_held ..)
  · cases h

theorem writeA_keeps {s t : State} {key : Nat} {b : Bytes} (h : writeA s key b = some t) :
    Held.butWritten t.held = Held.butWritten s.held := by
  obtain kept | ⟨r, rfl⟩ | ⟨target, tok, rfl⟩ | ⟨r, rfl⟩ | ⟨e, rfl⟩ := writeA_cases h
  · exact congrArg Held.butWritten kept
  · exact Held.butWritten_of_butRecord (execLcRequest_keeps r s).after
  · exact Held.butWritten_of_butRecord (execLcToken_keeps target tok true s).after
  · exact Held.butWritten_of_butRecord (execDebugGrant_keeps r s).after
  · exact Held.butWritten_of_butEndorsement (execIdentityEndorsement_keeps e s).after

/-- A write that is whole keeps all but the stored configuration, or it is one of an entry with a command of its own. -/
theorem applyWrite_cases (s : State) (t : Transfer) :
    Held.butCopies (applyWrite s t).held = Held.butCopies s.held ∨
      ∃ u key b, u.held = s.held ∧ writeA u key b = some (applyWrite s t) := by
  unfold applyWrite
  extract_lets src s1
  have answering : s1.held = s.held := rfl
  rw [← answering]
  split
  · exact .inl (by rw [answer_held])
  · extract_lets signed
    split
    · exact .inl (writeSigned_keeps s1 _ _ _)
    · split
      · exact .inl (by rw [answer_held])
      · split
        · rename_i written
          exact .inr ⟨s1, _, _, rfl, written⟩
        · split
          · rename_i written
            exact .inl (by rw [writeB_held _ _ _ _ written])
          · split
            · exact .inl (by rw [answer_held])
            · exact .inl (by rw [answer_held, writeSetting_keeps])

theorem applyWrite_keeps (s : State) (t : Transfer) : Held.butWritten (applyWrite s t).held = Held.butWritten s.held := by
  obtain kept | ⟨u, key, b, same, written⟩ := applyWrite_cases s t
  · exact Held.butWritten_of_butCopies kept
  · rw [writeA_keeps written, same]

/-- A transfer that ends is discarded, its checksum being wrong, or applied. -/
theorem endWrite_cases (s : State) (t : Transfer) : (endWrite s t).held = s.held ∨ endWrite s t = applyWrite s t := by
  unfold endWrite
  split
  · exact .inl (by simp [↓held_mk])
  · exact .inr rfl

theorem endWrite_keeps (s : State) (t : Transfer) : Held.butWritten (endWrite s t).held = Held.butWritten s.held := by
  obtain kept | applied := endWrite_cases s t
  · rw [kept]
  · rw [applied, applyWrite_keeps]

theorem execInitiateWrite_keeps (requester txn index sub total : Nat) (crc : BitVec 32) (data : Bytes) (s : State) :
    Keeps Held.butWritten (execInitiateWrite requester txn index sub total crc data s) s := by
  refine keeps_done ?_
  dsimp only
  split
  · split
    · rw [canReply_held, State_heldIn_held]
    · split
      · rw [endWrite_keeps, State_heldIn_held]
      · rfl
  · rfl

theorem execMdtSegment_keeps (requester txn segno : Nat) (data : Bytes) (s : State) :
    Keeps Held.butWritten (execMdtSegment requester txn segno data s) s := by
  refine keeps_done ?_
  dsimp only
  split
  · split
    · rw [canReply_held, State_heldIn_held]
    · split
      · rw [endTransfer_held, State_heldIn_held]
      · split
        · rw [endWrite_keeps, dropTransfer_held, State_heldIn_held]
        · split
          · rw [ackFrame_held, setTransfer_held, State_heldIn_held]
          · rw [setTransfer_held, State_heldIn_held]
  · rfl

/-! The ends of a session and a start keep the queue of waiting commands (log 1). -/

theorem timeTo_pending (s : State) (new : Nat) : (timeTo s new).pending = s.pending := congrArg (·.1) (timeTo_keeps s new)

theorem execSessionStart_keeps (s : State) : Keeps Held.queue (execSessionStart s) s := by
  refine keeps_done ?_
  dsimp only
  split
  · rfl
  · exact (timeTo_pending _ 1).trans (congrArg Held.queue (runScan_held _))

theorem execSessionEnd_keeps (s : State) : Keeps Held.queue (execSessionEnd s) s := by
  refine keeps_done ?_
  split <;> rfl

theorem drawNonzero_keeps (n : Nat) (s : State) : Held.butRails (drawNonzero n s).held = Held.butRails s.held := by
  induction n generalizing s with
  | zero => rfl
  | succ n ih =>
    unfold drawNonzero
    split
    · rw [ih, State_drew_held]
    · rfl

theorem drawSession_keeps (s : State) : Held.butRails (drawSession s).held = Held.butRails s.held := by
  unfold drawSession
  split
  · exact drawNonzero_keeps 64 s
  · rfl

theorem settleLc_keeps (s : State) : Held.butRecord (settleLc s).held = Held.butRecord s.held := by
  unfold settleLc
  dsimp only
  (repeat' split) <;> first | rw [notice_held] | rw [record_held] | skip
  all_goals rfl

theorem clearForce_keeps (s : State) : Held.butCopies (clearForce s).held = Held.butCopies s.held := by
  unfold clearForce
  dsimp only
  split
  · rw [storeConfig_keeps]
    rfl
  · rfl

/-! A start keeps the queue and session time; up to the entry actions, and after them, also the record. -/

/-- The queue and session time. -/
def Held.queueTime (h : Held) := (h.queue, h.time)

/-- The queue, the life-cycle record with the used tokens, and session time. -/
def Held.recordTime (h : Held) := (h.1.1, h.time)

theorem recordTime_of_butRails {h k : Held} (e : Held.butRails h = Held.butRails k) : Held.recordTime h = Held.recordTime k :=
  congrArg (fun x => ((x.1, x.2.1), x.2.2.1)) e

theorem recordTime_of_butCopies {h k : Held} (e : Held.butCopies h = Held.butCopies k) : Held.recordTime h = Held.recordTime k :=
  congrArg (fun x => ((x.1, x.2.1), x.2.2.2.1)) e

theorem recordTime_of_butPools {h k : Held} (e : h.1 = k.1) : Held.recordTime h = Held.recordTime k :=
  congrArg (fun x => (x.1, x.2.2.1)) e

theorem queueTime_of_recordTime {h k : Held} (e : Held.recordTime h = Held.recordTime k) : Held.queueTime h = Held.queueTime k :=
  congrArg (fun x => (x.1.1, x.2)) e

theorem startRest_keeps (s : State) (first : Bool) (found : List (Nat × Nat × List Nat)) :
    Held.recordTime (startRest s first found).held = Held.recordTime s.held := by
  unfold startRest
  extract_lets s1 s2 reason cold s3
  have image : s1.held = s.held := reloadImage_held s
  split
  · rw [loaderOnly_held, image]
  · have config : s2.held = s.held := by
      rw [← image]
      simp [s2, apply_ite State.held]
    have engines : Held.recordTime s3.held = Held.recordTime s.held := by
      rw [enginesReady_held, startKeys_held, recordTime_of_butPools (startPools_kept ..),
        recordTime_of_butCopies (clearForce_keeps s2), config]
    rw [vtcReady_held]
    split
    · rw [consumeIngot_held, engines]
    · exact engines

/-- The entry actions of R163 end with the record's copy of the state entered, no actions pending; they keep queue and time. -/
theorem entryActions_eq (s : State) (h : bit s.lc.primary.flags.toNat 0 = true) :
    ∃ u : State, entryActions s = lcWrite u (u.lc.primary.next s.lc.code false) ∧
      Held.queueTime u.held = Held.queueTime s.held ∧ u.lc.code = s.lc.code := by
  unfold entryActions
  rw [h]
  refine ⟨_, rfl, ?_, ?_⟩
  all_goals
    dsimp only
    (repeat' split) <;> rfl

theorem entryActions_eq_self (s : State) (h : bit s.lc.primary.flags.toNat 0 = false) : entryActions s = s := by
  unfold entryActions
  rw [h]
  rfl

theorem entryActions_keeps (s : State) : Held.queueTime (entryActions s).held = Held.queueTime s.held := by
  cases h : bit s.lc.primary.flags.toNat 0 with
  | false => rw [entryActions_eq_self s h]
  | true =>
    obtain ⟨u, e, kept, -⟩ := entryActions_eq s h
    rw [e, ← kept]
    rfl

/-! A start in stages (R458 to R461): power and reset, the session identifier, the record and the entry actions, the root. -/

/-- The unit with its rails up and the start counted, the last start's logic reset done. -/
def startPowered (s : State) : State :=
  let first := s.boot.starts == 0
  let s0 := if s.boot.wasReset || first then s else logicReset s
  { s0 with
    pow.iod := true, pow.cdieA := true, pow.cdieB := true, pins.pfailLow := false
    pow.startIndex := if first then 0 else min (s0.pow.startIndex + 1) 0xFFF
    boot.starts := if s0.boot.starts = 255 then 255 else s0.boot.starts + 1
    boot.t0 := s0.ns, boot.wasReset := false, boot.phase := 0, boot.loader := false, cross.vflush := s0.cross.nrst
    arb.capacityPending := s0.arb.capacityPending ++
      (if !first && s0.pow.startIndex = 0xFFE then [6 * 2 ^ 24 + 0xFF * 2 ^ 16 + 0xFFF] else [])
    err.startAt := s0.ns, err.startBeat := false, err.arm5 := false, err.arm50 := false, err.armMgmt := false }

/-- The random source seeded and the session identifier drawn, if it was 0 (R7). -/
def startSeeded (s : State) : State :=
  drawSession { s with
    vault.entropyOk := true, vault.seeded := true, vault.requests := 0, vault.reseedAt := s.ns, vault.annealAt := s.ns
    vault.annealPeriod := setting s 0x2100 2 }

/-- Record and version settled, the entry actions done, the scope of the state in force. -/
def startSettled (s : State) : State :=
  let t := settleVersion (settleLc s)
  let u := if t.lc.code = 0 then t else entryActions t
  { u with lc.scope := stateScope u.lc.code, lc.byGrant := false }

theorem startUp_eq (s : State) (e : StartEnv) :
    startUp s e =
      (if !e.entropyOk then { startPowered s with vault.entropyOk := false }
       else
        let u := startSeeded (startPowered s)
        if u.pow.sessionId = 0 then { u with vault.entropyOk := false }
        else
          let v := startSettled u
          if v.pow.quenched then loaderOnly v
          else
            let w := regenerate v e.pufReads
            if w.pow.rootFail then loaderOnly w else startRest w (s.boot.starts == 0) e.pools) := by
  unfold startUp startSeeded startSettled startPowered
  with_reducible rfl

theorem startPowered_keeps (s : State) : Held.recordTime (startPowered s).held = Held.recordTime s.held := by
  unfold startPowered
  dsimp only
  split
  · rfl
  · exact Eq.trans (b := Held.recordTime (logicReset s).held) rfl (recordTime_of_butPools (logicReset_kept s))

theorem startSeeded_keeps (s : State) : Held.recordTime (startSeeded s).held = Held.recordTime s.held :=
  recordTime_of_butRails (drawSession_keeps _)

theorem startSettled_keeps (s : State) : Held.queueTime (startSettled s).held = Held.queueTime s.held := by
  have versioned : Held.queueTime (settleVersion (settleLc s)).held = Held.queueTime s.held := by
    rw [settleVersion_held]
    exact congrArg (fun x => (x.1, x.2.2.1)) (settleLc_keeps s)
  unfold startSettled
  dsimp only
  split
  · exact versioned
  · exact (entryActions_keeps _).trans versioned

theorem startUp_keeps (s : State) (e : StartEnv) : Held.queueTime (startUp s e).held = Held.queueTime s.held := by
  have powered := queueTime_of_recordTime (startPowered_keeps s)
  rw [startUp_eq, ← powered]
  generalize startPowered s = u
  have seeded := queueTime_of_recordTime (startSeeded_keeps u)
  rw [← seeded]
  split
  · exact seeded.symm
  · dsimp only
    generalize startSeeded u = v
    split
    · rfl
    · rw [← startSettled_keeps v]
      generalize startSettled v = w
      split
      · rfl
      · rw [← regenerate_held w e.pufReads]
        split
        · rfl
        · exact queueTime_of_recordTime (startRest_keeps ..)

theorem execStart_keeps (e : StartEnv) (s : State) : Keeps Held.queueTime (execStart e s) s := by
  refine keeps_whenAon fun s => ?_
  split
  · rfl
  · exact startUp_keeps s e

end Sys2Proof.Machine

/-!
What each command keeps of the held parts, said once for all commands, and the statements that follow from it: no command stops
the machine or changes the queue, and the record, session time, the rails, the pools and the stored settings change with the
commands of their own alone.
-/
namespace Sys2Proof.Machine

/-- What a command keeps: all the held parts, or all but those that the flags of Safety.lean let it change. -/
inductive CommandFrame (c : Instr) (s : State) : Prop
  | all (kept : KeepsHeld (exec c s) s)
  | pools (may : changesPools c = true) (kept : Keeps Held.butPools (exec c s) s)
  | time (may : movesTime c = true) (kept : Keeps Held.butTime (exec c s) s)
  | rails (may : changesRails c = true) (kept : Keeps Held.butRails (exec c s) s)
  | copies (may : storesConfig c = true) (kept : Keeps Held.butCopies (exec c s) s)
  | endorsement (may : writesEndorsement c = true) (kept : Keeps Held.butEndorsement (exec c s) s)
  | record (may : writesRecord c = true) (kept : Keeps Held.butRecord (exec c s) s)
  | written (record : writesRecord c = true) (config : storesConfig c = true) (endorse : writesEndorsement c = true)
      (kept : Keeps Held.butWritten (exec c s) s)
  | start (record : writesRecord c = true) (rails : changesRails c = true) (pools : changesPools c = true)
      (config : storesConfig c = true) (helper : writesHelper c = true) (endorse : writesEndorsement c = true)
      (kept : Keeps Held.queueTime (exec c s) s)
  | ends (record : writesRecord c = true) (time : movesTime c = true) (rails : changesRails c = true)
      (pools : changesPools c = true) (config : storesConfig c = true) (helper : writesHelper c = true)
      (endorse : writesEndorsement c = true) (kept : Keeps Held.queue (exec c s) s)

theorem exec_frame (c : Instr) (s : State) : CommandFrame c s := by
  cases c with
  | sessionStart => exact .ends rfl rfl rfl rfl rfl rfl rfl (execSessionStart_keeps ..)
  | sessionEnd => exact .ends rfl rfl rfl rfl rfl rfl rfl (execSessionEnd_keeps ..)
  | start => exact .start rfl rfl rfl rfl rfl rfl (execStart_keeps ..)
  | accelReady => exact .all (execAccelReady_keeps ..)
  | entropyHealthFail => exact .all (execEntropyHealthFail_keeps ..)
  | drbgReseed => exact .all (execDrbgReseed_keeps ..)
  | keyDerivation => exact .all (execKeyDerivation_keeps ..)
  | replace => exact .all (execReplace_keeps ..)
  | replaceComplete => exact .all (execReplaceComplete_keeps ..)
  | destroy => exact .all (execDestroy_keeps ..)
  | keyExport => exact .all (execKeyExport_keeps ..)
  | keyImport => exact .all (execKeyImport_keeps ..)
  | annealCycle => exact .all (execAnnealCycle_keeps ..)
  | usageReport => exact .all (execUsageReport_keeps (_engine := 0) ..)
  | keyUsageNotice => exact .all (execKeyUsageNotice_keeps ..)
  | keyUsageLimit => exact .all (execKeyUsageLimit_keeps ..)
  | vaultComplementMismatch => exact .all (execVaultComplementMismatch_keeps ..)
  | channelAllocate => exact .all (execChannelAllocate_keeps ..)
  | channelFree => exact .all (execChannelFree_keeps ..)
  | chJob => exact .all (execChJob_keeps ..)
  | chJobDone => exact .all (execChJobDone_keeps ..)
  | chSave => exact .all (execChSave_keeps ..)
  | chExport => exact .all (execChExport_keeps ..)
  | chRestoreInternal => exact .all (execChRestoreInternal_keeps ..)
  | chRestoreBlob => exact .all (execChRestoreBlob_keeps ..)
  | chAttach => exact .all (execChAttach_keeps ..)
  | chDetach => exact .all (execChDetach_keeps ..)
  | coreParityMispredict => exact .pools rfl (execCoreParityMispredict_keeps ..)
  | coreKatTest => exact .pools rfl (execCoreKatTest_keeps ..)
  | bucketRefill => exact .all (execBucketRefill_keeps ..)
  | pageAccessViolation => exact .all (execPageAccessViolation_keeps ..)
  | hybridSign => exact .all (execHybridSign_keeps ..)
  | hybridVerify => exact .all (execHybridVerify_keeps ..)
  | hybridKeyAgreement => exact .all (execHybridKeyAgreement_keeps ..)
  | lcNonce => exact .all (execLcNonce_keeps ..)
  | nonceExpire => exact .all (execNonceExpire_keeps ..)
  | lcRequest => exact .record rfl (execLcRequest_keeps ..)
  | lcToken => exact .record rfl (execLcToken_keeps ..)
  | debugRequest => exact .all (execDebugRequest_keeps ..)
  | challengeExpire => exact .all (execChallengeExpire_keeps ..)
  | debugGrant => exact .record rfl (execDebugGrant_keeps ..)
  | debugScrubDone => exact .all (execDebugScrubDone_keeps ..)
  | presenceEdge => exact .all (execPresenceEdge_keeps ..)
  | presenceWindowEnd => exact .all (execPresenceWindowEnd_keeps ..)
  | protectViolation => exact .all (execProtectViolation_keeps ..)
  | identityEndorsement => exact .endorsement rfl (execIdentityEndorsement_keeps ..)
  | domainCreate => exact .all (execDomainCreate_keeps ..)
  | domainJoin => exact .all (execDomainJoin_keeps ..)
  | joinHello => exact .all (execJoinHello_keeps ..)
  | joinChallenge => exact .all (execJoinChallenge_keeps ..)
  | joinEvidence => exact .all (execJoinEvidence_keeps ..)
  | joinAdmit => exact .all (execJoinAdmit_keeps ..)
  | joinDone => exact .all (execJoinDone_keeps ..)
  | joinRefuse => exact .all (execJoinRefuse_keeps ..)
  | joinTimeout => exact .all (execJoinTimeout_keeps ..)
  | policyUpdate => exact .all (execPolicyUpdate_keeps ..)
  | hostMember => exact .all (execHostMember_keeps ..)
  | hallmarkNonce => exact .all (execHallmarkNonce_keeps ..)
  | domainLeave => exact .all (execDomainLeave_keeps ..)
  | memberDownReceived => exact .all (execMemberDownReceived_keeps ..)
  | memberLeave => exact .all (execMemberLeave_keeps ..)
  | epochCoalesceExpire => exact .all (execEpochCoalesceExpire_keeps ..)
  | epochAgeLimit => exact .all (execEpochAgeLimit_keeps ..)
  | epochPrepare => exact .all (execEpochPrepare_keeps ..)
  | epochShare => exact .all (execEpochShare_keeps ..)
  | epochKey => exact .all (execEpochKey_keeps ..)
  | epochAck => exact .all (execEpochAck_keeps ..)
  | epochCommit => exact .all (execEpochCommit_keeps ..)
  | epochAckTimeout => exact .all (execEpochAckTimeout_keeps ..)
  | epochGraceEnd => exact .all (execEpochGraceEnd_keeps ..)
  | memberUpdate => exact .all (execMemberUpdate_keeps ..)
  | anchorBeatTimer => exact .all (execAnchorBeatTimer_keeps ..)
  | anchorBeat => exact .all (execAnchorBeat_keeps ..)
  | anchorState => exact .all (execAnchorState_keeps ..)
  | anchorProbe => exact .all (execAnchorProbe_keeps ..)
  | anchorSilence => exact .all (execAnchorSilence_keeps ..)
  | claimWaitExpire => exact .all (execClaimWaitExpire_keeps ..)
  | anchorClaim => exact .all (execAnchorClaim_keeps ..)
  | domainTermStale => exact .all (execDomainTermStale_keeps ..)
  | roleHandoff => exact .all (execRoleHandoff_keeps ..)
  | stateManifest => exact .all (execStateManifest_keeps ..)
  | getVersion => exact .all (execGetVersion_keeps ..)
  | getCapabilities => exact .all (execGetCapabilities_keeps ..)
  | negotiateAlgorithms => exact .all (execNegotiateAlgorithms_keeps ..)
  | keyExchange => exact .all (execKeyExchange_keeps ..)
  | finish => exact .all (execFinish_keeps ..)
  | updateKey => exact .all (execUpdateKey_keeps ..)
  | updateAllKeys => exact .all (execUpdateAllKeys_keeps ..)
  | verifyNewKey => exact .all (execVerifyNewKey_keeps ..)
  | heartbeat => exact .all (execHeartbeat_keeps ..)
  | endSession => exact .all (execEndSession_keeps ..)
  | getHallmark => exact .all (execGetHallmark_keeps ..)
  | frameSeal => exact .all (execFrameSeal_keeps ..)
  | frameEgress => exact .all (execFrameEgress_keeps ..)
  | frameReceive => exact .all (execFrameReceive_keeps ..)
  | ackSend => exact .all (execAckSend_keeps ..)
  | ack => exact .all (execAck_keeps ..)
  | retransmitTimer => exact .all (execRetransmitTimer_keeps ..)
  | keyMissFill => exact .all (execKeyMissFill_keeps ..)
  | flowEpochSwitch => exact .all (execFlowEpochSwitch_keeps ..)
  | flowKeyRetire => exact .all (execFlowKeyRetire_keeps ..)
  | fence => exact .all (execFence_keeps ..)
  | fenceTimeout => exact .all (execFenceTimeout_keeps ..)
  | nodeBinding => exact .all (execNodeBinding_keeps ..)
  | fabLanemap => exact .all (execFabLanemap_keeps ..)
  | fabLaneup => exact .all (execFabLaneup_keeps ..)
  | stepStage => exact .all (execStepStage_keeps ..)
  | chunkEmit => exact .all (execChunkEmit_keeps ..)
  | stepTimeout => exact .all (execStepTimeout_keeps ..)
  | stepSlotRelease => exact .all (execStepSlotRelease_keeps ..)
  | alloyLaneTest => exact .all (execAlloyLaneTest_keeps ..)
  | pewterRead => exact .all (execPewterRead_keeps ..)
  | pewterFullWrite => exact .all (execPewterFullWrite_keeps ..)
  | pewterPartialWrite => exact .all (execPewterPartialWrite_keeps ..)
  | poolReadCompletion => exact .all (execPoolReadCompletion_keeps ..)
  | poolWack => exact .pools rfl (execPoolWack_keeps ..)
  | poolTimeout => exact .all (execPoolTimeout_keeps ..)
  | regionRotate => exact .all (execRegionRotate_keeps ..)
  | rotationSweep => exact .all (execRotationSweep_keeps ..)
  | stkRequest => exact .all (execStkRequest_keeps ..)
  | scrubDone => exact .all (execScrubDone_keeps ..)
  | scrubWriteFail => exact .all (execScrubWriteFail_keeps ..)
  | hostInbound => exact .all (execHostInbound_keeps ..)
  | hostRecordArrive => exact .all (execHostRecordArrive_keeps ..)
  | hostOutbound => exact .all (execHostOutbound_keeps ..)
  | bounceState => exact .all (execBounceState_keeps ..)
  | rekeyDue => exact .all (execRekeyDue_keeps ..)
  | msixUnmask => exact .all (execMsixUnmask_keeps ..)
  | atsInvalidate => exact .all (execAtsInvalidate_keeps ..)
  | atsCompletion => exact .all (execAtsCompletion_keeps ..)
  | prgResponse => exact .all (execPrgResponse_keeps ..)
  | submit => exact .all (execSubmit_keeps ..)
  | pendingPieceSeal => exact .all (execPendingPieceSeal_keeps ..)
  | translationWalk => exact .all (execTranslationWalk_keeps ..)
  | check => exact .all (execCheck_keeps ..)
  | pieceRetire => exact .all (execPieceRetire_keeps ..)
  | cpqDone => exact .all (execCpqDone_keeps ..)
  | doorbell => exact .all (execDoorbell_keeps ..)
  | cqHead => exact .all (execCqHead_keeps ..)
  | faultHoldLimit => exact .all (execFaultHoldLimit_keeps ..)
  | alloc => exact .all (execAlloc_keeps ..)
  | free => exact .all (execFree_keeps ..)
  | objectRelease => exact .all (execObjectRelease_keeps ..)
  | eventCreate => exact .all (execEventCreate_keeps ..)
  | eventFree => exact .all (execEventFree_keeps ..)
  | queueCreate => exact .all (execQueueCreate_keeps ..)
  | queueDestroy => exact .all (execQueueDestroy_keeps ..)
  | windowExport => exact .all (execWindowExport_keeps ..)
  | objectInfo => exact .all (execObjectInfo_keeps ..)
  | pasidBind => exact .all (execPasidBind_keeps ..)
  | contextCreate => exact .all (execContextCreate_keeps ..)
  | contextDestroy => exact .all (execContextDestroy_keeps ..)
  | eventShare => exact .all (execEventShare_keeps ..)
  | memoryShare => exact .all (execMemoryShare_keeps ..)
  | eventQuery => exact .all (execEventQuery_keeps ..)
  | ctxUsage => exact .all (execCtxUsage_keeps ..)
  | sliceFreeze => exact .all (execSliceFreeze_keeps ..)
  | sliceThaw => exact .all (execSliceThaw_keeps ..)
  | sliceOffer => exact .all (execSliceOffer_keeps ..)
  | offerExpire => exact .all (execOfferExpire_keeps ..)
  | sliceSave => exact .all (execSliceSave_keeps ..)
  | sliceRestore => exact .all (execSliceRestore_keeps ..)
  | tenantSlices => exact .all (execTenantSlices_keeps ..)
  | arrayClean => exact .all (execArrayClean_keeps ..)
  | arrTileevt => exact .all (execArrTileevt_keeps ..)
  | arrFaultevt => exact .all (execArrFaultevt_keeps ..)
  | arrayCleanTimeout => exact .all (execArrayCleanTimeout_keeps ..)
  | arrayRecoveryTimeout => exact .all (execArrayRecoveryTimeout_keeps ..)
  | deferralExpire => exact .all (execDeferralExpire_keeps ..)
  | deadlineWithdraw => exact .all (execDeadlineWithdraw_keeps ..)
  | throttleWindow => exact .all (execThrottleWindow_keeps ..)
  | capacityChange => exact .all (execCapacityChange_keeps ..)
  | trefLock => exact .time rfl (execTrefLock_keeps ..)
  | trefLoss => exact .time rfl (execTrefLoss_keeps ..)
  | tpulseEdge => exact .time rfl (execTpulseEdge_keeps ..)
  | tpulseMissing => exact .time rfl (execTpulseMissing_keeps ..)
  | tpulseSilence => exact .time rfl (execTpulseSilence_keeps ..)
  | virtualEdge => exact .all (execVirtualEdge_keeps ..)
  | timeLo => exact .all (execTimeLo_keeps ..)
  | castArm => exact .all (execCastArm_keeps ..)
  | castStageAck => exact .all (execCastStageAck_keeps ..)
  | castCancel => exact .all (execCastCancel_keeps ..)
  | timeNow => exact .all (execTimeNow_keeps ..)
  | castFire => exact .all (execCastFire_keeps ..)
  | commitAt => exact .all (execCommitAt_keeps ..)
  | freezeAt => exact .all (execFreezeAt_keeps ..)
  | clkdStop => exact .all (execClkdStop_keeps ..)
  | clkdResume => exact .all (execClkdResume_keeps ..)
  | neighbourRst => exact .pools rfl (execNeighbourRst_keeps ..)
  | neighbourRstRelease => exact .all (execNeighbourRstRelease_keeps ..)
  | neighbourFlush => exact .pools rfl (execNeighbourFlush_keeps ..)
  | nflushLate => exact .pools rfl (execNflushLate_keeps ..)
  | networkResend => exact .all (execNetworkResend_keeps ..)
  | errorLatch => exact .all (execErrorLatch_keeps ..)
  | errorClose => exact .all (execErrorClose_keeps ..)
  | handlerDeadlineMiss => exact .pools rfl (execHandlerDeadlineMiss_keeps ..)
  | lockstepMismatch => exact .pools rfl (execLockstepMismatch_keeps ..)
  | engineReset => exact .pools rfl (execEngineReset_keeps ..)
  | partitionReset => exact .all (execPartitionReset_keeps ..)
  | tcuRestart => exact .pools rfl (execTcuRestart_keeps ..)
  | chipWarmReset => exact .pools rfl (execChipWarmReset_keeps ..)
  | noticeRepeat => exact .all (execNoticeRepeat_keeps ..)
  | quench => exact .all (execQuench_keeps ..)
  | quenchRelease => exact .all (execQuenchRelease_keeps ..)
  | hbTcu => exact .all (execHbTcu_keeps ..)
  | hbMgmt => exact .all (execHbMgmt_keeps ..)
  | tcuBeatTimeout5ms => exact .pools rfl (execTcuBeatTimeout5ms_keeps ..)
  | tcuBeatTimeout50ms => exact .all (execTcuBeatTimeout50ms_keeps ..)
  | mgmtHbTimeout => exact .all (execMgmtHbTimeout_keeps ..)
  | mgmtHbNotArmed => exact .all (execMgmtHbNotArmed_keeps ..)
  | startBeatTimeout => exact .all (execStartBeatTimeout_keeps ..)
  | sentinelSilent => exact .all (execSentinelSilent_keeps ..)
  | resetRequest => exact .all (execResetRequest_keeps ..)
  | fwImage => exact .all (execFwImage_keeps ..)
  | fwChunk => exact .all (execFwChunk_keeps ..)
  | fwCommit => exact .all (execFwCommit_keeps ..)
  | afwLoad => exact .all (execAfwLoad_keeps ..)
  | afwCtrlGo => exact .all (execAfwCtrlGo_keeps ..)
  | mapFill => exact .all (execMapFill_keeps ..)
  | spareCheckDone => exact .all (execSpareCheckDone_keeps ..)
  | mapRole => exact .all (execMapRole_keeps ..)
  | mapVacant => exact .all (execMapVacant_keeps ..)
  | trainSave => exact .all (execTrainSave_keeps ..)
  | trainLoad => exact .all (execTrainLoad_keeps ..)
  | trainData => exact .all (execTrainData_keeps ..)
  | retrain => exact .all (execRetrain_keeps ..)
  | healthPlan => exact .all (execHealthPlan_keeps ..)
  | creepRecord => exact .all (execCreepRecord_keeps ..)
  | opticsIn => exact .all (execOpticsIn_keeps ..)
  | opticsStale => exact .all (execOpticsStale_keeps ..)
  | vholdSample => exact .all (execVholdSample_keeps ..)
  | pfailN => exact .rails rfl (execPfailN_keeps ..)
  | leadboxRecord => exact .all (execLeadboxRecord_keeps ..)
  | nextComplementMismatch => exact .all (execNextComplementMismatch_keeps ..)
  | summaryFold => exact .all (execSummaryFold_keeps ..)
  | lbxCursorHi => exact .all (execLbxCursorHi_keeps ..)
  | lbxWindowAuto => exact .all (execLbxWindowAuto_keeps ..)
  | lbxVerify => exact .all (execLbxVerify_keeps ..)
  | lbxNextLo => exact .all (execLbxNextLo_keeps ..)
  | lbxRecord => exact .all (execLbxRecord_keeps ..)
  | lbxCursor => exact .all (execLbxCursor_keeps ..)
  | freezeIn => exact .all (execFreezeIn_keeps ..)
  | frzTimeLo => exact .all (execFrzTimeLo_keeps ..)
  | liveCounterLo => exact .all (execLiveCounterLo_keeps ..)
  | watchArm => exact .all (execWatchArm_keeps ..)
  | watchCancel => exact .all (execWatchCancel_keeps ..)
  | digestRotate => exact .all (execDigestRotate_keeps ..)
  | watchTimeout => exact .all (execWatchTimeout_keeps ..)
  | dumpEnable => exact .all (execDumpEnable_keeps ..)
  | initiateRead => exact .all (execInitiateRead_keeps ..)
  | initiateWrite => exact .written rfl rfl rfl (execInitiateWrite_keeps ..)
  | initiateDescribe => exact .all (execInitiateDescribe_keeps ..)
  | mdtSegment => exact .written rfl rfl rfl (execMdtSegment_keeps ..)
  | mdtAck => exact .all (execMdtAck_keeps ..)
  | mdtAbort => exact .all (execMdtAbort_keeps ..)
  | transferTimeout => exact .all (execTransferTimeout_keeps ..)
  | addressAssign => exact .copies rfl (execAddressAssign_keeps ..)
  | statusFrame => exact .all (execStatusFrame_keeps ..)
  | mgtBusoff => exact .all (execMgtBusoff_keeps ..)
  | configStore => exact .copies rfl (execConfigStore_keeps ..)
  | dictRead => exact .all (execDictRead_keeps ..)
  | dictDescribe => exact .all (execDictDescribe_keeps ..)
  | registerWrite => exact .all (execRegisterWrite_keeps ..)
  | busOffRecovery => exact .all (execBusOffRecovery_keeps ..)
  | recordLimitWindow => exact .all (execRecordLimitWindow_keeps ..)

/-- A flag that is set is not unset. -/
theorem not_of_flag {b : Bool} {p : Prop} (set : b = true) (unset : b = false) : p := by
  rw [set] at unset
  cases unset

theorem exec_keeps_queue (c : Instr) (s : State) : Keeps Held.queue (exec c s) s := by
  cases exec_frame c s with
  | all kept => exact kept.of Held.queue
  | pools _ kept => exact kept.of fun x => x.1.1
  | time _ kept | rails _ kept | copies _ kept | endorsement _ kept | record _ kept => exact kept.of fun x => x.1
  | written _ _ _ kept => exact kept.of fun x => x.1
  | start _ _ _ _ _ _ kept => exact kept.of fun x => x.1
  | ends _ _ _ _ _ _ _ kept => exact kept

theorem exec_keeps_record {c : Instr} (h : writesRecord c = false) (s : State) : Keeps Held.record (exec c s) s := by
  cases exec_frame c s with
  | all kept => exact kept.of Held.record
  | pools _ kept => exact kept.of fun x => x.1.2
  | time _ kept | rails _ kept | copies _ kept | endorsement _ kept => exact kept.of fun x => x.2.1
  | record may => exact not_of_flag may h
  | written may => exact not_of_flag may h
  | start may => exact not_of_flag may h
  | ends may => exact not_of_flag may h

theorem exec_keeps_time {c : Instr} (h : movesTime c = false) (s : State) : Keeps Held.time (exec c s) s := by
  cases exec_frame c s with
  | all kept => exact kept.of Held.time
  | pools _ kept => exact kept.of fun x => x.2.2.1
  | time may => exact not_of_flag may h
  | rails _ kept | record _ kept => exact kept.of fun x => x.2.2.1
  | copies _ kept | endorsement _ kept => exact kept.of fun x => x.2.2.2.1
  | written _ _ _ kept => exact kept.of fun x => x.2.2.1
  | start _ _ _ _ _ _ kept => exact kept.of fun x => x.2
  | ends _ may => exact not_of_flag may h

theorem exec_keeps_rails {c : Instr} (h : changesRails c = false) (s : State) : Keeps Held.rails (exec c s) s := by
  cases exec_frame c s with
  | all kept => exact kept.of Held.rails
  | pools _ kept => exact kept.of fun x => x.2.1
  | time _ kept | copies _ kept | endorsement _ kept => exact kept.of fun x => x.2.2.1
  | rails may => exact not_of_flag may h
  | record _ kept => exact kept.of fun x => x.2.1
  | written _ _ _ kept => exact kept.of fun x => x.2.1
  | start _ may => exact not_of_flag may h
  | ends _ _ may => exact not_of_flag may h

theorem exec_keeps_pools {c : Instr} (h : changesPools c = false) (s : State) : Keeps Held.pools (exec c s) s := by
  cases exec_frame c s with
  | all kept => exact kept.of Held.pools
  | pools may => exact not_of_flag may h
  | time _ kept | rails _ kept | copies _ kept | endorsement _ kept | record _ kept => exact kept.of fun x => x.2.2.2.2.2.2
  | written _ _ _ kept => exact kept.of fun x => x.2.2.2.2
  | start _ _ may => exact not_of_flag may h
  | ends _ _ _ may => exact not_of_flag may h

theorem exec_keeps_copies {c : Instr} (h : storesConfig c = false) (s : State) : Keeps Held.copies (exec c s) s := by
  cases exec_frame c s with
  | all kept => exact kept.of Held.copies
  | pools _ kept => exact kept.of fun x => x.2.2.2.1
  | time _ kept | rails _ kept | record _ kept => exact kept.of fun x => x.2.2.2.1
  | copies may => exact not_of_flag may h
  | endorsement _ kept => exact kept.of fun x => x.2.2.2.2.1
  | written _ may => exact not_of_flag may h
  | start _ _ _ may => exact not_of_flag may h
  | ends _ _ _ _ may => exact not_of_flag may h

theorem exec_keeps_helper {c : Instr} (h : writesHelper c = false) (s : State) : Keeps Held.helper (exec c s) s := by
  cases exec_frame c s with
  | all kept => exact kept.of Held.helper
  | pools _ kept => exact kept.of fun x => (x.2.2.2.2.1, x.2.2.2.2.2.1)
  | time _ kept | rails _ kept | copies _ kept | record _ kept => exact kept.of fun x => x.2.2.2.2.1
  | endorsement _ kept => exact kept.of fun x => x.2.2.2.2.2.1
  | written _ _ _ kept => exact kept.of fun x => x.2.2.2.1
  | start _ _ _ _ may => exact not_of_flag may h
  | ends _ _ _ _ _ may => exact not_of_flag may h

theorem exec_keeps_endorsement {c : Instr} (h : writesEndorsement c = false) (s : State) : Keeps Held.endorsement (exec c s) s := by
  cases exec_frame c s with
  | all kept => exact kept.of Held.endorsement
  | pools _ kept => exact kept.of fun x => x.2.2.2.2.2.2
  | time _ kept | rails _ kept | copies _ kept | record _ kept => exact kept.of fun x => x.2.2.2.2.2.1
  | endorsement may => exact not_of_flag may h
  | written _ _ may => exact not_of_flag may h
  | start _ _ _ _ _ may => exact not_of_flag may h
  | ends _ _ _ _ _ _ may => exact not_of_flag may h

/-- What is kept is the same in any next state of the outcome. -/
theorem Keeps.eq {β : Type} {part : Held → β} {o : Host.Outcome State Fault Refusal} {s t : State} (h : Keeps part o s)
    (next : o = .next t) : part t.held = part s.held := by
  obtain ⟨u, answered, kept⟩ := h
  rw [answered] at next
  cases next
  exact kept

/-- Settles O3: every command's outcome is a next state, and its queue is one of the held parts. -/
theorem everyCommandCompletesAndKeepsTheQueue : Obligations.EveryCommandCompletesAndKeepsTheQueue :=
  exec_keeps_queue

/-- Settles O6: a command that may not write the record keeps it. -/
theorem onlyLifeCycleCommandsWriteTheRecord : Obligations.OnlyLifeCycleCommandsWriteTheRecord := by
  intro c s t h next
  have kept : (t.lc.primary, t.lc.mirror, t.lc.tokensUsed) = (s.lc.primary, s.lc.mirror, s.lc.tokensUsed) :=
    (exec_keeps_record h s).eq next
  simpa only [Prod.mk.injEq] using kept

/-- Settles O7: a command that may not move session time keeps it. -/
theorem onlyTimeCommandsMoveSessionTime : Obligations.OnlyTimeCommandsMoveSessionTime := by
  intro c s t h next
  have kept : (t.time.now, t.time.state) = (s.time.now, s.time.state) := (exec_keeps_time h s).eq next
  simpa only [Prod.mk.injEq] using kept

/-- Settles O8: a command that may not change the rails keeps them. -/
theorem onlySessionsAndStartsChangeRails : Obligations.OnlySessionsAndStartsChangeRails := by
  intro c s t h next
  have kept : (t.pow.sessionOpen, t.pow.iod, t.pow.cdieA, t.pow.cdieB, t.pow.sessionId) =
      (s.pow.sessionOpen, s.pow.iod, s.pow.cdieA, s.pow.cdieB, s.pow.sessionId) := (exec_keeps_rails h s).eq next
  simpa only [Prod.mk.injEq] using kept

/-- Settles O9: a command that may not change the pools keeps them. -/
theorem onlyTestsAndResetsChangePools : Obligations.OnlyTestsAndResetsChangePools :=
  fun _ s _ h next => (exec_keeps_pools h s).eq next

/-- Settles O10: a command keeps each of the stored settings that it may not change. -/
theorem onlyTheseCommandsChangeStoredSettings : Obligations.OnlyTheseCommandsChangeStoredSettings := by
  intro c s t next
  refine ⟨fun h => (exec_keeps_copies h s).eq next, fun h => ?_, fun h => (exec_keeps_endorsement h s).eq next⟩
  have kept : (t.vault.helperA, t.vault.helperB) = (s.vault.helperA, s.vault.helperB) := (exec_keeps_helper h s).eq next
  simpa only [Prod.mk.injEq] using kept

end Sys2Proof.Machine

/-!
Both copies of the life-cycle record stay valid (R151, R153): every write of the record is of a copy made by `LcCopy.next` with one
of the six codes, and every other command keeps the record.
-/
namespace Sys2Proof.Machine

theorem LcCopy.valid_state {c : LcCopy} (h : c.valid = true) : c.state ∈ lcCodes := by
  simp only [LcCopy.valid, Bool.and_eq_true, List.contains_iff_mem] at h
  obtain ⟨⟨⟨⟨⟨⟨-, code⟩, -⟩, -⟩, -⟩, -⟩, -⟩ := h
  exact code

/-- A copy made by `next` with a code of R151 is valid, whatever the fields beside the coded ones hold. -/
theorem LcCopy.next_valid (c : LcCopy) {state : BitVec 16} (h : state ∈ lcCodes) (pending : Bool) (binding : BitVec 256)
    (opens gen : Nat) : { c.next state pending with operBinding := binding, debugOpens := opens, operGen := gen }.valid = true := by
  cases pending <;> simp [LcCopy.valid, LcCopy.next, h, b2n, bits]

theorem lcWrite_recordValid (s : State) {c : LcCopy} (h : c.valid = true) : (lcWrite s c).recordValid := ⟨h, h⟩

theorem recordValid_of_record {s t : State} (e : Held.record t.held = Held.record s.held) (h : s.recordValid) : t.recordValid := by
  have primary : t.lc.primary = s.lc.primary := congrArg (·.1) e
  have mirror : t.lc.mirror = s.lc.mirror := congrArg (·.2.1) e
  obtain ⟨p, m⟩ := h
  exact ⟨primary ▸ p, mirror ▸ m⟩

theorem recordValid_of_held {s t : State} (e : t.held = s.held) (h : s.recordValid) : t.recordValid :=
  recordValid_of_record (congrArg Held.record e) h

theorem recordValid_of_recordTime {s t : State} (e : Held.recordTime t.held = Held.recordTime s.held) (h : s.recordValid) :
    t.recordValid := recordValid_of_record (congrArg (fun x => x.1.2) e) h

theorem recordValid_of_butCopies {s t : State} (e : Held.butCopies t.held = Held.butCopies s.held) (h : s.recordValid) :
    t.recordValid := recordValid_of_record (congrArg (·.2.1) e) h

theorem recordValid_of_butEndorsement {s t : State} (e : Held.butEndorsement t.held = Held.butEndorsement s.held)
    (h : s.recordValid) : t.recordValid := recordValid_of_record (congrArg (·.2.1) e) h

/-! Transitions and debug grants (R155, R162, R167). -/

theorem transition_recordValid (s : State) {target : BitVec 16} (h : target ∈ lcCodes) (binding : Option (BitVec 256))
    (signer token : Nat) : (transition s target binding signer token).recordValid := by
  unfold transition
  extract_lets r gen src r' s1 s2
  have written : s1.recordValid := lcWrite_recordValid s (r.next_valid h true _ _ _)
  exact recordValid_of_held (t := s2) (record_held ..) written

theorem openDebug_recordValid {s : State} (h : s.recordValid) (scope : BitVec 16) : (openDebug s scope).recordValid := by
  unfold openDebug
  extract_lets r src s1 s2 src2 src3 src4
  have written : s1.recordValid := lcWrite_recordValid s (r.next_valid (LcCopy.valid_state h.1) _ _ _ _)
  have dropped : s2.recordValid := recordValid_of_held (dropKeys_held ..) written
  refine recordValid_of_held (sessionKeys_held _) ?_
  exact dropped

/-- The table of signers names transitions into the six codes alone (R155). -/
theorem mem_lcCodes_of_signersOf {a b : BitVec 16} {k : Nat} (h : (signersOf a b).contains k = true) : b ∈ lcCodes := by
  unfold signersOf at h
  (repeat' split at h) <;> simp_all [lcCodes]

theorem mem_lcCodes_of_tokenOf {a b : BitVec 16} {i : Nat} (h : tokenOf a b = some i) : b ∈ lcCodes := by
  unfold tokenOf at h
  (repeat' split at h) <;> simp_all [lcCodes]

/-- A request that passes its checks suits its command (R157). -/
theorem suits_of_reqCheck {s : State} {r : SignedReq} {suits scopeIn : Bool} {nonce : Option (BitVec 256)} {session : BitVec 64}
    (h : reqCheck s r suits nonce session scopeIn = none) : suits = true := by
  unfold reqCheck at h
  split at h
  · cases h
  · cases suits
    · cases h
    · rfl

theorem after_whenAon {s : State} {f : State → State} {p : State → Prop} (idle : p s) (run : p (f s)) :
    p (after (done (whenAon s f)) s) := by
  rw [after_done]
  unfold whenAon
  split
  · exact run
  · exact idle

theorem execLcRequest_recordValid (r : SignedReq) {s : State} (h : s.recordValid) : (after (execLcRequest r s) s).recordValid := by
  refine after_whenAon h ?_
  dsimp only
  split
  · exact recordValid_of_held (lcResult_held ..) h
  · rename_i passed
    have suits := suits_of_reqCheck passed
    rw [Bool.and_eq_true] at suits
    exact transition_recordValid _ (mem_lcCodes_of_signersOf suits.2) ..

theorem execLcToken_recordValid (target : BitVec 16) (tok : BitVec 128) (overCan : Bool) {s : State} (h : s.recordValid) :
    (after (execLcToken target tok overCan s) s).recordValid := by
  have refused (n : Nat) : (lcResult s 0x2000 5 n).recordValid := recordValid_of_held (lcResult_held ..) h
  refine after_whenAon h ?_
  dsimp only
  split
  · exact refused _
  · split
    · exact refused 8
    · rename_i listed
      split
      · exact refused 8
      · split
        · exact refused 6
        · exact transition_recordValid (lcResult s 0x2000 5 1) (mem_lcCodes_of_tokenOf listed) none 0 1

theorem execDebugGrant_recordValid (r : SignedReq) {s : State} (h : s.recordValid) : (after (execDebugGrant r s) s).recordValid := by
  have refused (n : Nat) : (lcResult s 0x2001 3 n).recordValid := recordValid_of_held (lcResult_held ..) h
  refine after_whenAon h ?_
  dsimp only
  split
  · exact refused _
  · exact refused _
  · split
    · exact refused _
    · exact openDebug_recordValid (refused 1) _

/-! Writes over the dictionary (R535 to R540). -/

theorem writeA_recordValid {s t : State} {key : Nat} {b : Bytes} (h : writeA s key b = some t) (valid : s.recordValid) :
    t.recordValid := by
  obtain kept | ⟨r, rfl⟩ | ⟨target, tok, rfl⟩ | ⟨r, rfl⟩ | ⟨e, rfl⟩ := writeA_cases h
  · exact recordValid_of_held kept valid
  · exact execLcRequest_recordValid r valid
  · exact execLcToken_recordValid target tok true valid
  · exact execDebugGrant_recordValid r valid
  · exact recordValid_of_butEndorsement (execIdentityEndorsement_keeps e s).after valid

theorem applyWrite_recordValid {s : State} (valid : s.recordValid) (t : Transfer) : (applyWrite s t).recordValid := by
  obtain kept | ⟨u, key, b, same, written⟩ := applyWrite_cases s t
  · exact recordValid_of_butCopies kept valid
  · exact writeA_recordValid written (recordValid_of_held same valid)

theorem endWrite_recordValid {s : State} (valid : s.recordValid) (t : Transfer) : (endWrite s t).recordValid := by
  obtain kept | applied := endWrite_cases s t
  · exact recordValid_of_held kept valid
  · rw [applied]
    exact applyWrite_recordValid valid t

theorem execInitiateWrite_recordValid (requester txn index sub total : Nat) (crc : BitVec 32) (data : Bytes) {s : State}
    (valid : s.recordValid) : (after (execInitiateWrite requester txn index sub total crc data s) s).recordValid := by
  unfold execInitiateWrite
  rw [after_done]
  dsimp only
  split
  · have intake : (s.heldIn 224).recordValid := valid
    split
    · exact recordValid_of_held (canReply_held ..) intake
    · split
      · exact endWrite_recordValid intake _
      · exact intake
  · exact valid

theorem execMdtSegment_recordValid (requester txn segno : Nat) (data : Bytes) {s : State} (valid : s.recordValid) :
    (after (execMdtSegment requester txn segno data s) s).recordValid := by
  unfold execMdtSegment
  rw [after_done]
  dsimp only
  split
  · have intake : (s.heldIn 224).recordValid := valid
    split
    · exact recordValid_of_held (canReply_held ..) intake
    · split
      · exact recordValid_of_held (endTransfer_held ..) intake
      · split
        · exact endWrite_recordValid (recordValid_of_held (dropTransfer_held ..) intake) _
        · split
          · exact recordValid_of_held ((ackFrame_held ..).trans (setTransfer_held ..)) intake
          · exact recordValid_of_held (setTransfer_held ..) intake
  · exact valid

/-! Starts and the ends of a session (R153, R163, R7). -/

/-- The state with one copy of the record taken over for both, recorded where the other differed. -/
def takeCopy (s : State) (c : LcCopy) (found : Nat) (differed : Bool) : State :=
  let u : State := { s with lc.primary := c, lc.mirror := c, lc.code := c.state, lc.copies := found }
  if differed then notice u 1 153 uTcu 0 else u

theorem takeCopy_recordValid (s : State) {c : LcCopy} (h : c.valid = true) (found : Nat) (differed : Bool) :
    (takeCopy s c found differed).recordValid ∧ (takeCopy s c found differed).lc.code ∈ lcCodes := by
  unfold takeCopy
  cases differed with
  | false => exact ⟨⟨h, h⟩, LcCopy.valid_state h⟩
  | true =>
    rw [if_pos rfl]
    refine ⟨recordValid_of_held (notice_held ..) ⟨h, h⟩, ?_⟩
    rw [notice_lc]
    exact LcCopy.valid_state h

/-- Of two valid copies the one with the later sequence number is taken over (R153). -/
theorem settleLc_of_valid {s : State} (valid : s.recordValid) :
    settleLc s = if s.lc.primary.seq = s.lc.mirror.seq then takeCopy s s.lc.primary 3 false
      else if s.lc.mirror.seq.toNat < s.lc.primary.seq.toNat then takeCopy s s.lc.primary 3 true
      else takeCopy s s.lc.mirror 3 true := by
  obtain ⟨primary, mirror⟩ := valid
  unfold settleLc takeCopy
  simp only [primary, mirror, b2n]
  rfl

theorem settleLc_recordValid {s : State} (valid : s.recordValid) :
    (settleLc s).recordValid ∧ (settleLc s).lc.code ∈ lcCodes := by
  rw [settleLc_of_valid valid]
  split
  · exact takeCopy_recordValid s valid.1 3 false
  · split
    · exact takeCopy_recordValid s valid.1 3 true
    · exact takeCopy_recordValid s valid.2 3 true

theorem entryActions_recordValid {s : State} (valid : s.recordValid) (code : s.lc.code ∈ lcCodes) :
    (entryActions s).recordValid := by
  cases h : bit s.lc.primary.flags.toNat 0 with
  | false => rwa [entryActions_eq_self s h]
  | true =>
    obtain ⟨u, e, -, -⟩ := entryActions_eq s h
    rw [e]
    exact lcWrite_recordValid u (u.lc.primary.next_valid code false _ _ _)

theorem settleVersion_lc (s : State) : (settleVersion s).lc = s.lc := by
  unfold settleVersion
  dsimp only
  (repeat' split) <;> simp [setVersion]

theorem startSettled_recordValid {s : State} (valid : s.recordValid) : (startSettled s).recordValid := by
  obtain ⟨settled, code⟩ := settleLc_recordValid valid
  have versioned : (settleVersion (settleLc s)).recordValid := recordValid_of_held (settleVersion_held _) settled
  rw [← settleVersion_lc] at code
  unfold startSettled
  dsimp only
  split
  · exact versioned
  · exact entryActions_recordValid versioned code

theorem startUp_recordValid {s : State} (valid : s.recordValid) (e : StartEnv) : (startUp s e).recordValid := by
  have powered := recordValid_of_recordTime (startPowered_keeps s) valid
  rw [startUp_eq]
  generalize startPowered s = u at powered
  have seeded := recordValid_of_recordTime (startSeeded_keeps u) powered
  split
  · exact powered
  · dsimp only
    generalize startSeeded u = v at seeded
    split
    · exact seeded
    · have settled := startSettled_recordValid seeded
      generalize startSettled v = w at settled
      split
      · exact settled
      · have rooted := recordValid_of_held (regenerate_held w e.pufReads) settled
        split
        · exact rooted
        · exact recordValid_of_recordTime (startRest_keeps ..) rooted

theorem execStart_recordValid (e : StartEnv) {s : State} (valid : s.recordValid) : (after (execStart e s) s).recordValid := by
  refine after_whenAon valid ?_
  split
  · exact valid
  · exact startUp_recordValid valid e

theorem execSessionStart_recordValid {s : State} (valid : s.recordValid) : (after (execSessionStart s) s).recordValid := by
  unfold execSessionStart
  rw [after_done]
  dsimp only
  split
  · exact valid
  · refine recordValid_of_record (congrArg (·.2.1) (timeTo_keeps _ 1)) ?_
    exact recordValid_of_held (runScan_held _) valid

theorem execSessionEnd_recordValid {s : State} (valid : s.recordValid) : (after (execSessionEnd s) s).recordValid := by
  unfold execSessionEnd
  rw [after_done]
  split <;> exact valid

/-! Every step. -/

theorem exec_recordValid (c : Instr) {s : State} (valid : s.recordValid) : (after (exec c s) s).recordValid := by
  cases h : writesRecord c with
  | false => exact recordValid_of_record (exec_keeps_record h s).after valid
  | true =>
    cases c with
    | lcRequest r => exact execLcRequest_recordValid r valid
    | lcToken target tok overCan => exact execLcToken_recordValid target tok overCan valid
    | debugGrant r => exact execDebugGrant_recordValid r valid
    | initiateWrite => exact execInitiateWrite_recordValid _ _ _ _ _ _ _ valid
    | mdtSegment => exact execMdtSegment_recordValid _ _ _ _ valid
    | start e => exact execStart_recordValid e valid
    | sessionStart => exact execSessionStart_recordValid valid
    | sessionEnd => exact execSessionEnd_recordValid valid
    | _ => cases h

theorem passTick_keeps (s : State) : Held.butTime (passTick s).held = Held.butTime s.held := by
  unfold passTick
  split <;> rfl

/-- What is served after a tick keeps all but the pools. -/
theorem serveTick_kept (s : State) :
    (settleResets ((List.range 4).foldl settleClose (pkServe (serveQueue 256 s)))).held.1 = s.held.1 := by
  rw [settleResets_kept, foldl_kept settleClose settleClose_kept, pkServe_held, serveQueue_held]

theorem recordValid_of_butPools {s t : State} (e : t.held.1 = s.held.1) (h : s.recordValid) : t.recordValid :=
  recordValid_of_record (congrArg (·.1.2) e) h

theorem tick_recordValid {s : State} (valid : s.recordValid) : (tick s).recordValid := by
  have passed : (passTick s).recordValid := recordValid_of_record (congrArg (·.2.1) (passTick_keeps s)) valid
  unfold tick whenUp
  split
  · split
    · exact recordValid_of_butPools (serveTick_kept _) passed
    · exact passed
  · exact valid

/-- Settles O4: the front command and the tick each keep both copies valid. -/
theorem lifeCycleRecordStaysValid : Obligations.LifeCycleRecordStaysValid := by
  intro s t valid next
  unfold step at next
  split at next
  · rename_i c rest queue
    have waiting : ({ s with pending := rest } : State).recordValid := valid
    have ran := exec_recordValid c waiting
    rw [next] at ran
    exact ran
  · cases next
    exact tick_recordValid valid

/-- Settles O5: the copies with which a unit leaves wafer sort hold state BLANK and its complement. -/
theorem lifeCycleRecordValidAtReset : Obligations.LifeCycleRecordValidAtReset :=
  ⟨⟨by decide, by decide⟩, rfl, rfl⟩

/-- Settles O1: a step takes the front command. -/
theorem stepRunsTheFrontCommand : Obligations.StepRunsTheFrontCommand := fun _ _ _ => rfl

theorem step_of_no_pending {s : State} (h : s.pending = []) : step s = .next (tick s) := by
  rw [step, h]

theorem passTick_of_locked {s : State} (h : s.time.trefLocked = true) :
    passTick s = { s with time.now := s.time.now + Int.toNat ((2 ^ 32 + s.time.rate) * 1000000) } := by
  rw [passTick, h]
  rfl

/-- Settles O2: the tick passes time in a session, and serves what waits where the unit is up. -/
theorem idleStepLetsTimePass : Obligations.IdleStepLetsTimePass := by
  refine ⟨fun s idle => step_of_no_pending idle, fun s closed idle => ?_, fun s opened locked idle down => ?_,
    fun s m opened locked idle up passed => ?_⟩
  · rw [step_of_no_pending idle, tick, closed]
    rfl
  · have same : (passTick s).up = s.up := by rw [passTick_of_locked locked]; rfl
    rw [step_of_no_pending idle, tick, if_pos opened, whenUp, same, down, passTick_of_locked locked]
    rfl
  · have same : (passTick s).up = s.up := by rw [passTick_of_locked locked]; rfl
    rw [step_of_no_pending idle, tick, if_pos opened, whenUp, same, up, passTick_of_locked locked, ← passed]
    rfl

end Sys2Proof.Machine

/-!
One rule for each wrapper of a command: what the command answers where its guard holds.
-/
namespace Sys2Proof.Machine

/-- A unit in service has a session open. -/
theorem aon_of_up {s : State} (up : s.up = true) : s.aon = true := by
  simp only [State.up, Bool.and_eq_true] at up
  exact up.1.1.1.1.1.1.1

section
variable {s t : State} {f : State → State}

theorem done_whenUp (up : s.up = true) (h : f s = t) : done (whenUp s f) = .next t := by
  rw [done, whenUp, if_pos up, h]

theorem done_whenAon (aon : s.aon = true) (h : f s = t) : done (whenAon s f) = .next t := by
  rw [done, whenAon, if_pos aon, h]

theorem done_if {p : Prop} [Decidable p] {a b : State} (guard : p) (h : a = t) : done (if p then a else b) = .next t := by
  rw [done, if_pos guard, h]

theorem done_if_not {p : Prop} [Decidable p] {a b : State} (guard : ¬p) (h : b = t) : done (if p then a else b) = .next t := by
  rw [done, if_neg guard, h]

theorem done_mailbox {h : MbxHdr} {opcode : Nat} {driver : Bool} {body b : Bytes} {c : Code}
    {run : State → State × Code × Bytes} (takes : s.takesMailbox h opcode driver body) (ran : run (mbxTaken s h) = (t, c, b)) :
    done (mailbox s h opcode driver body run) = .next (mbxAnswer t h opcode c b) := by
  rw [done, mailbox_takes s h opcode driver body run takes, ran]

theorem done_mailboxLater {h : MbxHdr} {opcode : Nat} {driver : Bool} {body b : Bytes} {c : Code}
    {run : State → State × Option (Code × Bytes)} (takes : s.takesMailbox h opcode driver body)
    (ran : run (mbxTaken s h) = (t, some (c, b))) :
    done (mailboxLater s h opcode driver body run) = .next (mbxAnswer t h opcode c b) := by
  rw [done, mailboxLater_answers s t h opcode driver body run (c, b) takes ran]

end

end Sys2Proof.Machine

/-!
The start's phase and the levels of the gate's share: no operation that the commands share changes either, so both stand
after the pumps that many commands end with. One lemma for each operation that a pump reaches.
-/
namespace Sys2Proof.Machine

/-- The start's phase and the levels of the gate's share. -/
def State.calm (s : State) : Nat × Table Nat := (s.boot.phase, s.gate.sealLevel)

@[simp] theorem calm_mk (t : State) (f o pw pi cr po ne er lb cn wa di mb ho ga ct va ci lc dm li al me ta ar tm ca bo he)
    (h1 : bo.phase = t.boot.phase) (h2 : ga.sealLevel = t.gate.sealLevel) :
    State.calm ⟨t.pending, f, o, pw, pi, cr, po, ne, er, lb, cn, wa, di, mb, ho, ga, ct, va, ci, lc, dm, li, al, me, ta, ar, tm,
      ca, bo, he⟩ = t.calm := by
  simp only [State.calm, h1, h2]

theorem phase_of_calm {s t : State} (h : t.calm = s.calm) : t.boot.phase = s.boot.phase := congrArg (·.1) h

theorem sealLevel_of_calm {s t : State} (h : t.calm = s.calm) : t.gate.sealLevel = s.gate.sealLevel := congrArg (·.2) h

@[simp] theorem foldl_calm {α : Type} (f : State → α → State) (h : ∀ s a, (f s a).calm = s.calm) (l : List α) (s : State) :
    (l.foldl f s).calm = s.calm := by
  induction l generalizing s with
  | nil => rfl
  | cons a l ih => simp [ih, h]

theorem fst_calm {α : Type} {p : State × α} {t : State} {x : α} (h : p = (t, x)) : t.calm = p.1.calm := by rw [h]

@[simp] theorem State_emit_calm (s : State) (a1 : Output) :
    (State.emit s a1).calm = s.calm := by unfold State.emit; (repeat' split) <;> simp [apply_ite State.calm]

@[simp] theorem ccEvents_calm (s : State) (a1 a2 a3 : Nat) :
    (ccEvents s a1 a2 a3).1.calm = s.calm := by unfold ccEvents; (repeat' split) <;> simp [apply_ite State.calm]

@[simp] theorem netSend_calm (s : State) (a1 a2 : Nat) (a3 : NetKind) (a4 : Bytes) :
    (netSend s a1 a2 a3 a4).calm = s.calm := by simp [netSend, apply_ite State.calm]

@[simp] theorem netReport_calm (s : State) (a1 : Nat) (a2 : Bytes) :
    (netReport s a1 a2).calm = s.calm := by simp [netReport, apply_ite State.calm]

@[simp] theorem setPage_calm (s : State) (a1 : Nat) (a2 : PageOwner) :
    (setPage s a1 a2).calm = s.calm := by simp [setPage, apply_ite State.calm]

@[simp] theorem setPage_sealLevel (s : State) (a1 : Nat) (a2 : PageOwner) : (setPage s a1 a2).gate.sealLevel = s.gate.sealLevel :=
  sealLevel_of_calm (setPage_calm ..)

@[simp] theorem setGroup_calm (s : State) (a1 : Nat) (a2 : List (Nat × Nat × Bool)) :
    (setGroup s a1 a2).calm = s.calm := by simp [setGroup, apply_ite State.calm]

@[simp] theorem setGroup_sealLevel (s : State) (a1 : Nat) (a2 : List (Nat × Nat × Bool)) :
    (setGroup s a1 a2).gate.sealLevel = s.gate.sealLevel :=
  sealLevel_of_calm (setGroup_calm ..)

@[simp] theorem scrubLevels_calm (s : State) :
    (scrubLevels s).calm = s.calm := id rfl

@[simp] theorem State_spend_calm (s : State) :
    (State.spend s).calm = s.calm := id rfl

@[simp] theorem State_drew_calm (s : State) :
    (State.drew s).calm = s.calm := id rfl

@[simp] theorem modKey_calm (s : State) (a1 : KeyPath) (a2 : KeySlot → KeySlot) :
    (modKey s a1 a2).calm = s.calm := id rfl

@[simp] theorem modReg_calm (s : State) (a1 : KeyPath) (a2 : KeyReg → KeyReg) :
    (modReg s a1 a2).calm = s.calm := id rfl

@[simp] theorem reportKey_calm (s : State) (a1 : KeyPath) :
    (reportKey s a1).calm = s.calm := by unfold reportKey; (repeat' split) <;> simp [apply_ite State.calm]

@[simp] theorem spendKey_calm (s : State) (a1 : KeyPath) (a2 a3 : Nat) :
    (spendKey s a1 a2 a3).calm = s.calm := by unfold spendKey; (repeat' split) <;> simp [apply_ite State.calm]

@[simp] theorem limHit_calm (s : State) (a1 : LimKey) :
    (limHit s a1).calm = s.calm := id rfl

@[simp] theorem bumpUnit_calm (s : State) (a1 a2 a3 : Nat) :
    (bumpUnit s a1 a2 a3).calm = s.calm := id rfl

@[simp] theorem bumpSlice_calm (s : State) (a1 a2 a3 : Nat) :
    (bumpSlice s a1 a2 a3).calm = s.calm := id rfl

@[simp] theorem dropRec_calm (s : State) (a1 : LbxRec) :
    (dropRec s a1).calm = s.calm := id rfl

@[simp] theorem foldRec_calm (s : State) (a1 : LbxRec) :
    (foldRec s a1).calm = s.calm := by unfold foldRec; dsimp only; (repeat' split) <;> simp [apply_ite State.calm]

@[simp] theorem putRec_calm (s : State) (a1 : LbxRec) :
    (putRec s a1).calm = s.calm := by simp [putRec, apply_ite State.calm]

@[simp] theorem record_calm (s : State) (a1 a2 a3 : Nat) (a4 : Bytes) :
    (record s a1 a2 a3 a4).calm = s.calm := by simp [record]

@[simp] theorem closeBank_calm (s : State) (a1 a2 : Nat) (a3 : Bool) :
    (closeBank s a1 a2 a3).calm = s.calm := by unfold closeBank; (repeat' split) <;> simp [apply_ite State.calm]

@[simp] theorem bankTake_calm (s : State) (a1 : ErrIn) :
    (bankTake s a1).1.calm = s.calm := by unfold bankTake; dsimp only; (repeat' split) <;> simp [apply_ite State.calm]

@[simp] theorem openBank_calm (s : State) (a1 : ErrIn) (a2 : Nat) :
    (openBank s a1 a2).calm = s.calm := id rfl

@[simp] theorem hubNote_calm (s : State) (a1 : Nat) :
    (hubNote s a1).calm = s.calm := by simp [hubNote, apply_ite State.calm]

@[simp] theorem latch_calm (s : State) (a1 : ErrIn) :
    (latch s a1).calm = s.calm := by unfold latch; dsimp only; (repeat' split) <;> simp [apply_ite State.calm]

@[simp] theorem notice_calm (s : State) (a1 a2 : Nat) (a3 a4 : Nat) :
    (notice s a1 a2 a3 a4).calm = s.calm := by simp [notice]

@[simp] theorem tierAWrite_calm (s : State) (a1 : Nat) (a2 : Bytes) :
    (tierAWrite s a1 a2).calm = s.calm := id rfl

@[simp] theorem msix_calm (s : State) (a1 : Nat) :
    (msix s a1).calm = s.calm := by simp [msix, apply_ite State.calm]

@[simp] theorem postEvent_calm (s : State) (a1 a2 a3 : Nat) :
    (postEvent s a1 a2 a3).calm = s.calm := by simp [postEvent, apply_ite State.calm]

@[simp] theorem postAll_calm (s : State) (a1 a2 : Nat) :
    (postAll s a1 a2).calm = s.calm := by simp [postAll]

@[simp] theorem capacity_calm (s : State) (a1 a2 a3 : Nat) :
    (capacity s a1 a2 a3).calm = s.calm := id rfl

@[simp] theorem useCtx_calm (s : State) (a1 a2 a3 : Nat) :
    (useCtx s a1 a2 a3).calm = s.calm := id rfl

@[simp] theorem writeRec_calm (s : State) (a1 : LbxRec) (a2 : Bool) :
    (writeRec s a1 a2).calm = s.calm := id rfl

@[simp] theorem sentinelPut_calm (s : State) (a1 : LbxRec) :
    (sentinelPut s a1).calm = s.calm := by simp [sentinelPut, apply_ite State.calm]

@[simp] theorem sentinelRec_calm (s : State) (a1 a2 a3 : Nat) (a4 : Bytes) :
    (sentinelRec s a1 a2 a3 a4).calm = s.calm := by simp [sentinelRec, apply_ite State.calm]

@[simp] theorem arrayLeaves_calm (s : State) :
    (arrayLeaves s).calm = s.calm := id rfl

@[simp] theorem arrayCut_calm (s : State) :
    (arrayCut s).calm = s.calm := by simp [arrayCut, apply_ite State.calm]

@[simp] theorem quantumUse_calm (s : State) (a1 : Nat) :
    (quantumUse s a1).calm = s.calm := by unfold quantumUse; (repeat' split) <;> simp [apply_ite State.calm]

@[simp] theorem arbWake_calm (s : State) :
    (arbWake s).calm = s.calm := by unfold arbWake; (repeat' split) <;> simp [apply_ite State.calm]

@[simp] theorem cutArray_calm (s : State) (a1 : LiveSeal → Bool) :
    (cutArray s a1).calm = s.calm := by unfold cutArray; (repeat' split) <;> simp [apply_ite State.calm]

@[simp] theorem mbxPut_calm (s : State) (a1 a2 : Nat) (a3 a4 : Nat) (a5 : Code) (a6 : Bytes) (a7 : Option Tag) :
    (mbxPut s a1 a2 a3 a4 a5 a6 a7).calm = s.calm := by simp [mbxPut]

@[simp] theorem mbxPost_calm (s : State) (a1 a2 : Nat) (a3 a4 : Nat) (a5 : Code) (a6 : Bytes) (a7 : Option Tag) :
    (mbxPost s a1 a2 a3 a4 a5 a6 a7).calm = s.calm := by simp [mbxPost, apply_ite State.calm]

@[simp] theorem mbxAnswer_calm (s : State) (a1 : MbxHdr) (a2 : Nat) (a3 : Code) (a4 : Bytes) :
    (mbxAnswer s a1 a2 a3 a4).calm = s.calm := by unfold mbxAnswer; dsimp only; (repeat' split) <;> simp [apply_ite State.calm]

@[simp] theorem postEntry_calm (s : State) (a1 a2 a3 : Nat) (a4 : Bytes) (a5 : Code) (a6 : Bool) (a7 a8 a9 : Nat) :
    (postEntry s a1 a2 a3 a4 a5 a6 a7 a8 a9).calm = s.calm := by unfold postEntry; (repeat' split) <;> simp [apply_ite State.calm]

@[simp] theorem signal_calm (s : State) (a1 : Nat) (a2 : Code) :
    (signal s a1 a2).calm = s.calm := by unfold signal; (repeat' split) <;> simp [apply_ite State.calm]

@[simp] theorem completeRaw_calm (s : State) (a1 a2 a3 : Nat) (a4 : Bytes) (a5 : Code) (a6 a7 a8 : Nat) :
    (completeRaw s a1 a2 a3 a4 a5 a6 a7 a8).calm = s.calm := by simp [completeRaw, apply_ite State.calm]

@[simp] theorem refuseRaw_calm (s : State) (a1 a2 : Nat) (a3 a4 : Nat) (a5 : Bytes) (a6 : Code) (a7 a8 : Nat) :
    (refuseRaw s a1 a2 a3 a4 a5 a6 a7 a8).calm = s.calm := by simp [refuseRaw, apply_ite State.calm]

@[simp] theorem checkFail_calm (s : State) (a1 a2 : Nat) (a3 : Code) (a4 : Nat) (a5 : Bytes) :
    (checkFail s a1 a2 a3 a4 a5).calm = s.calm := by simp [checkFail]

@[simp] theorem failHeld_calm (s : State) (a1 : LiveSeal) (a2 : Code) :
    (failHeld s a1 a2).calm = s.calm := by unfold failHeld; (repeat' split) <;> simp [apply_ite State.calm]

@[simp] theorem evtUnref_calm (s : State) (a1 : Nat) :
    (evtUnref s a1).calm = s.calm := id rfl

@[simp] theorem objUnref_calm (s : State) (a1 : Nat) :
    (objUnref s a1).calm = s.calm := id rfl

@[simp] theorem releaseSlot_calm (s : State) (a1 : Nat) :
    (releaseSlot s a1).calm = s.calm := by unfold releaseSlot; (repeat' split) <;> simp [apply_ite State.calm]

@[simp] theorem finishDesc_calm (s : State) (a1 : Nat) :
    (finishDesc s a1).calm = s.calm := by unfold finishDesc; (repeat' split) <;> simp [apply_ite State.calm]

@[simp] theorem retirePiece_calm (s : State) (a1 : Nat) (a2 : Code) (a3 : Nat) :
    (retirePiece s a1 a2 a3).calm = s.calm := by unfold retirePiece; (repeat' split) <;> simp [apply_ite State.calm]

@[simp] theorem sendWork_calm (s : State) (a1 : Nat) (a2 : Bytes) :
    (sendWork s a1 a2).calm = s.calm := by simp [sendWork, apply_ite State.calm]

@[simp] theorem dispatch_calm (s : State) (a1 a2 : Nat) :
    (dispatch s a1 a2).calm = s.calm := by unfold dispatch; (repeat' split) <;> simp [apply_ite State.calm]

@[simp] theorem settleWaits_calm (a0 : Nat) (s : State) :
    (settleWaits a0 s).calm = s.calm := by fun_induction settleWaits <;> simp_all [apply_ite State.calm]

@[simp] theorem answerDestroyed_calm (s : State) :
    (answerDestroyed s).calm = s.calm := by simp [answerDestroyed]

@[simp] theorem answerInvalidates_calm (s : State) :
    (answerInvalidates s).calm = s.calm := by simp [answerInvalidates]

@[simp] theorem spdmClear_calm (s : State) :
    (spdmClear s).calm = s.calm := id rfl

@[simp] theorem finishSpdm_calm (s : State) :
    (finishSpdm s).calm = s.calm := by simp [finishSpdm, apply_ite State.calm]

@[simp] theorem retireOutbound_calm (s : State) :
    (retireOutbound s).calm = s.calm := by simp [retireOutbound, apply_ite State.calm]

@[simp] theorem retireInbound_calm (s : State) :
    (retireInbound s).calm = s.calm := by simp [retireInbound, apply_ite State.calm]

@[simp] theorem setTop_calm (s : State) (a1 a2 : Nat) (a3 : Mapping) :
    (setTop s a1 a2 a3).calm = s.calm := id rfl

@[simp] theorem needLevel_calm (s : State) (a1 a2 : Nat) :
    (needLevel s a1 a2).calm = s.calm := by simp [needLevel, apply_ite State.calm]

@[simp] theorem mapUnits_calm (s : State) (a1 a2 : Nat) (a3 a4 a5 : Nat) (a6 : Bool) (a7 : List Nat) :
    (mapUnits s a1 a2 a3 a4 a5 a6 a7).calm = s.calm := by simp [mapUnits, apply_ite State.calm]

@[simp] theorem shareEnd_calm (s : State) (a1 : Share) :
    (shareEnd s a1).calm = s.calm := by unfold shareEnd; (repeat' split) <;> simp [apply_ite State.calm]

@[simp] theorem finishShares_calm (s : State) :
    (finishShares s).calm = s.calm := by simp [finishShares]

@[simp] theorem finishFreezes_calm (s : State) :
    (finishFreezes s).calm = s.calm := by simp [finishFreezes]

@[simp] theorem rotateDigest_calm (s : State) (a1 : Nat) :
    (rotateDigest s a1).calm = s.calm := id rfl

@[simp] theorem rotateNow_calm (s : State) (a1 : MbxHdr) :
    (rotateNow s a1).calm = s.calm := by simp [rotateNow]

@[simp] theorem rotateWaiters_calm (s : State) :
    (rotateWaiters s).calm = s.calm := by simp [rotateWaiters]

@[simp] theorem settle_calm (s : State) :
    (settle s).calm = s.calm := by simp [settle]

@[simp] theorem setChan_calm (s : State) (a1 : Nat) (a2 : Channel) :
    (setChan s a1 a2).calm = s.calm := id rfl

@[simp] theorem revokePage_calm (s : State) (a1 : Nat) :
    (revokePage s a1).calm = s.calm := by simp [revokePage]

@[simp] theorem eraseRegion_calm (s : State) (a1 : Nat) :
    (eraseRegion s a1).calm = s.calm := id rfl

@[simp] theorem pewAnswer_calm (s : State) (a1 : PewJob) (a2 : Code) (a3 : Bytes) :
    (pewAnswer s a1 a2 a3).calm = s.calm := by unfold pewAnswer; (repeat' split) <;> simp [apply_ite State.calm]

@[simp] theorem cryptoErase_calm (s : State) (a1 : Nat) :
    (cryptoErase s a1).calm = s.calm := by simp [cryptoErase]

@[simp] theorem releaseRegion_calm (s : State) (a1 : Nat) :
    (releaseRegion s a1).calm = s.calm := by simp [releaseRegion, apply_ite State.calm]

@[simp] theorem releaseObj_calm (s : State) (a1 : Nat) :
    (releaseObj s a1).calm = s.calm := by unfold releaseObj; (repeat' split) <;> simp [apply_ite State.calm]

@[simp] theorem releaseEvt_calm (s : State) (a1 : Nat) :
    (releaseEvt s a1).calm = s.calm := id rfl

@[simp] theorem releaseIdle_calm (s : State) :
    (releaseIdle s).calm = s.calm := by simp [releaseIdle]

@[simp] theorem dropHold_calm (s : State) (a1 a2 : Nat) :
    (dropHold s a1 a2).calm = s.calm := by unfold dropHold; (repeat' split) <;> simp [apply_ite State.calm]

@[simp] theorem drainRing_calm (a0 : Nat) (a1 : List Bytes) (s : State) (a3 a4 : Nat) :
    (drainRing a0 a1 s a3 a4).calm = s.calm := by
  induction a0 generalizing a1 s with
  | zero => rfl
  | succ n ih => cases a1 <;> simp [drainRing, ih]

@[simp] theorem unbindQueue_calm (s : State) (a1 a2 : Nat) (a3 : List Bytes) :
    (unbindQueue s a1 a2 a3).calm = s.calm := by unfold unbindQueue; (repeat' split) <;> simp [apply_ite State.calm]

@[simp] theorem cutDescs_calm (s : State) (a1 : Desc → Bool) (a2 : Code) (a3 : Bool) :
    (cutDescs s a1 a2 a3).calm = s.calm := by simp [cutDescs, apply_ite State.calm]

@[simp] theorem abandonFrames_calm (s : State) (a1 : SealReq → Bool) :
    (abandonFrames s a1).calm = s.calm := id rfl

@[simp] theorem cancelWatches_calm (s : State) (a1 : Watch → Bool) (a2 : Code) :
    (cancelWatches s a1 a2).calm = s.calm := by simp [cancelWatches]

@[simp] theorem cutJob_calm (s : State) (a1 : Channel) :
    (cutJob s a1).calm = s.calm := by unfold cutJob; (repeat' split) <;> simp [apply_ite State.calm]

@[simp] theorem freeChannels_calm (s : State) (a1 : Channel → Bool) :
    (freeChannels s a1).calm = s.calm := by simp [freeChannels]

@[simp] theorem settleFrame_calm (s : State) (a1 a2 : Nat) (a3 : Code) :
    (settleFrame s a1 a2 a3).calm = s.calm := by unfold settleFrame; (repeat' split) <;> simp [apply_ite State.calm]

@[simp] theorem stepFails_calm (s : State) (a1 a2 : Nat) (a3 : Code) :
    (stepFails s a1 a2 a3).calm = s.calm := by unfold stepFails; (repeat' split) <;> simp [apply_ite State.calm]

@[simp] theorem teardown_calm (s : State) (a1 : Nat) (a2 : Nat → List Bytes) :
    (teardown s a1 a2).calm = s.calm := by simp [teardown, apply_ite State.calm]

@[simp] theorem kill_calm (s : State) (a1 a2 : Nat) :
    (kill s a1 a2).calm = s.calm := by simp [kill, apply_ite State.calm]

@[simp] theorem canNotice_calm (s : State) (a1 : Bytes) :
    (canNotice s a1).calm = s.calm := by simp [canNotice, apply_ite State.calm]

@[simp] theorem sendNotice_calm (s : State) (a1 a2 a3 : Nat) :
    (sendNotice s a1 a2 a3).calm = s.calm := by simp [sendNotice]

@[simp] theorem memberDown_calm (s : State) (a1 : Nat) (a2 : Bool) :
    (memberDown s a1 a2).calm = s.calm := by simp [memberDown, apply_ite State.calm]

@[simp] theorem zeroiseKeys_calm (s : State) :
    (zeroiseKeys s).calm = s.calm := id rfl

@[simp] theorem dropWork_calm (s : State) (a1 : Nat) :
    (dropWork s a1).calm = s.calm := id rfl

@[simp] theorem quench_calm (s : State) (a1 a2 a3 : Nat) :
    (quench s a1 a2 a3).calm = s.calm := by
  unfold quench quench.sendNoticeIf
  split
  · rfl
  · dsimp only; split <;> split <;> simp

@[simp] theorem escalate_calm (s : State) (a1 : ErrIn) :
    (escalate s a1).1.calm = s.calm := by unfold escalate; (repeat' split) <;> simp [apply_ite State.calm]

@[simp] theorem dropCasts_calm (s : State) :
    (dropCasts s).calm = s.calm := id rfl

@[simp] theorem powerCycle_calm (s : State) :
    (powerCycle s).calm = s.calm := by simp [powerCycle, apply_ite State.calm]

@[simp] theorem chipDue_calm (s : State) (a1 : Nat) :
    (chipDue s a1).calm = s.calm := by simp [chipDue, apply_ite State.calm]

@[simp] theorem raise_calm (s : State) (a1 : ErrIn) (a2 a3 : Nat) :
    (raise s a1 a2 a3).calm = s.calm := by unfold raise; dsimp only; (repeat' split) <;> simp [apply_ite State.calm]

@[simp] theorem raiseS3_calm (s : State) (a1 a2 a3 : Nat) :
    (raiseS3 s a1 a2 a3).calm = s.calm := by simp [raiseS3]

@[simp] theorem raiseS2_calm (s : State) (a1 a2 : Nat) (a3 a4 a5 : Nat) :
    (raiseS2 s a1 a2 a3 a4 a5).calm = s.calm := by simp [raiseS2]

@[simp] theorem keySend_calm (s : State) (a1 : List Nat) (a2 : Shares) :
    (keySend s a1 a2).calm = s.calm := by unfold keySend; (repeat' split) <;> simp [apply_ite State.calm]

@[simp] theorem loadReg_calm (s : State) (a1 : KeyPath) (a2 : BitVec 512) (a3 : BitVec 16) (a4 : Option KeyPath) (a5 a6 : Bytes) :
    (loadReg s a1 a2 a3 a4 a5 a6).calm = s.calm := by unfold loadReg; (repeat' split) <;> simp [apply_ite State.calm]

@[simp] theorem switchReg_calm (s : State) (a1 : KeyPath) :
    (switchReg s a1).calm = s.calm := by unfold switchReg; (repeat' split) <;> simp [apply_ite State.calm]

@[simp] theorem putKey_calm (s : State) (a1 : KeyPath) (a2 : BitVec 512) (a3 a4 : Nat) (a5 a6 : Nat) (a7 : BitVec 16)
    (a8 : Bytes) (a9 : Option KeyPath) (a10 : Bytes) :
    (putKey s a1 a2 a3 a4 a5 a6 a7 a8 a9 a10).calm = s.calm := by simp [putKey, apply_ite State.calm]

@[simp] theorem derive_calm (a0 : Nat) (s : State) (a2 : KeyPath) :
    (derive a0 s a2).calm = s.calm := by
  induction a0 generalizing s a2 with
  | zero => rfl
  | succ n ih =>
    unfold derive
    split
    · rfl
    · split
      · rfl
      · split
        · rfl
        · dsimp only
          split <;> (split <;> simp [ih])

@[simp] theorem chargeDerive_calm (s : State) (a1 : KeyPath) :
    (chargeDerive s a1).calm = s.calm := by unfold chargeDerive; (repeat' split) <;> simp [apply_ite State.calm]

@[simp] theorem needKey_calm (s : State) (a1 : KeyPath) :
    (needKey s a1).calm = s.calm := by simp [needKey]

@[simp] theorem denyTierA_calm (s : State) (a1 a2 a3 : Nat) :
    (denyTierA s a1 a2 a3).calm = s.calm := by simp [denyTierA]

@[simp] theorem digestBlock_calm (s : State) (a1 : Watch) (a2 : Passed) :
    (digestBlock s a1 a2).1.calm = s.calm := by unfold digestBlock; dsimp only; (repeat' split) <;> simp [apply_ite State.calm]

@[simp] theorem writeVa_calm (s : State) (a1 a2 : Nat) (a3 : Bytes) :
    (writeVa s a1 a2 a3).calm = s.calm := by
  unfold writeVa
  apply foldl_calm; intro s a
  split <;> simp

@[simp] theorem dumpBlock_calm (s : State) (a1 : Watch) (a2 : Passed) :
    (dumpBlock s a1 a2).1.calm = s.calm := by unfold dumpBlock; (repeat' split) <;> simp [apply_ite State.calm]

@[simp] theorem freeField_calm (s : State) (a1 : Nat) :
    (freeField s a1).1.calm = s.calm := id rfl

@[simp] theorem sumField_calm (s : State) (a1 : Bool) (a2 : BitVec 64) :
    (sumField s a1 a2).1.calm = s.calm := by unfold sumField; (repeat' split) <;> simp [apply_ite State.calm]

@[simp] theorem statBytes_calm (s : State) (a1 : Watch) :
    (statBytes s a1).1.calm = s.calm := by unfold statBytes; dsimp only; (repeat' split) <;> simp [apply_ite State.calm]

@[simp] theorem resultBytes_calm (s : State) (a1 : Nat) (a2 : Watch) :
    (resultBytes s a1 a2).1.calm = s.calm := by unfold resultBytes; (repeat' split) <;> simp [apply_ite State.calm]

@[simp] theorem dumpRecord_calm (s : State) (a1 : Nat) (a2 : Watch) :
    (dumpRecord s a1 a2).calm = s.calm := by simp [dumpRecord, apply_ite State.calm]

@[simp] theorem closeWatch_calm (s : State) (a1 : Nat) (a2 : Watch) :
    (closeWatch s a1 a2).calm = s.calm := by unfold closeWatch; dsimp only; (repeat' split) <;> simp [apply_ite State.calm]

@[simp] theorem takePassed_calm (s : State) (a1 : Nat) (a2 : Passed) :
    (takePassed s a1 a2).calm = s.calm := by unfold takePassed; (repeat' split) <;> simp [apply_ite State.calm]

@[simp] theorem tapRange_calm (s : State) (a1 a2 : Nat) (a3 a4 : Nat) (a5 : Bytes) :
    (tapRange s a1 a2 a3 a4 a5).calm = s.calm := by simp [tapRange]

@[simp] theorem tapGranule_calm (s : State) (a1 a2 : Nat) (a3 a4 a5 : Nat) (a6 : Bytes) :
    (tapGranule s a1 a2 a3 a4 a5 a6).calm = s.calm := by unfold tapGranule; (repeat' split) <;> simp [apply_ite State.calm]

@[simp] theorem tapEgress_calm (s : State) (a1 : SealReq) :
    (tapEgress s a1).calm = s.calm := by unfold tapEgress; dsimp only; (repeat' split) <;> simp [apply_ite State.calm]

@[simp] theorem setFlow_calm (s : State) (a1 : Nat) (a2 : Flow) :
    (setFlow s a1 a2).calm = s.calm := id rfl

@[simp] theorem setPort_calm (s : State) (a1 : Nat) (a2 : BrassPort) :
    (setPort s a1 a2).calm = s.calm := id rfl

@[simp] theorem touchKey_calm (s : State) (a1 a2 : Nat) (a3 a4 a5 : Nat) :
    (touchKey s a1 a2 a3 a4 a5).calm = s.calm := id rfl

@[simp] theorem missKey_calm (s : State) (a1 a2 : Nat) (a3 a4 a5 : Nat) (a6 : List Frame) (a7 : List (Nat × Nat)) :
    (missKey s a1 a2 a3 a4 a5 a6 a7).calm = s.calm := id rfl

@[simp] theorem countMiss_calm (s : State) (a1 : Nat) :
    (countMiss s a1).calm = s.calm := id rfl

@[simp] theorem missHold_calm (s : State) (a1 a2 : Nat) (a3 : SealReq) (a4 a5 a6 : Nat) :
    (missHold s a1 a2 a3 a4 a5 a6).calm = s.calm := by simp [missHold, apply_ite State.calm]

@[simp] theorem countKey_calm (s : State) (a1 : Nat) (a2 : Flow) (a3 : Nat) (a4 : KeyPath) :
    (countKey s a1 a2 a3 a4).calm = s.calm := by simp [countKey]

@[simp] theorem rollSend_calm (s : State) (a1 : Nat) (a2 : Flow) :
    (rollSend s a1 a2).calm = s.calm := by unfold rollSend; (repeat' split) <;> simp [apply_ite State.calm]

@[simp] theorem repairFlow_calm (s : State) (a1 a2 : Nat) (a3 : Flow) :
    (repairFlow s a1 a2 a3).calm = s.calm := by simp [repairFlow]

@[simp] theorem switchFlow_calm (s : State) (a1 : Nat) :
    (switchFlow s a1).calm = s.calm := by unfold switchFlow; (repeat' split) <;> simp [apply_ite State.calm]

@[simp] theorem fabricTake_calm (s : State) (a1 a2 a3 : Nat) :
    (fabricTake s a1 a2 a3).calm = s.calm := id rfl

@[simp] theorem sealNow_calm (s : State) (a1 : Nat) (a2 : SealReq) :
    (sealNow s a1 a2).1.calm = s.calm := by unfold sealNow; dsimp only; (repeat' split) <;> simp [apply_ite State.calm]

@[simp] theorem fenceSent_calm (s : State) (a1 a2 a3 : Nat) :
    (fenceSent s a1 a2 a3).calm = s.calm := id rfl

@[simp] theorem fenceDrop_calm (s : State) (a1 : Nat) :
    (fenceDrop s a1).calm = s.calm := id rfl

@[simp] theorem refuseSeal_calm (s : State) (a1 : SealReq) :
    (refuseSeal s a1).calm = s.calm := id rfl

@[simp] theorem pumpList_calm (a0 : List (Nat × SealReq)) (s : State) :
    (pumpList a0 s).calm = s.calm := by
  induction a0 generalizing s with
  | nil => rfl
  | cons x r ih =>
    unfold pumpList
    dsimp only
    rw [ih]
    split <;> simp

@[simp] theorem linkPump_calm (s : State) :
    (linkPump s).calm = s.calm := by simp [linkPump]

@[simp] theorem sendFrame_calm (s : State) (a1 : SealReq) :
    (sendFrame s a1).calm = s.calm := by unfold sendFrame; dsimp only; (repeat' split) <;> simp [apply_ite State.calm]

@[simp] theorem ackEvent_calm (s : State) (a1 : Nat) :
    (ackEvent s a1).calm = s.calm := by simp [ackEvent]

@[simp] theorem clearFrames_calm (a0 : Nat) (s : State) (a2 : Nat) :
    (clearFrames a0 s a2).calm = s.calm := by
  induction a0 generalizing s with
  | zero => rfl
  | succ n ih =>
    unfold clearFrames
    split
    · rfl
    · split
      · rfl
      · simp [ih]

@[simp] theorem clearPump_calm (s : State) (a1 : Nat) :
    (clearPump s a1).calm = s.calm := by simp [clearPump]

@[simp] theorem keyRecord_calm (s : State) (a1 a2 : Nat) (a3 : KeyPath) :
    (keyRecord s a1 a2 a3).calm = s.calm := by simp [keyRecord]

@[simp] theorem assayFailed_calm (s : State) (a1 : Nat) :
    (assayFailed s a1).calm = s.calm := by simp [assayFailed]

@[simp] theorem rotatingNow_calm (s : State) (a1 : Nat) :
    (rotatingNow s a1).calm = s.calm := id rfl

@[simp] theorem rotateStart_calm (s : State) (a1 : Nat) :
    (rotateStart s a1).calm = s.calm := by unfold rotateStart; (repeat' split) <;> simp [apply_ite State.calm]

@[simp] theorem rotateNext_calm (a0 : Nat) (s : State) (a2 : Nat) :
    (rotateNext a0 s a2).calm = s.calm := by fun_induction rotateNext <;> simp_all [apply_ite State.calm]

@[simp] theorem rotateWake_calm (s : State) (a1 : Nat) :
    (rotateWake s a1).calm = s.calm := by simp [rotateWake]

@[simp] theorem setPew_calm (s : State) (a1 : Nat) (a2 : Pewter) :
    (setPew s a1 a2).calm = s.calm := id rfl

@[simp] theorem putNode_calm (s : State) (a1 : TreeNode) :
    (putNode s a1).calm = s.calm := id rfl

@[simp] theorem pewCharge_calm (s : State) (a1 a2 : Nat) (a3 : Bool) (a4 : Nat) :
    (pewCharge s a1 a2 a3 a4).calm = s.calm := id rfl

theorem poolRead_calm (s : State) (a1 a2 : Nat) (a3 a4 : Nat) (a5 : Bool) (a6 : PoolWhy) (t : State)
    (h : poolRead s a1 a2 a3 a4 a5 a6 = some t) :
    t.calm = s.calm := by
  unfold poolRead at h
  dsimp only at h
  split at h
  · cases h
  · cases h; simp

@[simp] theorem poolWrite_calm (s : State) (a1 a2 a3 : Nat) (a4 : Bytes) (a5 : Nat) (a6 : Option Nat) (a7 : Option TreeNode) :
    (poolWrite s a1 a2 a3 a4 a5 a6 a7).calm = s.calm := by simp [poolWrite]

@[simp] theorem breach_calm (s : State) (a1 a2 a3 : Nat) :
    (breach s a1 a2 a3).calm = s.calm := by simp [breach]

@[simp] theorem bumpChild_calm (s : State) (a1 : TreeNode) (a2 : Nat) :
    (bumpChild s a1 a2).1.calm = s.calm := by unfold bumpChild; (repeat' split) <;> simp [apply_ite State.calm]

theorem writeBack_calm (s : State) (a1 : Nat) (a2 : TreeNode) (t : State) (h : writeBack s a1 a2 = some t) :
    t.calm = s.calm := by
  unfold writeBack at h
  dsimp only at h
  split at h
  · cases h
  · split at h
    · cases h; simp
    · split at h
      · cases h
      · cases h; simp

theorem makeRoom_calm (s : State) (a1 a2 a3 : Nat) (t : State) (h : makeRoom s a1 a2 a3 = some t) :
    t.calm = s.calm := by
  unfold makeRoom at h
  dsimp only at h
  split at h
  · cases h; rfl
  · split at h
    · cases h
    · split at h
      · have := writeBack_calm _ _ _ _ h; simpa using this
      · cases h; simp

@[simp] theorem fetchNode_calm (s : State) (a1 a2 : Nat) (a3 a4 : Nat) (a5 a6 : Nat) :
    (fetchNode s a1 a2 a3 a4 a5 a6).1.calm = s.calm := by
  unfold fetchNode
  dsimp only
  split
  · rfl
  · split
    · rfl
    · rename_i hm
      have e := makeRoom_calm _ _ _ _ _ hm
      split
      · split <;> simp [e]
      · split
        · rename_i hp; simp [poolRead_calm _ _ _ _ _ _ _ _ hp, e]
        · exact e

@[simp] theorem walkLevel_calm (s : State) (a1 a2 : Nat) (a3 a4 : Nat) (a5 a6 : Nat) (a7 : Bool) :
    (walkLevel s a1 a2 a3 a4 a5 a6 a7).1.calm = s.calm := by
  unfold walkLevel
  dsimp only
  split
  · simp
  · split
    · split
      · rfl
      · rename_i hm; simp [makeRoom_calm _ _ _ _ _ hm]
    · split
      · simp
      · split
        · rfl
        · rename_i hm; simp [makeRoom_calm _ _ _ _ _ hm]

@[simp] theorem walk_calm (s : State) (a1 a2 : Nat) (a3 a4 : Nat) :
    (walk s a1 a2 a3 a4).1.calm = s.calm := by
  unfold walk
  dsimp only
  split
  · rfl
  · split
    · rename_i h1
      split
      · rename_i h2; simp [fst_calm h2, fst_calm h1]
      · simp [fst_calm h1]
    · simp

@[simp] theorem poisonGranule_calm (s : State) (a1 a2 : Nat) :
    (poisonGranule s a1 a2).calm = s.calm := by
  unfold poisonGranule
  split
  · rfl
  · dsimp only; split <;> simp

@[simp] theorem poisonBad_calm (s : State) (a1 a2 : Nat) :
    (poisonBad s a1 a2).calm = s.calm := by simp [poisonBad]

theorem writeGranule_calm (s : State) (a1 a2 a3 : Nat) (a4 : Region) (a5 : Bytes) (t : State)
    (h : writeGranule s a1 a2 a3 a4 a5 = some t) :
    t.calm = s.calm := by
  unfold writeGranule at h
  dsimp only at h
  split at h
  · cases h
  · split at h
    · cases h; simp
    · cases h

@[simp] theorem poolUse_calm (s : State) (a1 : PewJob) (a2 : Bool) :
    (poolUse s a1 a2).calm = s.calm := by simp [poolUse, apply_ite State.calm]

@[simp] theorem needSlot_calm (s : State) (a1 : Nat) (a2 : PewJob) :
    (needSlot s a1 a2).1.calm = s.calm := by
  unfold needSlot
  dsimp only
  (repeat' split) <;> try simp
  rename_i hp; simp [poolRead_calm _ _ _ _ _ _ _ _ hp]

@[simp] theorem finishWrite_calm (s : State) (a1 : PewJob) (a2 : Region) (a3 : Bytes) :
    (finishWrite s a1 a2 a3).1.calm = s.calm := by
  unfold finishWrite
  dsimp only
  split
  · rfl
  · split
    · rename_i hw; simp [writeGranule_calm _ _ _ _ _ _ _ hw]
    · rfl

@[simp] theorem onNode_calm (s : State) (a1 : Nat) (a2 : PewJob) (a3 : Region) (a4 : TreeNode) :
    (onNode s a1 a2 a3 a4).1.calm = s.calm := by
  have dat : ∀ f : State → Bytes → State × PewEnd, (∀ s b, (f s b).1.calm = s.calm) →
      (if a4.poison.contains (a2.r.granule % 64) then
        ((notice s 0 280 (uPewter (a2.r.region % 4)) (granuleWhere a2.r.region a2.r.granule)), PewEnd.answer cPoisonedTarget [])
      else if a4.minor (a2.r.granule % 64) = 0 then
        if a3.lost then (s, PewEnd.answer cPoisonedTarget []) else f s (List.replicate 256 0)
      else
        match needSlot s a1 a2 with
        | (s1, none) => (s1, .wait a2)
        | (s1, some (st, b)) =>
          if st ≠ 0 then (poisonBad s1 a2.r.region a2.r.granule, PewEnd.answer cPoisonedTarget [])
          else
            match openGranule s1 a2.r.region a3 a2.r.granule (a4.counter (a2.r.granule % 64)) b with
            | .ok (pt, _) => f s1 pt
            | .error c => (breach s1 (a2.r.region % 4) c (granuleWhere a2.r.region a2.r.granule), .never)).1.calm = s.calm := by
    intro f hf
    split
    · simp
    · split
      · split
        · rfl
        · exact hf _ _
      · split
        · rename_i h1; simp [fst_calm h1]
        · rename_i h1
          split
          · simp [fst_calm h1]
          · split
            · rw [hf, fst_calm h1]; simp
            · simp [fst_calm h1]
  unfold onNode
  dsimp only
  split
  · exact dat _ (by intro s b; simp)
  · simp
  · exact dat _ (by intro s b; simp)
  · simp
  · rfl
  · split
    · rfl
    · split
      · rename_i h1; simp [fst_calm h1]
      · rename_i h1
        split
        · simp [fst_calm h1]
        · split
          · split
            · simp [fst_calm h1]
            · split
              · rename_i hw; simp [writeGranule_calm _ _ _ _ _ _ _ hw, fst_calm h1]
              · simp [fst_calm h1]
          · simp [fst_calm h1]

@[simp] theorem attempt_calm (s : State) (a1 : Nat) (a2 : PewJob) :
    (attempt s a1 a2).1.calm = s.calm := by
  unfold attempt
  dsimp only
  split
  · rfl
  · split
    · rfl
    · split
      · simp
      · split
        · rfl
        · split
          · rfl
          · split
            · rename_i h1; simp [fst_calm h1]
            · rename_i h1; simp [fst_calm h1]
            · rename_i h1; split <;> simp [fst_calm h1]

@[simp] theorem loseRegion_calm (s : State) (a1 a2 : Nat) :
    (loseRegion s a1 a2).calm = s.calm := by simp [loseRegion, apply_ite State.calm]

theorem respanChild_calm (s : State) (a1 : Respan) (a2 a3 : Nat) (a4 : Bytes) (t : State)
    (h : respanChild s a1 a2 a3 a4 = some t) :
    t.calm = s.calm := by
  unfold respanChild at h
  dsimp only at h
  (repeat' split at h) <;> (first | (cases h; done) | (cases h; simp; done))

@[simp] theorem respanAsk_calm (s : State) (a1 : Respan) (a2 : Nat) :
    (respanAsk s a1 a2).calm = s.calm := by
  unfold respanAsk
  dsimp only
  split
  · rfl
  · split
    · cases h : respanChild s a1 a2 0 _ with
      | none => rfl
      | some t => exact respanChild_calm _ _ _ _ _ _ h
    · split
      · rename_i h; split <;> simp [poolRead_calm _ _ _ _ _ _ _ _ h]
      · rfl

@[simp] theorem respanPump_calm (s : State) (a1 : Nat) :
    (respanPump s a1).calm = s.calm := by simp [respanPump]

@[simp] theorem rotateEnd_calm (s : State) (a1 : Nat) :
    (rotateEnd s a1).calm = s.calm := by unfold rotateEnd; (repeat' split) <;> simp [apply_ite State.calm]

@[simp] theorem rotateDone_calm (s : State) (a1 : Nat) :
    (rotateDone s a1).calm = s.calm := by simp [rotateDone, apply_ite State.calm]

@[simp] theorem sweepOn_calm (s : State) (a1 : Nat) (a2 : PewJob) :
    (sweepOn s a1 a2).calm = s.calm := by simp [sweepOn, apply_ite State.calm]

@[simp] theorem switchRegion_calm (s : State) (a1 : Nat) :
    (switchRegion s a1).calm = s.calm := by
  unfold switchRegion
  apply foldl_calm; intro s r
  split
  · split <;> simp
  · rfl

@[simp] theorem runJob_calm (a0 : Nat) (s : State) (a2 a3 : Nat) :
    (runJob a0 s a2 a3).calm = s.calm := by
  induction a0 generalizing s a3 with
  | zero => rfl
  | succ n ih =>
    unfold runJob
    dsimp only
    split
    · rfl
    · split
      · rfl
      · split
        · rename_i h1; simp [fst_calm h1]
        · rename_i h1; simp [fst_calm h1]
        · rename_i h1
          split
          · rw [ih]; simp [fst_calm h1]
          · simp [fst_calm h1]

@[simp] theorem releaseDone_calm (s : State) (a1 : Nat) :
    (releaseDone s a1).calm = s.calm := by simp [releaseDone]

@[simp] theorem againPump_calm (s : State) (a1 : Nat) :
    (againPump s a1).calm = s.calm := by
  unfold againPump
  apply foldl_calm; intro s r
  split
  · rename_i h; simp [poolRead_calm _ _ _ _ _ _ _ _ h]
  · rfl

@[simp] theorem pewPump_calm (s : State) (a1 : Nat) :
    (pewPump s a1).calm = s.calm := by simp [pewPump, apply_ite State.calm]

@[simp] theorem respond_calm (s : State) (a1 a2 : Nat) (a3 a4 : Nat) (a5 : Code) (a6 : Bytes) :
    (respond s a1 a2 a3 a4 a5 a6).calm = s.calm := by simp [respond]

@[simp] theorem endRemote_calm (s : State) (a1 a2 a3 : Nat) (a4 : OpHdr) (a5 : Code) (a6 : Bytes) :
    (endRemote s a1 a2 a3 a4 a5 a6).calm = s.calm := by unfold endRemote; (repeat' split) <;> simp [apply_ite State.calm]

@[simp] theorem finishRemote_calm (s : State) (a1 : Nat) (a2 : RemoteOp) :
    (finishRemote s a1 a2).calm = s.calm := by simp [finishRemote]

@[simp] theorem remoteSettle_calm (s : State) :
    (remoteSettle s).calm = s.calm := by simp [remoteSettle]

@[simp] theorem takeBlocks_calm (s : State) (a1 : Nat) :
    (takeBlocks s a1).calm = s.calm := by simp [takeBlocks, apply_ite State.calm]

@[simp] theorem passFrames_calm (a0 : Nat) (s : State) (a2 : Nat) :
    (passFrames a0 s a2).calm = s.calm := by
  induction a0 generalizing s with
  | zero => rfl
  | succ n ih =>
    unfold passFrames
    split
    · rfl
    · dsimp only
      split
      · rfl
      · rw [ih]; split <;> simp

@[simp] theorem passPump_calm (s : State) (a1 : Nat) :
    (passPump s a1).calm = s.calm := by simp [passPump]

end Sys2Proof.Machine

/-!
Tier A reads as it was last written (R297).
-/
namespace Sys2Proof.Machine

theorem cellsSet_outside (m : List Host.Cell) (a j : Nat) (b : Bytes) (h : j < a ∨ a + b.length ≤ j) :
    tgetD (cellsSet m a b) j 0 = tgetD m j 0 := by
  induction b generalizing m a with
  | nil => rfl
  | cons x r ih =>
    rw [List.length_cons] at h
    rw [cellsSet, ih _ _ (by omega), cellSet_other _ _ _ _ (by omega)]

theorem cellsSet_inside (m : List Host.Cell) (a i : Nat) (b : Bytes) (h : i < b.length) :
    tgetD (cellsSet m a b) (a + i) 0 = b.getD i 0 := by
  induction b generalizing m a i with
  | nil => cases h
  | cons x r ih =>
    rw [cellsSet]
    cases i with
    | zero =>
      rw [show a + 0 = a from rfl, cellsSet_outside _ _ _ _ (.inl (Nat.lt_succ_self a)), cellSet_same]
      rfl
    | succ i =>
      rw [show a + (i + 1) = a + 1 + i by omega, ih _ _ _ (Nat.lt_of_succ_lt_succ h)]
      rfl

/-- A table read after a filter on its keys. -/
theorem tget_filter_key {α : Type} (t : Table α) (keep : Nat → Bool) (k : Nat) :
    tget (t.filter fun c => keep c.1) k = if keep k then tget t k else none := by
  induction t with
  | nil => cases keep k <;> rfl
  | cons c r ih =>
    obtain ⟨a, v⟩ := c
    by_cases same : a = k
    · subst same
      cases kept : keep a <;> simp [List.filter_cons, kept, tget, ih]
    · cases kept : keep a <;> simp [List.filter_cons, kept, tget, ih, same]

theorem tierARead_scrub (s : State) (p j : Nat) :
    tierARead (tierAScrub s p) j = if j / 2 ^ 26 = p then 0 else tierARead s j := by
  unfold tierARead tierAScrub tgetD
  rw [tget_filter_key s.tierA (fun a => a / 2 ^ 26 != p) j]
  by_cases inside : j / 2 ^ 26 = p
  · rw [if_pos inside, if_neg (by rw [inside, bne_self_eq_false]; decide)]
    rfl
  · rw [if_neg inside, if_pos (bne_iff_ne.mpr inside)]

/-- Settles O13: the cells after a write, by induction on the bytes written, and after a scrub, by the filter on the page. -/
theorem tierAReadAfterWrite : Obligations.TierAReadAfterWrite :=
  ⟨fun s a b i => cellsSet_inside s.tierA a i b, fun s a b j => cellsSet_outside s.tierA a j b, tierARead_scrub,
    fun s a p b wf => ⟨wf_tierAWrite s a b wf, wf_tierAScrub s p wf⟩⟩

end Sys2Proof.Machine

/-!
The ends of a session and a start (R7, R54, R415, R458 to R461, R505): what each stage leaves of the leadbox's numbers and of the
start's own counters.
-/
namespace Sys2Proof.Machine

/-! Recording changes neither the leadbox's stored records and numbers nor which sentinels run. -/

/-- The leadbox as the scan and the writes leave it, and which sentinels run. -/
def State.scanned (s : State) : (Table LbxSlot × BitVec 64 × BitVec 64 × Bool) × Bool × Bool :=
  ((s.lbx.slots, s.lbx.next, s.lbx.nextInv, s.lbx.ready), s.err.sentA, s.err.sentB)

@[simp] theorem putRec_scanned (s : State) (r : LbxRec) : (putRec s r).scanned = s.scanned := by
  unfold putRec foldRec
  dsimp only
  (repeat' split) <;> rfl

@[simp] theorem closeBank_scanned (s : State) (unit action : Nat) (preempted : Bool) :
    (closeBank s unit action preempted).scanned = s.scanned := by
  unfold closeBank
  dsimp only
  (repeat' split) <;> (try rw [putRec_scanned]) <;> rfl

@[simp] theorem bankTake_scanned (s : State) (e : ErrIn) : (bankTake s e).1.scanned = s.scanned := by
  unfold bankTake
  dsimp only
  (repeat' split) <;> (try rw [closeBank_scanned]) <;> rfl

@[simp] theorem hubNote_scanned (s : State) (unit : Nat) : (hubNote s unit).scanned = s.scanned := by
  unfold hubNote netReport
  dsimp only
  (repeat' split) <;> rfl

@[simp] theorem latch_scanned (s : State) (e : ErrIn) : (latch s e).scanned = s.scanned := by
  unfold latch
  dsimp only
  split
  · refine Eq.trans (b := (putRec (bankTake (hubNote s e.unit) e).1 (e.opening (bankTake (hubNote s e.unit) e).1)).scanned) rfl ?_
    rw [putRec_scanned, bankTake_scanned, hubNote_scanned]
  · rw [bankTake_scanned, hubNote_scanned]

/-- From another state, time state 1 starts a run of its own (R417). -/
theorem timeTo_one {s : State} (h : s.time.state ≠ 1) :
    (timeTo s 1).pow = s.pow ∧ (timeTo s 1).scanned = s.scanned ∧ (timeTo s 1).lc = s.lc ∧ (timeTo s 1).vault = s.vault ∧
      (timeTo s 1).health = s.health ∧ (timeTo s 1).time.now = s.time.now ∧ (timeTo s 1).time.state = 1 ∧
      (timeTo s 1).time.trefLocked = s.time.trefLocked := by
  unfold timeTo
  dsimp only
  rw [if_neg h, if_neg (by decide)]
  simp only [latch_pow, latch_scanned, latch_lc, latch_vault, latch_health, latch_time, true_and, and_true]
  rfl

/-- The machine as a session opens it, before NEXT is found and time state 1 is entered: NVM and the always-on island (R7, R54). -/
def sessionOpened (s : State) : State :=
  let u := nvmOnly s
  { u with
    pow.sessionOpen := true, err.sentA := true, err.sentB := true, time.trefLocked := true
    pins.asserted := u.pins.presence, pins.presenceAt := if u.pins.presence then some 0 else none }

theorem exec_sessionStart {s : State} (closed : s.pow.sessionOpen = false) :
    exec .sessionStart s = .next (timeTo (runScan (sessionOpened s)) 1) :=
  done_if_not (by rw [closed]; decide) rfl

theorem sessionStart_completes (s : State) (closed : s.pow.sessionOpen = false) :
    ∃ t, exec .sessionStart s = .next t ∧ t.pow.sessionOpen = true ∧ t.time.now = 0 ∧ t.time.state = 1 ∧
      t.time.trefLocked = true ∧ t.err.sentA = true ∧ t.err.sentB = true ∧ t.lbx.ready = true ∧
      t.lbx.nextInv = ~~~t.lbx.next ∧ t.lbx.slots = s.lbx.slots ∧ t.lc.primary = s.lc.primary ∧
      t.lc.mirror = s.lc.mirror ∧ t.health.ingots = s.health.ingots ∧ t.vault.slots = [] := by
  have opened : (runScan (sessionOpened s)).time.state ≠ 1 := by
    rw [show (runScan (sessionOpened s)).time.state = 0 from rfl]
    decide
  obtain ⟨pow, scanned, lc, vault, health, now, state, locked⟩ := timeTo_one opened
  simp only [State.scanned, Prod.mk.injEq] at scanned
  obtain ⟨⟨slots, next, nextInv, ready⟩, sentA, sentB⟩ := scanned
  refine ⟨_, exec_sessionStart closed, ?_⟩
  rw [pow, now, state, locked, sentA, sentB, ready, nextInv, next, slots, lc, health, vault]
  exact ⟨rfl, rfl, rfl, rfl, rfl, rfl, rfl, rfl, rfl, rfl, rfl, rfl, rfl⟩

theorem sessionEnd_completes (s : State) (opened : s.pow.sessionOpen = true) :
    ∃ t, exec .sessionEnd s = .next t ∧ t.pow = Power.reset ∧ t.vault.slots = [] ∧ t.tierA = [] ∧
      t.lbx.slots = s.lbx.slots ∧ t.lc.primary = s.lc.primary ∧ t.lc.mirror = s.lc.mirror ∧
      t.health.ingots = s.health.ingots ∧ t.dict.copies = s.dict.copies :=
  ⟨nvmOnly s, done_if opened rfl, rfl, rfl, rfl, rfl, rfl, rfl, rfl, rfl⟩

/-! What a start counts: the stages after the rails are up leave its number, and the last one sets its phase. -/

/-- How many starts there were, and how far this one is. -/
def State.started (s : State) : BitVec 8 × Nat := (s.boot.starts, s.boot.phase)

theorem started_of_boot {s t : State} (h : t.boot = s.boot) : t.started = s.started := by rw [State.started, h]; rfl

@[simp] theorem keySend_boot (s : State) (leaves : List Nat) (v : Shares) : (keySend s leaves v).boot = s.boot := by
  unfold keySend
  exact foldl_boot _ (by simp) _ _

@[simp] theorem loadReg_boot (s : State) (p : KeyPath) (v : BitVec 512) (a : BitVec 16) (q : Option KeyPath) (l c : Bytes) :
    (loadReg s p v a q l c).boot = s.boot := by
  unfold loadReg
  split
  · rfl
  · dsimp only
    split <;> rw [keySend_boot] <;> rfl

@[simp] theorem putKey_boot (s : State) (p : KeyPath) (v : BitVec 512) (width part slot share : Nat) (attr : BitVec 16)
    (label : Bytes) (parent : Option KeyPath) (ctx : Bytes) :
    (putKey s p v width part slot share attr label parent ctx).boot = s.boot := by
  unfold putKey
  dsimp only
  split
  · rfl
  · rw [loadReg_boot]
    split <;> rfl

@[simp] theorem derive_boot (fuel : Nat) (s : State) (p : KeyPath) : (derive fuel s p).boot = s.boot := by
  induction fuel generalizing s p with
  | zero => rfl
  | succ n ih =>
    unfold derive
    dsimp only
    (repeat' split) <;> simp [ih]

@[simp] theorem needKey_boot (s : State) (p : KeyPath) : (needKey s p).boot = s.boot := by
  unfold needKey chargeDerive
  (repeat' split) <;> simp

@[simp] theorem expandIdent_boot (s : State) : (expandIdent s).boot = s.boot := by
  unfold expandIdent
  split <;> rfl

@[simp] theorem sessionKeys_boot (s : State) : (sessionKeys s).boot = s.boot := foldl_boot _ (by simp) _ _

@[simp] theorem startKeys_boot (s : State) : (startKeys s).boot = s.boot := by
  unfold startKeys
  dsimp only
  rw [expandIdent_boot, sessionKeys_boot]
  exact foldl_boot _ (by simp) _ _

@[simp] theorem storeConfig_boot (s : State) : (storeConfig s).boot = s.boot := by
  unfold storeConfig
  dsimp only
  (repeat' split) <;> simp

@[simp] theorem clearForce_boot (s : State) : (clearForce s).boot = s.boot := by
  unfold clearForce
  dsimp only
  split <;> simp

@[simp] theorem applyConfig_boot (s : State) : (applyConfig s).boot = s.boot := by
  unfold applyConfig
  (repeat' split) <;> simp

@[simp] theorem tryPuf_boot (s : State) (read : BitVec 5355) : (tryPuf s read).1.boot = s.boot := by
  unfold tryPuf
  dsimp only
  (repeat' split) <;> simp [countMismatch]

@[simp] theorem pufLoop_boot (n : Nat) (s : State) (reads : List (BitVec 5355)) : (pufLoop n s reads).1.boot = s.boot := by
  induction n generalizing s reads with
  | zero => rfl
  | succ n ih =>
    cases reads with
    | nil => rfl
    | cons r rest =>
      unfold pufLoop
      split <;> (rename_i found; have kept := tryPuf_boot s r; rw [found] at kept)
      · exact kept
      · exact (ih _ _).trans kept

@[simp] theorem regenerate_boot (s : State) (reads : List (BitVec 5355)) : (regenerate s reads).boot = s.boot := by
  unfold regenerate
  dsimp only
  split
  · split <;> rfl
  · have kept := pufLoop_boot 3 { s with vault.rootState := 1, vault.lcClass := lcClassOf s.lc.code, vault.pufTries := 0 } reads
    split <;> (rename_i found; rw [found] at kept) <;> simpa using kept

@[simp] theorem assayPool_boot (unit : Nat) (s : State) (a : Nat × List Nat) : (assayPool unit s a).boot = s.boot := by
  unfold assayPool
  dsimp only
  (repeat' split) <;> rfl

theorem startPools_started (s : State) (cold : Bool) (found : List (Nat × Nat × List Nat)) :
    (startPools s cold found).started = s.started := by
  unfold startPools
  dsimp only
  split
  · exact (started_of_boot (foldl_boot _ (by simp) _ _)).trans rfl
  · exact started_of_boot ((foldl_boot _ (by simp) _ _).trans (foldl_boot _ (by simp) _ _))

@[simp] theorem saveRecord_boot (s : State) (mode result slot : Nat) (part : Bool) (startMv : Nat) :
    (saveRecord s mode result slot part startMv).boot = s.boot := by simp [saveRecord]

@[simp] theorem applyIngot_boot (s : State) (i : Ingot) : (applyIngot s i).boot = s.boot := by
  have records : ((i.records.getD []).foldl putRec s).boot = s.boot := foldl_boot _ (by simp) _ _
  unfold applyIngot
  dsimp only
  (repeat' split) <;> simp [records]

@[simp] theorem consumeIngot_boot (s : State) : (consumeIngot s).boot = s.boot := by
  have latched (l : List ErrIn) (u : State) : (l.foldl latch u).boot = u.boot := foldl_boot _ (by simp) _ _
  unfold consumeIngot
  dsimp only
  (repeat' split) <;> simp [latched]

@[simp] theorem armCast_boot (s : State) (owner kind flags fire param : Nat) (ctx : Option (Nat × Nat)) :
    (armCast s owner kind flags fire param ctx).1.boot = s.boot := by
  have staged (u : State) (n : Nat) (l : List Nat) : (l.foldl (fun s g => castStageAt s n g) u).boot = u.boot :=
    foldl_boot _ (by simp) _ _
  unfold armCast
  dsimp only
  (repeat' split) <;> simp [staged]

@[simp] theorem armHorizon_boot (n : Nat) (s : State) : (armHorizon n s).boot = s.boot := by
  fun_induction armHorizon <;> simp_all [apply_ite State.boot]

@[simp] theorem enterSpan_boot (s : State) : (enterSpan s).boot = s.boot := by
  unfold enterSpan
  dsimp only
  split <;> rfl

theorem writeStart_started (s : State) (training : List (BitVec 32)) : (writeStart s training).started = s.started := by
  unfold writeStart
  (repeat' split) <;> simp [State.started]

theorem raiseVersion_started (s : State) : (raiseVersion s).started = s.started := by
  unfold raiseVersion
  (repeat' split) <;> rfl

/-- VTC ready is phase 4 of the start (R461). -/
theorem vtcReady_started (s : State) (cold first : Bool) (reason : Nat) :
    (vtcReady s cold first reason).started = (s.boot.starts, 4) := by
  unfold vtcReady
  dsimp only
  rw [started_of_boot (armHorizon_boot ..), started_of_boot (enterSpan_boot _), readyRecord, started_of_boot (record_boot ..),
    writeStart_started, raiseVersion_started, started_of_boot (presentHeld_boot _)]
  rfl

@[simp] theorem enginesReady_boot (s : State) : (enginesReady s).boot = s.boot := by
  unfold enginesReady
  rfl

/-- Clearing the forced values, the pools and the keys, and the engines' readiness leave the start's counters (R460). -/
theorem startEngines_started (s : State) (cold : Bool) (found : List (Nat × Nat × List Nat)) :
    (enginesReady (startKeys (startPools (clearForce s) cold found))).started = s.started := by
  rw [started_of_boot (enginesReady_boot _), started_of_boot (startKeys_boot _), startPools_started,
    started_of_boot (clearForce_boot _)]

theorem starts_phase_of_started {s : State} {n : BitVec 8} {p : Nat} (h : s.started = (n, p)) : s.boot.starts = n ∧ s.boot.phase = p :=
  Prod.mk.inj h

theorem starts_of_started {s t : State} (h : t.started = s.started) : t.boot.starts = s.boot.starts := congrArg (·.1) h

/-- The rest of a start ends in the recovery loader or at VTC ready (R460, R461). -/
theorem startRest_started (s : State) (first : Bool) (found : List (Nat × Nat × List Nat)) :
    (startRest s first found).boot.starts = s.boot.starts ∧
      ((startRest s first found).boot.phase = 4 ∨
        (startRest s first found).boot.phase = 1 ∧ (startRest s first found).boot.loader = true) := by
  have image : (reloadImage s).boot.starts = s.boot.starts := by
    unfold reloadImage
    dsimp only
    (repeat' split) <;> simp [imageRecord]
  unfold startRest
  extract_lets s1 s2 reason cold s3
  split
  · exact ⟨image, .inr ⟨rfl, rfl⟩⟩
  · have config : s2.boot = s1.boot := by simp [s2, apply_ite State.boot]
    have engines : s3.started = s1.started := (startEngines_started s2 cold found).trans (started_of_boot config)
    have ended (u : State) (same : u.started = s3.started) :
        (vtcReady u cold first reason).boot.starts = s.boot.starts ∧ (vtcReady u cold first reason).boot.phase = 4 := by
      obtain ⟨starts, phase⟩ := starts_phase_of_started (vtcReady_started u cold first reason)
      exact ⟨starts.trans ((starts_of_started (same.trans engines)).trans image), phase⟩
    split
    · obtain ⟨starts, phase⟩ := ended _ (started_of_boot (consumeIngot_boot s3))
      exact ⟨starts, .inl phase⟩
    · obtain ⟨starts, phase⟩ := ended s3 rfl
      exact ⟨starts, .inl phase⟩

theorem startPowered_started (s : State) :
    (startPowered s).started = (if s.boot.starts = 255 then 255 else s.boot.starts + 1, 0) := by
  unfold startPowered
  dsimp only
  split <;> rfl

theorem startPowered_sessionId (s : State) : (startPowered s).pow.sessionId = s.pow.sessionId := by
  unfold startPowered
  dsimp only
  split <;> rfl

@[simp] theorem drawNonzero_boot (n : Nat) (s : State) : (drawNonzero n s).boot = s.boot := by
  induction n generalizing s with
  | zero => rfl
  | succ n ih =>
    unfold drawNonzero
    split
    · rw [ih, State_drew_boot]
    · rfl

theorem drawSession_boot (s : State) : (drawSession s).boot = s.boot := by
  unfold drawSession
  split
  · exact drawNonzero_boot 64 s
  · rfl

theorem startSeeded_boot (s : State) : (startSeeded s).boot = s.boot := drawSession_boot _

/-- Only where the session had no identifier can the draw leave it without one (R7). -/
theorem sessionId_of_startSeeded {s : State} (h : (startSeeded s).pow.sessionId = 0) : s.pow.sessionId = 0 := by
  unfold startSeeded drawSession at h
  split at h
  · assumption
  · exact h

theorem settleLc_boot (s : State) : (settleLc s).boot = s.boot := by
  unfold settleLc
  dsimp only
  (repeat' split) <;> simp

theorem settleVersion_starts (s : State) : (settleVersion s).boot.starts = s.boot.starts := by
  unfold settleVersion
  dsimp only
  (repeat' split) <;> simp [setVersion]

theorem entryActions_starts (s : State) : (entryActions s).boot.starts = s.boot.starts := by
  unfold entryActions
  split
  · rfl
  · dsimp only
    (repeat' split) <;> rfl

theorem startSettled_starts (s : State) : (startSettled s).boot.starts = s.boot.starts := by
  have versioned : (settleVersion (settleLc s)).boot.starts = s.boot.starts := by rw [settleVersion_starts, settleLc_boot]
  unfold startSettled
  dsimp only
  split
  · exact versioned
  · exact (entryActions_starts _).trans versioned

theorem startUp_started (s : State) (e : StartEnv) (good : e.entropyOk = true) :
    (startUp s e).boot.starts = (if s.boot.starts = 255 then 255 else s.boot.starts + 1) ∧
      ((startUp s e).boot.phase = 4 ∨ (startUp s e).boot.phase = 1 ∧ (startUp s e).boot.loader = true ∨
        s.pow.sessionId = 0 ∧ (startUp s e).pow.sessionId = 0 ∧ (startUp s e).boot.phase = 0 ∧
          (startUp s e).vault.entropyOk = false) := by
  have counted := startPowered_started s
  have session := startPowered_sessionId s
  rw [startUp_eq]
  generalize startPowered s = u at counted session
  obtain ⟨starts, phase⟩ := Prod.mk.inj counted
  have seeded := startSeeded_boot u
  have unnamed := @sessionId_of_startSeeded u
  rw [good]
  dsimp only
  rw [if_neg (by decide)]
  generalize startSeeded u = v at seeded unnamed
  rw [← starts, ← seeded]
  split
  · rename_i zero
    exact ⟨rfl, .inr (.inr ⟨session ▸ unnamed zero, zero, (congrArg Boot.phase seeded).trans phase, rfl⟩)⟩
  · have settled := startSettled_starts v
    generalize startSettled v = w at settled
    split
    · exact ⟨settled, .inr (.inl ⟨rfl, rfl⟩)⟩
    · have rooted : (regenerate w e.pufReads).boot.starts = v.boot.starts := by rw [regenerate_boot, settled]
      generalize regenerate w e.pufReads = x at rooted
      split
      · exact ⟨rooted, .inr (.inl ⟨rfl, rfl⟩)⟩
      · obtain ⟨kept, ended⟩ := startRest_started x (s.boot.starts == 0) e.pools
        refine ⟨kept.trans rooted, ?_⟩
        obtain ready | loader := ended
        · exact .inl ready
        · exact .inr (.inl loader)

/-! The accelerators' readiness after VTC ready (R461). -/

theorem writeStart_phase (s : State) (training : List (BitVec 32)) : (writeStart s training).boot.phase = s.boot.phase := by
  unfold writeStart
  split <;> simp [State.drew]

/-- What READY does after the start has moved to phase 5: the record, the pump, and the records of the lanes. -/
theorem afterReady_calm (s : State) (cold : Bool) (b : Bytes) :
    (if cold then record (linkPump s) 0x0011 7 uTcu b
      else (List.range 18).foldl (fun s p => if (portAt s p).activeLanes < 4 then capacity s 2 p (portAt s p).activeLanes else s)
        (record (linkPump s) 0x0011 7 uTcu b)).calm = s.calm := by
  cases cold
  · rw [if_neg Bool.false_ne_true, foldl_calm _ (by intro s p; split <;> simp), record_calm, linkPump_calm]
  · rw [if_pos rfl, record_calm, linkPump_calm]

theorem accelReady_phase (s : State) (cores lanes : List Nat) (training : List (BitVec 32)) (up : s.up = true)
    (phase : s.boot.phase = 4) : ∃ t, exec (.accelReady cores lanes training) s = .next t ∧ t.boot.phase = 5 := by
  refine ⟨_, done_whenUp up (if_neg (not_not_intro phase)), ?_⟩
  extract_lets cold s1 s2 ms power boot s3 s4 s5
  have written : (writeStart { s2 with boot.phase := 5, boot.accelMs := ms, pow.readmitted := true } training).boot.phase = 5 :=
    writeStart_phase _ training
  have moved : s5.boot.phase = 5 := (phase_of_calm (afterReady_calm _ cold _)).trans written
  split
  · exact moved
  · rw [phase_of_calm (postAll_calm ..), moved]

/-- Settles O14: the four commands, each from the stages of its effect. -/
theorem sessionAndStartComplete : Obligations.SessionAndStartComplete := by
  refine ⟨sessionStart_completes, sessionEnd_completes, fun s e opened free good => ?_, accelReady_phase⟩
  exact ⟨_, (done_whenAon opened rfl).trans (congrArg _ (if_neg (by rw [free]; decide))), startUp_started s e good⟩

end Sys2Proof.Machine

/-!
The cores, the buckets and the public-key engine (chapter 4): each command's effect where its guards hold.
-/
namespace Sys2Proof.Machine

theorem pools_of_held {s t : State} (h : t.held = s.held) : t.pools = s.pools := congrArg (·.2) h

/-! Cores (R445, R460). -/

section
variable {s : State} {unit pool core : Nat}

theorem coreParityMispredict_loses (up : s.up = true) (fitted : core < poolFitted unit pool) :
    exec (.coreParityMispredict unit ⟨pool, core⟩) s = .next (loseCore (bumpUnit s unit 15 1) unit pool core) :=
  done_whenUp up (if_pos fitted)

/-- A good core that is lost is mapped out of its pool, and no other pool changes. -/
theorem loseCore_pools (fitted : core < poolFitted unit pool) (good : (poolAt s unit pool).out.contains core = false) :
    (loseCore s unit pool core).pools =
      tset s.pools (unit * 32 + pool) { poolAt s unit pool with out := insertN (poolAt s unit pool).out core } := by
  unfold loseCore
  dsimp only
  rw [good, decide_eq_false (Nat.not_le.mpr fitted), if_neg (by decide)]
  split
  · rw [latch_pools]; rfl
  · split
    · rw [pools_of_held (refreshLanes_held ..), latch_pools]; rfl
    · rw [pools_of_held (raiseAll_held ..)]; rfl

theorem coreKatTest_moves {u : State} {c : Nat} (up : s.up = true) (next : nextTested s unit pool = some c)
    (moved : u = setPool s unit pool { poolAt s unit pool with rotation := (c + 1) % poolFitted unit pool }) :
    exec (.coreKatTest unit pool true) s = .next u ∧ exec (.coreKatTest unit pool false) s = .next (loseCore u unit pool c) := by
  subst moved
  exact ⟨done_whenUp up (by rw [next]; rfl), done_whenUp up (by rw [next]; rfl)⟩

end

/-! The buckets (R46 to R48): what a refill wakes takes from the other buckets alone. -/

theorem refillHost_calm (s : State) : (refillHost s).calm = s.calm := rfl

theorem takeAll_calm (s : State) : (takeAll s).calm = s.calm := foldl_calm _ (by simp) _ _

theorem refillFabric_calm (s : State) (port : Nat) : (refillFabric s port).calm = s.calm := by
  unfold refillFabric
  dsimp only
  rw [clearPump_calm]
  rfl

theorem refillPewter_calm (s : State) (q : Nat) : (refillPewter s q).calm = s.calm := rfl

theorem bucketRefill_refills {s : State} (up : s.up = true) : ∃ t, exec .bucketRefill s = .next t ∧
    t.gate.sealLevel = refillAll s ⟨fun w => w, fun w => enginePart s uGate 0 (scaled s w (gateRate s w)), 1⟩ s.gate.sealLevel := by
  refine ⟨_, done_whenUp up rfl, ?_⟩
  extract_lets cipher gate digest watches shares ciphers s1 s2 s3
  have pewters : s3.calm = s2.calm := foldl_calm _ (fun s q => by rw [pewPump_calm, refillPewter_calm]) _ _
  have fabric : s2.calm = s1.calm := by
    rw [show s2 = (List.range 18).foldl (fun s p => passPump (refillFabric s p) p) (refillHost (takeAll s1)) from rfl,
      foldl_calm _ (fun s p => by rw [passPump_calm, refillFabric_calm]), refillHost_calm, takeAll_calm]
  exact sealLevel_of_calm (((linkPump_calm _).trans (remoteSettle_calm _)).trans (pewters.trans fabric))

/-! The public-key engine (R143 to R150). -/

theorem pkServe_idle {s : State} (idle : s.cipher.pkQueue = []) : pkServe s = s := by
  have none_waits : ∀ n, pkServeSlice 16 s n = s := fun n => by
    unfold pkServeSlice
    rw [idle]
    rfl
  unfold pkServe
  induction List.range 17 with
  | nil => rfl
  | cons n l ih => rw [List.foldl_cons, none_waits, ih]

/-- A requester whose turn it is has its request done at once, in a state that differs in the limits alone. -/
theorem pkSubmit_does {s : State} {cls slice : Nat} {j : PkJob} (takes : s.pkTakes cls slice j)
    (kept : (pkDo s cls slice j).cipher.pkQueue = s.cipher.pkQueue) :
    ∃ e : Errors, pkSubmit s cls slice j = pkDo { s with err := e } cls slice j := by
  obtain ⟨-, idle, ready⟩ := takes
  unfold pkSubmit
  split
  · rename_i tenant
    refine ⟨(limHit s (pkLimit j.op.1 slice)).err, ?_⟩
    dsimp only
    rw [pkServe_idle idle, idle, ready tenant]
    rfl
  · exact ⟨s.err, pkServe_idle (kept.trans idle)⟩

/-- With the identity key and the random source a message is signed, and the signature verifies (R143 to R145). -/
theorem signWith_identity {s : State} {k : HybKey} (held : identity s = some k) (good : s.vault.entropyOk = true) (m : Bytes) :
    signWith s m false = ({ bumpUnit s.drew.drew uPk 0 1 with cipher.pkDone := s.cipher.pkDone + 1 },
      some (hybSign k m (s.drawn 384) (s.drew.drawn 256))) := by
  have valid : pointValid (hybPoint k) = true := by
    unfold identity at held
    split at held
    · obtain ⟨i, -, rfl⟩ := Option.map_eq_some_iff.mp held
      exact pointValid_pub i
    · cases held
  unfold signWith
  rw [held, good]
  dsimp only
  rw [hybOk_sign k m _ _ valid]
  rfl

theorem pkSign_identity {s : State} {k : HybKey} (held : identity s = some k) (good : s.vault.entropyOk = true) (cls slice : Nat)
    (msg : Bytes) :
    (pkSign s cls slice msg false).vault.result = cOk ∧
      (pkSign s cls slice msg false).out = s.out ++ [.signature cls slice (hybSign k msg (s.drawn 384) (s.drew.drawn 256))] ∧
      (pkSign s cls slice msg false).cipher.pkDone = s.cipher.pkDone + 1 ∧
      (pkSign s cls slice msg false).cipher.pkQueue = s.cipher.pkQueue := by
  unfold pkSign
  rw [signWith_identity held good]
  exact ⟨rfl, rfl, rfl, rfl⟩

theorem hybridSign_signs {s : State} {cls slice : Nat} {msg : Bytes} {k : HybKey} (takes : s.pkTakes cls slice (.sign msg false))
    (held : identity s = some k) (good : s.vault.entropyOk = true) :
    ∃ t, exec (.hybridSign cls slice msg false) s = .next t ∧ t.vault.result = cOk ∧
      t.out = s.out ++ [.signature cls slice (hybSign k msg (s.drawn 384) (s.drew.drawn 256))] ∧
      t.cipher.pkDone = s.cipher.pkDone + 1 := by
  obtain ⟨-, -, -, queue⟩ := pkSign_identity held good cls slice msg
  obtain ⟨e, does⟩ := pkSubmit_does takes queue
  obtain ⟨result, out, count, -⟩ := pkSign_identity (s := { s with err := e }) held good cls slice msg
  exact ⟨_, done_whenUp takes.1 does, result, out, count⟩

theorem pkVerify_ends (s : State) (key : HybKey) (msg : Bytes) (sig : HybSig) (valid : pointValid (hybPoint key) = true) :
    pkVerify s 2689 4723 key msg sig = pkEnd s (if hybOk key msg sig then cOk else cSignatureInvalid) := by
  rw [pkVerify, valid]
  rfl

theorem hybridVerify_answers {s : State} {cls slice : Nat} {key : HybKey} {msg : Bytes} {sig : HybSig}
    (takes : s.pkTakes cls slice (.verify 2689 4723 key msg sig)) (valid : pointValid (hybPoint key) = true) :
    ∃ t, exec (.hybridVerify cls slice 2689 4723 key msg sig) s = .next t ∧
      t.vault.result = (if hybOk key msg sig then cOk else cSignatureInvalid) ∧ t.cipher.pkDone = s.cipher.pkDone + 1 ∧
      t.out = s.out := by
  obtain ⟨e, does⟩ := pkSubmit_does takes (by rw [pkDo, pkVerify_ends _ _ _ _ valid]; rfl)
  rw [pkDo, pkVerify_ends _ _ _ _ valid] at does
  exact ⟨_, done_whenUp takes.1 does, rfl, rfl, rfl⟩

theorem hybridKeyAgreement_initiates {s : State} {cls slice : Nat} {dest : KeyPath}
    (takes : s.pkTakes cls slice (.agree .initiate dest)) (good : s.vault.entropyOk = true) :
    ∃ t, exec (.hybridKeyAgreement cls slice .initiate dest) s = .next t ∧ t.vault.result = cOk ∧
      t.cipher.agreed = (dest, s.drawn 384, s.drew.drawn 512) :: s.cipher.agreed.filter (fun a => a.1 != dest) ∧
      t.out = s.out ++ [.agreed (Config.ecPoint (s.drawn 384)) (Config.kemKey (s.drew.drawn 512))] := by
  have initiates : ∀ u : State, u.vault.entropyOk = true → pkInitiate u dest =
      { pkEnd (u.drew.drew.emit (.agreed (Config.ecPoint (u.drawn 384)) (Config.kemKey (u.drew.drawn 512)))) cOk with
        cipher.agreed := (dest, u.drawn 384, u.drew.drawn 512) :: u.cipher.agreed.filter fun a => a.1 != dest } :=
    fun u ok => by
      unfold pkInitiate
      rw [ok]
      rfl
  obtain ⟨e, does⟩ := pkSubmit_does takes (by
    show (pkInitiate s dest).cipher.pkQueue = _
    rw [initiates s good]
    rfl)
  have done_so : pkDo { s with err := e } cls slice (.agree .initiate dest) = pkInitiate { s with err := e } dest := rfl
  rw [done_so, initiates { s with err := e } good] at does
  exact ⟨_, done_whenUp takes.1 does, rfl, rfl, rfl⟩

/-- Settles O18: the cores and the engine by their guards, the refill by what it keeps. -/
theorem coresBucketsAndKeyEngineComplete : Obligations.CoresBucketsAndKeyEngineComplete :=
  ⟨fun _ _ _ up => done_whenUp up rfl,
    fun s unit pool core up fitted => ⟨coreParityMispredict_loses up fitted, fun good t h => by
      rw [coreParityMispredict_loses up fitted] at h
      cases h
      exact loseCore_pools (s := bumpUnit s unit 15 1) fitted good⟩,
    fun _ _ _ _ up next => coreKatTest_moves up next rfl, fun _ => bucketRefill_refills, fun _ up => done_whenUp up rfl,
    fun _ _ _ _ _ => hybridSign_signs, fun _ _ _ _ _ _ => hybridVerify_answers, fun _ _ _ _ => hybridKeyAgreement_initiates⟩

end Sys2Proof.Machine

/-!
Link sealing (chapter 7): each command's effect where its guards hold.
-/
namespace Sys2Proof.Machine

section
variable {s : State} {port peer : Nat} (up : s.up = true)
include up

/-! Frames sent and received (R206, R212 to R218). -/

theorem frameSeal_sends {r r' : SealReq} (legal : sealable r = true)
    (issuer : r' = if r.ftype = ftControl then { r with slice := whoSys } else r) :
    exec (.frameSeal r) s = .next (sendFrame (handoffWrite s r') r') := by
  subst issuer
  exact done_whenUp up (if_pos legal)

theorem frameEgress_sends {u : State} {seq : Nat} {o : Sent} {f : Flow} {b : BrassPort} (sealed : sentAt s peer seq = some o)
    (flow : flowAt s peer = some f) (queued : (portAt s port).egress.contains (peer, seq) = true) (opened : portOpen s port = true)
    (ready : egressReady s port (peer, seq) = true) (turn : o.issuer.slice = whoSys ∨ systemReady s port = false)
    (state : b = portAt s port)
    (taken : u = setFlow (fabricTake (setPort s port { b with egress := b.egress.filter (· != (peer, seq)) }) port o.issuer.slice o.wire)
      peer { f with
        outstanding := tset f.outstanding seq
          { o with firstAt := some (o.firstAt.getD s.ns), lastAt := s.ns, sends := o.sends + 1, port := port } }) :
    exec (.frameEgress port peer seq) s =
      .next (passPump (ackEvent ((if o.firstAt.isNone then countSend u o else u).emit (.frame port o.frame)) port) port) := by
  have system : (decide (o.issuer.slice ≠ whoSys) && systemReady s port) = false := by
    obtain own | none := turn
    · rw [own]; rfl
    · rw [none, Bool.and_false]
  subst state
  refine done_whenUp up ?_
  rw [sealed, flow]
  dsimp only
  rw [queued, opened, ready, if_neg (by decide), if_neg (ne_true_of_eq_false system), ← taken]

section
variable {f : Frame} {u : State} (opened : portOpen s port = true) (taken : u = s.intake (32 + port) ((40 + f.payload.length + 31) / 32))
include opened taken

theorem frameReceive_parity : exec (.frameReceive port f false) s = .next (parityError u port 1 231 f.srcNode 0 .wire) := by
  subst taken
  exact done_whenUp up (by rw [opened, if_neg (by decide), if_pos (by decide)])

theorem frameReceive_passes (other : ownNode s ≠ some f.routeDst) : exec (.frameReceive port f true) s = .next (takePass u port f) := by
  have other' : ownNode u ≠ some f.routeDst := by rw [taken]; exact other
  subst taken
  refine done_whenUp up ?_
  rw [opened, if_neg (by decide), if_neg (by decide)]
  exact if_pos other'

theorem frameReceive_takes (own : ownNode s = some f.routeDst) :
    exec (.frameReceive port f true) s = .next (remoteSettle (linkPump (receiveFrame u port f))) := by
  have own' : ownNode u = some f.routeDst := by rw [taken]; exact own
  subst taken
  refine done_whenUp up ?_
  rw [opened, if_neg (by decide), if_neg (by decide)]
  exact if_neg (not_not_intro own')

end

end

/-- A legal frame of a member, for this node, of an epoch in force is opened (R214). -/
theorem receiveFrame_opens {s : State} {port unit de fe : Nat} {f : Frame} {w : Flow} (legal : frameLegal f = true)
    (type : f.ftype ≠ ftJoin) (dst : f.routeDst = f.dstNode) (src : f.routeSrc = f.srcNode) (own : ownNode s = some f.dstNode)
    (flow : flowAt s f.srcNode = some w) (node : nodeUnit s f.srcNode = some unit) (member : memberNode s f.srcNode = true)
    (epochs : frameEpochs s w f.flags = some (de, fe)) : receiveFrame s port f = openFrame s port f.srcNode unit f de fe := by
  unfold receiveFrame
  dsimp only
  rw [legal, if_neg (by decide), if_neg (by simp [dst, src, own]), if_neg type, flow, node]
  dsimp only
  rw [member, if_neg (by decide), epochs]

/-- A data frame whose tag verifies and whose number is ahead of the window is delivered (R214 to R216). -/
theorem openFrame_takes {s s1 : State} {port node unit de fe : Nat} {f : Frame} {w : Flow} {k : Key} {pt : Bytes}
    (cached : keyCached s port whoSys unit de fe = true) (key : engKey s (.flow unit de fe) = some k) (type : f.ftype ≠ ftAck)
    (opened : gcmOpen k (frameIv unit unitId false f.seq) (frameHead f) f.payload f.tag = some pt)
    (flow : activeFlow (touchKey s port whoSys unit de fe) node = some (s1, w)) (ahead : seqKind w f.seq = .newAhead) :
    openFrame s port node unit f de fe = takeData s1 port node unit f de fe pt := by
  unfold openFrame
  rw [cached, if_neg (by decide), key]
  dsimp only
  rw [beq_eq_false_iff_ne.mpr type, if_neg Bool.false_ne_true, flow]
  dsimp only
  rw [opened, ahead]
  rfl

section
variable {s : State} {port peer : Nat} (up : s.up = true)
include up

theorem frameReceive_delivers {u u1 : State} {unit de fe : Nat} {f : Frame} {w0 w : Flow} {k : Key} {pt : Bytes}
    (free : portOpen s port = true) (legal : frameLegal f = true) (join : f.ftype ≠ ftJoin) (ack : f.ftype ≠ ftAck)
    (dst : f.routeDst = f.dstNode) (src : f.routeSrc = f.srcNode) (own : ownNode s = some f.dstNode)
    (flow : flowAt s f.srcNode = some w0) (node : nodeUnit s f.srcNode = some unit) (member : memberNode s f.srcNode = true)
    (epochs : frameEpochs s w0 f.flags = some (de, fe)) (cached : keyCached s port whoSys unit de fe = true)
    (key : engKey s (.flow unit de fe) = some k)
    (opened : gcmOpen k (frameIv unit unitId false f.seq) (frameHead f) f.payload f.tag = some pt)
    (taken : u = s.intake (32 + port) ((40 + f.payload.length + 31) / 32))
    (active : activeFlow (touchKey u port whoSys unit de fe) f.srcNode = some (u1, w)) (ahead : seqKind w f.seq = .newAhead) :
    exec (.frameReceive port f true) s = .next (remoteSettle (linkPump (takeData u1 port f.srcNode unit f de fe pt))) := by
  have same : ∀ n, receiveFrame (s.intake (32 + port) n) port f = openFrame (s.intake (32 + port) n) port f.srcNode unit f de fe :=
    fun _ => receiveFrame_opens legal join dst src own flow node member epochs
  rw [frameReceive_takes up free taken (dst ▸ own), taken, same, ← taken]
  have cached' : keyCached u port whoSys unit de fe = true := by rw [taken]; exact cached
  have key' : engKey u (.flow unit de fe) = some k := by rw [taken]; exact key
  rw [openFrame_takes cached' key' ack opened active ahead]

/-! Acknowledgements and retransmission (R219 to R222). -/

theorem ackSend_sends {v x : State} {u own : Nat} {f : Flow} {k : Key} {pt : Bytes} (switched : v = switchFlow s peer)
    (route : port = nodePort v peer) (payload : pt = ackPayload (f.pendingAcks.take 16)) (flow : flowAt v peer = some f)
    (node : nodeUnit v peer = some u) (self : ownNode v = some own) (some_ack : f.pendingAcks ≠ [])
    (due : 16 ≤ f.pendingAcks.length ∨ f.ackAt + 1000 ≤ v.ns) (free : f.held = false) (keyed : f.awaitKey = false)
    (opened : portOpen v port = true) (room : wireOf pt.length ≤ fabricLevel v port whoSys)
    (cached : keyCached v port whoSys u f.domainEpoch f.flowEpoch = true) (key : engKey v (sendKey u f) = some k)
    (allowed : keyAllows v (sendKey u f) 1 pt.length = true)
    (counted : x = countKey (fabricTake (touchKey v port whoSys u f.domainEpoch f.flowEpoch) port whoSys (wireOf pt.length)) peer
      ({ f with pendingAcks := f.pendingAcks.drop 16, ackAt := v.ns }.ackFrom (nextSeq f.nextAck)) pt.length (sendKey u f)) :
    exec (.ackSend peer) s = .next ((bumpUnit (bumpUnit x port 0 1) port 2 pt.length).emit
      (.frame port (makeFrame own peer u f k ftAck true f.nextAck pt))) := by
  have taken : f.pendingAcks.take 16 ≠ [] := by simpa using some_ack
  have ready : (decide (f.pendingAcks.take 16 = []) ||
      !(decide (16 ≤ f.pendingAcks.length) || decide (f.ackAt + 1000 ≤ v.ns)) || f.held || f.awaitKey || !portOpen v port ||
      decide (fabricLevel v port whoSys < wireOf pt.length)) = false := by
    rw [decide_eq_false taken, free, keyed, opened, decide_eq_false (Nat.not_lt.mpr room)]
    simpa using fun few => due.resolve_left (Nat.not_le.mpr few)
  refine done_whenUp up ?_
  rw [← switched]
  dsimp only
  rw [flow, node, self]
  dsimp only
  rw [← route, ← payload, ready, if_neg Bool.false_ne_true, cached, if_neg (by decide), key]
  dsimp only
  rw [allowed, if_neg (by decide), ← counted]

theorem retransmitTimer_repeats {u : State} {seq first : Nat} {o : Sent} {f : Flow} (sealed : sentAt s peer seq = some o)
    (flow : flowAt s peer = some f) (sent : o.firstAt = some first) (late : o.lastAt + o.waitUs * 1000 ≤ s.ns)
    (within : retxOver s peer seq first = false) (route : port = nodePort s peer) (opened : portOpen s port = true)
    (room : o.wire ≤ fabricLevel s port whoTransit)
    (taken : u = setFlow (fabricTake s port whoTransit o.wire) peer { f with
      outstanding := tset f.outstanding seq
        { o with lastAt := s.ns, sends := o.sends + 1, waitUs := min (2 * o.waitUs) (32 * setting s 0x5000 2) } }) :
    exec (.retransmitTimer peer seq) s =
      .next ((bumpUnit { u with link.retx := u.link.retx + 1 } port 15 1).emit (.frame port o.frame)) := by
  refine done_whenUp up ?_
  rw [sealed, flow]
  dsimp only
  rw [sent]
  dsimp only
  rw [← route, decide_eq_false (Nat.not_lt.mpr late), within, opened, decide_eq_true room, if_neg (by decide), Bool.not_true,
    Bool.false_and, if_neg Bool.false_ne_true, if_pos rfl, ← sent, ← taken]

/-! Keys of the flows (R223 to R225). -/

theorem keyMissFill_fills {u v x : State} {de fe unit : Nat} {named : MissEntry → Bool} {mine : List MissEntry}
    (node : nodeUnit s peer = some unit) (names : named = fun m => m.peer == peer && m.domEpoch == de && m.flowEpoch == fe)
    (awaiting : mine = (portAt s port).misses.filter named) (asked : u = needKey s (.flow unit de fe)) (some_miss : mine ≠ [])
    (held : (findKey u (.flow unit de fe)).isSome = true)
    (cleared : v = setPort u port { portAt u port with misses := (portAt u port).misses.filter fun m => !named m })
    (next : x = match flowAt v peer with
      | some f => if de = f.domainEpoch ∧ fe = f.recvEpoch + 1 then setFlow v peer { f with nextKey := true } else v
      | none => v) :
    exec (.keyMissFill port peer de fe) s = .next (remoteSettle (linkPump ((mine.flatMap (·.inbound)).foldl
      (fun s f => receiveFrame s port f) (mine.foldl (fun s m => loadKey s port m.who unit de fe) x)))) := by
  subst next cleared asked awaiting names
  refine done_whenUp up ?_
  rw [node]
  dsimp only
  rw [if_neg some_miss, if_neg (by simpa [Option.isSome_iff_ne_none] using held)]
  simp only [Bool.and_eq_true, decide_eq_true_eq] <;> rfl

theorem flowKeyRetire_retires {t : Nat} {f : Flow} (flow : flowAt s peer = some f) (rolled : f.rolloverAt = some t)
    (late : t + setting s 0x5000 1 * 1000000 ≤ s.ns) : exec (.flowKeyRetire peer) s = .next (retireKey s peer) := by
  refine done_whenUp up ?_
  rw [flow, Option.bind_some, rolled]
  exact if_pos late

/-! Fences (R227, R229). -/

theorem fence_enters {ctx queue report slot : Nat} {l : LiveSeal} (live : tget s.gate.seals slot = some l) (cls : l.cls = kFence)
    (runs : l.dispatched = true) (own : l.ctx = ctx) (of_queue : l.queue = queue)
    (first : s.link.fences.any (fun f => f.slot == slot) = false)
    (new : s.link.fenceWaits.any (fun w => w.2.2.2 == slot) = false) :
    exec (.fence ctx queue report slot) s = .next (if fencesOf s ctx queue < 4 then
      fenceSettle (issueFence s ctx l.gen queue report slot)
      else { s with link.fenceWaits := s.link.fenceWaits ++ [(ctx, queue, report, slot)] }) := by
  have piece : (tget s.gate.seals slot).filter (fun l => l.cls == kFence && l.dispatched && l.ctx == ctx && l.queue == queue) =
      some l := by
    rw [live, Option.filter_some, if_pos (by simp [cls, runs, own, of_queue])]
  refine done_whenUp up ?_
  rw [piece]
  dsimp only
  rw [first, new, if_neg (by decide)]

theorem fenceTimeout_completes {ctx queue : Nat} {f given : FenceRec}
    (found : s.link.fences.find? (fun f => f.ctx == ctx && f.queue == queue) = some f)
    (late : f.startedAt + f.timeoutMs * 1000000 ≤ s.ns)
    (loses : given = loseNodes s f (nodesOf (f.waits ++ (s.link.waiting.filter fun w => f.unsent.contains w.1).map
      fun w => (w.2.node, 0)))) :
    exec (.fenceTimeout ctx queue) s = .next (fenceSettle (linkPump (fenceSettle (stepsGiveUp
      { s with link.fences := s.link.fences.map fun g => if g.slot = f.slot then given else g } f.waits)))) := by
  subst loses
  refine done_whenUp up ?_
  rw [found]
  exact if_neg (Nat.not_lt.mpr late)

end

/-- Settles O24: each command by its guards. -/
theorem linkCommandsComplete : Obligations.LinkCommandsComplete :=
  ⟨fun _ _ up legal => frameSeal_sends up legal rfl,
    fun _ _ _ _ _ _ up sealed flow queued opened ready turn => frameEgress_sends up sealed flow queued opened ready turn rfl rfl,
    fun _ _ _ up opened => ⟨frameReceive_parity up opened rfl, frameReceive_passes up opened rfl⟩,
    fun _ _ _ _ _ _ _ _ _ _ _ up free legal join ack dst src own flow node member epochs cached key opened =>
      frameReceive_delivers up free legal join ack dst src own flow node member epochs cached key opened rfl,
    fun _ _ _ _ _ _ up flow node self some_ack due free keyed opened room cached key allowed =>
      ackSend_sends up rfl rfl rfl flow node self some_ack due free keyed opened room cached key allowed rfl,
    fun _ _ _ up => done_whenUp up rfl,
    fun _ _ _ _ _ _ up sealed flow sent late within opened room =>
      retransmitTimer_repeats up sealed flow sent late within rfl opened room rfl,
    fun _ _ _ _ _ _ up node some_miss held => keyMissFill_fills up node rfl rfl rfl some_miss held rfl rfl,
    fun _ _ up => done_whenUp up rfl, fun _ _ _ _ up => flowKeyRetire_retires up,
    fun _ _ _ _ _ _ up => fence_enters up, fun _ _ _ _ up found late => fenceTimeout_completes up found late rfl,
    fun _ _ _ _ up => done_whenUp up rfl, fun _ _ _ iod => done_if iod rfl, fun _ _ _ _ iod => done_if iod rfl⟩

end Sys2Proof.Machine

/-!
The alloys (chapter 8): each command's effect where its guards hold.
-/
namespace Sys2Proof.Machine

section
variable {s : State} {port k : Nat} (up : s.up = true)
include up

theorem stepStage_stages {u : State} {slot : Nat} {l : LiveSeal} {b : Bytes} (live : tget s.gate.seals slot = some l)
    (runs : l.dispatched = true) (step : l.cls = kStep) (own : bits (dBody l.raw 4 1) 4 0 = port)
    (first : (stepsWhere s fun t => t.slot == slot && t.state != 3) = []) (body : b = l.raw.drop 32)
    (keyed : u = if stRound b then deliverTo (needKey s (.ctxaux l.ctx l.gen)) (.ctxaux l.ctx l.gen) port else s)
    (legal : stepInvalid b = false) (key : stRound b = true → (engKey u (.ctxaux l.ctx l.gen)).isSome = true)
    (members : ∀ n ∈ stepIns b ++ stepOuts b, memberNode u n = true) (free : freeStep u port l.slice = some k) :
    exec (.stepStage port slot) s = .next (prefetch (bumpUnit (setStep u port k
      { slot := slot, ctx := l.ctx, gen := l.gen, slice := l.slice, queue := l.queue, body := b,
        localA := (l.trs.getD 0 0) % 2 ^ 48, destA := (l.trs.getD 1 0) % 2 ^ 48, state := if stStart b then 1 else 2,
        code := cOk, timeoutMs := setting u 0x5010 1, taken := [], acc := [], input := [], fetched := [], owed := [],
        outQueued := [], outData := [], emitted := 0, outSent := [], outDone := 0, aborts := [], progressAt := u.ns, failAt := 0 })
      port 0 1) port k) := by
  have piece : (tget s.gate.seals slot).filter (fun l => l.dispatched && l.cls == kStep &&
      bits (dBody l.raw 4 1) 4 0 == port && (stepsWhere s fun t => t.slot == slot && t.state != 3) == []) = some l := by
    rw [live, Option.filter_some, runs, step, own, first, if_pos (by simp)]
  have held : (stepInvalid b || (stRound b && (engKey u (.ctxaux l.ctx l.gen)).isNone)) = false := by
    rw [legal, Bool.false_or, Bool.and_eq_false_imp]
    intro rounds
    simpa [Option.isSome_iff_ne_none] using key rounds
  have all : ((stepIns b ++ stepOuts b).any fun n => !memberNode u n) = false := by
    simpa [or_imp, forall_and] using members
  refine done_whenUp up ?_
  rw [piece]
  dsimp only
  rw [← body, ← keyed, held, if_neg Bool.false_ne_true, all, if_neg Bool.false_ne_true, free]

theorem chunkEmit_sends {u v : State} {c i seq : Nat} {t : StepRec} {rest : List (Nat × Nat)} {payload : Bytes}
    (found : stepAt s port k = some t) (runs : t.state = 2) (ready : t.outQueued = (c, i) :: rest)
    (turn : stepTurn (alloyAt s port) t.slice k = true) (chunk : payload = tgetD t.outData c [])
    (room : wireOf payload.length ≤ fabricLevel s port t.slice)
    (sealed : sealNow s s.link.nextReq (chunkFrame t port ((stepOuts t.body).getD i 0) payload) = (u, .sealed seq))
    (sent : v = setStep u port k { t with
      outQueued := rest, outSent := t.outSent ++ [((stepOuts t.body).getD i 0, seq)]
      outData := if rest.any fun q => q.1 == c then t.outData else tdel t.outData c }) :
    exec (.chunkEmit port k) s = .next (stepOn (setAlloy v port { alloyAt v port with
      served := tset (alloyAt s port).served t.slice k }) port k) := by
  have isReady : stepReady t = true := by simp [stepReady, runs, ready]
  have nothing_next : sendNext s port k t = s := by
    rw [sendNext, ready, if_neg (by simp)]
  have emits : emitFirst s port k = setAlloy v port { alloyAt v port with served := tset (alloyAt s port).served t.slice k } := by
    unfold emitFirst
    rw [found]
    dsimp only
    rw [if_neg (by rw [runs]; decide), ready]
    dsimp only
    rw [← chunk, if_neg (Nat.not_lt.mpr room), sealed]
    dsimp only
    rw [← sent]
  refine done_whenUp up ?_
  rw [found]
  dsimp only
  rw [isReady, turn, if_pos (by decide), if_pos runs, nothing_next, emits]

section
variable {t : StepRec} (found : stepAt s port k = some t)
include found

theorem stepTimeout_fails (runs : t.state ≠ 3) (acked : stepLate s t = []) (late : t.progressAt + t.timeoutMs * 1000000 ≤ s.ns)
    (awaits : stepAwaits t ≠ 0) :
    exec (.stepTimeout port k) s =
      .next (failStep (stepNote s port t cStepIncomplete) port k cStepIncomplete (stepAwaits t) 0) := by
  have due : (decide (t.progressAt + t.timeoutMs * 1000000 ≤ s.ns) && decide (stepAwaits t ≠ 0)) = true := by
    rw [decide_eq_true late, decide_eq_true awaits]
    rfl
  refine done_whenUp up ?_
  rw [found]
  dsimp only
  rw [if_neg runs, acked, if_neg (not_not_intro rfl)]
  exact if_pos due

theorem stepSlotRelease_frees (failed : t.state = 3) (late : t.failAt + t.timeoutMs * 1000000 ≤ s.ns) :
    exec (.stepSlotRelease port k) s =
      .next (setAlloy s port { alloyAt s port with steps := tdel (alloyAt s port).steps k }) := by
  have due : (decide (t.state = 3) && decide (t.failAt + t.timeoutMs * 1000000 ≤ s.ns)) = true := by
    rw [decide_eq_true failed, decide_eq_true late]
    rfl
  refine done_whenUp up ?_
  rw [found]
  exact if_pos due

end

theorem alloyLaneTest_passes {lane : Nat} : exec (.alloyLaneTest port lane true) s = .next s :=
  done_whenUp up (if_pos rfl)

theorem alloyLaneTest_fails {u : State} {lane : Nat} {a : Alloy} (good : (alloyAt s port).lanesOut.contains lane = false)
    (out : a = { alloyAt s port with
      lanesOut := (alloyAt s port).lanesOut ++ [lane], lanesGood := (alloyAt s port).lanesGood - 1 })
    (failed : u = failSteps (notice (setAlloy s port a) 1 257 port lane) (fun p t => p == port && t.state == 2) cExecutorReset) :
    exec (.alloyLaneTest port lane false) s = .next (if a.lanesGood < 196 then raiseS3 u port 48 lane else u) := by
  refine done_whenUp up ?_
  subst failed out
  dsimp only
  rw [good]
  rfl

end

/-- Settles O25: each command by its guards. -/
theorem alloyCommandsComplete : Obligations.AlloyCommandsComplete :=
  ⟨fun _ _ _ _ _ up live runs step own first legal key members free =>
      stepStage_stages up live runs step own first rfl rfl legal key members free,
    fun _ _ _ _ _ _ _ _ _ up found runs ready turn room sealed =>
      chunkEmit_sends up found runs ready turn rfl room sealed rfl,
    fun _ _ _ _ up => stepTimeout_fails up, fun _ _ _ _ up => stepSlotRelease_frees up,
    fun _ _ _ up good => ⟨alloyLaneTest_passes up, alloyLaneTest_fails up good rfl rfl⟩⟩

end Sys2Proof.Machine

/-!
The pewter engines and the tier-A checkers (chapter 9): each command's effect where its guards hold.
-/
namespace Sys2Proof.Machine

/-! Jobs and the pool's answers (R276 to R281, R300). -/

/-- A request of a region that is LIVE or ROTATING enters its port's jobs, and the port goes on. -/
theorem pewSubmit_enters {s : State} {r : PewReq} {op : PewOp} {src : PewSrc} {g : Region} {p : Pewter}
    (known : tget s.mem.regions r.region = some g) (serves : g.state = 1 ∨ g.state = 2) (port : p = pewAt s (r.region % 4)) :
    pewSubmit s r op src = pewPump (setPew s (r.region % 4) { p with
      jobs := tset p.jobs p.nextJob { r := r, op := op, src := src, slot := none }, nextJob := p.nextJob + 1 }) (r.region % 4) := by
  have taken : (g.state == 1 || g.state == 2) = true := by simpa using serves
  subst port
  unfold pewSubmit
  rw [known, Option.any_some, taken, if_neg (by decide)]

section
variable {s u : State} {r : PewReq} {op : PewOp} {g : Region} (up : s.up = true) (known : tget s.mem.regions r.region = some g)
  (serves : g.state = 1 ∨ g.state = 2)
  (entered : u = remoteSettle (pewPump (setPew s (r.region % 4) { pewAt s (r.region % 4) with
      jobs := tset (pewAt s (r.region % 4)).jobs (pewAt s (r.region % 4)).nextJob { r := r, op := op, src := .engine, slot := none }
      nextJob := (pewAt s (r.region % 4)).nextJob + 1 }) (r.region % 4)))
include up known serves entered

theorem pewterRead_enters (read : op = .read) : exec (.pewterRead r) s = .next u := by
  subst entered read
  exact done_whenUp up (congrArg remoteSettle (pewSubmit_enters known serves rfl))

theorem pewterFullWrite_enters (data : BitVec 2048) (full : op = .full data) : exec (.pewterFullWrite r data) s = .next u := by
  subst entered full
  exact done_whenUp up (congrArg remoteSettle (pewSubmit_enters known serves rfl))

theorem pewterPartialWrite_enters (mask : BitVec 256) (data : BitVec 2048) (part : op = .part mask data) :
    exec (.pewterPartialWrite r mask data) s = .next u := by
  subst entered part
  exact done_whenUp up (congrArg remoteSettle (pewSubmit_enters known serves rfl))

end

section
variable {s : State} {port : Nat} {r : PoolReq} (up : s.up = true)
include up

theorem poolReadCompletion_takes {u : State} {tag status : Nat} {data : Bytes} {p : Pewter}
    (read : (pewAt s port).reads.find? (fun r => r.tag == tag) = some r) (current : r.stale = false) (reads : p = pewAt s port)
    (left : u = setPew (s.intake (64 + port) ((data.length + 31) / 32)) port { p with reads := p.reads.filter fun x => x.tag != tag }) :
    exec (.poolReadCompletion port tag status data true) s = .next (remoteSettle (pewPump (poolTake
      (if status = 3 then notice u 1 276 (uPewter port) r.offset else u) port r (decide (2 ≤ status)) (fit r.bytes data)) port)) := by
  refine done_whenUp up ?_
  rw [read]
  dsimp only
  rw [← reads, ← left, current, if_neg (by decide), Bool.not_true, Bool.false_and, Bool.false_and, if_neg Bool.false_ne_true,
    Bool.false_or, if_neg Bool.false_ne_true]

theorem poolTimeout_resets (waiting : r ∈ (pewAt s port).reads) (late : r.sent + setting s 0x5100 5 * 1000 ≤ s.ns) :
    exec (.poolTimeout port) s = .next (remoteSettle (pewPump (assertVrst
      (notice (crossReset s port) 1 278 (uPewter port) 0) [64 + port]) port)) := by
  refine done_whenUp up ?_
  dsimp only
  rw [List.any_eq_true.mpr ⟨r, waiting, decide_eq_true late⟩, Bool.true_or, if_pos rfl]

end

/-! Rotation (R289, R291). -/

theorem regionRotate_queues {s : State} {region : Nat} {g : Region} (up : s.up = true) (known : tget s.mem.regions region = some g)
    (live : g.state = 1) (room : (pewAt s (region % 4)).rotating.length < 256) :
    exec (.regionRotate region) s = .next (answerWrite (queueRotation s region g.ownerKind) 0x5102 1 cOk) := by
  refine done_whenUp up ?_
  rw [known, Option.filter_some, live, if_pos (by decide)]
  dsimp only
  rw [if_neg (by simpa using fun _ => room)]

theorem rotateWake_idle {s : State} {q : Nat} (idle : (pewAt s q).rotQueue = []) : rotateWake s q = s := by
  have none_waits : (tgetD s.mem.ports q Pewter.reset).rotQueue = [] := idle
  rw [rotateWake, none_waits]
  rfl

theorem rotationSweep_sweeps {s : State} {region : Nat} {g : Region} (up : s.up = true) (idle : (pewAt s (region % 4)).rotQueue = [])
    (known : tget s.mem.regions region = some g) (rotates : g.state = 2) (left : g.sweep < 262144)
    (free : (pewAt s (region % 4)).jobs.any (fun j => j.2.r.region == region && j.2.op == .sweep) = false)
    (whole : (pewAt s (region % 4)).assayed.contains region = false) :
    exec (.rotationSweep region) s = .next (remoteSettle (pewPump (pewOwn s region g.sweep .sweep) (region % 4))) := by
  refine done_whenUp up ?_
  rw [rotateWake_idle idle]
  dsimp only
  rw [known]
  dsimp only
  rw [free, whole, decide_eq_false (Nat.not_le.mpr left), if_neg (by simp), if_neg (by simp [rotates])]

/-! The checkers of tier A and its scrubs (R295 to R297). -/

section
variable {s u : State} {page : Nat} {x : Scrub} (up : s.up = true)
include up

theorem stkRequest_checks {stack ctx gen : Nat} {isWrite ok : Bool} (free : s.cross.nrst.contains (96 + stack) = false)
    (checked : ok = checkerGrants s stack page isWrite ctx gen)
    (answered : u = (s.intake (96 + stack) 1).emit (.verdict stack ok)) :
    exec (.stkRequest stack page isWrite ctx gen) s = .next (if ok then bumpUnit u (uStack stack) 0 1
      else denyTierA (stackOutcome u stack ctx gen page cFaultPermission) stack page ctx) := by
  refine done_whenUp up ?_
  rw [free, if_neg (by decide)]
  dsimp only
  rw [← checked, ← answered]

theorem scrubDone_frees (waits : tget s.gate.scrubs page = some x) (open_page : x.withheld = false) (whole : 16 ≤ x.acks.length)
    (zeroed : u = tierAScrub s page) :
    exec (.scrubDone page) s =
      .next (setPage (scrubLevels { u with gate.scrubs := tdel u.gate.scrubs page }) page ⟨0, 0, 0, 0, 0⟩) := by
  subst zeroed
  refine done_whenUp up ?_
  rw [waits]
  dsimp only
  rw [open_page, decide_eq_false (Nat.not_lt.mpr whole)]
  rfl

theorem scrubWriteFail_repeats {stack : Nat} (waits : tget s.gate.scrubs page = some x) (open_page : x.withheld = false)
    (first : x.failed.contains stack = false) :
    exec (.scrubWriteFail page stack) s = .next
      { (s.emit (.scrub stack page)) with gate.scrubs := tset s.gate.scrubs page { x with failed := insertN x.failed stack } } := by
  refine done_whenUp up ?_
  rw [waits]
  dsimp only
  rw [open_page, first]
  rfl

theorem scrubWriteFail_withholds {stack : Nat} (waits : tget s.gate.scrubs page = some x) (open_page : x.withheld = false)
    (second : x.failed.contains stack = true)
    (withheld : u = scrubLevels { s with gate.scrubs := tset s.gate.scrubs page { x with withheld := true } }) :
    exec (.scrubWriteFail page stack) s = .next (capacity (notice u 1 297 (uStack stack) page) 5 (uStack stack)
      ((u.gate.scrubs.filter fun p => p.2.withheld).length)) := by
  refine done_whenUp up ?_
  rw [waits]
  dsimp only
  rw [open_page, second, if_neg (by decide), if_neg (by decide), ← withheld]

end

/-- Settles O26: each command by its guards. -/
theorem tierBAndTierACommandsComplete : Obligations.TierBAndTierACommandsComplete :=
  ⟨fun _ _ _ _ up known serves => ⟨pewterRead_enters up known serves rfl, pewterFullWrite_enters up known serves rfl,
      pewterPartialWrite_enters up known serves rfl⟩,
    fun _ _ _ _ _ _ up read current => poolReadCompletion_takes up read current rfl rfl, fun _ _ _ up => done_whenUp up rfl,
    fun _ _ _ up => poolTimeout_resets up, fun _ _ _ => regionRotate_queues, fun _ _ _ => rotationSweep_sweeps,
    fun _ _ _ _ _ _ up free => stkRequest_checks up free rfl rfl,
    fun _ _ _ up waits open_page whole => scrubDone_frees up waits open_page whole rfl,
    fun _ _ _ _ up waits open_page => ⟨scrubWriteFail_repeats up waits open_page,
      fun second => scrubWriteFail_withholds up waits open_page second rfl⟩⟩

end Sys2Proof.Machine

/-!
Host sealing and the descriptor gate (chapters 10 and 11): each command's effect where its guards hold. What is taken from
outside changes the crossings alone, so what a command read before it reads again after it.
-/
namespace Sys2Proof.Machine

section
variable {s t : State} {f : State → State}

theorem done_fromHost {line : Nat} (up : s.up = true) (free : s.crossOpen 128 = true) (h : f (s.heldIn line) = t) :
    done (fromHost s line f) = .next t := by
  refine done_whenUp up ?_
  rw [if_pos free, h]

theorem hostStart_starts {slot : Nat} {l : LiveSeal} (current : ctxCurrent s l.ctx l.gen = true) (session : s.host.session = 2)
    (h : f s = t) : hostStart s slot l f = t := by
  rw [hostStart, current, if_neg (by decide), if_neg (by simp [session]), h]

end

/-! Records of the host (R310 to R319). -/

theorem hostInbound_starts {s u : State} {slot : Nat} {l : LiveSeal} (up : s.up = true) (piece : hostPiece s slot false = some l)
    (first : hostStarted s slot = false) (free : s.crossOpen 128 = true) (current : ctxCurrent s l.ctx l.gen = true)
    (session : s.host.session = 2) (buffer : verifyUsed s + hdLen l.raw ≤ 4194304)
    (room : hostRoom s l.slice 0 (48 + hdLen l.raw) = true) (charged : u = hostCharge s l.slice 0 (48 + hdLen l.raw)) :
    exec (.hostInbound slot) s = .next (({ u with host.work := u.host.work ++ [⟨slot, hdLen l.raw⟩] } : State).emit
      (.hostRead (hdPlaces s l))) := by
  subst charged
  refine done_whenUp up ?_
  rw [piece]
  dsimp only
  rw [first, free, if_neg (by decide)]
  refine hostStart_starts current session ?_
  rw [room, if_neg (by simpa using buffer)]

theorem hostRecordArrive_takes {s : State} {slot g : Nat} {l : LiveSeal} {r : BounceRec} {k : Key} {data : Bytes} (up : s.up = true)
    (piece : hostPiece s slot false = some l) (begun : hostStarted s slot = true) (free : s.crossOpen 128 = true)
    (current : ctxCurrent s l.ctx l.gen = true) (passes : recordRefuses s l r = none)
    (gen : inboundGen s l.slice r.keyGen = some g) (key : engKey s (.bounce l.slice 0 g) = some k)
    (allowed : keyAllows s (.bounce l.slice 0 g) 1 0 = true)
    (opened : gcmOpen k (recordIv r.ctxId r.ctxGen r.seq) (recordAad r) r.payload r.tag = some data) :
    exec (.hostRecordArrive slot r true) s =
      .next (takeRecord (s.intake 128 ((48 + r.payload.length + 127) / 128)) slot l r (.bounce l.slice 0 g) data) := by
  generalize words : (48 + r.payload.length + 127) / 128 = n
  have current' : ctxCurrent (s.intake 128 n) l.ctx l.gen = true := current
  have passes' : recordRefuses (s.intake 128 n) l r = none := passes
  have gen' : inboundGen (s.intake 128 n) l.slice r.keyGen = some g := gen
  have key' : engKey (s.intake 128 n) (.bounce l.slice 0 g) = some k := key
  have allowed' : keyAllows (s.intake 128 n) (.bounce l.slice 0 g) 1 0 = true := allowed
  refine done_whenUp up ?_
  rw [piece]
  dsimp only
  rw [begun, free, words, if_neg (by decide), current', if_neg (by decide), if_neg (by decide), passes', gen']
  dsimp only
  rw [key']
  dsimp only
  rw [allowed', if_neg (by decide), opened]

theorem hostOutbound_sends {s : State} {slot : Nat} {l : LiveSeal} {k : Key} (up : s.up = true)
    (piece : hostPiece s slot true = some l) (current : ctxCurrent s l.ctx l.gen = true) (session : s.host.session = 2)
    (free : s.crossOpen 128 = true) (room : hostRoom s l.slice 1 (48 + hdLen l.raw) = true)
    (readable : hostDenied s l (hdTierA l) (hdLen l.raw) false = none) (key : engKey s (bounceNow s l.slice 1) = some k)
    (allowed : keyAllows s (bounceNow s l.slice 1) 1 0 = true) :
    exec (.hostOutbound slot true) s = .next (sendRecord s slot l k true) := by
  refine done_whenUp up ?_
  rw [piece]
  refine hostStart_starts current session ?_
  rw [free, room, if_neg (by decide), readable]
  dsimp only
  rw [key]
  exact if_pos allowed

theorem bounceState_answers {s u : State} {h : MbxHdr} (takes : s.takesMailbox h 0x0101 false []) (taken : u = mbxTaken s h)
    (known : ctxExists u h.ctxId = true) (own : (ctxAt u h.ctxId).slice = hslice h) :
    exec (.bounceState h) s = .next (mbxAnswer (bounceState u h.ctxId).1 h 0x0101 cOk (bounceState u h.ctxId).2) := by
  subst taken
  exact done_mailbox takes (by rw [known, own, beq_self_eq_true]; rfl)

theorem msixUnmask_sends {s u : State} {vector : Nat} (up : s.up = true)
    (unmasked : u = { s with host.masked := eraseN s.host.masked vector }) (waits : s.host.msixPending.contains vector = true) :
    exec (.msixUnmask ⟨vector, false⟩) s =
      .next (msix { u with host.msixPending := eraseN u.host.msixPending vector } vector) := by
  subst unmasked
  exact done_whenUp up (by rw [if_neg Bool.false_ne_true]; exact if_pos waits)

theorem msixUnmask_quiet {s u : State} {vector : Nat} (up : s.up = true)
    (unmasked : u = { s with host.masked := eraseN s.host.masked vector }) (none : s.host.msixPending.contains vector = false) :
    exec (.msixUnmask ⟨vector, false⟩) s = .next u := by
  subst unmasked
  exact done_whenUp up (by rw [if_neg Bool.false_ne_true]; exact if_neg (ne_true_of_eq_false none))

/-- Settles O27: each command by its guards. -/
theorem hostSealingCommandsComplete : Obligations.HostSealingCommandsComplete :=
  ⟨fun _ _ _ up piece first free current session buffer room =>
      hostInbound_starts up piece first free current session buffer room rfl,
    fun _ _ _ _ _ _ _ => hostRecordArrive_takes, fun _ _ _ _ => hostOutbound_sends,
    fun _ _ takes => bounceState_answers takes rfl, fun _ _ up => ⟨msixUnmask_sends up rfl, msixUnmask_quiet up rfl⟩⟩

/-! Submission and translation (R328, R330, R336 to R344). -/

theorem submit_enters {s u v : State} {cp ctx queue : Nat} {raw : Bytes} {q : Queue} (up : s.up = true)
    (free : s.crossOpen (160 + cp) = true) (bound : tget s.gate.queues (qid ctx queue) = some q) (runs : q.stopped = false)
    (thawed : (ctxAt s ctx).mode ≠ .frozen) (taken : u = s.intake (160 + cp) 1) (advanced : v = { u with
      gate.queues := tset u.gate.queues (qid ctx queue) { q with head := (q.head + 1) % max 1 q.ringSize } }) :
    exec (.submit cp ctx queue raw true) s = .next (queueOn { v with
      gate.nextDid := v.gate.nextDid + 1
      gate.descs := tset v.gate.descs v.gate.nextDid (newDesc v cp ctx queue q raw) } ctx queue) := by
  have bound' : tget (s.intake (160 + cp) 1).gate.queues (qid ctx queue) = some q := bound
  have thawed' : ((ctxAt (s.intake (160 + cp) 1) ctx).mode == .frozen) = false := beq_eq_false_iff_ne.mpr thawed
  subst advanced taken
  refine done_whenUp up ?_
  rw [free, if_neg (by decide)]
  dsimp only
  rw [bound']
  dsimp only
  rw [runs, thawed', if_neg (by decide), if_pos rfl]

theorem pendingPieceSeal_goesOn {s : State} {ctx queue : Nat} (up : s.up = true) :
    exec (.pendingPieceSeal ctx queue) s = .next (match waitingDesc s ctx queue Hold.isRoom with
      | some (did, d) => goOn s did d
      | none => queueOn s ctx queue) :=
  done_whenUp up rfl

section
variable {s : State} {ctx queue did : Nat} {d : Desc} (up : s.up = true)
include up

theorem translationWalk_fills (waits : waitingDesc s ctx queue Hold.isWalk = some (did, d)) :
    exec (.translationWalk ctx queue) s = .next (resumeDesc (walkFill s d) did true) :=
  done_whenUp up (by rw [waits])

theorem atsCompletion_caches {p v hpa log2 : Nat} {retried read write : Bool} (free : s.crossOpen 128 = true)
    (waits : waitingDesc s ctx queue Hold.isAts = some (did, d)) (pasid : slicePasid s d.slice = some p)
    (held : d.hold = .ats retried false) (next : hostNext d = some v)
    (right : (if hostWrites d.raw then write else read) = true) :
    exec (.atsCompletion ctx queue (.span hpa log2 read write)) s =
      .next (goOn (hostCacheAdd (s.heldIn 128) ⟨p, v / 2 ^ log2 * 2 ^ log2, hpa, log2, read, write, d.slice⟩) did d) := by
  have waits' : waitingDesc (s.heldIn 128) ctx queue Hold.isAts = some (did, d) := waits
  have pasid' : slicePasid (s.heldIn 128) d.slice = some p := pasid
  refine done_fromHost up free ?_
  rw [waits']
  dsimp only
  rw [pasid', held, next]
  dsimp only
  rw [if_neg Bool.false_ne_true, if_pos right]

theorem prgResponse_repeats {p : Nat} {right : Bool} (free : s.crossOpen 128 = true)
    (waits : waitingDesc s ctx queue Hold.isPrg = some (did, d)) (pasid : slicePasid s d.slice = some p)
    (held : d.hold = .prg right) :
    exec (.prgResponse ctx queue true) s =
      .next (holdDesc ((s.heldIn 129).emit (.atsRequest p ((hostNext d).getD 0))) did (.ats true false)) := by
  have waits' : waitingDesc (s.heldIn 129) ctx queue Hold.isPrg = some (did, d) := waits
  have pasid' : slicePasid (s.heldIn 129) d.slice = some p := pasid
  refine done_fromHost up free ?_
  rw [waits']
  dsimp only
  rw [pasid', held]
  rfl

theorem faultHoldLimit_ends {since addr limit : Nat} (waits : waitingDesc s ctx queue Hold.isFault = some (did, d))
    (held : d.hold = .fault since addr limit) (past : since + limit * 1000000 ≤ s.ns) :
    exec (.faultHoldLimit ctx queue) s = .next (queueOn (endDesc s did cFaultUnmapped 0 addr) ctx queue) := by
  refine done_whenUp up ?_
  rw [waits]
  dsimp only
  rw [held]
  exact if_pos past

end

/-! The check, retirement and the rings (R348, R349). -/

section
variable {s : State} (up : s.up = true)
include up

theorem check_passes {cp queueId : Nat} {desc : Bytes} {l : LiveSeal} (free : s.crossOpen (160 + cp) = true)
    (known : (s.gate.lostSeals.find? fun p => p.1 == fld desc 96 8) = none)
    (live : tget s.gate.seals (fld desc 96 8 % 2 ^ 18) = some l) (serial : l.serial.toNat = fld desc 96 8)
    (tag : desc.drop 144 = be 16 (sealTag s (desc.take 144) l.wrap (BitVec.ofNat 64 (fld desc 96 8))).toNat)
    (held : l.dispatched = false) (first : l.port = none) (current : ctxCurrent s l.ctx l.gen = true)
    (sealed : (tget s.gate.descs l.did).bind (·.reseal) = none) (fresh : staleHost s l = false) :
    exec (.check cp (execOf l.raw) queueId desc) s = .next (passCheck s (fld desc 96 8 % 2 ^ 18) cp) := by
  have checked : checkPiece s cp (execOf l.raw) queueId (fld desc 96 8 % 2 ^ 18) l desc = passCheck s (fld desc 96 8 % 2 ^ 18) cp := by
    rw [checkPiece, current, sealed, fresh, if_neg (by decide), if_neg (by decide), if_neg (by decide), if_neg (not_not_intro rfl)]
  refine done_whenUp up ?_
  rw [free, if_neg (by decide)]
  dsimp only
  rw [known]
  dsimp only
  rw [live]
  dsimp only
  rw [← tag, serial, held, first, if_neg (by simp), checked]

theorem pieceRetire_retires {slot detail : Nat} {code : Code} {l : LiveSeal} (live : tget s.gate.seals slot = some l)
    (runs : l.dispatched = true) (other : execOf l.raw ≠ 5) :
    exec (.pieceRetire slot code detail) s = .next (retire s slot code detail) := by
  refine done_whenUp up ?_
  rw [live]
  dsimp only
  rw [runs, if_pos (by simpa using other)]

theorem cpqDone_retires {cp count : Nat} {q : List Nat} {e : State × Nat} (order : q = tgetD s.gate.order cp [])
    (sampled : e = ccEvents s (160 + cp) (160 + cp) count) :
    exec (.cpqDone cp count) s = .next ((q.take e.2).foldl (fun s serial =>
      match tget s.gate.seals (serial % 2 ^ 18) with
      | some l => if l.serial.toNat = serial ∧ l.dispatched = true then retire s (serial % 2 ^ 18) cOk 0
        else lateReport s (· == serial)
      | none => lateReport s (· == serial)) { e.1 with gate.order := tset s.gate.order cp (q.drop e.2) }) := by
  subst order sampled
  refine done_whenUp up ?_
  simp only [Bool.and_eq_true, decide_eq_true_eq] <;> rfl

theorem doorbell_rings {ctx queue tail : Nat} {q : Queue} (bound : tget s.gate.queues (qid ctx queue) = some q) :
    exec (.doorbell ctx queue tail) s = .next { s with
      gate.queues := tset s.gate.queues (qid ctx queue) { q with tail := tail % max 1 q.ringSize } } :=
  done_whenUp up (by rw [bound])

theorem cqHead_moves {ctx queue head : Nat} {q : Queue} (bound : tget s.gate.queues (qid ctx queue) = some q) :
    exec (.cqHead ctx queue head) s = .next { s with
      gate.queues := tset s.gate.queues (qid ctx queue) { q with chead := head % max 1 q.cringSize } } :=
  done_whenUp up (by rw [bound])

end

/-- Settles O28: each command by its guards. -/
theorem gateTranslationAndCheckComplete : Obligations.GateTranslationAndCheckComplete :=
  ⟨fun _ _ _ _ _ _ up free bound runs thawed => submit_enters up free bound runs thawed rfl rfl,
    fun _ _ _ => pendingPieceSeal_goesOn, fun _ _ _ _ _ up => translationWalk_fills up,
    fun _ _ _ _ _ _ _ _ _ _ _ _ up => atsCompletion_caches up, fun _ _ _ _ _ _ _ up => prgResponse_repeats up,
    fun _ _ _ _ up free => done_fromHost up free rfl, fun _ _ _ _ _ up => check_passes up,
    fun _ _ _ _ _ up => pieceRetire_retires up, fun _ _ _ up => cpqDone_retires up rfl rfl,
    fun _ _ _ _ _ up bound => ⟨doorbell_rings up bound, cqHead_moves up bound⟩,
    fun _ _ _ _ _ _ _ _ up => faultHoldLimit_ends up⟩

end Sys2Proof.Machine

/-!
The gate's mailbox commands and the allocator (chapter 11), contexts and slices, and a slice's migration (chapter 12): each
command's effect where its guards hold.
-/
namespace Sys2Proof.Machine

/-! Queues, windows and objects over the mailbox (R326, R350 to R353, R371). -/

theorem queueCreate_binds {s u : State} {h : MbxHdr} {ctx queue ring ringSize cring cringSize vector : Nat}
    (takes : s.takesMailbox h 0x0301 true (le 2 ctx ++ le 1 queue ++ le 8 ring ++ le 4 ringSize ++ le 8 cring ++
      le 4 cringSize ++ le 2 vector)) (inside : queue < 64) (legal : vector = 0 ∨ 33 ≤ vector ∧ vector ≤ 2047)
    (taken : u = mbxTaken s h) (live : (ctxAt u ctx).mode = .live) (unbound : tget u.gate.queues (qid ctx queue) = none) :
    exec (.queueCreate h ctx queue ring ringSize cring cringSize vector) s = .next (mbxAnswer { u with
      gate.queues := tset u.gate.queues (qid ctx queue)
        { gen := (ctxAt u ctx).gen, slice := (ctxAt u ctx).slice, ring := ring, ringSize := ringSize, head := 0, tail := 0,
          cring := cring, cringSize := cringSize, chead := 0, ctail := 0, vector := vector, stopped := false } }
      h 0x0301 cOk []) := by
  subst taken
  refine done_mailbox takes ?_
  rw [if_neg (by simpa [live] using inside), if_neg (by simp; omega), unbound]

theorem queueDestroy_unbinds {s v w : State} {h : MbxHdr} {ctx queue : Nat} {undrained : List Bytes} {q : Queue}
    (takes : s.takesMailbox h 0x0302 true (le 2 ctx ++ le 1 queue))
    (bound : tget (mbxTaken s h).gate.queues (qid ctx queue) = some q)
    (drained : v = drainRing (ringCount q) undrained
      { mbxTaken s h with gate.queues := tset (mbxTaken s h).gate.queues (qid ctx queue) { q with stopped := true } } ctx queue)
    (settled : w = settle { v with gate.queues := tmod v.gate.queues (qid ctx queue) fun q => { q with head := q.tail } })
    (empty : w.gate.descs.any (fun d => d.2.ctx == ctx && d.2.queue == queue) = false) :
    exec (.queueDestroy h ctx queue undrained) s =
      .next (mbxAnswer { w with gate.queues := tdel w.gate.queues (qid ctx queue) } h 0x0302 cOk []) := by
  refine done_mailboxLater takes ?_
  rw [bound]
  dsimp only
  rw [← drained, ← settled, if_neg (ne_true_of_eq_false empty)]

theorem windowExport_exports {s u : State} {h : MbxHdr} {handle rights i r : Nat} {nodes : List Nat} {o : MemObj}
    (takes : s.takesMailbox h 0x0303 false (le 4 handle ++ le 1 rights ++ nodes.flatMap (le 2))) (taken : u = mbxTaken s h)
    (remote : r = bits rights 4 2) (found : sliceObj u (hslice h) handle = .ok (i, o))
    (read : bit r 0 = true → bit o.rights 0 = true) (write : bits r 2 1 ≠ 0 → bit o.rights 1 = true) (some_right : r ≠ 0)
    (fresh : o.peers = none) (room : ((peerSets u).filter fun p => p.2.slice == hslice h).length < peerPart u (hslice h)) :
    exec (.windowExport h handle rights nodes) s = .next (mbxAnswer { u with gate.objs := tset u.gate.objs i { o with
      rights := o.rights % 4 + 4 * r, peers := some (freePeer u, (nodes.take 240).foldl insertN []) } }
      h 0x0303 cOk (le 1 (freePeer u))) := by
  subst taken remote
  have covered : ((bit (bits rights 4 2) 0 && !bit o.rights 0) || (bits (bits rights 4 2) 2 1 != 0 && !bit o.rights 1)) = false := by
    simp only [Bool.or_eq_false_iff, Bool.and_eq_false_imp, Bool.not_eq_false', bne_iff_ne]
    exact ⟨read, write⟩
  refine done_mailbox takes ?_
  rw [found]
  dsimp only
  rw [covered, if_neg Bool.false_ne_true, if_neg some_right, fresh]
  dsimp only
  rw [if_neg (Nat.not_le.mpr room)]

theorem objectInfo_answers {s u : State} {h : MbxHdr} {handle i : Nat} {o : MemObj}
    (takes : s.takesMailbox h 0x0304 false (le 4 handle)) (taken : u = mbxTaken s h)
    (found : sliceObj u (hslice h) handle = .ok (i, o)) :
    exec (.objectInfo h handle) s = .next (mbxAnswer u h 0x0304 cOk (le 1 o.kind ++ le 8 o.size ++ le 4 o.holders.length ++
      le 4 (objRefs u i o) ++ le 4 (ctxPages u h.ctxId) ++ le 4 (ctxRegions u h.ctxId))) := by
  subst taken
  refine done_mailbox takes ?_
  rw [found]

/-! The allocator's classes (R354, R355, R360). -/

section
variable {s : State} {slot : Nat} {l : LiveSeal} (up : s.up = true)
include up

theorem alloc_runs (turn : allocPiece s slot kAlloc = some l) :
    exec (.alloc slot) s = .next (resumeHeld (endAlloc (runAlloc (allocServed s l) l) slot l) l.ctx) :=
  done_whenUp up (by rw [turn])

theorem free_drops {u : State} {i : Nat} {freed : Table Mapping → Table Mapping} (turn : allocPiece s slot kFree = some l)
    (object : i = objIndex (dBody l.raw 0 4)) (dropped : u = dropHold (allocServed s l) l.ctx i)
    (marks : freed = fun t => t.map fun m => if m.2.kind ≠ 3 ∧ m.2.obj = i then (m.1, { m.2 with freeing := true }) else m)
    (held : objCheck (allocServed s l) l.ctx l.slice (dBody l.raw 0 4) = none) :
    exec (.free slot) s = .next (retire (countAlloc { u with
      gate.tops := tmod u.gate.tops l.ctx freed
      gate.maps := tmod u.gate.maps l.ctx freed
      gate.devCache := u.gate.devCache.filter fun e => !(e.1 == l.ctx && keyObj u l.ctx e.2.1 == some i) } cOk) slot cOk 0) := by
  subst marks dropped object
  refine done_whenUp up ?_
  rw [turn]
  dsimp only
  rw [held]

theorem objectRelease_object {index : Nat} {o : MemObj} (found : tget s.gate.objs index = some o)
    (idle : objIdle s index o = true) : exec (.objectRelease false index) s = .next (releaseObj s index) := by
  refine done_whenUp up ?_
  rw [if_neg Bool.false_ne_true, found]
  exact if_pos idle

theorem objectRelease_event {index : Nat} {e : EvtObj} (found : tget s.gate.evts index = some e)
    (idle : evtIdle s index e = true) : exec (.objectRelease true index) s = .next (releaseEvt s index) := by
  refine done_whenUp up ?_
  rw [if_pos rfl, found]
  exact if_pos idle

theorem eventCreate_makes (turn : allocPiece s slot kEventCreate = some l)
    (room : evtsUsed (allocServed s l) l.slice < evtPart (allocServed s l) l.slice) :
    exec (.eventCreate slot) s = .next (endAlloc ((newEvent (allocServed s l) l.slice l.ctx).1,
      ⟨cOk, 0, (newEvent (allocServed s l) l.slice l.ctx).2, 0⟩) slot l) := by
  refine done_whenUp up ?_
  rw [turn]
  exact if_neg (Nat.not_le.mpr room)

theorem eventFree_drops {u : State} (turn : allocPiece s slot kEventFree = some l) (served : u = allocServed s l)
    (held : evtCheck u l.ctx l.slice (dBody l.raw 0 4) = none) :
    exec (.eventFree slot) s = .next (retire (countAlloc { u with
      gate.evts := tmod u.gate.evts (evtIndex (dBody l.raw 0 4)) fun e => { e with holders := eraseN e.holders l.ctx } } cOk)
      slot cOk 0) := by
  subst served
  refine done_whenUp up ?_
  rw [turn]
  dsimp only
  rw [held]

end

/-- Settles O29: each command by its guards. -/
theorem gateMailboxAndAllocatorComplete : Obligations.GateMailboxAndAllocatorComplete :=
  ⟨fun _ _ _ _ _ _ _ _ _ takes inside legal => queueCreate_binds takes inside legal rfl,
    fun _ _ _ _ _ _ takes bound => queueDestroy_unbinds takes bound rfl rfl,
    fun _ _ _ _ _ _ _ takes => windowExport_exports takes rfl rfl, fun _ _ _ _ _ takes => objectInfo_answers takes rfl,
    fun _ _ _ => alloc_runs, fun _ _ _ up turn => free_drops up turn rfl rfl rfl,
    fun _ _ _ up => objectRelease_object up, fun _ _ _ up => objectRelease_event up, fun _ _ _ => eventCreate_makes,
    fun _ _ _ up turn => eventFree_drops up turn rfl⟩

/-! Contexts and slices over the mailbox (R363 to R368, R372 to R378). -/

section
variable {s u : State} {h : MbxHdr} (taken : u = mbxTaken s h)
include taken

theorem pasidBind_binds {slice pasid : Nat} (takes : s.takesMailbox h 0x0401 true (le 1 slice ++ le 4 pasid))
    (known : sliceExists u slice = true) (inside : pasid < 2 ^ 20) (free : slicePasid u slice = none ∨ sliceCtxs u slice = 0)
    (own : pasidTaken u slice pasid = false) (keys : bounceRefused u slice = none) :
    exec (.pasidBind h slice pasid) s = .next (mbxAnswer (bindPasid u slice pasid) h 0x0401 cOk []) := by
  subst taken
  have unused : ((slicePasid (mbxTaken s h) slice).isSome && sliceCtxs (mbxTaken s h) slice ≠ 0) = false := by
    obtain none | empty := free
    · rw [none]; rfl
    · rw [empty]; simp
  refine done_mailbox takes ?_
  rw [known, if_neg (by simpa using inside), unused, if_neg Bool.false_ne_true, own, if_neg Bool.false_ne_true, keys]

theorem contextCreate_creates {slice id flags c : Nat}
    (takes : s.takesMailbox h 0x0402 true (le 1 slice ++ le 2 id ++ le 1 flags)) (known : sliceExists u slice = true)
    (bound : (slicePasid u slice).isSome = true) (thawed : sliceFrozen u slice = false)
    (quota : sliceCtxs u slice < ctxQuota u slice) (picked : ctxPick u id = some c) :
    exec (.contextCreate h slice id flags) s = .next (mbxAnswer (newContext u slice c flags) h 0x0402 cOk
      (le 2 c ++ le 2 (ctxAt u c).gen)) := by
  subst taken
  refine done_mailbox takes ?_
  rw [known, if_neg (by decide), if_neg (by simpa [Option.isSome_iff_ne_none] using bound), thawed, if_neg Bool.false_ne_true,
    if_neg (Nat.not_le.mpr quota), picked]

theorem contextDestroy_tears {id : Nat} {undrained : List (Nat × Bytes)} (takes : s.takesMailbox h 0x0403 true (le 2 id))
    (known : ctxExists u id = true) :
    exec (.contextDestroy h id undrained) s = .next (mbxAnswer
      (teardown u id fun q => (undrained.filter fun u => u.1 == q).map (·.2)) h 0x0403 cOk []) := by
  subst taken
  refine done_mailbox takes ?_
  rw [known]
  rfl

theorem eventShare_shares {handle other i : Nat} {e : EvtObj} (takes : s.takesMailbox h 0x0404 false (le 4 handle ++ le 2 other))
    (found : sliceEvt u (hslice h) handle = .ok (i, e)) (target : shareTarget u (hslice h) other = none) :
    exec (.eventShare h handle other) s = .next (mbxAnswer
      { u with gate.evts := tset u.gate.evts i { e with holders := insertN e.holders other } } h 0x0404 cOk []) := by
  subst taken
  refine done_mailbox takes ?_
  rw [found, target]

theorem eventQuery_answers {handle i : Nat} {e : EvtObj} (takes : s.takesMailbox h 0x0406 false (le 4 handle))
    (found : sliceEvt u (hslice h) handle = .ok (i, e)) :
    exec (.eventQuery h handle) s = .next (mbxAnswer u h 0x0406 cOk (le 1 e.state ++ [e.code])) := by
  subst taken
  refine done_mailbox takes ?_
  rw [found]

theorem memoryShare_shares {u1 u2 u3 : State} {handle other va rights i g : Nat} {o : MemObj}
    (takes : s.takesMailbox h 0x0405 false (le 4 handle ++ le 2 other ++ le 8 va ++ le 1 rights))
    (found : sliceObj u (hslice h) handle = .ok (i, o)) (target : shareTarget u (hslice h) other = none) (legal : rights < 4)
    (read : bit rights 0 = true → bit o.rights 0 = true) (write : bit rights 1 = true → bit o.rights 1 = true)
    (free : shareVa u other va o = none) (group : shareGroup u i o = some (u1, g))
    (room : ((tgetD u1.gate.groups g []).filter fun m => m.1 != other).length < 16) (joined : u2 = shareJoin u1 i g other rights)
    (rotates : u3 = ((objRegions o).filter fun r => ((tget u2.mem.regions r).map (·.ownerKind)) == some 0).foldl
      (fun s r => queueRotation s r 1) u2) :
    exec (.memoryShare h handle other va rights) s = .next (settle
      { u3 with
        gate.sharing := u3.gate.sharing ++ [⟨i, other, va, rights, h⟩]
        mbx := tset u3.mbx h.page { mbxPage u3 h.page with busy := true } }) := by
  subst taken
  have covered : ((bit rights 0 && !bit o.rights 0) || (bit rights 1 && !bit o.rights 1) || decide (4 ≤ rights)) = false := by
    simp only [Bool.or_eq_false_iff, Bool.and_eq_false_imp, Bool.not_eq_false', decide_eq_false_iff_not, Nat.not_le]
    exact ⟨⟨read, write⟩, legal⟩
  refine congrArg (fun t => Host.Outcome.next (settle t)) (mailboxLater_waits s { u3 with
        gate.sharing := u3.gate.sharing ++ [⟨i, other, va, rights, h⟩] } h 0x0405 false _ _ takes ?_)
  subst rotates joined
  rw [found, target]
  dsimp only
  rw [covered, if_neg Bool.false_ne_true, free]
  dsimp only
  rw [group]
  dsimp only
  rw [if_neg (Nat.not_le.mpr room)]

theorem ctxUsage_slice {id : Nat} (takes : s.takesMailbox h 0x0407 false (le 2 id)) (all : id = 0) :
    exec (.ctxUsage h id) s = .next (mbxAnswer u h 0x0407 cOk
      (usageBody (fun i => tcount u.ctxs.sliceUsage (hslice h * 16 + i))
        (addAll (((u.ctxs.table.filter fun c => c.2.mode != .free && c.2.slice == hslice h).map (·.1)).map (ctxHolds u))))) := by
  subst taken
  exact done_mailbox takes (by rw [if_pos all])

theorem ctxUsage_context {id : Nat} (takes : s.takesMailbox h 0x0407 false (le 2 id)) (one : id ≠ 0)
    (known : ctxExists u id = true) (own : (ctxAt u id).slice = hslice h) :
    exec (.ctxUsage h id) s =
      .next (mbxAnswer u h 0x0407 cOk (usageBody (fun i => tcount u.ctxs.usage (id * 16 + i)) (ctxHolds u id))) := by
  subst taken
  exact done_mailbox takes (by rw [if_neg one, known, own, beq_self_eq_true]; rfl)

theorem sliceFreeze_freezes {v : State} {slice tilesDone : Nat} (takes : s.takesMailbox h 0x0408 true (le 1 slice))
    (known : sliceExists u slice = true) (tenant : slice ≠ 0) (low : slice ≠ 31)
    (serves : (tget u.ctxs.slices slice).map (·.state) = some 1) (idle : sliceSteps u slice = false)
    (frozen : v = freezeWatches (freezeSlice u slice tilesDone) slice) :
    exec (.sliceFreeze h slice tilesDone) s = .next (settle
      { v with
        ctxs.freezing := v.ctxs.freezing ++ [(slice, h)]
        mbx := tset v.mbx h.page { mbxPage v h.page with busy := true } }) := by
  subst taken
  refine congrArg (fun t => Host.Outcome.next (settle t)) (mailboxLater_waits s
    { v with ctxs.freezing := v.ctxs.freezing ++ [(slice, h)] } h 0x0408 true _ _ takes ?_)
  subst frozen
  rw [known, if_neg (by decide), if_neg (by simp [tenant, low]), serves, if_neg (by simp [idle])]

theorem sliceThaw_thaws {slice : Nat} (takes : s.takesMailbox h 0x0409 true (le 1 slice)) (known : sliceExists u slice = true)
    (frozen : (tget u.ctxs.slices slice).map (·.state) = some 3) :
    exec (.sliceThaw h slice) s = .next (mbxAnswer (thawSlice u slice) h 0x0409 cOk []) := by
  subst taken
  refine done_mailbox takes ?_
  rw [known, if_neg (by decide), frozen, if_neg (by simp)]

end

theorem tenantSlices_sets {s : State} {n : Nat} (up : s.up = true) (legal : n ∈ ([1, 2, 4, 8, 16] : List Nat))
    (empty : tenantsEmpty s = true) :
    exec (.tenantSlices n) s = .next (answerWrite (capacity (rearm
      (((List.range 17).filter fun k => decide (n < k)).foldl sliceOut
        { s with
          dict.force := tset s.dict.force (ekey 0x4000 1) n
          ctxs.slices := s.ctxs.slices.filter fun x => x.1 == 0 || x.1 == 31 || decide (x.1 ≤ n)
          arb.rotBase := 0 })) 7 255 0) 0x4000 1 cOk) :=
  done_whenUp up (by rw [List.contains_iff_mem.mpr legal, empty]; rfl)

/-- Settles O30: each command by its guards. -/
theorem contextAndSliceCommandsComplete : Obligations.ContextAndSliceCommandsComplete :=
  ⟨fun _ _ _ _ => pasidBind_binds rfl, fun _ _ _ _ _ _ => contextCreate_creates rfl, fun _ _ _ _ => contextDestroy_tears rfl,
    fun _ _ _ _ _ _ => eventShare_shares rfl, fun _ _ _ _ _ => eventQuery_answers rfl,
    fun _ _ _ _ _ _ _ _ _ _ takes found target legal read write free group room =>
      memoryShare_shares rfl takes found target legal read write free group room rfl rfl,
    fun _ _ _ takes => ⟨ctxUsage_slice rfl takes, ctxUsage_context rfl takes⟩,
    fun _ _ _ _ takes known tenant low serves idle => sliceFreeze_freezes rfl takes known tenant low serves idle rfl,
    fun _ _ _ => sliceThaw_thaws rfl, fun _ _ => tenantSlices_sets⟩

end Sys2Proof.Machine

/-!
A slice's migration (R379 to R384): each command's effect where its guards hold.
-/
namespace Sys2Proof.Machine

theorem sliceOffer_offers {s u s1 : State} {h : MbxHdr} {slice hostAddr : Nat} {hall : Hallmark} {k : State × BitVec 384 × BitVec 512}
    {body : Bytes} (takes : s.takesMailbox h 0x040A true (le 1 slice ++ le 8 hostAddr)) (taken : u = mbxTaken s h)
    (keys : k = kaKeys u.drew)
    (bodied : body = offerBody unitId u.pow.sessionId slice (u.drawn 256) (Config.ecPoint k.2.1) (Config.kemKey k.2.2))
    (tenant : notTenant u slice = none) (few : (u.ctxs.offers.filter fun o => offerLive u o.2).length < 4)
    (good : u.vault.entropyOk = true) (signed : makeHallmark k.1 (offerDigest body) none true = (s1, some hall)) :
    exec (.sliceOffer h slice hostAddr) s = .next (mbxAnswer
      (({ s1 with
          ctxs.offers := tset s1.ctxs.offers (leastFree s1.ctxs.offers 0)
            ({ slice := slice, body := body, nonce := u.drawn 256, ecPriv := k.2.1, kemPriv := k.2.2, madeAt := s1.ns,
               lifetime := setting s1 0x4002 1 } : Offer) } : State).emit (.hostWrite hostAddr (body ++ hallBytes hall)))
      h 0x040A cOk (le 4 (body ++ hallBytes hall).length)) := by
  subst taken
  refine done_mailbox takes ?_
  rw [tenant]
  dsimp only
  rw [if_neg (Nat.not_le.mpr few), good, if_neg (by decide), ← keys, ← bodied, signed]

theorem offerExpire_removes {s : State} {offer : Nat} {o : Offer} (up : s.up = true) (found : tget s.ctxs.offers offer = some o)
    (past : o.madeAt + o.lifetime * 1000000000 ≤ s.ns) :
    exec (.offerExpire offer) s = .next { s with ctxs.offers := tdel s.ctxs.offers offer } := by
  refine done_whenUp up ?_
  rw [found]
  exact if_pos past

/-- A save to this unit whose image key is made and can be wrapped writes the image (R381). -/
theorem saveSelf_writes {u u1 : State} {slice extents : Nat} {ks : KeySlot} {w : Key} {c : State × List (Nat × Nat × Bytes × WrappedBlob)}
    (good : u.vault.entropyOk = true) (keyed : u1 = needKey (putImageKey u.drew slice (u.drawn 256)) .oper)
    (stored : c = saveChans (spendKey u1.drew .oper 1 0) slice w)
    (made : findKey u1 (.imageKey slice) = some ks) (allowed : saveRefused u1 slice = none) (wraps : key256 u1 .oper = some w) :
    saveSelf u slice extents = writeImage c.1 slice extents (u.drawn 256)
      { saveContent u1 slice with blob := some (wrapBlob u1 ks (u.drawn 256) 8 w), chans := c.2 } := by
  unfold saveSelf
  rw [good, if_neg (by decide)]
  dsimp only
  rw [← keyed, made, allowed, wraps]
  dsimp only
  rw [← stored]

theorem sliceSave_self {s u u1 : State} {h : MbxHdr} {slice extents : Nat}
    {offer : Option (Nat × BitVec 64 × Nat × BitVec 256 × Point × KemBlob)} {hall : Option Hallmark} {ks : KeySlot} {w : Key}
    {c : State × List (Nat × Nat × Bytes × WrappedBlob)} {r : State × Code × Bytes}
    (takes : s.takesMailbox h 0x040B true (le 1 slice ++ le 1 0 ++ le 8 extents)) (taken : u = mbxTaken s h)
    (keyed : u1 = needKey (putImageKey u.drew slice (u.drawn 256)) .oper)
    (stored : c = saveChans (spendKey u1.drew .oper 1 0) slice w) (tenant : notTenant u slice = none)
    (frozen : (tget u.ctxs.slices slice).map (·.state) = some 3) (readable : saveDenied u slice = none)
    (good : u.vault.entropyOk = true) (made : findKey u1 (.imageKey slice) = some ks) (allowed : saveRefused u1 slice = none)
    (wraps : key256 u1 .oper = some w) (written : r = writeImage c.1 slice extents (u.drawn 256)
      { saveContent u1 slice with blob := some (wrapBlob u1 ks (u.drawn 256) 8 w), chans := c.2 }) :
    exec (.sliceSave h slice 0 offer hall extents) s = .next (mbxAnswer r.1 h 0x040B r.2.1 r.2.2) := by
  refine done_mailbox takes ?_
  rw [← taken, tenant]
  dsimp only
  rw [frozen, readable, if_neg (by decide), if_neg (by simp), if_neg (by simp), if_pos rfl,
    saveSelf_writes good keyed stored made allowed wraps, written]

theorem savePeer_writes {u s1 s2 u0 : State} {slice extents : Nat} {o : Nat × BitVec 64 × Nat × BitVec 256 × Point × KemBlob}
    {own : Hallmark} {qr : Point} {ct : KemBlob} {ss : BitVec 384}
    (agreed : kaRespond u o.2.2.2.2.1 o.2.2.2.2.2 = (s1, some (qr, ct, ss))) (keyed : u0 = putImageKey s1 slice (left256 ss))
    (made : (findKey u0 (.imageKey slice)).isSome = true) (signed : makeHallmark u0 o.2.2.2.1 none true = (s2, some own)) :
    savePeer u slice extents o = writeImage s2 slice extents (left256 ss) { saveContent s2 slice with
      target := 1, dstUnit := o.1, domainId := s2.dom.domainId
      offerDigest := offerDigest (offerBody o.1 o.2.1 o.2.2.1 o.2.2.2.1 o.2.2.2.2.1 o.2.2.2.2.2), q := qr, ct := ct
      hallmark := some own } := by
  unfold savePeer
  dsimp only
  rw [agreed]
  dsimp only
  rw [← keyed, if_neg (by simpa [Option.isSome_iff_ne_none] using made), signed]

theorem sliceSave_peer {s u s1 s2 u0 : State} {h : MbxHdr} {slice extents : Nat}
    {o : Nat × BitVec 64 × Nat × BitVec 256 × Point × KemBlob} {hall own : Hallmark} {qr : Point} {ct : KemBlob} {ss : BitVec 384}
    {body : Bytes} {r : State × Code × Bytes} (takes : s.takesMailbox h 0x040B true (le 1 slice ++ le 1 1 ++ le 8 extents))
    (taken : u = mbxTaken s h) (offered : body = offerBody o.1 o.2.1 o.2.2.1 o.2.2.2.1 o.2.2.2.2.1 o.2.2.2.2.2)
    (tenant : notTenant u slice = none) (frozen : (tget u.ctxs.slices slice).map (·.state) = some 3)
    (readable : saveDenied u slice = none) (peer : peerOk u o.1 body hall = true)
    (agreed : kaRespond u o.2.2.2.2.1 o.2.2.2.2.2 = (s1, some (qr, ct, ss))) (keyed : u0 = putImageKey s1 slice (left256 ss))
    (made : (findKey u0 (.imageKey slice)).isSome = true) (signed : makeHallmark u0 o.2.2.2.1 none true = (s2, some own))
    (written : r = writeImage s2 slice extents (left256 ss) { saveContent s2 slice with
      target := 1, dstUnit := o.1, domainId := s2.dom.domainId, offerDigest := offerDigest body, q := qr, ct := ct,
      hallmark := some own }) :
    exec (.sliceSave h slice 1 (some o) (some hall) extents) s = .next (mbxAnswer r.1 h 0x040B r.2.1 r.2.2) := by
  have offer_ok : saveOfferOk u (some o) (some hall) = true := by
    rw [offered] at peer
    exact peer
  refine done_mailbox takes ?_
  rw [← taken, tenant]
  dsimp only
  rw [frozen, readable, offer_ok, if_neg (by decide), if_neg (by simp), if_neg (by simp), if_neg (by decide), if_pos rfl,
    savePeer_writes agreed keyed made signed, ← offered, written]

theorem writeImage_writes {s s1 t : State} {slice extents : Nat} {k : Key} {m : SliceImage} {g : HybSig} {b : Bytes}
    (signed : signId s (imageHeader m) = (s1, some g)) (bytes : b = imageBytes k { m with signature := g })
    (dropped : t = dropKeys ((bumpSlice (hostCharge (saveReads s1 slice) slice 1 b.length) slice 10 b.length).emit
      (.hostWrite extents b)) fun p => p == .imageKey slice) :
    writeImage s slice extents k m = ({ t with ctxs.imagesSaved := t.ctxs.imagesSaved + 1 }, cOk, le 8 b.length) := by
  unfold writeImage
  rw [signed]
  dsimp only
  rw [← bytes, ← dropped]

theorem sliceRestore_restores {s u : State} {h : MbxHdr} {slice : Nat} {image : SliceImage}
    (takes : s.takesMailbox h 0x040C true (le 1 slice)) (taken : u = mbxTaken s h) (tenant : notTenant u slice = none)
    (bound : (slicePasid u slice).isSome = true) (empty : sliceCtxs u slice = 0) (thawed : sliceFrozen u slice = false)
    (good : imageGood u slice image = true) (fits : imageFits u slice image = true) (records : image.recordsOk = true)
    (chans : ∀ c ∈ image.chans, (unwrap u 3 c.2.2.2).isSome = true) :
    exec (.sliceRestore h slice image) s = .next (mbxAnswer (restoreAll u slice image) h 0x040C cOk []) := by
  refine done_mailbox takes ?_
  rw [← taken, tenant]
  dsimp only
  rw [if_neg (by simpa [Option.isSome_iff_ne_none] using bound), if_neg (by simp [empty, thawed]), good, if_neg (by decide),
    fits, if_neg (by decide), records, List.all_eq_true.mpr chans, if_neg (by decide)]

/-- Settles O31: each command by its guards. -/
theorem sliceMigrationCommandsComplete : Obligations.SliceMigrationCommandsComplete :=
  ⟨fun _ _ _ _ _ _ takes => sliceOffer_offers takes rfl rfl rfl, fun _ _ _ => offerExpire_removes,
    fun _ _ _ _ _ _ _ _ takes tenant frozen readable good made allowed wraps =>
      sliceSave_self takes rfl rfl rfl tenant frozen readable good made allowed wraps rfl,
    fun _ _ _ _ _ _ _ _ _ _ _ _ takes tenant frozen readable peer agreed made signed =>
      sliceSave_peer takes rfl rfl tenant frozen readable peer agreed rfl made signed rfl,
    fun _ _ _ _ _ _ _ signed => writeImage_writes signed rfl rfl, fun _ _ _ _ takes => sliceRestore_restores takes rfl⟩

end Sys2Proof.Machine

/-!
Admission and the casts (chapters 13 and 14): each command's effect where its guards hold.
-/
namespace Sys2Proof.Machine

theorem arrayClean_raises {s : State} (up : s.up = true) (low : s.cross.arrayClean = false) (taken : s.crossOpen 192 = true)
    (running : s.arb.paused = false) (early : (s.arb.cutAt.any fun t => decide (t + 1500 < s.ns)) = false) :
    exec .arrayClean s = .next (arbWake { s with
      cross.arrayClean := true, arb.cutAt := none, arb.cutSlot := none, arb.lateClean := false }) := by
  refine done_whenUp up ?_
  rw [if_neg (by simp [low, taken]), early]
  dsimp only
  rw [running]
  rfl

theorem ccEvents_spanOwner (s : State) (key level count : Nat) : spanOwner (ccEvents s key level count).1 = spanOwner s := by
  simp [spanOwner]

section
variable {s : State} {count k : Nat} (up : s.up = true) (running : s.arb.runSlot = some k)
include up running

theorem arrTileevt_own (own : (tget s.gate.seals k).map (·.slice) = spanOwner s) :
    exec (.arrTileevt count) s = .next { (ccEvents s 192 192 count).1 with
      arb.pieceTiles := tbump (ccEvents s 192 192 count).1.arb.pieceTiles k (ccEvents s 192 192 count).2
      arb.tiles := (ccEvents s 192 192 count).1.arb.tiles + (ccEvents s 192 192 count).2 } := by
  refine done_whenUp up ?_
  dsimp only
  rw [ccEvents_arb, running, ccEvents_gate, ccEvents_spanOwner]
  exact if_pos own

theorem arrTileevt_other (other : (tget s.gate.seals k).map (·.slice) ≠ spanOwner s) :
    exec (.arrTileevt count) s = .next { (ccEvents s 192 192 count).1 with
      arb.pieceTiles := tbump (ccEvents s 192 192 count).1.arb.pieceTiles k (ccEvents s 192 192 count).2 } := by
  refine done_whenUp up ?_
  dsimp only
  rw [ccEvents_arb, running, ccEvents_gate, ccEvents_spanOwner]
  exact if_neg other

end

theorem arrayCleanTimeout_raises {s : State} {t : Nat} (up : s.up = true) (low : s.cross.arrayClean = false)
    (cut : s.arb.cutAt = some t) (late : t + 1000000 ≤ s.ns) :
    exec .arrayCleanTimeout s = .next (raise
      (if s.arb.lateClean then s else notice { s with arb.lateClean := true } 1 77 uArb 0)
      { unit := uArb, cls := 3, cause := 441, aux := [47, 48] } 0 0) := by
  refine done_whenUp up ?_
  rw [low, cut, Option.any_some, decide_eq_true late]
  rfl

theorem arrayRecoveryTimeout_raises {s : State} {t : Nat} (up : s.up = true) (low : s.cross.arrayClean = false)
    (reset : s.err.arbResetAt = some t) (late : t + 10000000 ≤ s.ns) :
    exec .arrayRecoveryTimeout s =
      .next (raise { s with err.arbResetAt := none } { unit := uArb, cls := 4, cause := 441, aux := [47, 48] } 0 0) := by
  refine done_whenUp up ?_
  rw [low, reset, Option.any_some, decide_eq_true late]
  rfl

theorem deferralExpire_passes {s : State} {slot cp t : Nat} {l : LiveSeal} (up : s.up = true)
    (live : tget s.gate.seals slot = some l) (deferred : l.deferUntil = some t) (past : t ≤ s.ns) (port : l.port = some cp)
    (held : l.dispatched = false) (ready : l.waiting = false) :
    exec (.deferralExpire slot) s =
      .next (passCheck { s with gate.seals := tset s.gate.seals slot { l with deferUntil := none } } slot cp) := by
  refine done_whenUp up ?_
  rw [live]
  dsimp only
  rw [deferred, Option.any_some, if_pos (decide_eq_true past), port]
  dsimp only
  rw [held, ready]
  rfl

theorem deadlineWithdraw_refuses {s : State} {slot d : Nat} {l : LiveSeal} (up : s.up = true)
    (live : tget s.gate.seals slot = some l) (tenant : l.slice ≠ 0) (held : started s slot l = false)
    (deadline : l.deadline = some d) (late : d < s.domNs) :
    exec (.deadlineWithdraw slot) s = .next (retire (failHeld s l cRefusedDeadline) slot cRefusedDeadline 0) := by
  refine done_whenUp up ?_
  rw [live]
  dsimp only
  rw [held, deadline, Option.any_some, decide_eq_true late, bne_iff_ne.mpr tenant]
  rfl

theorem castArm_mailbox {s : State} {h : MbxHdr} {kind flags fire param : Nat} (up : s.up = true)
    (takes : s.takesMailbox h 0x0501 false (le 1 kind ++ le 1 flags ++ le 2 0 ++ le 8 fire ++ le 8 param))
    (known : flags < 2) (ctx : headerCtx (mbxTaken s h) h = true) {r : State × Code × Nat × Nat × Nat}
    (armed : r = armCast (mbxTaken s h) (hslice h) kind flags fire param (some (h.ctxId, (ctxAt (mbxTaken s h) h.ctxId).gen)))
    (ok : r.2.1 = cOk) :
    exec (.castArm (.mailbox h 0) kind flags fire param) s =
      .next (mbxAnswer r.1 h 0x0501 cOk (le 2 r.2.2.1 ++ le 2 r.2.2.2.1 ++ le 8 r.2.2.2.2)) := by
  subst armed
  refine done_whenUp up ?_
  dsimp only
  rw [mailbox_takes s h _ _ _ _ takes, if_neg (by simp; omega), if_neg (by simp [ctx]), if_pos ok]

theorem castStageAck_holds {s : State} {number target : Nat} {c : Cast} (aon : s.aon = true)
    (found : tget s.casts.table number = some c) (awaited : c.targets.contains target = true) (staging : c.resting = false)
    (early : s.ns < c.fire) :
    exec (.castStageAck number target) s = .next { (netAck s target .stage (le 2 number)) with
      casts.table := tset (netAck s target .stage (le 2 number)).casts.table number { c with acked := insertN c.acked target } } := by
  refine done_whenAon aon ?_
  rw [found]
  dsimp only
  rw [awaited, if_neg (by simp), if_neg (by simp [early]), staging]
  rfl

theorem castCancel_cancels {s : State} {h : MbxHdr} {number seq : Nat} {c : Cast}
    (takes : s.takesMailbox h 0x0502 false (le 2 number ++ le 2 seq)) (found : tget (mbxTaken s h).casts.table number = some c)
    (owner : c.owner = hslice h) (same : c.seq = seq) (staging : c.resting = false) :
    exec (.castCancel h number seq) s =
      .next (mbxAnswer (castReport (mbxTaken s h) number c cCastCancelled) h 0x0502 cCastCancelled []) := by
  refine done_mailbox takes ?_
  rw [found]
  dsimp only
  rw [if_neg (by simp [owner, same]), staging]
  rfl

section
variable {s : State} {number : Nat} {c : Cast} (up : s.up = true) (found : tget s.casts.table number = some c)
  (staging : c.resting = false) (due : c.fire ≤ s.ns)
include up found staging due

theorem castFire_decides {t : State} (h : (if c.fireInv = 2 ^ 64 - 1 - c.fire && c.targets.all fun t => c.acked.contains t then
        castAction (openWatches (castReport (s.emit (.castStrobe number)) number c cOk) number c.seq) number c
      else castMissed (castReport s number c cCastFailed) c) = t) :
    exec (.castFire number) s = .next t := by
  refine done_whenUp up ?_
  rw [found]
  dsimp only
  rw [if_neg (by simp [staging, due]), h]

theorem castFire_fires (whole : c.fireInv = 2 ^ 64 - 1 - c.fire ∧ ∀ t ∈ c.targets, t ∈ c.acked) :
    exec (.castFire number) s = .next (castAction
      (openWatches (castReport (s.emit (.castStrobe number)) number c cOk) number c.seq) number c) := by
  obtain ⟨intact, acked⟩ := whole
  refine castFire_decides up found staging due (if_pos ?_)
  rw [decide_eq_true intact, Bool.true_and]
  simpa using acked

theorem castFire_fails (short : ¬ (c.fireInv = 2 ^ 64 - 1 - c.fire ∧ ∀ t ∈ c.targets, t ∈ c.acked)) :
    exec (.castFire number) s = .next (castMissed (castReport s number c cCastFailed) c) := by
  refine castFire_decides up found staging due (if_neg fun all => short ?_)
  obtain ⟨intact, acked⟩ := Bool.and_eq_true_iff.mp all
  exact ⟨of_decide_eq_true intact, by simpa using acked⟩

end

/-- Settles O32: each command by its guards; a cast fires where all its targets have acknowledged. -/
theorem admissionAndCastCommandsComplete : Obligations.AdmissionAndCastCommandsComplete :=
  ⟨fun _ => arrayClean_raises, fun _ _ _ up running => ⟨arrTileevt_own up running, arrTileevt_other up running⟩,
    fun _ _ => arrayCleanTimeout_raises, fun _ _ => arrayRecoveryTimeout_raises, fun _ _ _ _ _ => deferralExpire_passes,
    fun _ _ _ _ => deadlineWithdraw_refuses, fun _ up => done_whenUp up rfl, fun _ up => done_whenUp up rfl,
    fun _ _ _ _ _ up => ⟨done_whenUp up rfl, done_whenUp up rfl⟩,
    fun _ _ _ _ _ _ up takes known ctx => castArm_mailbox up takes known ctx rfl, fun _ _ _ _ => castStageAck_holds,
    fun _ _ _ _ _ => castCancel_cancels, fun _ _ takes => done_mailbox takes rfl,
    fun _ _ up => ⟨done_whenUp up rfl, done_whenUp up rfl⟩,
    fun _ _ _ up found staging due => ⟨castFire_fires up found staging due, castFire_fails up found staging due⟩⟩

end Sys2Proof.Machine

/-!
The unit map, training, the time reference and the clock domains (chapters 14 and 16): each command's effect where its guards hold.
-/
namespace Sys2Proof.Machine

theorem arrFaultevt_failed {s : State} {code core : Nat} (up : s.up = true) (hcode : code < 256) (hcore : core < 4608)
    (taken : (ccEvents (s.heldIn 194) 193 192 1).2 ≠ 0) :
    exec (.arrFaultevt code core true) s =
      .next (vacateCore (ccEvents (s.heldIn 194) 193 192 1).1 core (some (eventStamp s 192))) := by
  refine done_whenUp up ?_
  rw [if_neg (Nat.not_le.mpr hcode)]
  dsimp only
  rw [if_neg taken, if_pos rfl, if_pos hcore]

theorem mapFill_tests {s : State} {core time spare : Nat} (up : s.up = true) (idle : s.boot.testing = none)
    (free : s.boot.stagedFill = none) (vacant : s.boot.vacant.contains core = true) (picked : pickSpare s core = some spare) :
    exec (.mapFill core time) s = .next { s.emit (.mapCoreLoad spare) with boot.testing := some (core, spare, time) } := by
  refine done_whenUp up ?_
  rw [idle, free, vacant, picked]
  rfl

theorem spareCheckDone_passed {s : State} {l c t : Nat} (up : s.up = true) (testing : s.boot.testing = some (l, c, t))
    (spare : s.boot.spares.contains c = true)
    (staged : (stageMap { s with boot.testing := none, boot.stagedFill := some (l, c) } t).2.1 = cOk) :
    exec (.spareCheckDone true) s =
      .next (answerWrite (stageMap { s with boot.testing := none, boot.stagedFill := some (l, c) } t).1 0x4020 3 cOk) := by
  refine done_whenUp up ?_
  rw [testing]
  dsimp only
  rw [spare, staged]
  rfl

theorem spareCheckDone_failed {s : State} {l c t : Nat} (up : s.up = true) (testing : s.boot.testing = some (l, c, t)) :
    exec (.spareCheckDone false) s = .next (match pickSpare (markFailed { s with boot.testing := none } c) l with
      | none => answerWrite (markFailed { s with boot.testing := none } c) 0x4020 3 cNoSpare
      | some c' => testSpare (markFailed { s with boot.testing := none } c) l c' t) := by
  refine done_whenUp up ?_
  rw [testing]
  rfl

theorem mapRole_stages {s : State} {h : MbxHdr} {role time : Nat} {d : Nat × Nat × Nat} {g : RoleGrant}
    (takes : s.takesMailbox h 0x0604 true (le 4 role ++ le 8 time)) (manifest : (mbxTaken s h).dom.manifest = some (role, d))
    (grant : (mbxTaken s h).dom.roleGrant = some g)
    (staged : (stageMap { mbxTaken s h with boot.stagedRole := some role } time).2.1 = cOk) :
    exec (.mapRole h role time) s = .next (mbxAnswer (stageMap { mbxTaken s h with boot.stagedRole := some role } time).1 h 0x0604
      cOk (le 2 (stageMap { mbxTaken s h with boot.stagedRole := some role } time).2.2)) := by
  refine done_mailbox takes ?_
  rw [manifest, grant]
  dsimp only
  rw [if_neg (by simp), if_pos staged]

/-- Settles O33: each command by its guards. -/
theorem unitMapCommandsComplete : Obligations.UnitMapCommandsComplete :=
  ⟨fun _ _ _ => arrFaultevt_failed, fun _ _ _ _ => mapFill_tests,
    fun _ _ _ _ up testing => ⟨spareCheckDone_passed up testing, spareCheckDone_failed up testing⟩,
    fun _ _ _ _ _ _ => mapRole_stages, fun _ _ takes => done_mailbox takes rfl⟩

/-! Training (R467 to R470, R481). -/

theorem trainSave_writes {s : State} (up : s.up = true) (fits : 4 * (s.boot.trainWords.take s.boot.trainCursor).length ≤ 163840)
    (whole : trainOk (4 * (s.boot.trainWords.take s.boot.trainCursor).length)
      (wordBytes (s.boot.trainWords.take s.boot.trainCursor)) = true) :
    exec (.trainSave true) s = .next (writeStart { s with boot.trainCmd := 1, boot.trainCursor := 0, boot.trainWords := [] }
      (s.boot.trainWords.take s.boot.trainCursor)) := by
  refine done_whenUp up ?_
  dsimp only
  rw [if_neg (by decide), if_neg]
  simp only [whole, Bool.not_true, Bool.or_false, decide_eq_true_eq]
  omega

theorem retrain_notes {s : State} {ports : BitVec 32} (up : s.up = true)
    (free : ∀ p < 18, ports.getLsbD p = true → (portAt s p).spareState ≠ 1 ∧ (portAt s p).spareState ≠ 3) :
    exec (.retrain ports) s =
      .next (answerWrite { s with boot.retrain := s.boot.retrain ||| ports, boot.retrainReq := true } 0x6010 1 cOk) := by
  have idle : ((List.range 18).any fun p =>
      ports.getLsbD p && ((portAt s p).spareState == 1 || (portAt s p).spareState == 3)) = false := by
    rw [List.any_eq_false]
    intro p hp
    have := free p (List.mem_range.mp hp)
    simpa using this
  refine done_whenUp up ?_
  dsimp only
  rw [idle, if_neg (by decide)]

/-- Settles O34: each command by its guards. -/
theorem trainingCommandsComplete : Obligations.TrainingCommandsComplete := by
  refine ⟨fun s up => trainSave_writes up, fun s aon iod => ?_, fun s ports up => retrain_notes up⟩
  have on : (s.aon && s.pow.iod) = true := by rw [aon, iod]; rfl
  exact ⟨done_if on rfl, done_if on rfl, fun w saving => done_if on (if_neg saving)⟩

/-! The time reference and the time base (R80, R416 to R420). -/

/-- Settles O35: an edge is taken or rejected as its judgement says, where TREF is locked. -/
theorem timeReferenceCommandsComplete : Obligations.TimeReferenceCommandsComplete := by
  refine ⟨fun s aon unlocked stale => done_whenAon aon ?_, fun s aon locked => done_whenAon aon ?_, fun s at125ps aon => ?_⟩
  · rw [unlocked, if_neg (by decide)]
    exact if_neg (by rw [stale]; decide)
  · rw [locked, if_pos rfl]
  · refine ⟨fun unlocked => done_whenAon aon ?_, fun locked ok => done_whenAon aon ?_, fun locked bad => done_whenAon aon ?_⟩
    · rw [unlocked]
      rfl
    · rw [locked, if_neg (by decide)]
      dsimp only at ok ⊢
      rw [ok, if_pos rfl]
    · rw [locked, if_neg (by decide)]
      dsimp only at bad ⊢
      rw [bad, if_neg (by decide)]

theorem tpulseMissing_holds {s : State} {e : Nat} (aon : s.aon = true) (edge : s.time.lastEdge = some e)
    (locked : s.time.state = 3) (late : e / 1000 + 3002000 ≤ s.ns) : exec .tpulseMissing s = .next (timeTo s 4) := by
  refine done_whenAon aon ?_
  rw [if_pos]
  rw [edge, locked, Option.any_some, decide_eq_true late]
  rfl

theorem tpulseSilence_frees {s : State} {e : Nat} (aon : s.aon = true) (edge : s.time.lastEdge = some e)
    (locked : s.time.trefLocked = true) (late : e / 1000 + 1000000000 ≤ s.ns) : exec .tpulseSilence s = .next (timeTo s 1) := by
  refine done_whenAon aon ?_
  rw [if_pos]
  rw [edge, locked, Option.any_some, decide_eq_true late]
  rfl

theorem virtualEdge_latches {s : State} (aon : s.aon = true) (virtual : s.time.virtual = true) :
    exec .virtualEdge s = .next { s with time.virtualEdge := s.ns / 1000000 * 1000000 } :=
  done_whenAon aon (if_pos virtual)

/-- Settles O36: each input of the time base by its condition. -/
theorem timeBaseCommandsComplete : Obligations.TimeBaseCommandsComplete :=
  ⟨fun _ _ aon edge => ⟨tpulseMissing_holds aon edge, tpulseSilence_frees aon edge⟩, fun _ => virtualEdge_latches,
    fun _ aon => done_whenAon aon rfl⟩

/-- Settles O37: the stop's and the resumption's record, each of a domain that has not, or has, stopped. -/
theorem clockDomainCommandsComplete : Obligations.ClockDomainCommandsComplete := by
  refine ⟨fun s i aon bound running awake => done_whenAon aon (if_neg ?_), fun s i last since aon stopped => done_whenAon aon ?_⟩
  · simp [running, awake]
    omega
  · rw [stopped]

end Sys2Proof.Machine

/-!
Errors, resets and heartbeats (chapter 15): each command's effect where its guards hold.
-/
namespace Sys2Proof.Machine

/-! Neighbours' resets and flushes (R60 to R66, R38, R39). -/

section
variable {s : State} {g : Group} {index : Nat}

theorem neighbourRst_settles {u : State} (up : s.up = true) (aon : s.aon = true) (iod : s.pow.iod = true) (inside : index < groupSize g)
    (first : s.cross.nrst.contains (groupLevel g index) = false)
    (down : u = neighbourDown { s with
        cross.nrst := insertN s.cross.nrst (groupLevel g index), cross.vflush := insertN s.cross.vflush (groupLevel g index) } g index) :
    exec (.neighbourRst g index) s = .next (settleResets { u with cross := u.cross.empty (groupLevel g index) }) := by
  subst down
  refine done_whenAon aon ?_
  dsimp only
  rw [if_neg (by rw [first]; simpa using inside), iod, if_neg (by decide), if_pos up]

theorem neighbourRstRelease_settles (up : s.up = true) (aon : s.aon = true) (inside : index < groupSize g)
    (held : s.cross.nrst.contains (groupLevel g index) = true) :
    exec (.neighbourRstRelease g index) s = .next (neighbourUp (presentHeld { s with
      cross.nrst := eraseN s.cross.nrst (groupLevel g index), cross.vflush := eraseN s.cross.vflush (groupLevel g index) }) g index) := by
  refine done_whenAon aon ?_
  dsimp only
  rw [if_neg (by rw [held]; simpa using inside), if_pos up]

theorem nflushLate_records {t : Nat} (aon : s.aon = true) (inside : index < groupSize g)
    (asserted : s.cross.vrst.contains (groupLevel g index) = true) (waiting : levelFlushed s (groupLevel g index) = false)
    (since : tget s.cross.vrstAt (groupLevel g index) = some t) (late : t + 1000000 ≤ s.ns) :
    exec (.nflushLate g index) s = .next (flushed (record
        { s with
          cross.late := true, cross.lateCount := sat 15 (s.cross.lateCount + 1), cross.lateIndex := index
          cross.lateGroup := groupCode g }
        1 0 (groupUnit g index) (errDetail 61 (groupUnit g index) index (le 1 (groupCode g) ++ le 1 index))) g index) := by
  refine done_whenAon aon ?_
  dsimp only
  rw [asserted, waiting, since, Option.any_some, decide_eq_true late, if_neg (by simpa using inside)]

end

/-! The parallel network's messages (R68). -/

section
variable {s : State} {r : Resend} {m : NetMsg} {rest : List NetMsg} (up : s.up = true)
  (oldest : ((netLink s r.leaf).dir r.fromLeaf).sent = m :: rest) (works : (netLink s r.leaf).failed = false)
  (due : r.rejected = true ∨ m.sentAt + 2000 ≤ s.ns)
include up oldest works due

theorem networkResend_acts {t : State} (h : (if m.tries + 1 < 3 then
        { s.emit (.networkMessage r.leaf m.seq.toNat) with
          net := tset s.net r.leaf ((netLink s r.leaf).setDir r.fromLeaf (NetDir.take { ((netLink s r.leaf).dir r.fromLeaf) with
            sent := { m with tries := m.tries + 1, sentAt := s.ns } :: rest } m.seq)) }
      else raise
        { s with net := tset s.net r.leaf { (netLink s r.leaf) with
            down := { (netLink s r.leaf).down with sent := [] }, up := { (netLink s r.leaf).up with sent := [] }
            failed := true, failedBefore := true } }
        { unit := r.leaf, cls := if 0x40 ≤ r.leaf || (netLink s r.leaf).failedBefore then 4 else 3, cause := 39 } 0 0) = t) :
    exec (.networkResend r) s = .next t := by
  have resends : (r.rejected || decide (m.sentAt + 2000 ≤ s.ns)) = true := by simpa using due
  refine done_whenUp up ?_
  dsimp only
  rw [oldest]
  dsimp only
  rw [works, resends, if_neg (by decide), h]

theorem networkResend_again (few : m.tries + 1 < 3) :
    exec (.networkResend r) s = .next { s.emit (.networkMessage r.leaf m.seq.toNat) with
      net := tset s.net r.leaf ((netLink s r.leaf).setDir r.fromLeaf (NetDir.take { ((netLink s r.leaf).dir r.fromLeaf) with
        sent := { m with tries := m.tries + 1, sentAt := s.ns } :: rest } m.seq)) } :=
  networkResend_acts up oldest works due (if_pos few)

theorem networkResend_fails (many : 3 ≤ m.tries + 1) :
    exec (.networkResend r) s = .next (raise
      { s with net := tset s.net r.leaf { (netLink s r.leaf) with
          down := { (netLink s r.leaf).down with sent := [] }, up := { (netLink s r.leaf).up with sent := [] }
          failed := true, failedBefore := true } }
      { unit := r.leaf, cls := if 0x40 ≤ r.leaf || (netLink s r.leaf).failedBefore then 4 else 3, cause := 39 } 0 0) :=
  networkResend_acts up oldest works due (if_neg (Nat.not_lt.mpr many))

end

/-! Latched errors and their handlers (R439 to R443). -/

theorem errorLatch_raises {s : State} {unit cls cause whereAt : Nat} {scope : ErrScope} (up : s.up = true)
    (known : unitExists unit = true) (cls5 : cls ≤ 5) (plain : cause ∉ ([49, 231, 272, 286, 299] : List Nat)) :
    exec (.errorLatch unit cls cause whereAt scope) s = .next (raise s
      { unit := unit, cls := cls, cause := cause, whereAt := whereAt, scope := scope
        slice := match scope with
          | .partition n => some n
          | .context c => some (ctxAt s c).slice
          | _ => none
        ctx := match scope with
          | .context c => some (c, (ctxAt s c).gen)
          | _ => none }
      (latchKill unit cause) (checkCode cause)) := by
  simp only [List.mem_cons, List.not_mem_nil, or_false, not_or] at plain
  obtain ⟨h49, h231, h272, h286, h299⟩ := plain
  refine done_whenUp up ?_
  dsimp only
  rw [known, if_neg (by simpa using cls5), if_neg fun h => h286 h.2.2, if_neg fun h => h299 h.2.2.1,
    if_neg fun h => h272 h.2.2.1, if_neg fun h => h299 h.2.1, if_neg h49, if_neg fun h => h231 h.1, if_neg fun h => h231 h.1] <;> rfl

theorem errorClose_closes {s : State} {unit : Nat} {o : OpenErr} (up : s.up = true) (works : s.pow.tcuDown = false)
    (opened : tget s.err.banks unit = some o) (low : o.cls ≤ 2) :
    exec (.errorClose unit) s = .next (closeBank s unit (if o.cls = 2 then 1 else 0) false) := by
  refine done_whenUp up ?_
  rw [works, opened]
  exact if_pos low

theorem tcuRestart_restarts {s : State} (up : s.up = true) (c : TcuCause) (other : c ≠ .exception) :
    exec (.tcuRestart c) s = .next (tcuRestart s c) :=
  done_whenUp up (by rw [if_neg other])

theorem tcuRestart_exception {s : State} (up : s.up = true) :
    exec (.tcuRestart .exception) s = .next (tcuRestart (raiseS3 s uTcu 440 0) .exception) :=
  done_whenUp up (by rw [if_pos rfl])

section
variable {s : State} {unit d : Nat} {o : OpenErr} (up : s.up = true) (opened : tget s.err.banks unit = some o)
  (deadline : handlerDeadline o = some d) (missed : o.latchedAt + d ≤ s.ns)
include up opened deadline missed

theorem handlerDeadlineMiss_acts {t : State} (h : (if o.cls = 4 then chipDue { s with pow.tcuDown := true } unit
    else if 1 ≤ o.restarts then raiseS4 s unit 439 o.whereAt else tcuRestart (sentinelError s 3 450) .deadline) = t) :
    exec (.handlerDeadlineMiss unit) s = .next t := by
  refine done_whenUp up ?_
  rw [opened]
  dsimp only
  rw [deadline]
  dsimp only
  rw [if_neg (Nat.not_lt.mpr missed), h]

theorem handlerDeadlineMiss_resets (s4 : o.cls = 4) :
    exec (.handlerDeadlineMiss unit) s = .next (chipDue { s with pow.tcuDown := true } unit) :=
  handlerDeadlineMiss_acts up opened deadline missed (if_pos s4)

theorem handlerDeadlineMiss_raises (other : o.cls ≠ 4) (again : 1 ≤ o.restarts) :
    exec (.handlerDeadlineMiss unit) s = .next (raiseS4 s unit 439 o.whereAt) :=
  handlerDeadlineMiss_acts up opened deadline missed (by rw [if_neg other, if_pos again])

theorem handlerDeadlineMiss_restarts (other : o.cls ≠ 4) (first : o.restarts = 0) :
    exec (.handlerDeadlineMiss unit) s = .next (tcuRestart (sentinelError s 3 450) .deadline) :=
  handlerDeadlineMiss_acts up opened deadline missed (by rw [if_neg other, if_neg (by omega)])

end

/-! Engine, partition and chip resets (R444 to R447). -/

section
variable {s : State} {unit : Nat} {pools : List (Nat × List Nat)} (up : s.up = true) (known : unitExists unit = true)
  (other : unit ≠ uTcu) (idle : resetting s unit = false)
include up known other idle

theorem engineReset_begins (engine : ¬ (0x20 ≤ unit ∧ unit < 0x24)) :
    exec (.engineReset unit pools) s = .next (beginReset s (.engine unit pools)) :=
  done_whenUp up (by rw [if_neg (by simp [known, idle]), if_neg other, if_neg engine])

theorem engineReset_pewter (pewter : 0x20 ≤ unit ∧ unit < 0x24) :
    exec (.engineReset unit pools) s = .next (pewterClose s (unit - 0x20) pools) :=
  done_whenUp up (by rw [if_neg (by simp [known, idle]), if_neg other, if_pos pewter])

end

section
variable {s : State} {slice : Nat} (up : s.up = true) (known : sliceExists s slice = true)
include up known

theorem partitionReset_ofError (cause : s.err.banks.any (fun b => b.2.cls == 3 && b.2.scope == .partition slice) = true) :
    exec (.partitionReset slice) s = .next (partitionReset s slice) :=
  done_whenUp up (by rw [known, if_neg (by simp), if_pos cause])

theorem partitionReset_counts {u : State} (cause : s.err.banks.any (fun b => b.2.cls == 3 && b.2.scope == .partition slice) = false)
    (counted : u = { s with err.partitionTimes := (slice, s.ns) :: s.err.partitionTimes }) :
    exec (.partitionReset slice) s = .next
      (if 3 ≤ recent u u.err.partitionTimes slice then raiseS4 u uTcu 440 slice else partitionReset u slice) := by
  subst counted
  exact done_whenUp up (by rw [known, if_neg (by simp), cause, if_neg (by simp)])

end

theorem chipWarmReset_begins {s : State} {c : ChipCause} (aon : s.aon = true) (free : s.pow.heldInReset = false)
    (iod : s.pow.iod = true) (idle : chipWaits s = false) (started : s.boot.wasReset = false) :
    exec (.chipWarmReset c) s = .next (if errorCaused c = true ∧ 2 ≤ chipWindow s then powerCycle s else chipReset s c) := by
  refine done_whenAon aon ?_
  rw [free, iod, idle, started, if_neg (by decide)]
  simp only [Bool.and_eq_true, decide_eq_true_eq]

theorem noticeRepeat_repeats {s : State} {b : Bytes} {rest : List Bytes} (aon : s.aon = true) (front : s.err.noticePending = b :: rest)
    (due : s.err.noticeAt + 10000000 ≤ s.ns) :
    exec .noticeRepeat s = .next (canNotice { s with
      err.noticePending := rest, err.noticeAt := s.err.noticeAt + 10000000, err.noticeRepeats := s.err.noticeRepeats - 1
      err.lastNotice := b } b) := by
  refine done_whenAon aon ?_
  rw [front]
  exact if_neg (Nat.not_lt.mpr due)

/-- The verdict of R453 on a release request in which nothing fails. -/
theorem quenchRelease_releases {s : State} {r : SignedReq} (aon : s.aon = true) (idle : lcBusy s = false)
    (unlocked : s.lc.lockout = false)
    (form : r.length = 7508 ∧ r.format = 0x20 ∧ r.reserved = 0 ∧ r.opens = 0 ∧ r.newBinding = 0 ∧ r.scope = 0)
    (signer : releaseSigner r = true) (quenched : s.pow.quenched = true) (unit : r.unitId = unitId) (code : r.fromCode = s.lc.code)
    (session : r.sessionId = s.pow.sessionId) (nonce : nonceNow s = some r.nonce) (allowed : signerOk s r = true)
    (signed : hybOk r.signerKey (reqBytes r) r.signature = true) :
    exec (.quenchRelease r) s = .next { lcResult s 0x7F00 3 1 with
      pow.quenched := false, pow.ready := false, err.coldForced := true, pow.pendingChip := some 0x100 } := by
  obtain ⟨length, format, reserved, opens, binding, scope⟩ := form
  refine done_whenAon aon ?_
  rw [idle, unlocked, length, format, reserved, opens, binding, scope, signer, quenched, allowed, signed, unit, code, session, nonce]
  simp

/-- Settles O38: each command by its guards. -/
theorem resetNoticeErrorAndResetCommandsComplete : Obligations.ResetNoticeErrorAndResetCommandsComplete :=
  ⟨fun s g index up iod inside =>
      ⟨fun first => neighbourRst_settles up (aon_of_up up) iod inside first rfl,
        neighbourRstRelease_settles up (aon_of_up up) inside⟩,
    fun _ _ _ aon inside asserted => ⟨done_whenAon aon (if_pos inside), fun _ => nflushLate_records aon inside asserted⟩,
    fun _ _ _ _ up oldest works due => ⟨networkResend_again up oldest works due, networkResend_fails up oldest works due⟩,
    fun _ _ _ _ _ _ => errorLatch_raises, fun _ _ _ => errorClose_closes,
    fun _ up => ⟨tcuRestart_restarts up, tcuRestart_exception up, done_whenUp up rfl⟩,
    fun _ _ _ _ up opened deadline missed => ⟨handlerDeadlineMiss_resets up opened deadline missed,
      handlerDeadlineMiss_raises up opened deadline missed, handlerDeadlineMiss_restarts up opened deadline missed⟩,
    fun _ _ _ up known other idle => ⟨engineReset_begins up known other idle, engineReset_pewter up known other idle⟩,
    fun _ _ up known => ⟨partitionReset_ofError up known, fun cause => partitionReset_counts up known cause rfl⟩,
    fun _ _ => chipWarmReset_begins, fun _ _ _ => noticeRepeat_repeats,
    fun _ _ _ _ up known => done_whenUp up (if_pos known), fun _ _ => quenchRelease_releases⟩

/-! Heartbeats and the sentinels (R449, R450, R457). -/

section
variable {s : State} {beat inv : BitVec 16} (aon : s.aon = true) (iod : s.pow.iod = true)
include aon iod

theorem hbTcu_takes (next : beat = s.err.hbTcu + 1) (idle : tcuWaits s = false) :
    exec (.hbTcu true beat (~~~beat)) s = .next (tcuBeat s beat) :=
  done_if (by rw [aon, iod]; rfl) (if_pos (by rw [beq_iff_eq.mpr next, beq_self_eq_true, idle]; rfl))

theorem hbMgmt_takes (next : beat = s.err.hbMgmt + 1) :
    exec (.hbMgmt true beat (~~~beat)) s =
      .next { s with err.hbMgmt := beat, err.mgmtBeatAt := some s.ns, err.armMgmt := true } :=
  done_if (by rw [aon, iod]; rfl) (if_pos (by rw [beq_iff_eq.mpr next, beq_self_eq_true]; rfl))

theorem hbTcu_ignores {fromTcu : Bool} (other : fromTcu = false ∨ inv ≠ ~~~beat) :
    exec (.hbTcu fromTcu beat inv) s = .next { s with err.ignoredBeats := s.err.ignoredBeats + 1 } := by
  refine done_if (by rw [aon, iod]; rfl) (if_neg ?_)
  simp only [Bool.and_eq_true, beq_iff_eq]
  rintro ⟨⟨⟨tcu, -⟩, complement⟩, -⟩
  exact other.elim (by simp [tcu]) (· complement)

theorem hbMgmt_ignores {fromMgmt : Bool} (other : fromMgmt = false ∨ inv ≠ ~~~beat) :
    exec (.hbMgmt fromMgmt beat inv) s = .next { s with err.ignoredBeats := s.err.ignoredBeats + 1 } := by
  refine done_if (by rw [aon, iod]; rfl) (if_neg ?_)
  simp only [Bool.and_eq_true, beq_iff_eq]
  rintro ⟨⟨mgmt, -⟩, complement⟩
  exact other.elim (by simp [mgmt]) (· complement)

end

section
variable {s : State} {t : Nat} (w : watched s = true)
include w

theorem tcuBeatTimeout5ms_restarts (since : s.err.tcuBeatAt = some t) (armed : s.err.arm5 = true) (late : t + 5000000 ≤ s.ns) :
    exec .tcuBeatTimeout5ms s = .next (tcuRestart (sentinelError s 3 450) .sentinel) :=
  done_if (by rw [w, armed, since, Option.any_some, decide_eq_true late]; rfl) rfl

theorem tcuBeatTimeout50ms_resets (since : s.err.tcuBeatAt = some t) (armed : s.err.arm50 = true) (late : t + 50000000 ≤ s.ns) :
    exec .tcuBeatTimeout50ms s =
      .next (sentinelChip { s with pow.tcuDown := true, err.arm50 := false, err.arm5 := false }) :=
  done_if (by rw [w, armed, since, Option.any_some, decide_eq_true late]; rfl) rfl

theorem mgmtHbTimeout_resets (armed : s.err.armMgmt = true) (since : s.err.mgmtBeatAt = some t)
    (late : t + setting s 0x7F01 2 * 1000000 ≤ s.ns) :
    exec .mgmtHbTimeout s = .next (sentinelChip { s with err.armMgmt := false }) :=
  done_if (by rw [w, armed, since, Option.any_some, decide_eq_true late]; rfl) rfl

theorem mgmtHbNotArmed_resets (none : s.pow.pendingChip = none) (ready : s.pow.ready = true) (unarmed : s.err.armMgmt = false)
    (late : s.err.readyAt + 10000000000 ≤ s.ns) : exec .mgmtHbNotArmed s = .next (sentinelChip s) :=
  done_if (by rw [w, ready, unarmed, none, decide_eq_true late]; rfl) rfl

theorem startBeatTimeout_resets (none : s.pow.pendingChip = none) (begun : s.boot.starts ≠ 0) (fresh : s.boot.wasReset = false)
    (silent : s.err.startBeat = false) (late : s.err.startAt + 5000000000 ≤ s.ns) :
    exec .startBeatTimeout s = .next (sentinelChip { s with pow.tcuDown := true }) :=
  done_if (by rw [w, bne_iff_ne.mpr begun, fresh, silent, none, decide_eq_true late]; rfl) rfl

end

/-- Settles O39: each beat by what it carries, each timeout by what it watches. -/
theorem heartbeatAndSentinelCommandsComplete : Obligations.HeartbeatAndSentinelCommandsComplete :=
  ⟨fun _ _ aon iod => ⟨hbTcu_takes aon iod, hbMgmt_takes aon iod,
      fun _ => ⟨hbTcu_ignores aon iod (.inl rfl), hbMgmt_ignores aon iod (.inl rfl)⟩,
      fun _ other => ⟨hbTcu_ignores aon iod (.inr other), hbMgmt_ignores aon iod (.inr other)⟩⟩,
    fun _ _ w since => ⟨tcuBeatTimeout5ms_restarts w since, tcuBeatTimeout50ms_resets w since⟩,
    fun _ _ w => mgmtHbTimeout_resets w, fun _ w none => ⟨mgmtHbNotArmed_resets w none, startBeatTimeout_resets w none⟩,
    fun _ aon => ⟨fun b => done_if (by rw [aon, if_pos rfl, b]; rfl) rfl, fun a => done_if (by rw [aon, if_neg (by decide), a]; rfl) rfl⟩⟩

end Sys2Proof.Machine

/-!
Signed writes, firmware, health and the hold-up save (chapters 16, 17 and 19): each command's effect where its guards hold.
-/
namespace Sys2Proof.Machine

/-! Signed writes (R163, R457, R526, R539). -/

theorem signedWrite_applies {s : State} {index sub : Nat} {e : Envelope} (apply : State → Bytes → State × Verdict)
    (valid : envCheck s index sub e = 1) :
    signedWrite s index sub e apply = answer (apply (lcSet s 1 true) e.value).1 0x82 index sub (apply (lcSet s 1 true) e.value).2.1
      (apply (lcSet s 1 true) e.value).2.2 (if (apply (lcSet s 1 true) e.value).2.1 = 0 then 1 else 0) [] := by
  unfold signedWrite
  dsimp only
  rw [valid, if_neg (by decide)]

/-! Firmware images (R463 to R465, R471, R480). -/

theorem presentImage_takes {s : State} {i : Image} (good : imageCheck s i 1 = 0) {u : State}
    (recorded : u = imageRecord { s with boot.fwResult := 0 } i 0) :
    presentImage s i = ({ u with
      boot.area := some i, boot.areaValid := true, boot.pending := u.boot.running != some i
      pow.pendingChip := if s.boot.loader then some 0x100 else u.pow.pendingChip }, 0) := by
  subst recorded
  unfold presentImage
  dsimp only
  rw [good, if_neg (by decide)]
  simp [imageRecord]

theorem fwImage_installs {s u : State} {i : Image} (takes : takesImage s = true) (good : imageCheck s i 1 = 0)
    (recorded : u = imageRecord { s with boot.fwResult := 0 } i 0) :
    exec (.fwImage i) s = .next (answer { u with
      boot.area := some i, boot.areaValid := true, boot.pending := u.boot.running != some i
      pow.pendingChip := if s.boot.loader then some 0x100 else u.pow.pendingChip } 0x82 0x2010 1 0 cOk 0 []) := by
  refine done_if takes ?_
  rw [presentImage_takes good recorded]
  rfl

theorem done_fwMailbox {s t : State} {h : MbxHdr} {opcode : Nat} {body b : Bytes} {c : Code} {run : State → State × Code × Bytes}
    (started : s.boot.loader = false) (takes : s.takesMailbox h opcode true body) (ran : run (mbxTaken s h) = (t, c, b)) :
    done (fwMailbox s h opcode body run) = .next (mbxAnswer t h opcode c b) := by
  unfold fwMailbox
  rw [started]
  exact done_mailbox takes ran

theorem fwChunk_puts {s u : State} {h : MbxHdr} {offset : Nat} {data : Bytes} (started : s.boot.loader = false)
    (takes : s.takesMailbox h 0x0601 true (le 4 offset ++ data)) (short : data.length ≤ 960)
    (inside : offset + data.length ≤ 2097152) (taken : u = mbxTaken s h) :
    exec (.fwChunk h offset data) s = .next (mbxAnswer { u with
      boot.chunkBuf := fit offset u.boot.chunkBuf ++ data ++ u.boot.chunkBuf.drop (offset + data.length) } h 0x0601 cOk []) := by
  subst taken
  refine done_fwMailbox started takes ?_
  rw [if_neg (by simp only [Bool.or_eq_true, decide_eq_true_eq]; omega)]

theorem afwLoad_begins {s : State} {h : MbxHdr} {page : Nat} (takes : s.takesMailbox h 0x0603 true (le 2 page))
    (inside : page < 16384) (idle : (mbxTaken s h).boot.afwBusy = false) (free : (mbxTaken s h).boot.fillArmed = none) :
    exec (.afwLoad h page) s = .next (mbxAnswer { mbxTaken s h with boot.afwSrc := page, boot.afwBusy := true } h 0x0603 cOk []) := by
  refine done_mailbox takes ?_
  rw [if_neg (Nat.not_le.mpr inside), idle, free]
  rfl

theorem afwCtrlGo_broadcasts {s u v : State} {i : Image} {coresFailed : List Nat} (up : s.up = true)
    (free : s.boot.fillArmed = none) (locked : u = lockPages (unlockPages { s with boot.afwBusy := false }) (7552 + i.bodyLen))
    (switched : v = (arrayCut (imageRecord u i 0)).emit (.arrSwitch 0 0 0)) (good : imageCheck u i 2 = 0) :
    exec (.afwCtrlGo i coresFailed) s = .next (loadFailures
      { (v.emit (.afwBroadcast (v.boot.afwSrc * 2 ^ 26 + 7552) i.bodyLen (crc64 i.body))) with
        boot.afwResult := 0, boot.afwFailed := coresFailed.length, boot.afwDigest := i.bodyDigest
        boot.afwVersion := i.version } coresFailed) := by
  subst switched
  subst locked
  refine done_whenUp up ?_
  generalize ({ s with boot.afwBusy := false } : State) = s0 at good ⊢
  dsimp only
  rw [free, if_neg (by decide), good, if_neg (not_not_intro rfl)]

/-! Health plans, the optics and the hold-up capacitor (R485, R486, R490, R492, R498). -/

theorem creepRecord_writes {s : State} (up : s.up = true) (due : s.health.creepAt ≤ s.ns) :
    exec .creepRecord s = .next (record { s with health.creepAt := s.ns + 86400000000000 } 0x0050 7 srcHealth
      (le 2 s.health.maxCreep ++ le 2 (median ((s.health.gauges.filter fun g => !g.2.excluded).map (·.2.creep))) ++
        le 1 s.health.worst)) :=
  done_whenUp up (by rw [if_neg (Nat.not_lt.mpr due)])

section
variable {s : State} {port : Nat} (up : s.up = true) (inside : port < 18)
include up inside

theorem opticsIn_takes {u : State} {word : BitVec 32} (written : u = { s with
       health.optics := tset s.health.optics port (word &&& 0x3FFFFFFF#32), health.opticsAt := tset s.health.opticsAt port s.ns
       health.opticsRec := tdel s.health.opticsRec (staleKey port) }) :
    exec (.opticsIn true port word) s = .next { u with health.opticsStale := (List.range 18).any (opticsStaleAt u) } := by
  subst written
  exact done_whenUp up (by rw [if_neg (Nat.not_le.mpr inside), if_neg (by decide)])

theorem opticsStale_latches (fresh : opticsStaleAt s port = false)
    (late : tgetD s.health.opticsAt port s.err.readyAt + 1000000000 ≤ s.ns) :
    exec (.opticsStale port) s = .next (latch { s with
        health.opticsRec := tset s.health.opticsRec (staleKey port) s.ns, health.opticsStale := true }
        { unit := port, cls := 0, cause := 490, whereAt := port, source := some srcHealth }) := by
  refine done_whenUp up ?_
  rw [fresh, decide_eq_false (Nat.not_le.mpr inside), if_neg (by simpa using late)]

end

theorem vholdSample_sets {s u : State} {mv : Nat} {armed : Bool} (aon : s.aon = true) (level : armed = decide (4800 ≤ mv))
    (set : u = { s with health.vholdMv := mv, health.modeAvail := holdMode mv, health.armed := armed }) :
    exec (.vholdSample mv) s = .next
      (if armed = s.health.armed ∨ (s.health.vholdMv = 0 ∧ s.health.armed = false) then u
       else latch u { unit := uTcu, cls := if armed then 0 else 1, cause := 492, whereAt := mv, source := some srcHold }) := by
  subst set level
  refine done_whenAon aon ?_
  simp only [Bool.or_eq_true, Bool.and_eq_true, beq_iff_eq, Bool.not_eq_true']

/-! The save on a failing supply (R493, R498). -/

/-- The state after the freeze and the fall of the member that a failing supply begins with. -/
def saveFrozen (s : State) : State := freezeNow (memberDown { s with pins.pfailLow := true } 5 s.pow.tcuDown) 3

/-- The state after a save whose ingot's writing answered `r` in the mode. -/
def saveEnds (e : SaveEnv) (r : State × Nat) (mode : Nat) : State :=
  let v := resetRec (zeroiseKeys (dropCasts r.1)) 5 0xFF 7 none
  { v with
    pow.saving := true, pow.iod := false, pow.cdieA := false, pow.cdieB := false
    cross.vrst := [], cross.vflush := [], cross.vrstAt := [], cross.resets := [], cross.held := []
    err.arm5 := false, err.arm50 := false, health.saves := v.health.saves + 1
    health.lastMode := mode, health.lastResult := r.2, health.lastDuration := e.durationUs / 10
    health.lastEndMv := e.endMv }

/-- What a save writes: the ingot of its mode under the storage key, or none. -/
def saveWritten (s : State) (e : SaveEnv) (key : Option Key) (mode : Nat) : State × Nat :=
  match key, mode with
  | some k, 1 => writeIngot (saveFrozen s) 1 e k
  | some k, 2 => writeIngot (saveFrozen s) 2 e k
  | _, _ => ({ saveFrozen s with health.unsaved := some 3 }, 3)

section
variable {s : State} {e : SaveEnv} (aon : s.aon = true) (first : s.pow.saving = false) (iod : s.pow.iod = true)
include aon first iod

theorem pfailN_saves : exec (.pfailN e) s = .next (saveEnds e
    (saveWritten s e (canSave s) (if (canSave s).isSome then holdMode e.startMv else 0))
    (if (canSave s).isSome then holdMode e.startMv else 0)) := by
  refine done_whenAon aon ?_
  rw [first, iod, if_neg (by decide)]
  rfl

theorem pfailN_writes {key : Key} (held : canSave s = some key) (level : 4200 ≤ e.startMv) :
    exec (.pfailN e) s = .next (saveEnds e (writeIngot (saveFrozen s) (holdMode e.startMv) e key) (holdMode e.startMv)) := by
  rw [pfailN_saves aon first iod, held, Option.isSome_some, if_pos rfl]
  by_cases full : 4800 ≤ e.startMv
  · rw [holdMode, if_pos full]; rfl
  · rw [holdMode, if_neg full, if_pos level]; rfl

theorem pfailN_writesNone (short : canSave s = none ∨ e.startMv < 4200) :
    exec (.pfailN e) s = .next (saveEnds e ({ saveFrozen s with health.unsaved := some 3 }, 3) 0) := by
  have none_mode : (if (canSave s).isSome then holdMode e.startMv else 0) = 0 := by
    obtain none | low := short
    · rw [none]; rfl
    · have empty : holdMode e.startMv = 0 := by
        rw [holdMode, if_neg (Nat.not_le.mpr (low.trans (by decide))), if_neg (Nat.not_le.mpr low)]
      rw [empty, ite_self]
  rw [pfailN_saves aon first iod, none_mode]
  cases canSave s <;> rfl

end

theorem pfailN_completes {s u : State} {e : SaveEnv} {ends : State × Nat → Nat → State} (frozen : u = saveFrozen s)
    (ending : ends = saveEnds e) (aon : s.aon = true) (first : s.pow.saving = false) (iod : s.pow.iod = true) :
    (∀ key, canSave s = some key → 4200 ≤ e.startMv →
      exec (.pfailN e) s = .next (ends (writeIngot u (holdMode e.startMv) e key) (holdMode e.startMv))) ∧
    (canSave s = none ∨ e.startMv < 4200 →
      exec (.pfailN e) s = .next (ends ({ u with health.unsaved := some 3 }, 3) 0)) := by
  subst frozen ending
  exact ⟨fun _ => pfailN_writes aon first iod, pfailN_writesNone aon first iod⟩

/-- Settles O40: each command by its guards. -/
theorem envelopeFirmwareAndHealthCommandsComplete : Obligations.EnvelopeFirmwareAndHealthCommandsComplete :=
  ⟨fun _ _ served valid => done_if (by simpa using served) (signedWrite_applies resetValue valid),
    fun _ _ up valid => done_whenUp up (signedWrite_applies dumpValue valid),
    fun _ _ takes good => fwImage_installs takes good rfl,
    fun _ _ _ _ started takes short inside => fwChunk_puts started takes short inside rfl,
    fun _ _ _ started takes => done_fwMailbox started takes rfl, fun _ _ _ => afwLoad_begins,
    fun _ _ _ up free good => afwCtrlGo_broadcasts up free rfl rfl good, fun _ _ up => done_whenUp up rfl,
    fun _ => creepRecord_writes, fun _ _ _ up inside => ⟨opticsIn_takes up inside rfl, opticsStale_latches up inside⟩,
    fun _ _ aon => vholdSample_sets aon rfl rfl,
    by
      intro s e aon first iod u ends
      exact pfailN_completes (u := u) (ends := ends) rfl rfl aon first iod⟩

end Sys2Proof.Machine

/-!
The leadbox, the counters, the tensor watches, the management network's dictionary, and page and register accesses
(chapters 18 and 19): each command's effect where its guards hold.
-/
namespace Sys2Proof.Machine

/-! The leadbox (R501 to R510). -/

theorem leadboxRecord_writes {s : State} {r : LbxRec} {rest : List LbxRec} (aon : s.aon = true) (front : s.lbx.queue = r :: rest)
    (ok : nextOk s = true) (ready : s.lbx.ready = true) :
    exec .leadboxRecord s = .next (dropRecord (writeRec { s with lbx.queue := rest } r false)) := by
  refine done_whenAon aon ?_
  rw [front]
  dsimp only
  rw [ok, ready]
  rfl

theorem writeRec_slot (s : State) (r : LbxRec) (sentinel : Bool) :
    tget (writeRec s r sentinel).lbx.slots (lbxSlotOf s.lbx.next.toNat) = some (recSlot s r sentinel) := tget_tset_same ..

theorem lbxVerify_notes {s : State} {n : Nat} {u : State} (iod : s.pow.iod = true) (cursor : n = s.lbx.cursor.toNat)
    (noted : u = { s with
      lbx.verifyResult := recVerify s n, lbx.verifyState := recState s n
      lbx.verifySeq := (slotUnder s n).seq.toNat % 65536 }) :
    exec .lbxVerify s = .next (if recVerify s n = 3 then
      latch u { unit := uTcu, cls := 1, cause := 508, whereAt := n, source := some srcLbx } else u) := by
  subst cursor noted
  exact done_if iod rfl

/-- Settles O41: each command by its guards; the record just written stands in its slot. -/
theorem leadboxCommandsComplete : Obligations.LeadboxCommandsComplete :=
  ⟨fun s r rest aon front ok ready => ⟨leadboxRecord_writes aon front ok ready, writeRec_slot { s with lbx.queue := rest } r false⟩,
    fun _ aon => done_whenAon aon rfl, fun _ aon => done_whenAon aon rfl,
    fun _ _ iod => ⟨done_if iod rfl, fun auto => done_if (by rw [iod, auto]; rfl) rfl, done_if iod rfl,
      lbxVerify_notes iod rfl rfl⟩,
    fun _ _ served => ⟨done_if_not served rfl, done_if_not served rfl⟩⟩

/-! Frozen and live counters (R511 to R513), and the tensor watches (R515 to R524). -/

theorem liveCounterLo_latches {s : State} {i : Nat} (up : countersUp s = true) (inside : i < 1040) :
    exec (.liveCounterLo (64 + 8 * i)) s = .next { s with cnt.latchHi := BitVec.ofNat 32 (tcount s.cnt.live i / 2 ^ 32) } := by
  have place : (64 + 8 * i - 64) / 8 = i := by omega
  refine done_if ?_ (by rw [place])
  simp only [up, Bool.true_and, Bool.and_eq_true, decide_eq_true_eq, beq_iff_eq]
  omega

theorem watchArm_arms {s : State} {h : MbxHdr} {b : WatchBody} (takes : s.takesMailbox h 0x0701 false (watchBytes b))
    (share : watchUse (mbxTaken s h) (hslice h) < watchQuota (mbxTaken s h) (hslice h))
    (room : (mbxTaken s h).watch.table.length < 256) (rights : watchRights (mbxTaken s h) h b = none)
    (dump : bit b.modes 2 = true → (ctxAt (mbxTaken s h) h.ctxId).debuggable = true ∧ setting (mbxTaken s h) 0x7200 2 = 1)
    (mapped : watchMapped (mbxTaken s h) h.ctxId b = true) (valid : watchValid b = true) :
    exec (.watchArm h b) s = .next (mbxAnswer (armWatch (mbxTaken s h) h b).1 h 0x0701 cOk
      (le 2 (leastFree (mbxTaken s h).watch.table 0))) := by
  refine done_mailbox takes ?_
  rw [if_neg (by simp only [Bool.or_eq_true, decide_eq_true_eq]; omega), rights]
  dsimp only
  rw [if_neg (by
    cases asked : bit b.modes 2 with
    | false => exact Bool.false_ne_true
    | true => obtain ⟨debuggable, enabled⟩ := dump asked; simp [debuggable, enabled]), mapped, valid]
  rfl

theorem armWatch_body (s : State) (h : MbxHdr) (b : WatchBody) :
    (tget (armWatch s h b).1.watch.table (leastFree s.watch.table 0)).map (·.body) = some b := by
  unfold armWatch
  dsimp only
  rw [tget_tset_same]
  rfl

theorem watchCancel_cancels {s : State} {h : MbxHdr} {n : Nat} {w : Watch} (takes : s.takesMailbox h 0x0702 false (le 2 n))
    (found : tget (mbxTaken s h).watch.table n = some w) (slice : w.slice = hslice h) (ctx : w.ctx = h.ctxId) :
    exec (.watchCancel h n) s = .next (mbxAnswer (settle (signal { mbxTaken s h with
      watch.table := tdel (mbxTaken s h).watch.table n, watch.closed := (mbxTaken s h).watch.closed + 1 } w.body.event
      cCastCancelled)) h 0x0702 cOk []) := by
  refine done_mailbox takes ?_
  rw [found]
  dsimp only
  rw [if_neg (by simp [slice, ctx])]

theorem digestRotate_rotates {s : State} {h : MbxHdr} (takes : s.takesMailbox h 0x0703 false [])
    (closed : digestOpen (mbxTaken s h) (hslice h) = false) :
    exec (.digestRotate h) s = .next (mbxAnswer (rotateDigest (mbxTaken s h) (hslice h)) h 0x0703 cOk
      (le 4 (genAt (rotateDigest (mbxTaken s h) (hslice h)).vault.digestGen (hslice h)).toNat)) := by
  refine done_mailboxLater takes ?_
  rw [if_neg (by simp [closed])]

theorem digestRotate_waits {s v : State} {h : MbxHdr} (takes : s.takesMailbox h 0x0703 false [])
    (opened : digestOpen (mbxTaken s h) (hslice h) = true)
    (waits : v = { mbxTaken s h with watch.rotateWaiting := (mbxTaken s h).watch.rotateWaiting ++ [h] }) :
    exec (.digestRotate h) s = .next { v with mbx := tset v.mbx h.page { mbxPage v h.page with busy := true } } := by
  subst waits
  refine congrArg Host.Outcome.next (mailboxLater_waits s _ h 0x0703 false [] _ takes ?_)
  rw [if_pos opened]

theorem watchTimeout_closes {s : State} {n t : Nat} {w : Watch} (up : s.up = true) (found : tget s.watch.table n = some w)
    (opened : w.openAt = some t) (late : t + w.timeoutMs * 1000000 ≤ s.ns) :
    exec (.watchTimeout n) s = .next (closeWatch s n w) := by
  have past : (w.openAt.any fun t => decide (t + w.timeoutMs * 1000000 ≤ s.ns)) = true := by
    rw [opened, Option.any_some]
    exact decide_eq_true late
  refine done_whenUp up ?_
  rw [found]
  exact if_pos past

/-- Settles O42: each command by its guards; the armed watch stands under the least free number. -/
theorem freezeAndWatchCommandsComplete : Obligations.FreezeAndWatchCommandsComplete :=
  ⟨fun _ up => ⟨done_if up rfl, done_if up rfl, fun _ => liveCounterLo_latches up⟩,
    fun s h b takes share room rights dump mapped valid =>
      ⟨watchArm_arms takes share room rights dump mapped valid, armWatch_body (mbxTaken s h) h b⟩,
    fun _ _ _ _ => watchCancel_cancels,
    fun _ _ takes => ⟨digestRotate_rotates takes, fun opened => digestRotate_waits takes opened rfl⟩,
    fun _ _ _ _ => watchTimeout_closes⟩

/-! The dictionary's initiates (R532, R533, R535 to R540). -/

section
variable {s : State} {rq txn index sub : Nat} {e : Entry} (up : canUp s = true)
include up

theorem initiateRead_answers {shadow : Bool}
    (served : initiateCheck (s.heldIn 224) rq txn index sub (served (s.heldIn 224) index sub) = none)
    (entry : canEntry index sub = some e) (readable : e.access ≠ .wo) (other : ekey index sub ≠ 0x200003) :
    exec (.initiateRead rq txn index sub shadow) s =
      .next (answerRead (if shadow then readShadow (s.heldIn 224) index sub else readValue (s.heldIn 224) index sub).1
        (if shadow then 0x91 else 0x81) rq txn index sub
        (if shadow then readShadow (s.heldIn 224) index sub else readValue (s.heldIn 224) index sub).2) := by
  refine done_if up ?_
  dsimp only
  rw [served, entry]
  dsimp only
  rw [if_neg (by simpa using readable), if_neg (by simp [other]), if_neg other]

theorem initiateRead_nonce {shadow : Bool}
    (served : initiateCheck (s.heldIn 224) rq txn index sub (served (s.heldIn 224) index sub) = none)
    (entry : canEntry index sub = some e) (readable : e.access ≠ .wo) (nonce : ekey index sub = 0x200003)
    (good : (s.heldIn 224).vault.entropyOk = true) :
    exec (.initiateRead rq txn index sub shadow) s = .next (answerRead
      { (s.heldIn 224).drew with lc.nonce := some ((s.heldIn 224).drawn 256, (s.heldIn 224).ns) } (if shadow then 0x91 else 0x81)
      rq txn index sub (be 32 ((s.heldIn 224).drawn 256).toNat)) := by
  refine done_if up ?_
  dsimp only
  rw [served, entry]
  dsimp only
  rw [if_neg (by simpa using readable), good, if_neg (by simp), if_pos nonce]

theorem initiateDescribe_answers
    (served : initiateCheck (s.heldIn 224) rq txn index sub (served (s.heldIn 224) index sub) = none)
    (entry : canEntry index sub = some e) :
    exec (.initiateDescribe rq txn index sub) s =
      .next (canReply (s.heldIn 224) rq txn 0x87 index sub 0 (describeBytes index sub e)) := by
  refine done_if up ?_
  dsimp only
  rw [served, entry]

theorem initiateWrite_starts {total : Nat} {crc : BitVec 32} {data : Bytes} {t : Transfer}
    (admitted : writeCheck (s.heldIn 224) rq txn index sub total = none)
    (opened : t = ⟨nodeAddr (s.heldIn 224), rq, txn, true, index, sub, total, crc, fit (min total 48) data, 0, 0, (s.heldIn 224).ns⟩) :
    exec (.initiateWrite rq txn index sub total crc data) s = .next (if total ≤ 48 then endWrite (s.heldIn 224) t
      else { s.heldIn 224 with dict.transfers := (s.heldIn 224).dict.transfers ++ [t] }) := by
  subst opened
  refine done_if up ?_
  dsimp only
  rw [admitted]

end

/-- Settles O43: each initiate by its check. -/
theorem dictionaryInitiatesComplete : Obligations.DictionaryInitiatesComplete :=
  ⟨fun _ _ _ _ _ _ _ up served entry readable =>
      ⟨initiateRead_answers up served entry readable, initiateRead_nonce up served entry readable⟩,
    fun _ _ _ _ _ _ => initiateDescribe_answers,
    fun _ _ _ _ _ _ _ _ up admitted => initiateWrite_starts up admitted rfl⟩

/-! The frames of an open transfer (R532 to R535). -/

section
variable {s : State} {rq txn : Nat} {t : Transfer}

theorem mdtSegment_takes {data : Bytes} {t1 : Transfer} (up : canUp s = true) (found : transferOf (s.heldIn 224) rq txn = some t)
    (write : t.write = true) (next : t1 = { t with
      data := t.data ++ fit (min 56 (t.total - t.data.length)) data, segno := t.segno + 1, lastAt := (s.heldIn 224).ns }) :
    exec (.mdtSegment rq txn (t.segno + 1) data) s =
      .next (if t1.data.length = t.total then endWrite (dropTransfer (s.heldIn 224) rq txn) t1
        else if (t.segno + 1) % 16 = 0 then ackFrame (setTransfer (s.heldIn 224) t1) t1 else setTransfer (s.heldIn 224) t1) := by
  subst next
  refine done_if up ?_
  dsimp only
  rw [found, Option.filter_some, if_pos write]
  dsimp only
  rw [if_neg (not_not_intro rfl)]

theorem mdtAck_moves {next : Nat} {t1 : Transfer} (up : canUp s = true) (found : transferOf (s.heldIn 224) rq txn = some t)
    (read : t.write = false) (ahead : t.acked + 1 ≤ next) (sent : next ≤ t.segno + 1)
    (acked : t1 = { t with acked := next - 1, lastAt := (s.heldIn 224).ns }) :
    exec (.mdtAck rq txn next) s =
      .next (if t1.data.length ≤ 44 + 56 * t1.acked then dropTransfer (s.heldIn 224) rq txn
        else setTransfer (sendSegments 16 (s.heldIn 224) t1).1 (sendSegments 16 (s.heldIn 224) t1).2) := by
  subst acked
  refine done_if up ?_
  dsimp only
  rw [found, Option.filter_some, if_pos (by rw [read]; rfl)]
  dsimp only
  rw [if_neg (by omega)]

theorem mdtAbort_ends {result : Nat} (up : canUp s = true) (found : transferOf (s.heldIn 224) rq txn = some t) :
    exec (.mdtAbort rq txn result) s = .next (endTransfer (s.heldIn 224) t result false) := by
  refine done_if up ?_
  dsimp only
  rw [found]

theorem transferTimeout_ends (served : dictMode s ≠ 0) (found : transferOf s rq txn = some t) (late : t.lastAt + 100000000 ≤ s.ns) :
    exec (.transferTimeout rq txn) s = .next (endTransfer s t 0xA true) := by
  refine done_if_not served ?_
  rw [found]
  exact if_pos late

end

/-- Settles O44: each frame by the transfer it belongs to. -/
theorem dictionaryTransferFramesComplete : Obligations.DictionaryTransferFramesComplete :=
  ⟨fun _ _ _ _ _ up found write => mdtSegment_takes up found write rfl,
    fun _ _ _ _ _ up found read ahead sent => mdtAck_moves up found read ahead sent rfl,
    fun _ _ _ _ _ => mdtAbort_ends, fun _ _ _ _ => transferTimeout_ends⟩

/-! The management network (R529 to R531, R541, R542). -/

theorem addressAssign_writes {s : State} {address : Nat} (up : canUp s = true) (low : 1 ≤ address) (high : address ≤ 63)
    (served : servedWrite (s.heldIn 224) 0x1100 1 = true) :
    exec (.addressAssign unitId address) s =
      .next (writeSetting 0x1100 1 (canReply (s.heldIn 224) 0 0 0x82 0x1100 1 0 []) (le 1 address)).1 := by
  refine done_if (by rw [up, beq_self_eq_true]; rfl) ?_
  dsimp only
  rw [if_neg (by simp [served]), if_neg (by omega)]

theorem mgtBusoff_counts {s : State} (aon : s.aon = true) (iod : s.pow.iod = true) (first : s.cross.busOff = false) :
    exec .mgtBusoff s = .next { abandonTransfers s with
      cross.busOff := true, dict.busOffCount := (abandonTransfers s).dict.busOffCount + 1 } :=
  done_if (by rw [aon, iod, first]; rfl) rfl

theorem busOffRecovery_notices {s u : State} (off : s.cross.busOff = true)
    (clear : u = { s with cross.busOff := false, dict.noticeInBusOff := false })
    (missed : s.dict.noticeInBusOff = true ∧ s.err.lastNotice ≠ []) :
    exec .busOffRecovery s = .next (canNotice u (s.err.noticePending.head?.getD s.err.lastNotice)) := by
  subst clear
  refine done_if off ?_
  dsimp only
  rw [if_pos (by simpa using missed)]

theorem busOffRecovery_quiet {s u : State} (off : s.cross.busOff = true)
    (clear : u = { s with cross.busOff := false, dict.noticeInBusOff := false })
    (none : ¬ (s.dict.noticeInBusOff = true ∧ s.err.lastNotice ≠ [])) : exec .busOffRecovery s = .next u := by
  subst clear
  refine done_if off ?_
  dsimp only
  rw [if_neg (by simpa using none)]

/-- Settles O45: each command by its guards. -/
theorem managementNetworkCommandsComplete : Obligations.ManagementNetworkCommandsComplete :=
  ⟨fun _ _ => addressAssign_writes, fun _ up => done_if up rfl, fun _ => mgtBusoff_counts,
    fun _ off => ⟨busOffRecovery_notices off rfl, busOffRecovery_quiet off rfl⟩,
    fun _ up stale => done_whenUp up (if_pos stale)⟩

/-! Page and register accesses (R13, R14, R26, R137, R172, R544). -/

section
variable {s : State} {h : MbxHdr} {index sub slice i b : Nat} {e : Entry} (good : mbxSliceBad h slice = false)
  (permitted : mbxEntry h index sub slice = some (i, b)) (entry : canEntry i b = some e)
include good permitted entry

theorem dictRead_answers (takes : s.takesMailbox h 0x0801 (decide (h.page = 0)) (le 2 index ++ le 1 sub ++ le 1 slice)) :
    exec (.dictRead h index sub slice) s = .next (mbxAnswer (readValue (mbxTaken s h) i b).1 h 0x0801 cOk
      (le 1 e.type.code ++ le 2 ((readValue (mbxTaken s h) i b).2.take 960).length ++ (readValue (mbxTaken s h) i b).2.take 960)) := by
  refine done_mailbox takes ?_
  rw [if_neg (by simp [good]), permitted]
  dsimp only
  rw [entry]
  rfl

theorem dictDescribe_answers (takes : s.takesMailbox h 0x0802 (decide (h.page = 0)) (le 2 index ++ le 1 sub ++ le 1 slice)) :
    exec (.dictDescribe h index sub slice) s = .next (mbxAnswer (mbxTaken s h) h 0x0802 cOk (describeBytes i b e)) := by
  refine done_mailbox takes ?_
  rw [if_neg (by simp [good]), permitted]
  dsimp only
  rw [entry]

end

section
variable {s : State} {addr : Nat} {value : BitVec 32} (aon : s.aon = true) (iod : s.pow.iod = true) (word : addr % 4 = 0)
include aon iod word

theorem registerWrite_done {t : State} {m : Nat}
    (h : (if 2 ^ 24 ≤ addr then (if m = byHost then writeBar s (addr - 2 ^ 24) value else s)
       else if m = byHost then s
       else if m = byDebug ∨ m = byTest then
         (if 0x280000 ≤ addr ∧ addr < 0x284000 then after (execPageAccessViolation (addr / 0x1000 - 0x280) m s) s
          else protectViolation s m 2 addr)
       else writeWindow s addr value m) = t) :
    exec (.registerWrite addr value m) s = .next t :=
  done_if (by rw [aon, iod, word]; rfl) h

theorem registerWrite_bar (bar : 2 ^ 24 ≤ addr) : exec (.registerWrite addr value byHost) s = .next (writeBar s (addr - 2 ^ 24) value) :=
  registerWrite_done aon iod word (by rw [if_pos bar, if_pos rfl])

theorem registerWrite_window (below : addr < 2 ^ 24) (m : Nat) (master : m = byTcu ∨ m = byMgmt) :
    exec (.registerWrite addr value m) s = .next (writeWindow s addr value m) := by
  refine registerWrite_done aon iod word ?_
  rw [if_neg (Nat.not_le.mpr below)]
  obtain rfl | rfl := master
  · rw [if_neg (by decide), if_neg (by decide)]
  · rw [if_neg (by decide), if_neg (by decide)]

theorem registerWrite_violates (below : addr < 2 ^ 24) (outside : ¬ (0x280000 ≤ addr ∧ addr < 0x284000)) (m : Nat)
    (master : m = byDebug ∨ m = byTest) : exec (.registerWrite addr value m) s = .next (protectViolation s m 2 addr) := by
  refine registerWrite_done aon iod word ?_
  have other : ¬ m = byHost := by obtain rfl | rfl := master <;> decide
  rw [if_neg (Nat.not_le.mpr below), if_neg other, if_pos master, if_neg outside]

end

/-- Settles O46: page accesses by their checks, register writes by their address and master. -/
theorem pageAndRegisterAccessesComplete : Obligations.PageAndRegisterAccessesComplete :=
  ⟨fun _ _ _ _ _ _ _ _ good permitted entry =>
      ⟨dictRead_answers good permitted entry, dictDescribe_answers good permitted entry⟩,
    fun _ _ _ aon iod word => ⟨registerWrite_bar aon iod word, registerWrite_window aon iod word,
      registerWrite_violates aon iod word⟩⟩

end Sys2Proof.Machine

/-!
What an operation leaves of a field that it does not speak of: the domain after the casts end, and the host's session after
its secrets are put.
-/
namespace Sys2Proof.Machine

/-! The domain. -/

@[simp] theorem summaryRecord_dom (s : State) (a1 : Nat × Nat × Nat × Nat) :
    (summaryRecord s a1).dom = s.dom := by simp [summaryRecord]

@[simp] theorem arrayLeaves_dom (s : State) :
    (arrayLeaves s).dom = s.dom := id rfl

@[simp] theorem arrayCut_dom (s : State) :
    (arrayCut s).dom = s.dom := by simp [arrayCut, apply_ite State.dom]

@[simp] theorem quantumUse_dom (s : State) (a1 : Nat) :
    (quantumUse s a1).dom = s.dom := by unfold quantumUse; (repeat' split) <;> simp [apply_ite State.dom]

@[simp] theorem arbWake_dom (s : State) :
    (arbWake s).dom = s.dom := by unfold arbWake; (repeat' split) <;> simp [apply_ite State.dom]

@[simp] theorem mbxPut_dom (s : State) (a1 a2 : Nat) (a3 a4 : Nat) (a5 : Code) (a6 : Bytes) (a7 : Option Tag) :
    (mbxPut s a1 a2 a3 a4 a5 a6 a7).dom = s.dom := by simp [mbxPut]

@[simp] theorem mbxPost_dom (s : State) (a1 a2 : Nat) (a3 a4 : Nat) (a5 : Code) (a6 : Bytes) (a7 : Option Tag) :
    (mbxPost s a1 a2 a3 a4 a5 a6 a7).dom = s.dom := by simp [mbxPost, apply_ite State.dom]

@[simp] theorem mbxAnswer_dom (s : State) (a1 : MbxHdr) (a2 : Nat) (a3 : Code) (a4 : Bytes) :
    (mbxAnswer s a1 a2 a3 a4).dom = s.dom := by unfold mbxAnswer; dsimp only; (repeat' split) <;> simp [apply_ite State.dom]

@[simp] theorem postEntry_dom (s : State) (a1 a2 a3 : Nat) (a4 : Bytes) (a5 : Code) (a6 : Bool) (a7 a8 a9 : Nat) :
    (postEntry s a1 a2 a3 a4 a5 a6 a7 a8 a9).dom = s.dom := by unfold postEntry; (repeat' split) <;> simp [apply_ite State.dom]

@[simp] theorem signal_dom (s : State) (a1 : Nat) (a2 : Code) :
    (signal s a1 a2).dom = s.dom := by unfold signal; (repeat' split) <;> simp [apply_ite State.dom]

@[simp] theorem completeRaw_dom (s : State) (a1 a2 a3 : Nat) (a4 : Bytes) (a5 : Code) (a6 a7 a8 : Nat) :
    (completeRaw s a1 a2 a3 a4 a5 a6 a7 a8).dom = s.dom := by simp [completeRaw, apply_ite State.dom]

@[simp] theorem checkFail_dom (s : State) (a1 a2 : Nat) (a3 : Code) (a4 : Nat) (a5 : Bytes) :
    (checkFail s a1 a2 a3 a4 a5).dom = s.dom := by simp [checkFail]

@[simp] theorem failHeld_dom (s : State) (a1 : LiveSeal) (a2 : Code) :
    (failHeld s a1 a2).dom = s.dom := by unfold failHeld; (repeat' split) <;> simp [apply_ite State.dom]

@[simp] theorem evtUnref_dom (s : State) (a1 : Nat) :
    (evtUnref s a1).dom = s.dom := id rfl

@[simp] theorem objUnref_dom (s : State) (a1 : Nat) :
    (objUnref s a1).dom = s.dom := id rfl

@[simp] theorem releaseSlot_dom (s : State) (a1 : Nat) :
    (releaseSlot s a1).dom = s.dom := by unfold releaseSlot; (repeat' split) <;> simp [apply_ite State.dom]

@[simp] theorem finishDesc_dom (s : State) (a1 : Nat) :
    (finishDesc s a1).dom = s.dom := by unfold finishDesc; (repeat' split) <;> simp [apply_ite State.dom]

@[simp] theorem retirePiece_dom (s : State) (a1 : Nat) (a2 : Code) (a3 : Nat) :
    (retirePiece s a1 a2 a3).dom = s.dom := by unfold retirePiece; (repeat' split) <;> simp [apply_ite State.dom]

@[simp] theorem sendWork_dom (s : State) (a1 : Nat) (a2 : Bytes) :
    (sendWork s a1 a2).dom = s.dom := by simp [sendWork, apply_ite State.dom]

@[simp] theorem dispatch_dom (s : State) (a1 a2 : Nat) :
    (dispatch s a1 a2).dom = s.dom := by unfold dispatch; (repeat' split) <;> simp [apply_ite State.dom]

@[simp] theorem settleWaits_dom (a0 : Nat) (s : State) :
    (settleWaits a0 s).dom = s.dom := by fun_induction settleWaits <;> simp_all [apply_ite State.dom]

@[simp] theorem answerDestroyed_dom (s : State) :
    (answerDestroyed s).dom = s.dom := by simp [answerDestroyed]

@[simp] theorem answerInvalidates_dom (s : State) :
    (answerInvalidates s).dom = s.dom := by simp [answerInvalidates]

@[simp] theorem spdmClear_dom (s : State) :
    (spdmClear s).dom = s.dom := id rfl

@[simp] theorem finishSpdm_dom (s : State) :
    (finishSpdm s).dom = s.dom := by simp [finishSpdm, apply_ite State.dom]

@[simp] theorem retireOutbound_dom (s : State) :
    (retireOutbound s).dom = s.dom := by simp [retireOutbound, apply_ite State.dom]

@[simp] theorem retireInbound_dom (s : State) :
    (retireInbound s).dom = s.dom := by simp [retireInbound, apply_ite State.dom]

@[simp] theorem setTop_dom (s : State) (a1 a2 : Nat) (a3 : Mapping) :
    (setTop s a1 a2 a3).dom = s.dom := id rfl

@[simp] theorem needLevel_dom (s : State) (a1 a2 : Nat) :
    (needLevel s a1 a2).dom = s.dom := by simp [needLevel, apply_ite State.dom]

@[simp] theorem mapUnits_dom (s : State) (a1 a2 : Nat) (a3 a4 a5 : Nat) (a6 : Bool) (a7 : List Nat) :
    (mapUnits s a1 a2 a3 a4 a5 a6 a7).dom = s.dom := by simp [mapUnits, apply_ite State.dom]

@[simp] theorem shareEnd_dom (s : State) (a1 : Share) :
    (shareEnd s a1).dom = s.dom := by unfold shareEnd; (repeat' split) <;> simp [apply_ite State.dom]

@[simp] theorem finishShares_dom (s : State) :
    (finishShares s).dom = s.dom := by simp [finishShares]

@[simp] theorem finishFreezes_dom (s : State) :
    (finishFreezes s).dom = s.dom := by simp [finishFreezes]

@[simp] theorem rotateDigest_dom (s : State) (a1 : Nat) :
    (rotateDigest s a1).dom = s.dom := id rfl

@[simp] theorem rotateNow_dom (s : State) (a1 : MbxHdr) :
    (rotateNow s a1).dom = s.dom := by simp [rotateNow]

@[simp] theorem rotateWaiters_dom (s : State) :
    (rotateWaiters s).dom = s.dom := by simp [rotateWaiters]

@[simp] theorem settle_dom (s : State) :
    (settle s).dom = s.dom := by simp [settle]

@[simp] theorem cancelWatches_dom (s : State) (a1 : Watch → Bool) (a2 : Code) :
    (cancelWatches s a1 a2).dom = s.dom := by simp [cancelWatches]

@[simp] theorem endWatches_dom (s : State) (a1 : Watch → Bool) (a2 : Code) :
    (endWatches s a1 a2).dom = s.dom := by simp [endWatches, apply_ite State.dom]

@[simp] theorem failWatches_dom (s : State) (a1 a2 : Nat) (a3 : Code) :
    (failWatches s a1 a2 a3).dom = s.dom := by simp [failWatches]

@[simp] theorem armCast_dom (s : State) (a1 a2 : Nat) (a3 a4 a5 : Nat) (a6 : Option (Nat × Nat)) :
    (armCast s a1 a2 a3 a4 a5 a6).1.dom = s.dom := by unfold armCast; dsimp only; (repeat' split) <;> simp [apply_ite State.dom]

@[simp] theorem castSummary_dom (s : State) (a1 : Cast) :
    (castSummary s a1).dom = s.dom := by unfold castSummary; (repeat' split) <;> simp [apply_ite State.dom]

@[simp] theorem castReport_dom (s : State) (a1 : Nat) (a2 : Cast) (a3 : Code) :
    (castReport s a1 a2 a3).dom = s.dom := by simp [castReport, apply_ite State.dom]

@[simp] theorem failDomainCasts_dom (s : State) :
    (failDomainCasts s).dom = s.dom := by simp [failDomainCasts]

@[simp] theorem armHorizon_dom (a0 : Nat) (s : State) :
    (armHorizon a0 s).dom = s.dom := by fun_induction armHorizon <;> simp_all [apply_ite State.dom]

@[simp] theorem rearm_dom (s : State) :
    (rearm s).dom = s.dom := by simp [rearm]

@[simp] theorem setOffset_dom (s : State) (a1 : Int) :
    (setOffset s a1).dom = s.dom := by simp [setOffset]

@[simp] theorem setPort_dom (s : State) (a1 : Nat) (a2 : BrassPort) :
    (setPort s a1 a2).dom = s.dom := id rfl

@[simp] theorem fabricTake_dom (s : State) (a1 a2 a3 : Nat) :
    (fabricTake s a1 a2 a3).dom = s.dom := id rfl

@[simp] theorem ackEvent_dom (s : State) (a1 : Nat) :
    (ackEvent s a1).dom = s.dom := by simp [ackEvent]

@[simp] theorem clearFrames_dom (a0 : Nat) (s : State) (a2 : Nat) :
    (clearFrames a0 s a2).dom = s.dom := by
  induction a0 generalizing s with
  | zero => rfl
  | succ n ih =>
    unfold clearFrames
    split
    · rfl
    · split
      · rfl
      · simp [ih]

@[simp] theorem clearPump_dom (s : State) (a1 : Nat) :
    (clearPump s a1).dom = s.dom := by simp [clearPump]

/-! The host's session. -/

@[simp] theorem keySend_host (s : State) (a1 : List Nat) (a2 : Shares) :
    (keySend s a1 a2).host = s.host := by unfold keySend; (repeat' split) <;> simp [apply_ite State.host]

@[simp] theorem loadReg_host (s : State) (a1 : KeyPath) (a2 : BitVec 512) (a3 : BitVec 16) (a4 : Option KeyPath) (a5 a6 : Bytes) :
    (loadReg s a1 a2 a3 a4 a5 a6).host = s.host := by unfold loadReg; (repeat' split) <;> simp [apply_ite State.host]

@[simp] theorem putKey_host (s : State) (a1 : KeyPath) (a2 : BitVec 512) (a3 a4 : Nat) (a5 a6 : Nat) (a7 : BitVec 16)
    (a8 : Bytes) (a9 : Option KeyPath) (a10 : Bytes) :
    (putKey s a1 a2 a3 a4 a5 a6 a7 a8 a9 a10).host = s.host := by simp [putKey, apply_ite State.host]

@[simp] theorem importKey_host (s : State) (a1 : KeyPath) (a2 : BitVec 512) (a3 a4 : Nat) (a5 a6 a7 : Nat) :
    (importKey s a1 a2 a3 a4 a5 a6 a7).host = s.host := by simp [importKey]

@[simp] theorem deriveBounce_host (s : State) (a1 a2 : Nat) :
    (deriveBounce s a1 a2).host = s.host := by unfold deriveBounce; (repeat' split) <;> simp [apply_ite State.host]

@[simp] theorem putAppSecret_host (s : State) (a1 : Nat) (a2 : BitVec 384) :
    (putAppSecret s a1 a2).host = s.host := by simp [putAppSecret]

@[simp] theorem updateSecret_host (s : State) (a1 : Nat) :
    (updateSecret s a1).host = s.host := by unfold updateSecret; (repeat' split) <;> simp [apply_ite State.host]

@[simp] theorem hostSliceIn_host (s : State) (a1 : Nat) :
    (hostSliceIn s a1).host = s.host := by simp [hostSliceIn, apply_ite State.host]

end Sys2Proof.Machine

/-!
The domain (chapter 6): joins, upkeep, epochs and the anchor. Each command's effect where its guards hold.
-/
namespace Sys2Proof.Machine

/-! Which messages a unit takes (R183, R185). -/

section
variable {s t : State} {m : DomHdr} {f : State → State} {kind : Nat}

theorem domTake_takes {sealedType : Bool} (takes : s.takesDomain m sealedType) : domTake s kind m sealedType f = f s := by
  obtain ⟨inside, form, domain, current⟩ := takes
  unfold domTake
  rw [inside, form, if_neg (by simp [domain])]
  cases sealedType with
  | false => rfl
  | true =>
    obtain ⟨known, term⟩ := current rfl
    rw [known, decide_eq_false (Nat.not_lt.mpr term)]
    rfl

theorem done_domTake {sealedType : Bool} (up : s.up = true) (takes : s.takesDomain m sealedType) (h : f s = t) :
    done (whenUp s fun s => domTake s kind m sealedType f) = .next t :=
  done_whenUp up ((domTake_takes takes).trans h)

theorem done_anchorTake {sealedType : Bool} (up : s.up = true) (takes : s.takesDomain m sealedType) (anchor : s.dom.role = 1)
    (h : f s = t) : done (whenUp s fun s => anchorTake s kind m sealedType f) = .next t :=
  done_whenUp up ((domTake_takes takes).trans (by rw [if_pos anchor, h]))

theorem done_fromAnchor (up : s.up = true) (takes : s.takesDomain m true) (sender : m.sender = s.dom.anchor)
    (other : s.dom.role ≠ 1) (h : f s = t) : done (whenUp s fun s => fromAnchor s kind m f) = .next t :=
  done_whenUp up ((domTake_takes takes).trans (by rw [if_pos (by simp [sender, other]), h]))

theorem done_joinTake {step : Nat} (up : s.up = true) (takes : s.takesJoin m step) (h : f s = t) :
    done (whenUp s fun s => joinTake s m step f) = .next t := by
  obtain ⟨joins, at_step, form, domain, sender, txn⟩ := takes
  refine done_whenUp up ?_
  rw [joinTake, if_pos (by simp [joins, at_step, form, domain, sender, txn]), h]

end

/-! Endorsement, creation and joining (R177, R185). -/

theorem identityEndorsement_keeps {s : State} {e : Endorsement} {k : HybKey} (up : s.up = true) (held : identity s = some k)
    (valid : endorseOk e unitId k = true) :
    exec (.identityEndorsement e) s = .next (answerWrite { s with dom.endorsement := some e } 0x2202 1 cOk) :=
  done_whenUp up (by rw [held, Option.any_some, valid, if_pos rfl])

theorem domainCreate_founds {s : State} {p : Policy} {k : HybKey} (up : s.up = true) (quiet : quiescent s = true)
    (outside : s.dom.role = 0) (valid : policyOk p = true) (anchor : p.anchor = unitId) (held : identity s = some k)
    (admits : policyRefuses p (hallClaims s k 0 none false) = none) (good : s.vault.entropyOk = true) :
    exec (.domainCreate p) s = .next (answerWrite (foundDomain s p) 0x2201 1 cOk) := by
  refine done_whenUp up ?_
  rw [quiet, if_neg (by simp [outside]), valid, if_neg (by simp [anchor]), held]
  dsimp only
  rw [admits]
  exact if_pos good

theorem foundDomain_founds (s : State) (p : Policy) :
    (foundDomain s p).dom.role = 1 ∧ (foundDomain s p).dom.epoch = 1 ∧ (foundDomain s p).dom.term = 1 ∧
      (foundDomain s p).dom.domainId = p.domainId ∧ (foundDomain s p).dom.policy = some p := by
  unfold foundDomain domRecord
  dsimp only
  rw [record_dom]
  exact ⟨rfl, rfl, rfl, rfl, rfl⟩

theorem domainJoin_starts {s : State} {domainId anchor : Nat} {owner : BitVec 256} (up : s.up = true) (quiet : quiescent s = true)
    (outside : s.dom.role = 0) (state : joinState s.lc.code = true) :
    exec (.domainJoin domainId anchor owner) s = .next (startJoin s domainId anchor owner) := by
  refine done_whenUp up ?_
  rw [quiet, if_neg (by simp [outside]), state]
  rfl

theorem sendClear_dom (s : State) (b : Bytes) (unit : Nat) : (sendClear s b unit).dom = s.dom := by
  unfold sendClear
  simp

/-- A unit with a random source that starts a join waits for the anchor's challenge. -/
theorem startJoin_waits {s : State} (good : s.vault.entropyOk = true) (domainId anchor : Nat) (owner : BitVec 256) :
    (startJoin s domainId anchor owner).dom.role = 4 ∧ (startJoin s domainId anchor owner).dom.join.step = 1 := by
  unfold startJoin sendHello
  dsimp only
  rw [good, if_neg (by decide), sendDom, if_pos (by decide), sendClear_dom]
  exact ⟨rfl, rfl⟩

/-! The join's messages (R187 to R190). -/

theorem joinHello_challenges {s s1 s2 s3 : State} {m : DomHdr} {nonce na : BitVec 256} {q qr : Point} {ek ct : KemBlob} {role : Nat}
    {ss : BitVec 384} {th : Dig384} {h : Hallmark} (up : s.up = true) (takes : s.takesDomain m false) (anchor : s.dom.role = 1)
    (agreed : kaRespond s q ek = (s1, some (qr, ct, ss))) (fresh : na = s1.drawn 256)
    (hash : th = joinHash (be 32 nonce.toNat ++ be 97 q.toNat ++ be 1568 ek.toNat ++ le 4 role) na qr ct)
    (kept : s2 = keepJk s1.drew m.sender ss) (held : notHeld s2 (.joinKey m.sender) = none)
    (signed : makeHallmark s2 nonce (some th) false = (s3, some h)) :
    exec (.joinHello m nonce q ek role) s = .next (sendDom { s3 with
      dom.admissions := tset s3.dom.admissions m.sender
        { unit := m.sender, txn := m.txn, nonce := na, hash := th, startedAt := s3.ns, admitted := false, role := role,
          hall := none, grant := ⟨role, 0, 0⟩, kcvs := [] } }
      mJoinChallenge m.sender m.txn cOk (be 32 na.toNat ++ be 97 qr.toNat ++ be 1568 ct.toNat ++ hallBytes h)) := by
  refine done_domTake up takes ?_
  rw [if_neg (not_not_intro anchor), agreed]
  dsimp only
  rw [← fresh, ← hash, ← kept, held]
  dsimp only
  rw [signed]

theorem joinChallenge_answers {s s0 s1 : State} {m : DomHdr} {nonce : BitVec 256} {q : Point} {ct : KemBlob} {hall h : Hallmark}
    {d : DomClaim} {ss : BitVec 384} {th : Dig384} (up : s.up = true) (takes : s.takesJoin m 1)
    (hash : th = joinHash s.dom.join.hash nonce q ct) (verifies : hallOk hall s.dom.join.nonce = true)
    (bound : hall.bind = some th) (sender : hall.unitId = m.sender) (claim : hall.domain = some d)
    (domain : d.domainId = s.dom.join.domainId) (agreed : kaFinish s.dom.join.ecPriv s.dom.join.kemPriv q ct = some ss)
    (kept : s0 = keepJk s m.sender ss) (held : notHeld s0 (.joinKey m.sender) = none)
    (signed : makeHallmark s0 nonce (some th) false = (s1, some h)) :
    exec (.joinChallenge m nonce q ct hall) s = .next (sendDom { s1 with
      dom.join := { s1.dom.join with step := 2, policyDigest := d.policyDigest, ecPriv := 0, kemPriv := 0, lastAt := s1.ns } }
      mJoinEvidence m.sender m.txn cOk (hallBytes h)) := by
  refine done_joinTake up takes ?_
  dsimp only
  rw [← hash, verifies, bound, sender, claim, Option.any_some, domain, beq_self_eq_true, beq_self_eq_true, beq_self_eq_true,
    if_neg (by decide), agreed]
  dsimp only
  rw [← kept, held]
  dsimp only
  rw [signed]
  rfl

theorem joinEvidence_admits {s : State} {m : DomHdr} {hall : Hallmark} {a : Admission} {p : Policy} {jk : Key} (up : s.up = true)
    (takes : s.takesDomain m false) (anchor : s.dom.role = 1) (asked : tget s.dom.admissions m.sender = some a)
    (policy : s.dom.policy = some p) (key : key256 s (.joinKey m.sender) = some jk) (first : a.admitted = false)
    (passes : admitCheck s p a m.sender hall = none) :
    exec (.joinEvidence m hall) s = .next (sendAdmit s m p a hall jk) := by
  refine done_anchorTake up takes anchor ?_
  rw [asked, policy, key]
  dsimp only
  rw [first, if_neg Bool.false_ne_true, passes]

theorem joinAdmit_takes {s s1 : State} {m : DomHdr} {p : Policy} {members : List Member} {deputies : List Nat} {aEdge : Int} {aAge : Nat}
    {role : RoleGrant} {envs : List KeyEnvelope} {switchAt : Nat} {jk : Key} (up : s.up = true) (takes : s.takesJoin m 2)
    (owner : ownerDigest p = s.dom.join.owner) (valid : policyOk p = true) (digest : policyDigest p = s.dom.join.policyDigest)
    (key : key256 s (.joinKey m.sender) = some jk) (opened : openEnvs s jk m envs = some s1)
    (held : (key256 s1 .domainKey).isSome = true) :
    exec (.joinAdmit m p ⟨members, digestOf (members.map (·.unit))⟩ deputies aEdge aAge role envs switchAt) s =
      .next (takeMembership s1 m p members deputies aEdge aAge role envs switchAt) := by
  refine done_joinTake up takes ?_
  rw [if_neg (by simp [owner, valid, digest]), if_neg (not_not_intro rfl), key]
  dsimp only
  rw [opened]
  dsimp only
  rw [if_neg (by simpa [Option.isSome_iff_ne_none] using held)]

theorem joinDone_adds {s u : State} {m : DomHdr} {node port : Nat} {a : Admission} {p : Policy} (up : s.up = true)
    (takes : s.takesDomain m false) (anchor : s.dom.role = 1) (asked : tget s.dom.admissions m.sender = some a)
    (policy : s.dom.policy = some p) (admitted : a.admitted = true) (timely : s.ns ≤ a.startedAt + 800000)
    (dropped : u = dropKeys s fun k => k == .joinKey m.sender) :
    exec (.joinDone m node port a.kcvs) s =
      .next (addMember { u with dom.admissions := tdel u.dom.admissions m.sender } a node port p) := by
  subst dropped
  refine done_anchorTake up takes anchor ?_
  rw [asked, policy]
  dsimp only
  rw [admitted, if_neg (by decide), if_neg (by simpa using timely)]

theorem joinRefuse_ends {s : State} {m : DomHdr} (up : s.up = true) (joins : s.dom.role = 4) (form : hdrOk m = true)
    (domain : m.domainId = s.dom.join.domainId) (sender : m.sender = s.dom.join.anchor) (txn : m.txn = s.dom.join.txn) :
    exec (.joinRefuse m) s = .next (endJoin s m.status) := by
  refine done_whenUp up ?_
  rw [if_pos joins, form, if_pos (by simp [domain, sender, txn])]

theorem endJoin_role (s : State) (code : Code) : (endJoin s code).dom.role = 0 := by
  unfold endJoin
  dsimp only
  rw [answerWrite_dom]

theorem joinTimeout_retries {s : State} (up : s.up = true) (joins : s.dom.role = 4) (late : s.dom.join.lastAt + 100000000 ≤ s.ns) :
    exec (.joinTimeout s.dom.join.anchor) s = .next (retryJoin s) := by
  have due : (decide (s.dom.role = 4) && s.dom.join.anchor == s.dom.join.anchor &&
      decide (s.dom.join.lastAt + 100000000 ≤ s.ns)) = true := by
    rw [decide_eq_true joins, beq_self_eq_true, decide_eq_true late]
    rfl
  exact done_whenUp up (if_pos due)

theorem joinTimeout_refuses {s : State} {peer : Nat} {a : Admission} (up : s.up = true) (anchor : s.dom.role = 1)
    (asked : tget s.dom.admissions peer = some a) (late : a.startedAt + 100000000 ≤ s.ns) (admitted : a.admitted = true) :
    exec (.joinTimeout peer) s = .next (refuseUnit s peer a.txn cDomainTimeout) := by
  refine done_whenUp up ?_
  rw [anchor, if_neg (by simp), asked]
  dsimp only
  rw [if_neg (Nat.not_lt.mpr late), if_pos admitted]

/-- Settles O20: each message by what the unit takes. -/
theorem joinCompletes : Obligations.JoinCompletes :=
  ⟨fun _ _ _ => identityEndorsement_keeps,
    fun s p _ up quiet outside valid anchor held admits good =>
      ⟨domainCreate_founds up quiet outside valid anchor held admits good, foundDomain_founds s p⟩,
    fun _ domainId anchor owner up quiet outside state good =>
      ⟨domainJoin_starts up quiet outside state, startJoin_waits good domainId anchor owner⟩,
    fun _ _ _ _ _ _ _ _ _ _ _ _ up takes anchor agreed held signed =>
      joinHello_challenges up takes anchor agreed rfl rfl rfl held signed,
    fun _ _ _ _ _ _ _ _ _ _ up takes verifies bound sender claim domain agreed held signed =>
      joinChallenge_answers up takes rfl verifies bound sender claim domain agreed rfl held signed,
    fun _ _ _ _ _ _ => joinEvidence_admits, fun _ _ _ _ _ _ _ _ _ _ _ _ => joinAdmit_takes,
    fun _ _ _ _ _ _ up takes anchor asked policy admitted timely =>
      joinDone_adds up takes anchor asked policy admitted timely rfl,
    fun s m up joins form domain sender txn => ⟨joinRefuse_ends up joins form domain sender txn, endJoin_role s m.status⟩,
    fun _ => joinTimeout_retries, fun _ _ _ => joinTimeout_refuses⟩

end Sys2Proof.Machine

/-! The upkeep of a domain (R176, R179, R182, R186, R192, R200, R203). -/
namespace Sys2Proof.Machine

theorem policyUpdate_adopts {s u v : State} {p old : Policy} (up : s.up = true) (policy : s.dom.policy = some old)
    (anchor : s.dom.role = 1) (valid : policyOk p = true) (owner : p.ownerKey = old.ownerKey)
    (domain : p.domainId = old.domainId) (same : p.anchor = old.anchor) (later : old.sequence < p.sequence)
    (announced : u = memberUpdate (anchorState { s with dom.policy := some p, dom.policyDigest := policyDigest p }) [] [] [] (some p))
    (excluded : v = ((others u).filter (inadmissible u p)).foldl epochTrigger u) :
    exec (.policyUpdate p) s = .next (answerWrite
      (if policyNarrows old p && v.dom.triggers == s.dom.triggers then epochTrigger v 0 else v) 0x2201 4 cOk) := by
  refine done_whenUp up ?_
  rw [policy]
  dsimp only
  rw [if_neg (not_not_intro anchor), if_neg (by simp [valid, owner, domain, same, later]), ← announced, ← excluded]

theorem hostMember_admits {s : State} {p : Policy} {h : HostRec} (up : s.up = true) (policy : s.dom.policy = some p)
    (anchor : s.dom.role = 1) (valid : hostOk p h = true)
    (room : (s.dom.hosts.filter fun x => x.hostId != h.hostId).length < 1024) :
    exec (.hostMember h) s = .next (answerWrite (anchorState (memberUpdate { s with
      dom.hosts := (s.dom.hosts.filter fun x => x.hostId != h.hostId) ++ [h] } [] [] [h] none)) 0x2201 5 cOk) := by
  refine done_whenUp up ?_
  rw [policy]
  dsimp only
  rw [if_neg (by simp [isMember, anchor]), if_pos anchor, admitHost, valid, if_neg (by decide)]
  dsimp only
  rw [if_neg (Nat.not_le.mpr room)]

theorem hostMember_forwards {s : State} {p : Policy} {h : HostRec} (up : s.up = true) (policy : s.dom.policy = some p)
    (role : s.dom.role = 2 ∨ s.dom.role = 3) :
    exec (.hostMember h) s = .next (answerWrite (sendDom s mMemberUpdate s.dom.anchor 0 cOk (hostBytes h)) 0x2201 5 cOk) := by
  refine done_whenUp up ?_
  rw [policy]
  dsimp only
  rw [if_neg (by rcases role with h | h <;> simp [isMember, h]), if_neg (by omega)]

theorem hallmarkNonce_makes {s s1 : State} {nonce : BitVec 256} {h : Hallmark} (up : s.up = true)
    (made : makeHallmark s nonce none false = (s1, some h)) :
    exec (.hallmarkNonce nonce) s = .next (answerWrite { s1 with
      dom.hallmark := some h, dom.hallmarkNonce := some nonce } 0x2202 2 cOk) := by
  refine done_whenUp up ?_
  rw [made]

theorem domainLeave_leaves {s : State} (up : s.up = true) (inside : isMember s = true) (quiet : quiescent s = true) :
    exec (.domainLeave 1) s =
      .next (answerWrite (leaveDomain (sendDom s mMemberLeave s.dom.anchor 0 cOk [])) 0x2201 3 cOk) := by
  refine done_whenUp up ?_
  rw [if_neg (not_not_intro rfl), inside, if_neg (by decide), quiet, if_neg (by decide)]

theorem leaveDomain_role (s : State) : (leaveDomain s).dom.role = 0 := by
  unfold leaveDomain
  rw [setOffset_dom]
  rfl

theorem memberDownReceived_triggers {s : State} {n : Notice} (up : s.up = true) (reserved : n.reserved = 0) (flags : n.flags < 4)
    (anchor : s.dom.role = 1) (other : n.unitId ≠ unitId) (known : member s n.unitId = true) :
    exec (.memberDownReceived n) s = .next (epochTrigger s n.unitId) := by
  refine done_whenUp up ?_
  rw [if_neg (by simp [reserved, flags]), if_pos (by simp [anchor, other, known])]

theorem memberLeave_triggers {s : State} {m : DomHdr} (up : s.up = true) (takes : s.takesDomain m true)
    (anchor : s.dom.role = 1) (other : m.sender ≠ unitId) : exec (.memberLeave m) s = .next (epochTrigger s m.sender) :=
  done_anchorTake up takes anchor (if_neg other)

theorem memberUpdate_applies {s u : State} {m : DomHdr} {added : List Member} {removed : List Nat} {hosts : List HostRec}
    {policy : Option Policy} (up : s.up = true) (takes : s.takesDomain m true) (role : s.dom.role = 2 ∨ s.dom.role = 3)
    (sender : m.sender = s.dom.anchor) (stays : removed.contains unitId = false)
    (applied : u = applyUpdate s added removed hosts policy) :
    exec (.memberUpdate m added removed hosts ⟨policy, memberDigest u⟩) s = .next u := by
  refine done_domTake up takes ?_
  rw [if_neg (by omega), if_pos sender, takeUpdate, stays, if_neg Bool.false_ne_true]
  dsimp only
  rw [← applied, if_pos rfl]

theorem roleHandoff_starts {s : State} {m : DomHdr} (role joiner step : Nat) (up : s.up = true) (takes : s.takesDomain m true)
    (sender : m.sender = s.dom.anchor) (other : s.dom.role ≠ 1) :
    exec (.roleHandoff m role joiner step) s = .next { s with
      dom.handoff := some { role := role, joiner := joiner, step := step - 1, queue := none, bytes := 0, windows := [] } } :=
  done_fromAnchor up takes sender other rfl

theorem stateManifest_judges {s : State} {m : DomHdr} {g : RoleGrant} {step bytes regions received : Nat} {fence : Code}
    (up : s.up = true) (takes : s.takesDomain m true) (grant : s.dom.roleGrant = some g) (partner : g.partner = m.sender) :
    exec (.stateManifest m g.role step bytes regions received fence) s = .next (
      if received = bytes ∧ fence = cOk then { s with dom.manifest := some (g.role, step, bytes, regions) }
      else { s with dom.manifest := none }) := by
  refine done_domTake up takes ?_
  rw [grant]
  dsimp only
  rw [if_neg (by simp [partner])]
  simp only [Bool.and_eq_true, decide_eq_true_eq]

/-- Settles O21: each command by its guard. -/
theorem domainUpkeepCompletes : Obligations.DomainUpkeepCompletes :=
  ⟨fun _ _ _ up policy anchor valid owner domain same later =>
      policyUpdate_adopts up policy anchor valid owner domain same later rfl rfl,
    fun _ _ _ => hostMember_admits, fun _ _ _ => hostMember_forwards, fun _ _ _ _ => hallmarkNonce_makes,
    fun _ up inside quiet => ⟨domainLeave_leaves up inside quiet, leaveDomain_role _⟩,
    fun _ _ => memberDownReceived_triggers, fun _ _ => memberLeave_triggers,
    fun _ _ _ _ _ _ up takes role sender stays => memberUpdate_applies up takes role sender stays rfl,
    fun _ _ role joiner step => roleHandoff_starts role joiner step,
    fun _ _ _ _ _ _ _ _ => stateManifest_judges⟩

end Sys2Proof.Machine

/-! Epoch changes and anchor failover (R178, R184, R190, R192 to R197). -/
namespace Sys2Proof.Machine

/-! The change of an epoch. -/

theorem epochCoalesceExpire_starts {s : State} {t : Nat} (up : s.up = true) (anchor : s.dom.role = 1)
    (window : s.dom.coalesceAt = some t) (passed : t + setting s 0x2201 6 * 1000000 ≤ s.ns) (quiet : s.dom.changing = false) :
    exec .epochCoalesceExpire s = .next (startChange s) := by
  refine done_whenUp up ?_
  rw [window]
  exact if_pos (by simp [anchor, passed, quiet])

theorem epochAgeLimit_triggers {s : State} {p : Policy} (up : s.up = true) (anchor : s.dom.role = 1)
    (policy : s.dom.policy = some p) (aged : p.maxAge ≠ 0) (passed : s.dom.epochAt + p.maxAge * 1000000000 ≤ s.ns) :
    exec .epochAgeLimit s = .next (epochTrigger s 0) :=
  done_whenUp up (if_pos (by simp [anchor, policy, aged, passed]))

theorem epochPrepare_shares {s : State} {m : DomHdr} (up : s.up = true) (takes : s.takesDomain m true)
    (sender : m.sender = s.dom.anchor) (other : s.dom.role ≠ 1) (ended : s.dom.grace = none) (open' : s.dom.committed = false) :
    exec (.epochPrepare m (s.dom.epoch + 1)) s = .next (sendShare s m (s.dom.epoch + 1)) :=
  done_fromAnchor up takes sender other (if_pos (by simp [ended, open']))

theorem epochShare_answers {s s1 : State} {m : DomHdr} {q qr : Point} {ek ct : KemBlob} {p : EpochPart} {next : Key}
    {ss : BitVec 384} (up : s.up = true) (takes : s.takesDomain m true) (anchor : s.dom.role = 1)
    (part : tget s.dom.parts m.sender = some p) (key : key256 s .nextDomainKey = some next) (changing : s.dom.changing = true)
    (open' : s.dom.committed = false) (agreed : kaRespond s q ek = (s1, some (qr, ct, ss))) :
    exec (.epochShare m q ek) s = .next (sendDom { s1 with
      dom.parts := tset s1.dom.parts m.sender { p with shared := true } } mEpochKey m.sender m.txn cOk
      (be 97 qr.toNat ++ be 1568 ct.toNat ++ envBytes (sealEnv (left256 ss) next 1 s1.dom.nextEpoch s1.dom.domainId))) := by
  refine done_anchorTake up takes anchor ?_
  rw [part, key]
  dsimp only
  rw [changing, open', if_neg (by decide), agreed]

theorem epochKey_takes {s : State} {m : DomHdr} {q : Point} {ct : KemBlob} {env : KeyEnvelope} {k : Key} (up : s.up = true)
    (takes : s.takesDomain m true) (sender : m.sender = s.dom.anchor) (other : s.dom.role ≠ 1)
    (changing : s.dom.changing = true) (open' : s.dom.committed = false) (secret : (epochPriv s m.sender).isSome = true)
    (opens : epochKeyOf s m q ct env = some k) :
    exec (.epochKey m q ct env) s = .next (sendDom (putDomainKey (dropPriv s m.sender) true k) mEpochAck m.sender m.txn cOk
      (be 4 (kcv k).toNat)) := by
  refine done_fromAnchor up takes sender other ?_
  rw [changing, open', if_neg (by simpa using Option.isSome_iff_ne_none.mp secret), opens]

theorem epochAck_counts {s : State} {m : DomHdr} {p : EpochPart} {next : Key} (up : s.up = true) (takes : s.takesDomain m true)
    (anchor : s.dom.role = 1) (part : tget s.dom.parts m.sender = some p) (key : key256 s .nextDomainKey = some next)
    (changing : s.dom.changing = true) (shared : p.shared = true) :
    exec (.epochAck m (kcv next)) s = .next (tryCommit { s with
      dom.parts := tset s.dom.parts m.sender { p with acked := true } }) := by
  refine done_anchorTake up takes anchor ?_
  rw [part, key]
  dsimp only
  rw [if_pos (by simp [changing, shared])]

theorem epochCommit_arms {s s1 : State} {m : DomHdr} {switchAt : Nat} (up : s.up = true) (takes : s.takesDomain m true)
    (sender : m.sender = s.dom.anchor) (other : s.dom.role ≠ 1) (open' : s.dom.committed = false) (ended : s.dom.grace = none)
    (changing : s.dom.changing = true) (held : (findKey s .nextDomainKey).isSome = true) (armed : armSwitch s switchAt = (s1, true)) :
    exec (.epochCommit m switchAt) s = .next s1 := by
  refine done_fromAnchor up takes sender other ?_
  rw [if_neg (by simp [open', ended]), if_pos (by simp [changing, held]), armed]
  rfl

theorem epochAckTimeout_excludes {s : State} {unit t : Nat} {p : EpochPart} (up : s.up = true) (anchor : s.dom.role = 1)
    (changing : s.dom.changing = true) (open' : s.dom.committed = false) (prepared : s.dom.prepareAt = some t)
    (late : t + 500000000 ≤ s.ns) (part : tget s.dom.parts unit = some p) (missing : p.acked = false) :
    exec (.epochAckTimeout unit) s = .next (tryCommit (sendNotice (epochTrigger s unit) 1 6 unit)) := by
  have due : (decide (s.dom.role = 1) && s.dom.changing && !s.dom.committed &&
      (s.dom.prepareAt.any fun t => decide (t + 500000000 ≤ s.ns)) && (tget s.dom.parts unit).any fun p => !p.acked) = true := by
    rw [anchor, changing, open', prepared, Option.any_some, decide_eq_true late, part, Option.any_some, missing]
    rfl
  exact done_whenUp up (if_pos due)

theorem epochGraceEnd_announces {s u v : State} {t : Nat} {gone : List Nat} (up : s.up = true) (grace : s.dom.grace = some t)
    (passed : t ≤ s.ns) (ended : u = endGrace s) (anchor : u.dom.role = 1) (left : gone = u.dom.triggers.filter (member u))
    (announced : v = anchorState (memberUpdate (gone.foldl dropMember u) [] gone [] none)) :
    exec .epochGraceEnd s = .next (if v.dom.triggers = [] then v else { v with dom.coalesceAt := some v.ns }) := by
  refine done_whenUp up ?_
  rw [grace, Option.any_some, decide_eq_true passed, if_pos rfl]
  dsimp only
  rw [← ended, if_pos anchor, ← left, ← announced]

theorem epochGraceEnd_ends {s : State} {t : Nat} (up : s.up = true) (grace : s.dom.grace = some t) (passed : t ≤ s.ns)
    (other : (endGrace s).dom.role ≠ 1) (idle : (endGrace s).dom.heldPrepare = none) :
    exec .epochGraceEnd s = .next (endGrace s) := by
  have due : (s.dom.grace.any fun t => decide (t ≤ s.ns)) = true := by rw [grace, Option.any_some, decide_eq_true passed]
  refine done_whenUp up ((if_pos due).trans ?_)
  generalize endGrace s = u at other idle
  dsimp only
  rw [if_neg other, idle]

/-! The anchor and its deputies. -/

theorem anchorBeatTimer_beats {s u : State} (up : s.up = true) (anchor : s.dom.role = 1)
    (due : s.dom.beatSentAt + 10000000 ≤ s.ns)
    (sent : u = (otherDeputies s).foldl (fun s d => sendDom s mAnchorBeat d 0 cOk []) s) :
    exec .anchorBeatTimer s = .next { u with dom.beatSentAt := u.ns } := by
  refine done_whenUp up ?_
  rw [if_pos (by simp [anchor, due]), ← sent]

theorem anchorBeat_restarts {s : State} {m : DomHdr} (up : s.up = true) (takes : s.takesDomain m true)
    (sender : m.sender = s.dom.anchor) (other : s.dom.role ≠ 1) :
    exec (.anchorBeat m) s = .next { s with dom.beatAt := s.ns, dom.probes := [], dom.claimAt := none } :=
  done_fromAnchor up takes sender other rfl

/-- The members of the copy stand in the anchor's order, each found by its unit (R196). -/
theorem ordered_members {known members : List Member} {x : Member}
    (mem : x ∈ members.filterMap fun y => known.find? fun z => z.unit == y.unit) :
    members.any (fun y => y.unit == x.unit) = true := by
  obtain ⟨y, listed, found⟩ := List.mem_filterMap.mp mem
  have same : (x.unit == y.unit) = true := List.find?_some (p := fun z : Member => z.unit == y.unit) found
  exact List.any_eq_true.mpr ⟨y, listed, by simpa using (beq_iff_eq.mp same).symm⟩

theorem anchorState_replaces {s : State} {m : DomHdr} {members : List Member} {hosts : List HostRec} {policy : Policy}
    {anchor term : Nat} {pending : Option (Nat × Option Nat)} (up : s.up = true) (takes : s.takesDomain m true)
    (sender : m.sender = s.dom.anchor) (other : s.dom.role ≠ 1) (valid : policyOk policy = true) :
    ∃ t, exec (.anchorState m members hosts policy ⟨anchor, term, pending⟩) s = .next t ∧ t.dom.hosts = hosts ∧
      t.dom.policy = some policy ∧ t.dom.policyDigest = policyDigest policy ∧ t.dom.anchor = anchor ∧
      t.dom.pending = pending ∧ ∀ x ∈ t.dom.members, members.any (fun y => y.unit == x.unit) = true :=
  ⟨_, done_fromAnchor up takes sender other rfl, rfl, if_pos valid, if_pos valid, rfl, rfl, fun _ => ordered_members⟩

theorem anchorProbe_answers {s : State} {m : DomHdr} (up : s.up = true) (takes : s.takesDomain m true) (anchor : s.dom.role = 1) :
    exec (.anchorProbe m) s = .next (sendDom s mAnchorBeat m.sender m.txn cOk []) :=
  done_anchorTake up takes anchor rfl

theorem anchorSilence_claims {s : State} (up : s.up = true) (deputy : s.dom.role = 2) (first : deputyNo s = 1) :
    exec (.anchorSilence true) s = .next (claimAnchor s) := by
  refine done_whenUp up ?_
  rw [if_pos deputy, if_pos rfl, anchorLost, if_pos first]

theorem anchorSilence_probes {s : State} (up : s.up = true) (deputy : s.dom.role = 2) (silent : s.dom.beatAt + 100000000 ≤ s.ns)
    (fresh : s.dom.probes = []) :
    exec (.anchorSilence false) s = .next (sendDom { s with dom.probes := [s.ns] } mAnchorProbe s.dom.anchor 0 cOk []) := by
  refine done_whenUp up ?_
  rw [if_pos deputy, if_neg Bool.false_ne_true, if_neg (Nat.not_lt.mpr silent), fresh]
  rfl

theorem claimWaitExpire_claims {s : State} {t : Nat} (up : s.up = true) (deputy : s.dom.role = 2)
    (waits : s.dom.claimAt = some t) (passed : t ≤ s.ns) : exec .claimWaitExpire s = .next (claimAnchor s) :=
  done_whenUp up (if_pos (by simp [deputy, waits, passed]))

theorem roleNow_cases (s : State) : roleNow s = 1 ∨ roleNow s = 2 ∨ roleNow s = 3 := by
  unfold roleNow
  split
  · exact .inl rfl
  · split
    · exact .inr (.inl rfl)
    · exact .inr (.inr rfl)

theorem anchorClaim_takes {s : State} {m : DomHdr} {term : Nat} {deputies : List Nat} (up : s.up = true)
    (takes : s.takesDomain m true) (other : s.dom.role ≠ 1) (listed : s.dom.deputies.contains m.sender = true)
    (higher : s.dom.term < term) :
    ∃ t, exec (.anchorClaim m term deputies) s = .next t ∧ t.dom.deputies = deputies ∧
      (t.dom.role = 1 ∨ t.dom.role = 2 ∨ t.dom.role = 3) := by
  refine ⟨_, done_domTake up takes ((if_pos ?_).trans (if_neg other)), rfl, roleNow_cases _⟩
  rw [listed, decide_eq_true higher]
  rfl

theorem domainTermStale_leaves {s : State} {m : DomHdr} (up : s.up = true) (anchor : s.dom.role = 1) (form : hdrOk m = true)
    (domain : m.domainId = s.dom.domainId) (known : member s m.sender = true) (higher : s.dom.term < m.term) :
    exec (.domainTermStale m) s = .next (leaveDomain s) := by
  refine done_whenUp up ?_
  rw [if_neg (by simp [isMember, anchor, form, domain, known]), if_pos (by simp [anchor, higher]), termLost]

/-- Settles O22: each command by its guard. -/
theorem epochAndAnchorCommandsComplete : Obligations.EpochAndAnchorCommandsComplete :=
  ⟨fun _ _ => epochCoalesceExpire_starts, fun _ _ => epochAgeLimit_triggers, fun _ _ => epochPrepare_shares,
    fun _ _ _ _ _ _ _ _ _ _ => epochShare_answers, fun _ _ _ _ _ _ => epochKey_takes, fun _ _ _ _ => epochAck_counts,
    fun _ _ _ _ => epochCommit_arms, fun _ _ _ _ => epochAckTimeout_excludes,
    fun _ _ up grace passed anchor => epochGraceEnd_announces up grace passed rfl anchor rfl rfl,
    fun _ _ => epochGraceEnd_ends, fun _ up anchor due => anchorBeatTimer_beats up anchor due rfl,
    fun _ _ => anchorBeat_restarts, fun _ _ _ _ _ _ _ _ => anchorState_replaces, fun _ _ => anchorProbe_answers,
    fun _ => anchorSilence_claims, fun _ => anchorSilence_probes, fun _ _ => claimWaitExpire_claims,
    fun _ _ _ _ => anchorClaim_takes, fun _ _ => domainTermStale_leaves⟩

end Sys2Proof.Machine

/-! SPDM (R303 to R306, R322). -/
namespace Sys2Proof.Machine

/-! Negotiation. -/

theorem getVersion_answers {s u : State} (up : s.up = true) (free : s.crossOpen 128 = true) (taken : u = s.heldIn 130) :
    exec .getVersion s = .next
      (({ u with host.negotiated := 1, host.transcript := [] } : State).emit (.spdm rVersion [0x13])) := by
  subst taken
  exact done_fromHost up free rfl

theorem getCapabilities_answers {s u : State} (requested : BitVec 32) (up : s.up = true) (free : s.crossOpen 128 = true)
    (started : s.host.negotiated ≠ 0) (taken : u = s.heldIn 130) :
    exec (.getCapabilities requested) s = .next
      (({ u with host.negotiated := 2, host.caps := requested &&& spdmCaps } : State).emit
        (.spdm rCapabilities (le 4 spdmCaps.toNat ++ le 1 16 ++ le 4 16384 ++ le 4 16384))) := by
  subst taken
  exact done_fromHost up free (if_neg started)

theorem negotiateAlgorithms_selects {s u : State} {o : SpdmOffer} (up : s.up = true) (free : s.crossOpen 128 = true)
    (started : 2 ≤ s.host.negotiated) (covers : offerOk o = true) (taken : u = s.heldIn 130) :
    exec (.negotiateAlgorithms o) s = .next (({ u with host.negotiated := 3 } : State).emit (.spdm rAlgorithms spdmSelection)) := by
  subst taken
  refine done_fromHost up free ?_
  rw [State_heldIn_host, if_neg (Nat.not_lt.mpr started), if_neg (by simp [covers])]

theorem getHallmark_answers {s s1 : State} {nonce : BitVec 256} {h : Hallmark} (up : s.up = true) (free : s.crossOpen 128 = true)
    (negotiated : s.host.negotiated = 3) (made : makeHallmark (s.heldIn 130) nonce none false = (s1, some h)) :
    exec (.getHallmark nonce) s = .next (s1.emit (.spdm rVendor (hallBytes h))) := by
  refine done_fromHost up free ?_
  rw [State_heldIn_host, if_neg (not_not_intro negotiated), made]

/-! The session's start. -/

theorem keyExchange_answers {s s1 s2 : State} {host : Nat} {q qr : Point} {ek ct : KemBlob} {ss : BitVec 384} {g : HybSig}
    {t : Bytes} (up : s.up = true) (free : s.crossOpen 128 = true) (idle : s.host.session = 0) (inside : isMember s = true)
    (admitted : (hostKey s host).isSome = true) (negotiated : s.host.negotiated = 3)
    (agreed : kaRespond (s.heldIn 130) q ek = (s1, some (qr, ct, ss)))
    (heard : t = s1.host.transcript ++ be 97 q.toNat ++ be 1568 ek.toNat ++ be 97 qr.toNat ++ be 1568 ct.toNat)
    (signed : signId (putSecret s1 .spdmHandshake ss) t = (s2, some g)) :
    exec (.keyExchange host q ek) s = .next
      (({ s2 with host.session := 1, host.requester := host, host.transcript := t } : State).emit
        (.spdm rKeyExchange (be 97 qr.toNat ++ be 1568 ct.toNat ++ be 96 g.ecdsa.toNat ++ be 4627 g.mldsa.toNat))) := by
  have unknown : (!isMember (s.heldIn 130) || (hostKey (s.heldIn 130) host).isNone) = false := by
    have known : (hostKey s host).isNone = false := by rw [← Option.not_isSome, admitted]; rfl
    exact show (!isMember s || (hostKey s host).isNone) = false by rw [inside, known]; rfl
  refine done_fromHost up free ?_
  rw [State_heldIn_host, if_neg (not_not_intro idle), unknown, if_neg Bool.false_ne_true, if_neg (not_not_intro negotiated), agreed]
  dsimp only
  rw [← heard, signed]

theorem finish_opens {s u : State} {mac ss : BitVec 384} {g : HybSig} (up : s.up = true) (free : s.crossOpen 128 = true)
    (handshake : s.host.session = 1) (inside : isMember s = true) (signed : finishSigned s g = true)
    (verifies : finishOk s mac = some ss)
    (room : secretRefused (s.heldIn 130) (2 + 2 * (servingSlices s).length) = none)
    (opened : u = openSession (s.heldIn 130) ss) :
    exec (.finish mac g) s = .next (u.emit (.spdm rFinish [])) := by
  have refused : (!isMember (s.heldIn 130) || !finishSigned (s.heldIn 130) g) = false :=
    show (!isMember s || !finishSigned s g) = false by rw [inside, signed]; rfl
  have verifies' : finishOk (s.heldIn 130) mac = some ss := verifies
  have room' : secretRefused (s.heldIn 130) (2 + 2 * (servingSlices (s.heldIn 130)).length) = none := room
  refine done_fromHost up free ?_
  rw [State_heldIn_host, if_neg (not_not_intro handshake), refused, if_neg Bool.false_ne_true, verifies']
  dsimp only
  rw [room', if_neg (by decide), ← opened]

/-- A session opens with generation 0 in both directions (R304). -/
theorem openSession_host (s : State) (ss : BitVec 384) :
    (openSession s ss).host.session = 2 ∧ (openSession s ss).host.genIn = 0 ∧ (openSession s ss).host.genOut = 0 := by
  unfold openSession
  dsimp only
  rw [foldl_host _ hostSliceIn_host]
  exact ⟨rfl, rfl, rfl⟩

/-! The session's messages. -/

section
variable {s t : State} {f : State → State}

/-- A message of an open session is taken on the state that has taken the held value. -/
theorem done_inSession (up : s.up = true) (free : s.crossOpen 128 = true) (session : s.host.session = 2)
    (h : f (s.heldIn 130) = t) : done (fromHost s 130 fun s => inSession s f) = .next t :=
  done_fromHost up free ((if_pos session).trans h)

theorem updateKey_advances (up : s.up = true) (free : s.crossOpen 128 = true) (session : s.host.session = 2)
    (settled : updating s = false) (room : secretRefused (s.heldIn 130) (servingSlices (s.heldIn 130)).length = none) :
    exec .updateKey s = .next (keyUpdated (advanceIn (s.heldIn 130))) := by
  have settled' : updating (s.heldIn 130) = false := settled
  refine done_inSession up free session ?_
  rw [settled', room, if_neg (by decide)]

theorem updateAllKeys_advances (up : s.up = true) (free : s.crossOpen 128 = true) (session : s.host.session = 2)
    (settled : updating s = false) (room : secretRefused (s.heldIn 130) (2 * (servingSlices (s.heldIn 130)).length) = none) :
    exec .updateAllKeys s = .next (retireOutbound (keyUpdated (advanceOut (advanceIn (s.heldIn 130))))) := by
  have settled' : updating (s.heldIn 130) = false := settled
  refine done_inSession up free session ?_
  rw [settled', room, if_neg (by decide)]

theorem advanceIn_gens (s : State) :
    (advanceIn s).host.genIn = s.host.genIn + 1 ∧ (advanceIn s).host.genOut = s.host.genOut := by
  unfold advanceIn
  dsimp only
  rw [foldl_host _ fun s n => deriveBounce_host s n 0]
  exact ⟨rfl, congrArg (·.genOut) (updateSecret_host s 0)⟩

theorem advanceOut_gens (s : State) :
    (advanceOut s).host.genIn = s.host.genIn ∧ (advanceOut s).host.genOut = s.host.genOut + 1 := by
  unfold advanceOut
  dsimp only
  rw [foldl_host _ fun s n => deriveBounce_host s n 1]
  exact ⟨congrArg (·.genIn) (updateSecret_host s 1), rfl⟩

theorem verifyNewKey_marks {u : State} (up : s.up = true) (free : s.crossOpen 128 = true) (session : s.host.session = 2)
    (updated : s.host.updIn = true) (unmarked : s.host.marksIn = none) (taken : u = s.heldIn 130) :
    exec .verifyNewKey s = .next
      ((retireInbound { u with host.marksIn := some (inboundDescs u) }).emit (.spdm rKeyUpdateAck [])) := by
  have marks : ((s.heldIn 130).host.updIn && (s.heldIn 130).host.marksIn.isNone) = true :=
    show (s.host.updIn && s.host.marksIn.isNone) = true by rw [updated, unmarked]; rfl
  refine done_inSession up free session ?_
  rw [marks, if_pos rfl, taken]

theorem heartbeat_answers (up : s.up = true) (free : s.crossOpen 128 = true) (session : s.host.session = 2) :
    exec .heartbeat s = .next ((s.heldIn 130).emit (.spdm rHeartbeatAck [])) :=
  done_inSession up free session rfl

theorem endSession_ends (up : s.up = true) (free : s.crossOpen 128 = true) (session : s.host.session = 2) :
    exec .endSession s =
      .next (endSpdm ((notice (s.heldIn 130) 0 322 uHse 0).emit (.spdm rEndSessionAck [])) cKeyDestroyed none) :=
  done_inSession up free session rfl

end

theorem rekeyDue_posts {s : State} {due : Nat → Bool} {data : Nat} (up : s.up = true)
    (passed : due = fun t => decide (t + s.host.period * 1000000 ≤ s.ns))
    (directions : data = b2n (due s.host.updateIn) + 2 * b2n (due s.host.updateOut)) (some' : data ≠ 0) :
    exec .rekeyDue s = .next (rekeyEvent s data) := by
  subst passed
  refine done_whenUp up ?_
  dsimp only at directions ⊢
  rw [← directions, if_neg some']

/-- Settles O23: each message by its guard, and the session's record through the derivations. -/
theorem spdmCommandsComplete : Obligations.SpdmCommandsComplete :=
  ⟨fun _ up free => getVersion_answers up free rfl,
    fun _ requested up free started => getCapabilities_answers requested up free started rfl,
    fun _ _ up free started covers => negotiateAlgorithms_selects up free started covers rfl,
    fun _ _ _ _ _ _ _ _ _ _ up free idle inside admitted negotiated agreed signed =>
      keyExchange_answers up free idle inside admitted negotiated agreed rfl signed,
    fun _ _ ss _ up free handshake inside signed verifies room =>
      ⟨finish_opens up free handshake inside signed verifies room rfl, openSession_host _ ss⟩,
    fun s up free session settled =>
      have new := advanceIn_gens (s.heldIn 130)
      have both := advanceOut_gens (advanceIn (s.heldIn 130))
      ⟨fun room => ⟨updateKey_advances up free session settled room, new⟩,
        fun room => ⟨updateAllKeys_advances up free session settled room, both.1.trans new.1,
          both.2.trans (congrArg (· + 1) new.2)⟩⟩,
    fun _ up free session updated unmarked => verifyNewKey_marks up free session updated unmarked rfl,
    fun _ up free session => ⟨heartbeat_answers up free session, endSession_ends up free session⟩,
    fun _ _ _ _ => getHallmark_answers,
    fun _ up => rekeyDue_posts up rfl rfl⟩

end Sys2Proof.Machine

/-!
The vault's keys (chapter 3): what decides whether a key may be derived and stays while keys come, and what reads give after
the operations on slots and engine registers.
-/
namespace Sys2Proof.Machine

/-- The vault without its keys, their replacements and the counts of its random source. -/
def Vault.terms (v : Vault) : Vault := { v with slots := [], regs := [], highWater := [], requests := 0, derivations := 0, replacing := [] }

/-- What decides whether a key may be derived. -/
def State.keyTerms (s : State) : Vault × Domain × Contexts × MemSeal × LifeCycle := (s.vault.terms, s.dom, s.ctxs, s.mem, s.lc)

@[simp] theorem foldl_keyTerms {α : Type} (f : State → α → State) (h : ∀ s a, (f s a).keyTerms = s.keyTerms) (l : List α)
    (s : State) : (l.foldl f s).keyTerms = s.keyTerms := by
  induction l generalizing s with
  | nil => rfl
  | cons a l ih => rw [List.foldl_cons, ih, h]

@[simp] theorem netSend_keyTerms (s : State) (a1 : Nat) (a2 : Nat) (a3 : NetKind) (a4 : Bytes) :
    (netSend s a1 a2 a3 a4).keyTerms = s.keyTerms := by simp [State.keyTerms]

@[simp] theorem modReg_keyTerms (s : State) (a1 : KeyPath) (a2 : KeyReg → KeyReg) :
    (modReg s a1 a2).keyTerms = s.keyTerms := id rfl

@[simp] theorem limHit_keyTerms (s : State) (a1 : LimKey) :
    (limHit s a1).keyTerms = s.keyTerms := by simp [State.keyTerms]

@[simp] theorem keySend_keyTerms (s : State) (a1 : List Nat) (a2 : Shares) :
    (keySend s a1 a2).keyTerms = s.keyTerms := by
  unfold keySend
  exact foldl_keyTerms _ (by simp) _ _

@[simp] theorem loadReg_keyTerms (s : State) (p : KeyPath) (v : BitVec 512) (attr : BitVec 16) (parent : Option KeyPath)
    (label ctx : Bytes) : (loadReg s p v attr parent label ctx).keyTerms = s.keyTerms := by
  unfold loadReg
  split
  · rfl
  · dsimp only
    rw [keySend_keyTerms]
    rfl

@[simp] theorem putKey_keyTerms (s : State) (p : KeyPath) (v : BitVec 512) (width part slot share : Nat) (attr : BitVec 16)
    (label : Bytes) (parent : Option KeyPath) (ctx : Bytes) :
    (putKey s p v width part slot share attr label parent ctx).keyTerms = s.keyTerms := by
  unfold putKey
  split
  · rfl
  · dsimp only
    rw [loadReg_keyTerms]
    split <;> rfl

@[simp] theorem derive_keyTerms (n : Nat) (s : State) (p : KeyPath) : (derive n s p).keyTerms = s.keyTerms := by
  induction n generalizing s p with
  | zero => rfl
  | succ n ih =>
    have parent (q : KeyPath) : (if (findKey s q).isSome then s else derive n s q).keyTerms = s.keyTerms := by
      split
      · rfl
      · exact ih s q
    unfold derive
    split
    · rfl
    · split
      · rfl
      · split
        · rfl
        · next q _ =>
          have kept := parent q
          generalize (if (findKey s q).isSome then s else derive n s q) = u at kept
          dsimp only
          split
          · exact kept
          · exact (putKey_keyTerms u p _ _ _ _ _ _ _ _ _).trans kept

@[simp] theorem chargeDerive_keyTerms (s : State) (a1 : KeyPath) :
    (chargeDerive s a1).keyTerms = s.keyTerms := by unfold chargeDerive; (repeat' split) <;> simp [apply_ite State.keyTerms]

@[simp] theorem needKey_keyTerms (s : State) (a1 : KeyPath) :
    (needKey s a1).keyTerms = s.keyTerms := by simp [needKey]

/-! Reads of the slots. -/

/-- With a random source and room, the slot of a key that was put holds its value and attributes. -/
theorem findKey_putKey_same {s : State} {p : KeyPath} {part share : Nat} (good : s.vault.entropyOk = true)
    (room : slotRoom s p part share = true) (v : BitVec 512) (width slot : Nat) (attr : BitVec 16) (label : Bytes)
    (parent : Option KeyPath) (ctx : Bytes) :
    ∃ k, findKey (putKey s p v width part slot share attr label parent ctx) p = some k ∧ k.key.read = some v ∧ k.attr = attr := by
  have read := shares_read v (s.drawn 512)
  unfold putKey
  rw [good, room, if_neg (by decide)]
  dsimp only
  rw [findKey, loadReg_slots]
  exact ⟨_, List.find?_cons_of_pos (by simp [KeySlot.used]), read, rfl⟩

theorem findKey_modKey_same {s : State} {p : KeyPath} {k : KeySlot} {f : KeySlot → KeySlot} (held : findKey s p = some k)
    (path : ∀ k, (f k).path = k.path) : findKey (modKey s p f) p = some (f k) := by
  have at_p : k.path = p := by simpa using List.find?_some held
  have same : ((fun k : KeySlot => k.path == p) ∘ fun k => if k.path == p then f k else k) = fun k => k.path == p := by
    funext k
    dsimp only [Function.comp]
    split
    · rw [path]
    · rfl
  unfold findKey modKey
  dsimp only
  rw [List.find?_map, same, show s.vault.slots.find? (fun k => k.path == p) = some k from held, Option.map_some, at_p, beq_self_eq_true,
    if_pos rfl]

/-- A change that leaves paths and shares leaves what every key reads. -/
theorem keyWide_modKey {s : State} {p : KeyPath} {f : KeySlot → KeySlot} (path : ∀ k, (f k).path = k.path)
    (key : ∀ k, (f k).key = k.key) (q : KeyPath) : keyWide (modKey s p f) q = keyWide s q := by
  have same : ((fun k : KeySlot => k.path == q) ∘ fun k => if k.path == p then f k else k) = fun k => k.path == q := by
    funext k
    dsimp only [Function.comp]
    split
    · rw [path]
    · rfl
  unfold keyWide findKey modKey
  dsimp only
  rw [List.find?_map, same]
  cases s.vault.slots.find? fun k => k.path == q with
  | none => rfl
  | some k =>
    simp only [Option.map_some, Option.bind_some]
    split
    · rw [key]
    · rfl

theorem keyWide_modReg (s : State) (p q : KeyPath) (f : KeyReg → KeyReg) : keyWide (modReg s p f) q = keyWide s q := rfl

theorem keyWide_reportKey (s : State) (p q : KeyPath) : keyWide (reportKey s p) q = keyWide s q := by
  unfold reportKey
  split
  · rw [keyWide_modReg]
    exact keyWide_modKey (f := fun k => k.used _ _) (fun _ => rfl) (fun _ => rfl) q
  · rfl

@[simp] theorem reportKey_keyTerms (s : State) (p : KeyPath) : (reportKey s p).keyTerms = s.keyTerms := by
  unfold reportKey
  split <;> rfl

/-- A switch of the engines' register leaves all but slots and registers. -/
@[simp] theorem switchReg_keyTerms (s : State) (p : KeyPath) : (switchReg s p).keyTerms = s.keyTerms := by
  unfold switchReg
  split
  · split
    · rfl
    · split
      · rfl
      · dsimp only
        rw [modReg_keyTerms, reportKey_keyTerms]
  · rfl

/-! Keys that cannot be derived again (R101, R109). -/

/-- No derivation reaches `p`: its path is not live, or the tree has no row for it. -/
def State.bars (s : State) (p : KeyPath) : Prop := pathLive s p = false ∨ treeRow s p = none

/-- Which of the regions' places are in use. -/
def State.regionsLive (s : State) (r : Nat) : Option Bool := (tget s.mem.regions r).map fun g => g.state != 0

theorem pathLive_congr {s t : State} (vault : t.vault.terms = s.vault.terms) (dom : t.dom = s.dom) (ctxs : t.ctxs = s.ctxs)
    (regions : t.regionsLive = s.regionsLive) (p : KeyPath) : pathLive t p = pathLive s p := by
  have blocked : t.vault.blocked = s.vault.blocked := congrArg (·.blocked) vault
  have sliceGen : t.vault.sliceGen = s.vault.sliceGen := congrArg (·.sliceGen) vault
  have digestGen : t.vault.digestGen = s.vault.digestGen := congrArg (·.digestGen) vault
  have pageGen : t.vault.pageGen = s.vault.pageGen := congrArg (·.pageGen) vault
  have destroyed : t.vault.destroyed = s.vault.destroyed := congrArg (·.destroyed) vault
  have current (c g : Nat) : ctxCurrent t c g = ctxCurrent s c g := by simp only [ctxCurrent, ctxAt, ctxs]
  have labels : labelBlocked t p = labelBlocked s p := by
    simp only [labelBlocked, blocked, sliceGen, digestGen, pageGen]
  have region (r : Nat) : ((tget t.mem.regions r).any fun g => g.state != 0) = (tget s.mem.regions r).any fun g => g.state != 0 := by
    have same := congrFun regions r
    unfold State.regionsLive at same
    revert same
    cases tget t.mem.regions r <;> cases tget s.mem.regions r <;> simp
  unfold pathLive
  rw [labels, destroyed]
  cases p <;> simp only [current, region, dom]

theorem treeRow_none_congr {s t : State} (dom : t.dom = s.dom) (regions : t.regionsLive = s.regionsLive) {p : KeyPath}
    (h : treeRow s p = none) : treeRow t p = none := by
  cases p
  case region r k =>
    have same := congrFun regions r
    simp only [treeRow, State.regionsLive, Option.map_eq_none_iff] at h same ⊢
    rwa [h, Option.map_none, Option.map_eq_none_iff] at same
  case flow peer de fe =>
    simpa only [treeRow, dom] using h
  all_goals simpa [treeRow] using h

/-- A key that cannot be derived stays so while what decides it stays. -/
theorem State.bars.congr {s t : State} {p : KeyPath} (vault : t.vault.terms = s.vault.terms) (dom : t.dom = s.dom)
    (ctxs : t.ctxs = s.ctxs) (regions : t.regionsLive = s.regionsLive) (h : s.bars p) : t.bars p :=
  h.imp (pathLive_congr vault dom ctxs regions p).trans (treeRow_none_congr dom regions)

/-- No key stands at `p`, and none can be derived there: nothing is held, or `p` is barred. -/
def State.lost (s : State) (p : KeyPath) : Prop := findKey s p = none ∧ (s.vault.slots = [] ∨ s.bars p)

theorem findKey_of_empty {s : State} (h : s.vault.slots = []) (p : KeyPath) : findKey s p = none := by
  rw [findKey, h, List.find?_nil]

theorem State.lost.congr {s t : State} {p : KeyPath} (slots : t.vault.slots = s.vault.slots)
    (terms : t.vault.terms = s.vault.terms) (dom : t.dom = s.dom) (ctxs : t.ctxs = s.ctxs)
    (regions : t.regionsLive = s.regionsLive) (h : s.lost p) : t.lost p :=
  ⟨by rw [findKey, slots]; exact h.1, h.2.imp slots.trans (State.bars.congr terms dom ctxs regions)⟩

theorem State.lost_of_empty {s : State} (h : s.vault.slots = []) (p : KeyPath) : s.lost p := ⟨findKey_of_empty h p, .inl h⟩

/-- Without a key in the vault nothing is derived. -/
theorem derive_empty (n : Nat) {s : State} (h : s.vault.slots = []) (p : KeyPath) : (derive n s p).vault.slots = [] := by
  induction n generalizing s p with
  | zero => exact h
  | succ n ih =>
    have parent (q : KeyPath) : (if (findKey s q).isSome then s else derive n s q).vault.slots = [] := by
      split
      · exact h
      · exact ih h q
    unfold derive
    split
    · exact h
    · split
      · exact h
      · split
        · exact h
        · next q _ =>
          have none' := parent q
          generalize (if (findKey s q).isSome then s else derive n s q) = u at none'
          dsimp only
          rw [show deriveFrom u q _ _ _ = none by rw [deriveFrom, parentKey, findKey_of_empty none']; rfl]
          exact none'

/-- A derivation does not reach a barred path. -/
theorem derive_barred (n : Nat) {s : State} {p : KeyPath} (barred : s.bars p) (free : findKey s p = none) (q : KeyPath) :
    findKey (derive n s q) p = none := by
  induction n generalizing q with
  | zero => exact free
  | succ n ih =>
    have parent (r : KeyPath) : findKey (if (findKey s r).isSome then s else derive n s r) p = none := by
      split
      · exact free
      · exact ih r
    unfold derive
    split
    · exact free
    · next open' =>
      have live : pathLive s q = true := by
        by_contra dead
        exact open' (by simp [Bool.eq_false_of_not_eq_true dead])
      split
      · exact free
      · next row at_q =>
        have other : p ≠ q := by
          rintro rfl
          rcases barred with dead | rowless
          · rw [dead] at live
            cases live
          · rw [rowless] at at_q
            cases at_q
        split
        · exact free
        · next r _ =>
          have kept := parent r
          generalize (if (findKey s r).isSome then s else derive n s r) = u at kept
          dsimp only
          split
          · exact kept
          · exact (findKey_putKey_other u q p _ _ _ _ _ _ _ _ _ other).trans kept

theorem derive_lost (n : Nat) {s : State} {p : KeyPath} (h : s.lost p) (q : KeyPath) : (derive n s q).lost p := by
  obtain ⟨free, empty | barred⟩ := h
  · exact State.lost_of_empty (derive_empty n empty q) p
  · have terms := derive_keyTerms n s q
    have mem : (derive n s q).mem = s.mem := congrArg (·.2.2.2.1) terms
    exact ⟨derive_barred n barred free q, .inr (barred.congr (congrArg (·.1) terms) (congrArg (·.2.1) terms)
      (congrArg (·.2.2.1) terms) (by unfold State.regionsLive; rw [mem]))⟩

theorem lost_of_vault {s t : State} {p : KeyPath} (vault : t.vault = s.vault) (dom : t.dom = s.dom) (ctxs : t.ctxs = s.ctxs)
    (regions : t.regionsLive = s.regionsLive) (h : s.lost p) : t.lost p :=
  h.congr (congrArg (·.slots) vault) (congrArg Vault.terms vault) dom ctxs regions

theorem needKey_lost {s : State} {p : KeyPath} (h : s.lost p) (q : KeyPath) : (needKey s q).lost p := by
  refine derive_lost 4 ?_ q
  unfold chargeDerive
  split
  · split
    · exact h
    · exact lost_of_vault rfl rfl rfl rfl h
  · exact h


end Sys2Proof.Machine

/-!
The life cycle (chapter 5): the record's commands, the debug port and the protection matrix.
-/
namespace Sys2Proof.Machine

/-! What deriving the session's keys leaves (R97, R101). -/

theorem sessionKeys_keyTerms (s : State) : (sessionKeys s).keyTerms = s.keyTerms :=
  foldl_keyTerms needKey needKey_keyTerms _ s

theorem lc_of_keyTerms {s t : State} (h : t.keyTerms = s.keyTerms) : t.lc = s.lc := congrArg (·.2.2.2.2) h

theorem debugMark_of_keyTerms {s t : State} (h : t.keyTerms = s.keyTerms) : t.vault.debugMark = s.vault.debugMark :=
  congrArg (·.1.debugMark) h

/-! The verdict of a request (R163). -/

/-- What a verdict on entry `index`.`sub` leaves in the life cycle's state. -/
theorem lcResult_lc (s : State) (index sub result : Nat) : (lcResult s index sub result).lc =
    (lcSet s result ((index == 0x2000 && sub == 4) || (index == 0x2001 && sub == 1) || (index == 0x7F00 && sub == 3))).lc := by
  unfold lcResult answerSigned
  dsimp only
  repeat' split
  all_goals simp only [answer_lc, State_spend_lc]

/-- A verdict 1 is noted, uses the nonce up where the entry voids it, and counts no failure. -/
theorem lcResult_pass (s : State) {index sub : Nat} {voids : Bool}
    (entry : ((index == 0x2000 && sub == 4) || (index == 0x2001 && sub == 1) || (index == 0x7F00 && sub == 3)) = voids) :
    (lcResult s index sub 1).lc = { s.lc with
      result := 1, lockout := s.lc.lockout || decide (8 ≤ s.lc.failCount)
      nonce := if voids then none else s.lc.nonce } := by
  rw [lcResult_lc, entry]
  cases voids <;> rfl

/-- A transition writes both copies with the target, the entry actions pending and the next number, and leaves a reset due. -/
theorem transition_writes (s : State) (target : BitVec 16) (binding : Option (BitVec 256)) (signer token : Nat) :
    ∃ c : LcCopy, (transition s target binding signer token).lc = { s.lc with mirror := c, primary := c, busy := true } ∧
      c.state = target ∧ c.stateInv = ~~~target ∧ c.flags = 1 ∧ c.seq = s.lc.primary.seq + 1 ∧
      c.operBinding = binding.getD s.lc.primary.operBinding ∧
      (transition s target binding signer token).pow.pendingChip = some resetByLc := by
  unfold transition
  dsimp only
  rw [record_lc]
  exact ⟨_, rfl, rfl, rfl, rfl, rfl, rfl, rfl⟩

theorem lcRequest_transits {s : State} {r : SignedReq} (aon : s.pow.sessionOpen = true) (kind : r.kind = 1)
    (signer : (signersOf s.lc.code r.toCode).contains r.signer = true)
    (passes : reqCheck s r true (nonceNow s) 0 true = none) :
    ∃ t, exec (.lcRequest r) s = .next t ∧ t.lc.mirror = t.lc.primary ∧ t.lc.primary.state = r.toCode ∧
      t.lc.primary.stateInv = ~~~r.toCode ∧ t.lc.primary.flags = 1 ∧ t.lc.primary.seq = s.lc.primary.seq + 1 ∧
      t.lc.primary.operBinding = (if r.toCode = lcProvisioned then r.newBinding else s.lc.primary.operBinding) ∧
      t.lc.code = s.lc.code ∧ t.lc.nonce = none ∧ t.lc.result = 1 ∧ t.lc.busy = true ∧ t.pow.pendingChip = some resetByLc := by
  have suits : (r.kind == 1 && (signersOf s.lc.code r.toCode).contains r.signer) = true := by rw [kind, signer]; rfl
  obtain ⟨c, wrote, state, inv, flags, seq, binding, due⟩ := transition_writes (lcResult s 0x2000 4 1) r.toCode
    (if r.toCode = lcProvisioned then some r.newBinding else none) r.signer 0
  rw [lcResult_pass s (voids := true) rfl] at wrote seq binding
  refine ⟨transition (lcResult s 0x2000 4 1) r.toCode (if r.toCode = lcProvisioned then some r.newBinding else none) r.signer 0,
    done_whenAon aon ?_, ?_⟩
  · dsimp only
    rw [suits, passes]
  · rw [wrote]
    exact ⟨rfl, state, inv, flags, seq, binding.trans (by split <;> rfl), rfl, rfl, rfl, rfl, due⟩

theorem lcToken_transits {s : State} {target : BitVec 16} {tok : BitVec 128} {i : Nat} (aon : s.pow.sessionOpen = true)
    (early : lcEarly s true true = none) (token : tokenOf s.lc.code target = some i)
    (unused : s.lc.tokensUsed.contains i = false)
    (digest : Config.sha384 (be 16 tok.toNat) = Config.sha384 (be 16 (Config.token i).toNat)) (quiet : quiescent s = true)
    (outside : isMember s = false) :
    ∃ t, exec (.lcToken target tok true) s = .next t ∧ t.lc.mirror = t.lc.primary ∧ t.lc.primary.state = target ∧
      t.lc.primary.flags = 1 ∧ t.lc.primary.seq = s.lc.primary.seq + 1 ∧ t.lc.tokensUsed = i :: s.lc.tokensUsed ∧
      t.lc.nonce = s.lc.nonce ∧ t.pow.pendingChip = some resetByLc := by
  obtain ⟨c, wrote, state, -, flags, seq, -, due⟩ := transition_writes (lcResult s 0x2000 5 1) target none 0 1
  rw [lcResult_pass s (voids := false) rfl] at wrote seq
  refine ⟨{ transition (lcResult s 0x2000 5 1) target none 0 1 with
      lc.tokensUsed := i :: (transition (lcResult s 0x2000 5 1) target none 0 1).lc.tokensUsed }, done_whenAon aon ?_, ?_⟩
  · rw [early]
    dsimp only
    rw [token]
    dsimp only
    rw [unused, if_neg (by simp [digest]), quiet, outside, if_neg (by decide)]
  · dsimp only
    rw [wrote]
    exact ⟨rfl, state, flags, seq, rfl, rfl, due⟩

/-! The nonce and the challenge (R163, R167). -/

theorem lcNonce_holds {s : State} (aon : s.pow.sessionOpen = true) (good : s.vault.entropyOk = true) :
    exec .lcNonce s = .next (answer { s.drew with
      lc.nonce := some (s.drawn 256, s.ns) } 0x81 0x2000 3 0 cOk 0 (be 32 (s.drawn 256 : BitVec 256).toNat)) :=
  done_whenAon aon (if_pos good)

theorem nonceExpire_voids {s : State} {n : BitVec 256} {t : Nat} (held : s.lc.nonce = some (n, t))
    (late : t + 60000000000 ≤ s.ns) : exec .nonceExpire s = .next { s with lc.nonce := none } := by
  change done _ = _
  rw [held]
  dsimp only
  rw [if_pos late, done]

theorem challengeExpire_voids {s : State} {q : BitVec 16 × BitVec 256 × Nat} (held : s.lc.challenge = some q)
    (late : q.2.2 + 600000000000 ≤ s.ns) :
    exec .challengeExpire s = .next { s with lc.challenge := none, lc.challengeBytes := [] } := by
  obtain ⟨scope, n, t⟩ := q
  change done _ = _
  rw [held]
  dsimp only
  rw [if_pos late, done]

/-- A unit that holds its identity signs with it and keeps its life cycle. -/
theorem signId_signs {s : State} {k : HybKey} (held : identity s = some k) (good : s.vault.entropyOk = true) (m : Bytes) :
    ∃ s1 g, signId s m = (s1, some g) ∧ s1.lc = s.lc :=
  ⟨_, _, signWith_identity held good m, rfl⟩

theorem debugRequest_challenges {s : State} {r : SignedReq} {k : HybKey} (aon : s.pow.sessionOpen = true) (kind : r.kind = 2)
    (signer : r.signer = 3) (state : debugStates s = true) (stays : r.toCode = r.fromCode)
    (passes : reqCheck { s with lc.challenge := none, lc.challengeBytes := [] } r true (nonceNow s) s.pow.sessionId true = none)
    (held : identity s = some k) (good : s.vault.entropyOk = true) :
    ∃ t, exec (.debugRequest r) s = .next t ∧ t.lc.challenge = some (r.scope, s.drawn 256, s.ns) ∧ t.lc.nonce = none ∧
      t.lc.result = 1 ∧ t.lc.primary = s.lc.primary := by
  have suits : (r.kind == 2 && r.signer == 3 && debugStates s && r.toCode == r.fromCode) = true := by simp [kind, signer, state, stays]
  have nonce : nonceNow { s with lc.challenge := none, lc.challengeBytes := [] } = nonceNow s := rfl
  generalize asked : ({ s with lc.challenge := none, lc.challengeBytes := [] } : State) = s0 at *
  obtain ⟨s1, g, signed, kept⟩ :=
    signId_signs (s := s0.drew) (by subst asked; exact held) (by subst asked; exact good)
      (reqBytes (challengeReq s0 r.scope (s0.drawn 256) ((identity s0).getD 0)))
  refine ⟨lcResult { s1 with
      lc.challenge := some (r.scope, s0.drawn 256, s0.ns)
      lc.challengeBytes := reqBytes (challengeReq s0 r.scope (s0.drawn 256) ((identity s0).getD 0)) ++ be 96 g.ecdsa.toNat ++
        be 4627 g.mldsa.toNat } 0x2001 1 1, done_whenAon aon ?_, ?_⟩
  · dsimp only
    rw [asked, suits, nonce, passes]
    dsimp only
    rw [signed]
  · rw [lcResult_pass _ (voids := true) rfl, kept]
    subst asked
    exact ⟨rfl, rfl, rfl, rfl⟩

/-! The debug port (R167). -/

theorem openDebug_opens (s : State) (scope : BitVec 16) :
    (openDebug s scope).lc.primary.debugOpens = min (s.lc.primary.debugOpens + 1) 0xFFFF ∧
      (openDebug s scope).lc.mirror = (openDebug s scope).lc.primary ∧ (openDebug s scope).lc.scrubPending = true ∧
      (openDebug s scope).lc.pendingScope = some (scope, true) ∧ (openDebug s scope).lc.challenge = none ∧
      (openDebug s scope).vault.debugMark = true := by
  unfold openDebug
  dsimp only
  rw [lc_of_keyTerms (sessionKeys_keyTerms _), debugMark_of_keyTerms (sessionKeys_keyTerms _)]
  exact ⟨rfl, rfl, rfl, rfl, rfl, rfl⟩

theorem lcEarly_of_reqCheck {s : State} {r : SignedReq} {suits scopeIn : Bool} {nonce : Option (BitVec 256)} {session : BitVec 64}
    (passes : reqCheck s r suits nonce session scopeIn = none) : lcEarly s r.overCan (reqForm r) = none := by
  unfold reqCheck at passes
  split at passes
  · cases passes
  · assumption

theorem debugGrant_opens {s : State} {r : SignedReq} {scope : BitVec 16} {n : BitVec 256} {t0 : Nat}
    (aon : s.pow.sessionOpen = true) (kind : r.kind = 3) (signer : r.signer = 2) (state : debugStates s = true)
    (stays : r.toCode = r.fromCode) (challenged : s.lc.challenge = some (scope, n, t0)) (timely : s.ns < t0 + 600000000000)
    (within : r.scope &&& ~~~scope = 0) (passes : reqCheck s r true (some n) s.pow.sessionId true = none) :
    ∃ t, exec (.debugGrant r) s = .next t ∧ t.lc.primary.debugOpens = min (s.lc.primary.debugOpens + 1) 0xFFFF ∧
      t.lc.mirror = t.lc.primary ∧ t.lc.scrubPending = true ∧ t.lc.pendingScope = some (r.scope, true) ∧
      t.lc.challenge = none ∧ t.vault.debugMark = true := by
  have suits : (r.kind == 3 && r.signer == 2 && debugStates s && r.toCode == r.fromCode) = true := by simp [kind, signer, state, stays]
  have opened := openDebug_opens (lcResult s 0x2001 3 1) r.scope
  rw [lcResult_pass s (voids := false) rfl] at opened
  dsimp only at opened
  have waits : (s.lc.challenge.filter fun c => decide (s.ns < c.2.2 + 600000000000)) = some (scope, n, t0) := by
    rw [challenged, Option.filter_some]
    dsimp only
    rw [decide_eq_true timely, if_pos rfl]
  refine ⟨_, done_whenAon aon ?_, opened⟩
  dsimp only
  rw [lcEarly_of_reqCheck passes, waits]
  dsimp only
  rw [suits, within, beq_self_eq_true, passes]

theorem debugScrubDone_opens {s : State} {scope : BitVec 16} {grant : Bool} (aon : s.pow.sessionOpen = true)
    (scrubs : s.lc.scrubPending = true) (waits : s.lc.pendingScope = some (scope, grant)) :
    exec .debugScrubDone s = .next (record { s with
      tierA := [], lc.scrubPending := false, lc.pendingScope := none, lc.scope := scope, lc.byGrant := grant }
      0x0021 0 uTcu (le 2 scope.toNat ++ le 2 s.lc.primary.debugOpens)) := by
  refine done_whenAon aon ?_
  rw [scrubs, waits]

/-! Presence and the protection matrix (R83, R172, R173). -/

theorem presenceEdge_asserts {s : State} (aon : s.pow.sessionOpen = true) : exec .presenceEdge s = .next { s with
    pins.presence := !s.pins.presence, pins.asserted := true, pins.presenceAt := some s.ns } := done_whenAon aon rfl

theorem presenceWindowEnd_ends {s : State} {t0 : Nat} (aon : s.pow.sessionOpen = true) (low : s.pins.presence = false)
    (fell : s.pins.presenceAt = some t0) (late : t0 + 30000000000 ≤ s.ns) :
    exec .presenceWindowEnd s = .next { s with pins.asserted := false } := by
  have over' : (!s.pins.presence && s.pins.presenceAt.any fun t => decide (t + 30000000000 ≤ s.ns)) = true := by
    rw [low, fell, Option.any_some, decide_eq_true late]; rfl
  exact done_whenAon aon (if_pos over')

theorem protectViolation_lc (s : State) (master range addr : Nat) : (protectViolation s master range addr).lc =
    { s.lc with viol := true, violCount := min (s.lc.violCount + 1) 0x7FFF, violMaster := master, violRange := range } :=
  latch_lc _ _

theorem protectViolation_counts {s : State} {master range addr len : Nat} {w : Bool} (data : Bytes)
    (aon : s.pow.sessionOpen = true) (refused : debugMay s master range addr w = false) :
    ∃ t, exec (.protectViolation master range ⟨addr, len, w, data⟩) s = .next t ∧
      (w = false → .debugData master (List.replicate len 0) ∈ t.out) ∧ t.lc.viol = true ∧
      t.lc.violCount = min (s.lc.violCount + 1) 0x7FFF ∧ t.lc.violMaster = master ∧ t.lc.violRange = range ∧
      t.lc.primary = s.lc.primary := by
  have outside : debugReaches s master range ⟨addr, len, w, data⟩ = false := by
    rw [debugReaches, refused, Bool.false_and]
  have counted := protectViolation_lc s master range addr
  cases w with
  | true =>
    refine ⟨protectViolation s master range addr, done_whenAon aon ?_, nofun, ?_⟩
    · rw [outside, if_neg Bool.false_ne_true]
      rfl
    · rw [counted]
      exact ⟨rfl, rfl, rfl, rfl, rfl⟩
  | false =>
    refine ⟨(protectViolation s master range addr).emit (.debugData master (List.replicate len 0)), done_whenAon aon ?_,
      fun _ => List.mem_append_right _ (List.mem_singleton.mpr rfl), ?_⟩
    · rw [outside, if_neg Bool.false_ne_true]
      rfl
    · rw [State_emit_lc, counted]
      exact ⟨rfl, rfl, rfl, rfl, rfl⟩

/-- Settles O19: each command by its guard, and the record's fields through the verdict and the records. -/
theorem lifeCycleCommandsComplete : Obligations.LifeCycleCommandsComplete :=
  ⟨fun _ => lcNonce_holds, fun _ _ _ => nonceExpire_voids, fun _ _ => lcRequest_transits, fun _ _ _ _ => lcToken_transits,
    fun _ _ _ => debugRequest_challenges, fun _ _ => challengeExpire_voids, fun _ _ _ _ _ => debugGrant_opens,
    fun _ _ _ => debugScrubDone_opens, fun _ => presenceEdge_asserts, fun _ _ => presenceWindowEnd_ends,
    fun _ _ _ _ _ _ => protectViolation_counts⟩

end Sys2Proof.Machine

/-! The vault's keys come and go (R97 to R109). -/
namespace Sys2Proof.Machine

/-! A destroyed key stays away while the rotations that wait go on (R109, R289). -/

theorem powerCycle_slots (s : State) : (powerCycle s).vault.slots = [] := rfl

theorem chipDue_lost {s : State} {p : KeyPath} (h : s.lost p) (cause : Nat) : (chipDue s cause).lost p := by
  unfold chipDue
  split
  · exact h
  · split
    · exact State.lost_of_empty (powerCycle_slots s) p
    · exact lost_of_vault rfl rfl rfl rfl h

theorem latch_lost {s : State} {p : KeyPath} (h : s.lost p) (e : ErrIn) : (latch s e).lost p :=
  lost_of_vault (latch_vault s e) (latch_dom s e) (latch_ctxs s e) (by unfold State.regionsLive; rw [latch_mem]) h

/-- What escalation makes of an S3 error: it stays one, or it is S4; only the errors' times change. -/
theorem escalate_S3 {s : State} {p : KeyPath} (h : s.lost p) (unit cause whereAt : Nat) :
    ∃ u e, escalate s { unit := unit, cls := 3, cause := cause, whereAt := whereAt } = (u, e) ∧ u.lost p ∧
      (e.cls = 3 ∨ e.cls = 4) := by
  unfold escalate
  split
  · exact ⟨_, _, rfl, h, .inl rfl⟩
  · dsimp only
    refine ⟨_, _, rfl, lost_of_vault rfl rfl rfl rfl h, ?_⟩
    split
    · exact .inr rfl
    · exact .inl rfl

theorem raiseS3_lost {s : State} {p : KeyPath} (h : s.lost p) (unit cause whereAt : Nat) :
    (raiseS3 s unit cause whereAt).lost p := by
  obtain ⟨u, e, escalated, kept, cls⟩ := escalate_S3 h unit cause whereAt
  have taken (b : Bool) (pr : State × ErrIn) (at_pr : (if b = true then (s, { unit := unit, cls := 3, cause := cause, whereAt := whereAt })
      else escalate s { unit := unit, cls := 3, cause := cause, whereAt := whereAt }) = pr) :
      pr.1.lost p ∧ (pr.2.cls = 3 ∨ pr.2.cls = 4) := by
    subst at_pr
    split
    · exact ⟨h, .inl rfl⟩
    · rw [escalated]
      exact ⟨kept, cls⟩
  unfold raiseS3 raise
  simp only []
  generalize at_pr : (if Option.any _ _ = true then _ else _) = pr
  obtain ⟨kept, cls⟩ := taken _ pr at_pr
  rcases cls with cls | cls <;> simp only [cls]
  · exact latch_lost kept _
  · exact chipDue_lost (latch_lost kept _) _

theorem tget_tmod {α : Type} (t : Table α) (k j : Nat) (f : α → α) :
    tget (tmod t k f) j = if j = k then (tget t j).map f else tget t j := by
  induction t with
  | nil => simp [tmod, tget]
  | cons q r ih =>
    obtain ⟨a, b⟩ := q
    simp only [tmod, List.map_cons, tget] at ih ⊢
    by_cases hj : a = j
    · subst hj
      by_cases hk : a = k <;> simp [hk, tget]
    · by_cases hk : a = k
      · simp only [hk, if_pos, tget] at hj ⊢
        rw [if_neg hj, if_neg hj, ih]
      · simp only [hk, if_false, tget, if_neg hj, ih]

/-- A change of one region that leaves whether its place is in use leaves it for all. -/
theorem regionsLive_tmod {s : State} {regions : Table Region} (r : Nat) (f : Region → Region)
    (same : ∀ g, ((f g).state != 0) = (g.state != 0)) (h : regions = tmod s.mem.regions r f) :
    (fun j => (tget regions j).map fun g => g.state != 0) = s.regionsLive := by
  funext j
  rw [h, tget_tmod]
  unfold State.regionsLive
  split
  · rw [Option.map_map]
    exact congrArg (fun h => Option.map h _) (funext same)
  · rfl

theorem regionsLive_tset {s : State} {regions : Table Region} {r : Nat} {g g' : Region} (at_r : tget s.mem.regions r = some g)
    (h : regions = tset s.mem.regions r g') (same : g'.state = g.state) :
    (fun j => (tget regions j).map fun g => g.state != 0) = s.regionsLive := by
  funext j
  rw [h]
  unfold State.regionsLive
  by_cases hj : j = r
  · rw [hj, tget_tset_same, at_r, Option.map_some, Option.map_some, same]
  · rw [tget_tset_other _ _ _ _ hj]

theorem rotatingNow_lost {s : State} {p : KeyPath} (h : s.lost p) (r : Nat) : (rotatingNow s r).lost p := by
  refine lost_of_vault (s := s) rfl rfl rfl (regionsLive_tmod r (fun g => if g.state = 1 then { g with state := 2, sweep := 0 } else g)
    (fun g => ?_) rfl) h
  split
  · next idle => simp [idle]
  · rfl

theorem assayFailed_lost {s : State} {p : KeyPath} (h : s.lost p) (r : Nat) : (assayFailed s r).lost p := by
  unfold assayFailed
  refine raiseS3_lost ?_ _ _ _
  exact lost_of_vault (s := s) rfl rfl rfl rfl h

theorem keyRecord_lost {s : State} {p : KeyPath} (h : s.lost p) (unit event : Nat) (q : KeyPath) :
    (keyRecord s unit event q).lost p := latch_lost h _

theorem rotateStart_lost {s : State} {p : KeyPath} (h : s.lost p) (r : Nat) : (rotateStart s r).lost p := by
  unfold rotateStart
  split
  · exact h
  · next g at_r =>
    have derived := needKey_lost h (.region r (regionGen g + 1))
    have mem : (needKey s (.region r (regionGen g + 1))).mem = s.mem := congrArg (·.2.2.2.1) (needKey_keyTerms s _)
    dsimp only
    generalize needKey s (.region r (regionGen g + 1)) = u at derived mem
    generalize at_v : keyRecord _ _ _ _ = v
    have kept : v.lost p := by
      subst at_v
      refine keyRecord_lost ?_ _ _ _
      refine lost_of_vault (s := u) rfl rfl rfl ?_ derived
      exact regionsLive_tset (s := u) (g := g) (by rw [mem]; exact at_r) rfl rfl
    split
    · exact rotatingNow_lost kept r
    · exact assayFailed_lost kept r

theorem rotateNext_lost (n : Nat) {s : State} {p : KeyPath} (h : s.lost p) (q : Nat) : (rotateNext n s q).lost p := by
  induction n generalizing s with
  | zero => exact h
  | succ n ih =>
    unfold rotateNext
    dsimp only
    split
    · exact h
    · split
      · exact h
      · exact ih (rotateStart_lost h _)

theorem rotateWakes_lost (l : List Nat) {s : State} {p : KeyPath} (h : s.lost p) : (l.foldl rotateWake s).lost p := by
  induction l generalizing s with
  | nil => exact h
  | cons q l ih => exact ih (rotateNext_lost _ h q)

/-- Where no rotation waits none starts. -/
theorem rotateWakes_of_none (l : List Nat) {s : State} (idle : ∀ q ∈ l, (tgetD s.mem.ports q Pewter.reset).rotQueue = []) :
    l.foldl rotateWake s = s := by
  induction l with
  | nil => rfl
  | cons q l ih =>
    have first : rotateWake s q = s := by
      rw [rotateWake, idle q (List.mem_cons_self ..)]
      rfl
    rw [List.foldl_cons, first]
    exact ih fun q mem => idle q (List.mem_cons_of_mem _ mem)


/-! Zeroising a key (R109). -/

section
variable (s : State) (j : PewJob) (code : Code) (data : Bytes)

theorem pewAnswer_kept : (pewAnswer s j code data).vault = s.vault ∧ (pewAnswer s j code data).dom = s.dom ∧
    (pewAnswer s j code data).ctxs = s.ctxs ∧ (pewAnswer s j code data).mem = s.mem := by
  unfold pewAnswer
  split
  · exact ⟨State_emit_vault .., State_emit_dom .., State_emit_ctxs .., State_emit_mem ..⟩
  · exact ⟨rfl, rfl, rfl, rfl⟩
  · exact ⟨rfl, rfl, rfl, rfl⟩

end

/-- What the end of a region's keys leaves: all but the pewters' regions and ports. -/
theorem endRegionKeys_kept (s : State) (r : Nat) : (endRegionKeys s r).vault = s.vault ∧ (endRegionKeys s r).dom = s.dom ∧
    (endRegionKeys s r).ctxs = s.ctxs ∧ (endRegionKeys s r).regionsLive = s.regionsLive ∧
    (∀ q, (tgetD s.mem.ports q Pewter.reset).rotQueue = [] →
      (tgetD (endRegionKeys s r).mem.ports q Pewter.reset).rotQueue = []) := by
  have answers (l : List (Nat × PewJob)) (u : State) :
      (l.foldl (fun s j => pewAnswer s j.2 cKeyDestroyed []) u).vault = u.vault ∧
      (l.foldl (fun s j => pewAnswer s j.2 cKeyDestroyed []) u).dom = u.dom ∧
      (l.foldl (fun s j => pewAnswer s j.2 cKeyDestroyed []) u).ctxs = u.ctxs ∧
      (l.foldl (fun s j => pewAnswer s j.2 cKeyDestroyed []) u).mem = u.mem :=
    ⟨foldl_vault _ (fun s j => (pewAnswer_kept s j.2 _ _).1) l u, foldl_dom _ (fun s j => (pewAnswer_kept s j.2 _ _).2.1) l u,
      foldl_ctxs _ (fun s j => (pewAnswer_kept s j.2 _ _).2.2.1) l u, foldl_mem _ (fun s j => (pewAnswer_kept s j.2 _ _).2.2.2) l u⟩
  unfold endRegionKeys
  dsimp only
  obtain ⟨vault, dom, ctxs, mem⟩ := answers _ _
  refine ⟨vault, dom, ctxs, ?_, fun q idle => ?_⟩
  · refine Eq.trans (by unfold State.regionsLive; rw [mem]) (regionsLive_tmod (s := s) r _ (fun g => ?_) rfl)
    dsimp only
    split
    · next rotates => simp [rotates]
    · rfl
  · rw [mem]
    dsimp only
    by_cases hq : q = r % 4
    · rw [hq, tgetD, tget_tset_same, Option.getD_some]
      dsimp only
      rw [hq] at idle
      rw [idle]
      rfl
    · rw [tgetD, tget_tset_other _ _ _ _ hq]
      exact idle

theorem endRegions_kept (l : List Nat) (s : State) : (l.foldl endRegionKeys s).vault = s.vault ∧
    (l.foldl endRegionKeys s).dom = s.dom ∧ (l.foldl endRegionKeys s).ctxs = s.ctxs ∧
    (l.foldl endRegionKeys s).regionsLive = s.regionsLive ∧
    (∀ q, (tgetD s.mem.ports q Pewter.reset).rotQueue = [] →
      (tgetD (l.foldl endRegionKeys s).mem.ports q Pewter.reset).rotQueue = []) := by
  induction l generalizing s with
  | nil => exact ⟨rfl, rfl, rfl, rfl, fun _ idle => idle⟩
  | cons r l ih =>
    obtain ⟨vault, dom, ctxs, live, idle⟩ := endRegionKeys_kept s r
    obtain ⟨vault', dom', ctxs', live', idle'⟩ := ih (endRegionKeys s r)
    exact ⟨vault'.trans vault, dom'.trans dom, ctxs'.trans ctxs, live'.trans live, fun q h => idle' q (idle q h)⟩

/-- A path is live after more keys are destroyed if it was and is none of them. -/
theorem pathLive_destroyed (s : State) (l : List Gone) (p : KeyPath) :
    pathLive { s with vault.destroyed := l ++ s.vault.destroyed } p = (!(l.any fun g => g.path == p) && pathLive s p) := by
  have labels : labelBlocked { s with vault.destroyed := l ++ s.vault.destroyed } p = labelBlocked s p := rfl
  unfold pathLive
  rw [labels, List.any_append, Bool.not_or]
  generalize (!(l.any fun g => g.path == p)) = a
  generalize (!(s.vault.destroyed.any fun g => g.path == p)) = b
  cases a
  · rw [Bool.false_and, Bool.and_false, Bool.false_and, Bool.false_and]
  · rw [Bool.true_and, Bool.true_and]
    rfl

theorem placeOf_path (s : State) (p : KeyPath) : (placeOf s p).path = p := by
  unfold placeOf
  split
  · rfl
  · rfl
  · generalize treeRow s _ = row
    cases row <;> rfl

/-- A destroyed key is gone, and cannot be derived again. -/
theorem destroyKey_lost (s : State) (p : KeyPath) : (destroyKey s p).lost p := by
  have free := (findKey_dropKeys s (fun q => q == p || belowKey s p q) p (by simp)).1
  have barred : ({ s with vault.destroyed := (destroyedBy s p).map (placeOf s) ++ s.vault.destroyed } : State).bars p := by
    by_cases obtained : p ∈ destroyedBy s p
    · left
      rw [pathLive_destroyed, Bool.and_eq_false_imp]
      intro absent
      rw [show ((destroyedBy s p).map (placeOf s)).any (fun g => g.path == p) = true from
        List.any_eq_true.mpr ⟨placeOf s p, List.mem_map_of_mem obtained, by rw [placeOf_path, beq_self_eq_true]⟩] at absent
      cases absent
    · have unreachable : obtainable s p = false := by
        by_contra reach
        rw [Bool.not_eq_false] at reach
        refine obtained ?_
        unfold destroyedBy
        dsimp only
        by_cases held : p ∈ (s.vault.slots.map (·.path)).filter fun q => q == p || belowKey s p q
        · exact List.mem_append_left _ held
        · exact List.mem_append_right _ (List.mem_filter.mpr ⟨List.mem_cons_self .., by simp [reach] at held ⊢; exact held⟩)
      unfold obtainable at unreachable
      rw [Bool.or_eq_false_iff, Bool.and_eq_false_iff] at unreachable
      obtain ⟨-, rowless | dead⟩ := unreachable
      · exact .inr (treeRow_none_congr (s := s) rfl rfl (by simpa using rowless))
      · exact .inl (by rw [pathLive_destroyed, dead, Bool.and_false])
  unfold destroyKey
  dsimp only
  generalize List.filterMap _ _ = l
  obtain ⟨vault, dom, ctxs, live, -⟩ := endRegions_kept l (dropKeys s fun q => q == p || belowKey s p q)
  generalize l.foldl endRegionKeys _ = u at vault dom ctxs live
  refine ⟨?_, .inr (State.bars.congr (s := { s with vault.destroyed := (destroyedBy s p).map (placeOf s) ++ s.vault.destroyed })
    ?_ dom ctxs live barred)⟩
  · unfold findKey at free ⊢
    dsimp only
    rw [vault]
    exact free
  · dsimp only
    rw [vault]
    rfl

theorem destroyKey_idle {s : State} {q : Nat} (idle : (tgetD s.mem.ports q Pewter.reset).rotQueue = []) (p : KeyPath) :
    (tgetD (destroyKey s p).mem.ports q Pewter.reset).rotQueue = [] := by
  unfold destroyKey
  exact (endRegions_kept _ _).2.2.2.2 q idle

theorem destroy_slcmem {s : State} (n : Nat) (aon : s.pow.iod = true) (calm : s.pow.quenched = false) :
    exec (.destroy (.slcmem n)) s =
      .next { (List.range 4).foldl rotateWake (destroySliceMem s n) with vault.result := cOk } := by
  change done _ = _
  rw [aon, calm, if_pos (by decide), done]

theorem destroy_other {s : State} {p : KeyPath} (other : ∀ n, p ≠ .slcmem n) (aon : s.pow.iod = true)
    (calm : s.pow.quenched = false) :
    exec (.destroy p) s = .next { (List.range 4).foldl rotateWake (destroyKey s p) with vault.result := cOk } := by
  change done _ = _
  rw [aon, calm, if_pos (by decide)]
  split
  · exact absurd rfl (other _)
  · rw [done]

theorem findKey_result (s : State) (code : Code) (p : KeyPath) : findKey { s with vault.result := code } p = findKey s p := rfl

theorem destroy_frees {s : State} (p : KeyPath) (aon : s.pow.iod = true) (calm : s.pow.quenched = false) :
    ∃ t, exec (.destroy p) s = .next t ∧ t.vault.result = cOk ∧
      ((∀ n, p ≠ .slcmem n) ∨ (∀ q < 4, (tgetD s.mem.ports q Pewter.reset).rotQueue = []) → findKey t p = none) := by
  by_cases slice : ∃ n, p = .slcmem n
  · obtain ⟨n, rfl⟩ := slice
    refine ⟨_, destroy_slcmem n aon calm, rfl, ?_⟩
    rintro (other | idle)
    · exact absurd rfl (other n)
    · have idle' (q : Nat) (mem : q ∈ List.range 4) : (tgetD (destroySliceMem s n).mem.ports q Pewter.reset).rotQueue = [] :=
        destroyKey_idle (idle q (List.mem_range.mp mem)) (.slcmem n)
      rw [findKey_result, rotateWakes_of_none _ idle']
      exact (destroyKey_lost s (.slcmem n)).1
  · have other : ∀ n, p ≠ .slcmem n := fun n at_n => slice ⟨n, at_n⟩
    refine ⟨_, destroy_other other aon calm, rfl, fun _ => ?_⟩
    rw [findKey_result]
    exact (rotateWakes_lost (List.range 4) (destroyKey_lost s p)).1

/-! Derivation (R97, R101, R102). -/

theorem serveQueue_serves {s : State} {r : DeriveReq} (n : Nat) (next : nextReq s = some r) (system : reqTenant r = none) :
    serveQueue (n + 1) s = serveQueue n (serveReq { s with vault.queue := s.vault.queue.erase r } r) := by
  rw [serveQueue, next]
  dsimp only
  rw [system]

theorem serveQueue_of_empty (n : Nat) {s : State} (h : s.vault.queue = []) : serveQueue n s = s := by
  cases n with
  | zero => rfl
  | succ n =>
    have none' : nextReq s = none := by
      unfold nextReq
      rw [h]
      rfl
    rw [serveQueue, none']

theorem reqRank_lt (r : DeriveReq) : reqRank r < 4 := by
  unfold reqRank
  dsimp only
  split_ifs <;> decide

/-- The only request that waits is the next one. -/
theorem nextReq_of_single {s : State} {r : DeriveReq} (queue : s.vault.queue = [r]) (ready : reqReady s r = true) :
    nextReq s = some r := by
  have found (k : Nat) : ([r].find? fun r => reqRank r == k && reqReady s r) = if reqRank r = k then some r else none := by
    simp only [List.find?_singleton, ready, Bool.and_true, beq_iff_eq]
  unfold nextReq
  rw [queue]
  simp only [found]
  have rank := reqRank_lt r
  generalize reqRank r = k at rank
  interval_cases k <;> rfl

/-- A key with room whose parent is held is derived from it. -/
theorem derive_puts {s : State} {p q : KeyPath} {row : TreeRow} {v : BitVec 512} (n : Nat) (at_p : treeRow s p = some row)
    (parent : row.parent = some q) (live : pathLive s p = true) (free : findKey s p = none) (held : (findKey s q).isSome = true)
    (flow : flowRoom s p = true) (value : deriveFrom s q row.label row.ctx row.len = some v) :
    derive (n + 1) s p =
      { bumpUnit (putKey s p v row.len row.part (if row.part = 4 then row.slot else freeSlotIn s row.part) 32 (attrOf s q row.use)
          row.label (some q) row.ctx) uVault 0 1 with
        vault.derivations := (putKey s p v row.len row.part (if row.part = 4 then row.slot else freeSlotIn s row.part) 32
          (attrOf s q row.use) row.label (some q) row.ctx).vault.derivations + 1 } := by
  rw [derive, free, live, flow, if_neg (by decide), at_p]
  dsimp only
  rw [parent]
  dsimp only
  rw [held, if_pos rfl, value]

theorem serveReq_derives {s : State} {r : DeriveReq} {p q : KeyPath} {row : TreeRow} {v : BitVec 512}
    (good : s.vault.entropyOk = true) (asks : reqPath s r = some p) (other : ∀ n k, p ≠ .chan n k) (at_p : treeRow s p = some row)
    (parent : row.parent = some q) (matches' : reqOk s r p = true) (live : pathLive s p = true) (free : findKey s p = none)
    (held : (findKey s q).isSome = true) (value : deriveFrom s q row.label row.ctx row.len = some v)
    (room : slotRoom s p row.part 32 = true) (flow : flowRoom s p = true) (engine : r.engine < 8)
    (use : bit (attrOf s q row.use).toNat r.engine = true) :
    (serveReq s r).vault.result = cOk ∧ keyWide (serveReq s r) p = some v ∧ (serveReq s r).vault.queue = s.vault.queue := by
  have filled : fillSlot s r p = (derive 4 s p, cKeyDestroyed) := by
    cases p
    case chan n k => exact absurd rfl (other n k)
    all_goals rfl
  obtain ⟨k, found, read, attr⟩ := findKey_putKey_same good room v row.len
    (if row.part = 4 then row.slot else freeSlotIn s row.part) (attrOf s q row.use) row.label (some q) row.ctx
  have found' : findKey (derive 4 s p) p = some k := by
    rw [derive_puts 3 at_p parent live free held flow value]
    exact found
  have queue : (derive 4 s p).vault.queue = s.vault.queue := congrArg (·.1.queue) (derive_keyTerms 4 s p)
  have delivered (u : State) : (deliver u p).vault = u.vault := by
    unfold deliver
    split <;> rfl
  have served : serveReq s r = deliver { derive 4 s p with vault.result := cOk } p := by
    unfold serveReq
    rw [asks]
    dsimp only
    rw [matches', live, if_neg (by decide), filled]
    dsimp only
    rw [found']
    dsimp only
    rw [attr, use, decide_eq_true engine, if_pos (by decide)]
  rw [served, keyWide, findKey, delivered]
  refine ⟨rfl, ?_, queue⟩
  rw [show (derive 4 s p).vault.slots.find? (fun k => k.path == p) = some k from found']
  exact read

theorem keyDerivation_derives {s : State} {r : DeriveReq} {p q : KeyPath} {row : TreeRow} {v : BitVec 512}
    (serves : vaultServes s = true) (idle : s.vault.queue = []) (ready : reqReady s r = true) (system : reqTenant r = none)
    (asks : reqPath s r = some p) (other : ∀ n k, p ≠ .chan n k) (at_p : treeRow s p = some row)
    (parent : row.parent = some q) (matches' : reqOk s r p = true) (live : pathLive s p = true) (free : findKey s p = none)
    (held : (findKey s q).isSome = true) (value : deriveFrom s q row.label row.ctx row.len = some v)
    (room : slotRoom s p row.part 32 = true) (flow : flowRoom s p = true) (engine : r.engine < 8)
    (use : bit (attrOf s q row.use).toNat r.engine = true) :
    ∃ t, exec (.keyDerivation r) s = .next t ∧ t.vault.result = cOk ∧ keyWide t p = some v := by
  have good : s.vault.entropyOk = true := (Bool.and_eq_true_iff.mp serves).2
  have drained : ({ s with vault.queue := [r] } : State).vault.queue.erase r = [] := by simp
  obtain ⟨result, key, queue⟩ := serveReq_derives (s := { s with vault.queue := [] }) good asks other at_p parent matches' live free
    held value room flow engine use
  refine ⟨_, ?_, result, key⟩
  change done _ = _
  rw [serves, if_pos rfl, idle, if_neg (by decide), List.nil_append,
    serveQueue_serves 256 (nextReq_of_single (s := { s with vault.queue := [r] }) rfl ready) system, drained,
    serveQueue_of_empty 256 queue, done]


/-! Replacement (R107). -/

theorem switchReg_replacing (s : State) (p : KeyPath) : (switchReg s p).vault.replacing = s.vault.replacing := by
  unfold switchReg
  split
  · split
    · rfl
    · split
      · rfl
      · dsimp only
        unfold reportKey
        split <;> rfl
  · rfl

theorem startReplace_stages {s : State} {p : KeyPath} {src : ReplaceSrc} {want : BitVec 32} {k : KeySlot} {n : FreshKey}
    (held : findKey s p = some k) (fresh : freshKey s k src = some n) (good : s.vault.entropyOk = true)
    (check : kcvOf k.width n.value = want) :
    (startReplace s p src want).vault.result = cOk ∧ ∃ r, (startReplace s p src want).vault.replacing = r :: s.vault.replacing ∧
      r.path = p ∧ r.key.read = some n.value ∧ r.attr = n.attr ∧ r.items = n.items := by
  unfold startReplace
  rw [held]
  dsimp only
  rw [fresh]
  dsimp only
  rw [good, if_neg (by decide), if_pos check]
  generalize at_u : keySend _ _ _ = u
  refine ⟨?_, ?_⟩
  · rw [show (switchReg u p).vault.result = u.vault.result from congrArg (·.1.result) (switchReg_keyTerms u p), ← at_u, keySend_vault]
    rfl
  · rw [switchReg_replacing, ← at_u, keySend_vault]
    exact ⟨_, rfl, rfl, shares_read _ _, rfl, rfl⟩

theorem replace_stages {s : State} {p : KeyPath} {src : ReplaceSrc} {want : BitVec 32} {k : KeySlot} {n : FreshKey}
    (aon : s.pow.iod = true) (root : s.vault.rootState = 2) (calm : s.pow.quenched = false) (good : s.vault.entropyOk = true)
    (held : findKey s p = some k) (idle : (s.vault.replacing.any fun r => r.path == p) = false)
    (fresh : freshKey s k src = some n) (check : kcvOf k.width n.value = want) :
    ∃ t r, exec (.replace p src want) s = .next t ∧ t.vault.result = cOk ∧ t.vault.replacing = r :: s.vault.replacing ∧
      r.path = p ∧ r.key.read = some n.value ∧ r.attr = n.attr ∧ r.items = n.items := by
  obtain ⟨result, r, staged⟩ := startReplace_stages held fresh good check
  refine ⟨startReplace s p src want, r, ?_, result, staged⟩
  change done _ = _
  rw [aon, root, calm, if_pos (by decide), held, if_neg (by simp), idle, if_neg (by decide), done]

theorem keyWide_of_findKey {s : State} {p : KeyPath} {k : KeySlot} (held : findKey s p = some k) : keyWide s p = k.key.read := by
  rw [keyWide, held, Option.bind_some]

theorem reportKey_replacing (s : State) (p : KeyPath) : (reportKey s p).vault.replacing = s.vault.replacing := by
  unfold reportKey
  split <;> rfl

theorem replaceComplete_switches {s : State} {p : KeyPath} {r : Replacing} {k : KeySlot} (aon : s.pow.iod = true)
    (calm : s.pow.quenched = false) (staged : (switchReg s p).vault.replacing.find? (fun r => r.path == p) = some r)
    (held : findKey (switchReg s p) p = some k) (switched : ((findReg (switchReg s p) p).any fun g => g.shadow.isSome) = false)
    (last : r.queued = []) :
    ∃ t, exec (.replaceComplete p) s = .next t ∧ keyWide t p = r.key.read ∧
      t.vault.replacing = (switchReg s p).vault.replacing.filter fun r => r.path != p := by
  refine ⟨reportKey (modKey { switchReg s p with
      vault.replacing := (switchReg s p).vault.replacing.filter fun r => r.path != p } p fun k =>
        { (k.used r.items 0) with
          key := r.key, sub := r.sub, attr := r.attr, label := r.label, parent := r.parent, context := r.context
          notice := false, limit := false }) p, ?_, ?_, ?_⟩
  · change done _ = _
    rw [aon, calm, if_pos (by decide)]
    dsimp only
    rw [staged]
    dsimp only
    rw [switched, if_neg (by decide), last, startQueued, done]
  · refine (keyWide_reportKey _ p p).trans ?_
    generalize at_f : (fun k : KeySlot => ({ (k.used r.items 0) with
      key := r.key, sub := r.sub, attr := r.attr, label := r.label, parent := r.parent, context := r.context
      notice := false, limit := false } : KeySlot)) = f
    have path (k : KeySlot) : (f k).path = k.path := by rw [← at_f]; rfl
    refine (keyWide_of_findKey (findKey_modKey_same (k := k) held path)).trans ?_
    rw [← at_f]
  · rw [reportKey_replacing]
    rfl

/-! Keys that leave and come back wrapped (R104, R105, R112). -/

theorem keyExport_emits {s : State} {p q : KeyPath} {wrapper : Nat} {k : KeySlot} {v own : Key} (aon : s.pow.iod = true)
    (root : s.vault.rootState = 2) (calm : s.pow.quenched = false) (held : findKey s p = some k)
    (under : wrapperPath wrapper = some q) (may : neverOut p = false) (free : bit k.attr.toNat 15 = false)
    (allowed : bit k.attr.toNat (if wrapper = 14 then 14 else 13) = true) (value : key256 s p = some own)
    (wraps : wrapRefused s q = none) (wrap : key256 s q = some v) :
    ∃ t, exec (.keyExport p wrapper) s = .next t ∧ t.vault.result = cOk ∧
      t.out = s.out ++ [.wrapped (wrapBlob (reportKey s p) ((findKey (reportKey s p) p).getD k) own wrapper v)] := by
  have allowed' : (if wrapper = 14 then bit k.attr.toNat 14 else bit k.attr.toNat 13) = true := by
    revert allowed
    split <;> exact id
  refine ⟨{ ((spendKey (reportKey s p).drew q 1 0).emit
      (.wrapped (wrapBlob (reportKey s p) ((findKey (reportKey s p) p).getD k) own wrapper v))) with vault.result := cOk }, ?_, rfl, ?_⟩
  · change done _ = _
    rw [aon, root, calm, if_pos (by decide), held, under]
    dsimp only
    rw [may, free, allowed', if_neg (by decide), wraps, wrap, value]
    rfl
  · change (spendKey (reportKey s p).drew q 1 0).out ++ _ = _
    rw [spendKey_out, State_drew_out, reportKey_out]

theorem importBlob_fills {s : State} {slice used : Nat} {b : WrappedBlob} {k : Key} (opens : unwrap s 3 b = some (k, used))
    (good : s.vault.entropyOk = true) (room : slotRoom s (.chan slice (freeSlotIn s 3)) 3 slice = true) :
    (importBlob s slice b).2 = cOk ∧ keyWide (importBlob s slice b).1 (.chan slice (freeSlotIn s 3)) = some (k.setWidth 512) := by
  unfold importBlob
  rw [opens]
  dsimp only
  rw [good, if_neg (by decide), room, if_neg (by decide)]
  refine ⟨rfl, ?_⟩
  dsimp only
  rw [keyWide_modReg, keyWide_modKey (f := fun k => k.used used 0) (fun _ => rfl) fun _ => rfl]
  exact key512_putKey (reborn s (.chan slice (freeSlotIn s 3))) _ _ _ _ _ _ _ _ _ _ good room

theorem keyImport_fills {s : State} {slice ctx used : Nat} {b : WrappedBlob} {k : Key} (up : s.up = true)
    (served : sliceInService s slice = true) (own : (ctxAt s ctx).slice = slice) (opens : unwrap s 3 b = some (k, used))
    (good : s.vault.entropyOk = true) (room : slotRoom s (.chan slice (freeSlotIn s 3)) 3 slice = true) :
    ∃ t, exec (.keyImport slice ctx b) s = .next t ∧ t.vault.result = cOk ∧
      keyWide t (.chan slice (freeSlotIn s 3)) = some (k.setWidth 512) := by
  obtain ⟨code, key⟩ := importBlob_fills opens good room
  refine ⟨{ (importBlob s slice b).1 with vault.result := (importBlob s slice b).2 }, ?_, code, key⟩
  change done _ = _
  rw [up, served, own, beq_self_eq_true, if_pos (by decide), done]

/-- Settles O15: a request by what the vault derives, and a destroyed key by what the waiting rotations cannot derive again. -/
theorem vaultKeysComeAndGo : Obligations.VaultKeysComeAndGo :=
  ⟨fun _ _ _ _ _ _ => keyDerivation_derives, fun _ _ _ _ _ _ => replace_stages, fun _ _ _ _ => replaceComplete_switches,
    fun _ p aon calm => destroy_frees p aon calm, fun _ _ _ _ _ _ _ => keyExport_emits, fun _ _ _ _ _ _ => keyImport_fills⟩

end Sys2Proof.Machine

/-! The vault's upkeep (R87, R88, R110 to R118). -/
namespace Sys2Proof.Machine

/-! The random source and the anneal cycle (R87, R88, R110, R111). -/

theorem entropyHealthFail_stops {s : State} (aon : s.pow.sessionOpen = true) (rails : s.pow.iod = true) :
    exec .entropyHealthFail s = .next (raiseS3 { s with vault.entropyOk := false } uVault 88 0) := by
  change done _ = _
  rw [aon, rails, if_pos (by decide), done]

theorem drbgReseed_restarts {s : State} (rails : s.pow.iod = true) (seeded : s.vault.seeded = true)
    (good : s.vault.entropyOk = true) (due : 2 ^ 20 ≤ s.vault.requests ∨ s.vault.reseedAt + 10000000000 ≤ s.ns) :
    exec .drbgReseed s = .next { s with vault.requests := 0, vault.reseedAt := s.ns } := by
  have due' : (decide (2 ^ 20 ≤ s.vault.requests) || decide (s.vault.reseedAt + 10000000000 ≤ s.ns)) = true := by
    rcases due with due | due
    · rw [decide_eq_true due, Bool.true_or]
    · rw [decide_eq_true due, Bool.or_true]
  change done _ = _
  rw [rails, seeded, good, due', if_pos (by decide), done]

theorem value_refresh (k : Shares) (r : BitVec 512) : (k.refresh r).value = k.value := by
  unfold Shares.refresh Shares.value
  rw [BitVec.xor_assoc, BitVec.xor_comm r, BitVec.xor_assoc, BitVec.xor_self, BitVec.xor_zero]

/-- Fresh shares of every slot leave its path and its value. -/
theorem values_annealSlots (n : Nat) (l : List KeySlot) :
    (annealSlots n l).map (fun k => (k.path, k.value)) = l.map fun k => (k.path, k.value) := by
  induction l generalizing n with
  | nil => rfl
  | cons k l ih =>
    rw [annealSlots, List.map_cons, List.map_cons, ih]
    congr 2
    exact value_refresh k.key _

theorem reseedLeaves_vault (s : State) : (reseedLeaves s).vault = s.vault :=
  foldl_vault _ (fun s u => netSend_vault s uVault u .reseed _) _ s

theorem annealCycle_refreshes {s : State} {d : Nat} (rails : s.pow.iod = true) (calm : s.pow.quenched = false)
    (seeded : s.vault.seeded = true) (good : s.vault.entropyOk = true)
    (due : s.vault.annealAt + s.vault.annealPeriod * 1000000 ≤ s.ns) :
    ∃ t, exec (.annealCycle d) s = .next t ∧ t.vault.cycles = s.vault.cycles + 1 ∧ t.vault.annealAt = s.ns ∧
      t.vault.missedCycles = 0 ∧ t.vault.lastCycleMs = min d 20 ∧
      (t.vault.slots.map fun k => (k.path, k.value)) = s.vault.slots.map fun k => (k.path, k.value) := by
  refine ⟨{ reseedLeaves (anneal { s with vault.annealAt := s.ns, vault.annealPeriod := setting s 0x2100 2 }) with
      vault.cycles := s.vault.cycles + 1, vault.lastCycleMs := min d 20, vault.missedCycles := 0 }, ?_, rfl, ?_, rfl, rfl, ?_⟩
  · change done _ = _
    rw [rails, calm, seeded, decide_eq_true due, if_pos (by decide)]
    dsimp only
    rw [good, if_pos rfl, done]
  · dsimp only
    rw [reseedLeaves_vault]
    rfl
  · dsimp only
    rw [reseedLeaves_vault]
    exact values_annealSlots _ _

/-! Usage reports, notices and limits (R112, R113). -/

theorem usageReport_raises {s : State} (e : Nat) (p : KeyPath) (items bytes : Nat) (rails : s.pow.iod = true)
    (calm : s.pow.quenched = false) :
    exec (.usageReport e p items bytes) s =
      .next (modKey (reportKey s p) p fun k => k.used (max k.usedItems items) (max k.usedBytes bytes)) := by
  change done _ = _
  rw [rails, calm, if_pos (by decide), done]

/-- What a key's notice does once the key is marked and recorded: its class's renewal (R113). -/
def renewal (u : State) (k : KeySlot) (p : KeyPath) : State :=
  match p with
  | .flow peer de fe => flowNotice u peer de fe
  | .region r _ => queueRotation u r ((tget u.mem.regions r).map (·.ownerKind) |>.getD 0)
  | .bounce _ d _ => rekeyEvent u (if d = 0 then 1 else 2)
  | .page n =>
    let v : State := { u with vault.pageGen := genNext u.vault.pageGen n }
    match freshKey v k .derived with
    | some f => startReplace v (.page n) .derived (kcv (f.value.setWidth 256))
    | none => v
  | _ => u

theorem keyUsageNotice_renews {s u : State} {p : KeyPath} {k : KeySlot} {ni li nb lb : Nat} (up : s.up = true)
    (held : findKey s p = some k) (limits : keyLimits p = some (ni, li, nb, lb)) (first : k.notice = false)
    (reached : ni ≤ k.usedItems ∨ nb ≤ k.usedBytes)
    (marked : u = latch (modKey s p fun k => { k with notice := true })
      { unit := uVault, cls := 0, cause := 113, kind := 0x0061, detail := some (keyDetail s 0 p) }) :
    exec (.keyUsageNotice p) s = .next (renewal u k p) := by
  have reached' : (decide (ni ≤ k.usedItems) || decide (nb ≤ k.usedBytes)) = true := by simpa using reached
  change done _ = _
  rw [if_pos up, held, limits]
  dsimp only
  rw [first, reached', if_neg (by decide), ← marked]
  rfl

theorem renewal_page {u v : State} {k : KeySlot} {n : Nat} {f : FreshKey}
    (next : v = { u with vault.pageGen := genNext u.vault.pageGen n }) (fresh : freshKey v k .derived = some f) :
    renewal u k (.page n) = startReplace v (.page n) .derived (kcv (f.value.setWidth 256)) := by
  unfold renewal
  dsimp only
  rw [← next, fresh]

theorem renewal_none {p : KeyPath} (h : p = .wrap ∨ p = .oper ∨ (∃ a, p = .store a) ∨ ∃ a b, p = .chan a b) (u : State)
    (k : KeySlot) : renewal u k p = u := by
  rcases h with rfl | rfl | ⟨a, rfl⟩ | ⟨a, b, rfl⟩ <;> rfl

theorem keyUsageLimit_marks {s : State} {p : KeyPath} {k : KeySlot} {ni li nb lb : Nat} (up : s.up = true)
    (held : findKey s p = some k) (limits : keyLimits p = some (ni, li, nb, lb)) (first : k.limit = false)
    (reached : li ≤ k.usedItems ∨ lb ≤ k.usedBytes) :
    exec (.keyUsageLimit p) s = .next (latch (modKey s p fun k => { k with limit := true })
      { unit := uVault, cls := 1, cause := 113, kind := 0x0061, detail := some (keyDetail s 1 p) }) := by
  have reached' : (decide (li ≤ k.usedItems) || decide (lb ≤ k.usedBytes)) = true := by simpa using reached
  change done _ = _
  rw [if_pos up, held, limits]
  dsimp only
  rw [first, reached', if_neg (by decide), done]

theorem vaultComplementMismatch_counts {s u : State} {w : MismatchOf} (rails : s.pow.iod = true) (calm : s.pow.quenched = false)
    (seeded : s.vault.seeded = true)
    (counted : u = bumpUnit (mismatchOutcome (countMismatch s (mismatchPlace s w)) w) uVault 12 1) :
    exec (.vaultComplementMismatch w) s = .next (if 16 < limCount u .vaultMismatch then raiseS3 u uVault 114 0 else u) := by
  change done _ = _
  rw [rails, calm, seeded, if_pos (by decide)]
  dsimp only
  rw [← counted, done]

/-- Settles O16: each command by its guard, a notice by the renewal of its key's class. -/
theorem vaultUpkeepCompletes : Obligations.VaultUpkeepCompletes := by
  refine ⟨fun _ => entropyHealthFail_stops, fun _ => drbgReseed_restarts, fun _ _ => annealCycle_refreshes,
    fun _ e p items bytes => usageReport_raises e p items bytes, ?_, fun _ _ _ _ _ _ _ => keyUsageLimit_marks,
    fun _ _ rails calm seeded => vaultComplementMismatch_counts rails calm seeded rfl⟩
  intro s p k ni li nb lb up held limits first reached u
  have renews : exec (.keyUsageNotice p) s = .next (renewal u k p) := keyUsageNotice_renews up held limits first reached rfl
  refine ⟨?_, ?_, ?_, ?_, fun quiet => renews.trans (congrArg _ (renewal_none quiet u k))⟩
  · rintro peer de fe rfl
    exact renews
  · rintro r g rfl
    exact renews
  · rintro sl d g rfl
    exact renews
  · rintro n v rfl fresh
    exact renews.trans (congrArg _ (renewal_page rfl fresh))

end Sys2Proof.Machine

/-! The cipher channels (R127 to R139): a blob that a channel of TCU firmware refuses. -/
namespace Sys2Proof.Machine

/-! One channel's registers. -/

@[simp] theorem chanAt_setChan (s : State) (n : Nat) (c : Channel) : chanAt (setChan s n c) n = c := by
  rw [chanAt, setChan, tgetD, tget_tset_same, Option.getD_some]

theorem chanAt_congr {s t : State} (h : t.cipher = s.cipher) (n : Nat) : chanAt t n = chanAt s n := by
  rw [chanAt, chanAt, h]

/-- The registers of an idle channel with an operation other than a job at its head (R139). -/
def Channel.headed (c : Channel) (j : CipherJob) : Channel :=
  { c with
    queue := [j], loaded := none, refusal := none, left := 0, ctrl := j.body.ctrl &&& 0x7FFFFFFF#32, iv := j.body.iv
    src := j.body.src, dst := j.body.dst, len := j.body.len, aadLen := j.body.aadLen, tag := j.body.tag, jobId := j.body.jobId }

/-- An operation that no piece brought completes with its code in its channel (R32). -/
theorem chanComplete_firmware (s : State) (n : Nat) {j : CipherJob} (slot : j.slot = none) (code : Code) (data : Bytes)
    (tag : BitVec 128) : chanAt (chanComplete s n j code data tag) n =
      { chanAt s n with code := code, done := (chanAt s n).done + 1 } := by
  unfold chanComplete
  rw [slot]
  dsimp only
  rw [chanAt_congr (bumpUnit_cipher ..), chanAt_congr (State_emit_cipher ..), chanAt_setChan]

/-- The only operation of a channel without a key leaves its code and an empty queue. -/
theorem chanRun_firmware {s v : State} {n : Nat} {j : CipherJob} {code : Code} {data : Bytes} {tag : BitVec 128}
    (queue : (chanAt s n).queue = [j]) (slot : j.slot = none) (key : (chanAt s n).key = none)
    (performs : chanPerform s n j = (v, code, data, tag)) :
    (chanAt (chanRun s n) n).queue = [] ∧ (chanAt (chanRun s n) n).code = code := by
  unfold chanRun
  rw [queue, key]
  dsimp only
  rw [performs, chanComplete_firmware _ _ slot]
  unfold chanLoadHead
  dsimp only
  rw [chanAt_setChan, chanAt_setChan]
  exact ⟨rfl, rfl⟩

theorem takeBlocks_of_none {s : State} {n : Nat} (h : (chanAt s n).left = 0) : takeBlocks s n = s := by
  unfold takeBlocks
  dsimp only
  rw [h, Nat.zero_min, if_pos rfl]

/-! A command of TCU firmware, which a context of 0 names (R32, R127). -/

section
variable {s : State} {ch gen : Nat} {op : CipherOp} {b : CipherBody}

/-- The operation that a command of TCU firmware queues. -/
def firmwareJob (op : CipherOp) (b : CipherBody) : CipherJob :=
  ⟨0, 0, op, { b with src := b.src % 2 ^ 40, dst := b.dst % 2 ^ 40 }, none⟩

theorem brings_firmware : s.brings ch 0 gen op b = some (firmwareJob op b) := if_pos rfl

/-- A command on an idle channel is queued and drained from the state in which it heads the channel. -/
theorem chanSubmit_firmware (idle : s.channelIdle ch 0 gen) :
    chanSubmit s ch 0 gen op b = chanDrain 18 (s.heads ch (firmwareJob op b)) ch := by
  obtain ⟨-, -, -, own, empty⟩ := idle
  have pushed : chanPush s ch (firmwareJob op b) = chanDrain 18 (s.heads ch (firmwareJob op b)) ch := by
    unfold chanPush State.heads
    dsimp only
    rw [empty, if_pos rfl, List.nil_append]
  unfold chanSubmit
  rw [if_neg (by simp)]
  dsimp only
  rw [own, if_neg (by decide), empty, if_neg (by decide)]
  exact pushed

/-- An operation other than a job changes its channel's registers only when it heads the channel. -/
theorem heads_of_op {j : CipherJob} (other : j.op ≠ .job) :
    s.heads ch j = setChan (setChan s ch { chanAt s ch with queue := [j] }) ch ((chanAt s ch).headed j) := by
  unfold State.heads chanLoadHead
  rw [chanAt_setChan]
  dsimp only
  rw [if_neg other, if_neg other, show jobBlocks _ ch j = 0 by rw [jobBlocks, if_neg (by simp [other])]]
  exact takeBlocks_of_none (by rw [chanAt_setChan])

theorem chanAt_heads {j : CipherJob} (other : j.op ≠ .job) : chanAt (s.heads ch j) ch = (chanAt s ch).headed j := by
  rw [heads_of_op other, chanAt_setChan]

/-- The code that a command of TCU firmware leaves on an idle channel without a key. -/
theorem firmware_runs {v : State} {code : Code} {data : Bytes} {tag : BitVec 128} (idle : s.channelIdle ch 0 gen)
    (key : (chanAt s ch).key = none) (other : op ≠ .job)
    (performs : chanPerform (s.heads ch (firmwareJob op b)) ch (firmwareJob op b) = (v, code, data, tag)) :
    ∃ t, done (whenUp s fun s => chanSubmit s ch 0 gen op b) = .next t ∧ (chanAt t ch).code = code := by
  have other' : (firmwareJob op b).op ≠ .job := other
  have channel := chanAt_heads (s := s) (ch := ch) other'
  have queue : (chanAt (s.heads ch (firmwareJob op b)) ch).queue = [firmwareJob op b] := by rw [channel]; rfl
  obtain ⟨empty, left⟩ := chanRun_firmware queue rfl (by rw [channel]; exact key) performs
  refine ⟨chanRun (s.heads ch (firmwareJob op b)) ch, done_whenUp idle.1 ((chanSubmit_firmware idle).trans ?_), left⟩
  rw [chanDrain, queue]
  dsimp only
  rw [if_neg other', chanDrain, empty]

end

/-- A blob whose slice is not its channel's modulo 32 is refused (R135). -/
theorem chanImport_refuses {s : State} {n : Nat} {j : CipherJob} {b : ChanBlob} {k : Key} {pt : Bytes} (wrap : key256 s .wrap = some k)
    (opens : gcmOpen k b.iv (chanBlobHead b) b.body b.tag = some pt) (slice : b.slice ≠ (chanAt s n).slice % 32) :
    chanImport s n j b = (s, cChanStateInvalid) := by
  unfold chanImport
  rw [wrap, Option.bind_some, opens]
  dsimp only
  rw [if_pos (by simp [slice])]

theorem chRestoreBlob_refuses {s : State} {ch gen : Nat} {b : ChanBlob} {k : Key} {pt : Bytes} (idle : s.channelIdle ch 0 gen)
    (key : (chanAt s ch).key = none) (wrap : key256 s .wrap = some k)
    (opens : gcmOpen k b.iv (chanBlobHead b) b.body b.tag = some pt) (slice : b.slice ≠ (chanAt s ch).slice % 32) :
    ∃ t, exec (.chRestoreBlob ch 0 gen b) s = .next t ∧ (chanAt t ch).code = cChanStateInvalid := by
  have near : ch < 64 := idle.2.1
  have other : (firmwareJob (.restoreBlob b) (noBody 0 0)).op ≠ .job := nofun
  refine firmware_runs (v := s.heads ch (firmwareJob (.restoreBlob b) (noBody 0 0))) (data := []) (tag := 0) idle key nofun ?_
  unfold chanPerform
  rw [if_neg (by simp [Nat.not_le.mpr near])]
  dsimp only [firmwareJob]
  rw [if_neg (Nat.not_le.mpr near)]
  have refused := chanImport_refuses (s := s.heads ch (firmwareJob (.restoreBlob b) (noBody 0 0))) (n := ch)
    (j := firmwareJob (.restoreBlob b) (noBody 0 0)) (by rw [heads_of_op other]; exact wrap) opens
    (by rw [chanAt_heads other]; exact slice)
  unfold firmwareJob at refused
  rw [refused]

/-! The counterexample: channel 0, which is TCU firmware's and has slice 32, and a blob whose slice is 32. -/

/-- A service slot of the channels that holds the zero key. -/
def zeroService : KeySlot :=
  { path := .chan 32 9, slot := 9, part := 3, share := 32, key := Shares.of 0 0, sub := none, width := 256, attr := 0x10, items := Kept.of 0
    bytes := Kept.of 0, notice := false, limit := false, label := [], parent := none, context := [] }

/-- A unit in service whose vault holds a service key and the wrapping key, both zero. -/
def wrappingUnit : State :=
  { State.reset with
    pow := { Power.reset with sessionOpen := true, iod := true, cdieA := true, cdieB := true, ready := true, readmitted := true }
    vault.slots := [zeroService, { zeroService with path := .wrap, slot := 14, part := 4 }] }

theorem wrappingUnit_wrap : key256 wrappingUnit .wrap = some 0 := by
  have found : findKey wrappingUnit .wrap = some { zeroService with path := .wrap, slot := 14, part := 4 } := rfl
  have read : (Shares.of 0 0).read = some 0 := shares_read 0 0
  rw [key256, keyWide, found, Option.bind_some]
  refine (congrArg (Option.map fun v => BitVec.setWidth 256 v) read).trans ?_
  simp

/-- The blob of an empty stream of slice 32, without its tag. -/
def untaggedBlob : ChanBlob := ⟨2, 0, 32, 0, 0, keyKcv wrappingUnit (.chan 32 9), 9, 0, 0, [], 0⟩

/-- The same blob, sealed under the zero key. -/
def sliceBlob : ChanBlob := { untaggedBlob with tag := gcmTag 0 0 (chanBlobHead untaggedBlob) [] }

theorem sliceBlob_kcv : keyKcv wrappingUnit zeroService.path = sliceBlob.kcv := by
  unfold sliceBlob untaggedBlob zeroService
  dsimp only

theorem gcmOpen_empty (k : Key) (iv : BitVec 96) (aad : Bytes) : gcmOpen k iv aad [] (gcmTag k iv aad []) = some [] := by
  rw [gcmOpen, if_pos rfl]
  rfl

theorem sliceBlob_opens : gcmOpen 0 sliceBlob.iv (chanBlobHead sliceBlob) sliceBlob.body sliceBlob.tag = some [] := by
  have untagged (b : ChanBlob) (t : Tag) : chanBlobHead { b with tag := t } = chanBlobHead b := rfl
  have head : chanBlobHead sliceBlob = chanBlobHead untaggedBlob := untagged untaggedBlob _
  rw [head]
  exact gcmOpen_empty 0 0 _

/-- Refutes O17: channels 0 to 3 are TCU firmware's and have slice 32, and the check of a blob compares its slice with the
channel's modulo 32; a blob of slice 32 that opens, for a held key, is refused with CHAN_STATE_INVALID. -/
theorem not_cipherChannelsDoTheirJobs : ¬ Obligations.CipherChannelsDoTheirJobs := by
  intro h
  obtain ⟨-, -, -, -, -, -, -, restores, -⟩ := h
  have idle : wrappingUnit.channelIdle 0 0 0 := ⟨rfl, by decide, .inl rfl, rfl, rfl⟩
  obtain ⟨t, ran, code, -⟩ := restores wrappingUnit 0 0 0 sliceBlob _ 0 [] zeroService idle brings_firmware
    wrappingUnit_wrap sliceBlob_opens rfl rfl rfl rfl
    rfl rfl sliceBlob_kcv rfl rfl rfl rfl
  obtain ⟨t', ran', code'⟩ := chRestoreBlob_refuses idle rfl wrappingUnit_wrap sliceBlob_opens (by decide)
  have same : t = t' := by simpa [ran] using ran'
  rw [← same, code] at code'
  exact absurd code' (by decide)

end Sys2Proof.Machine
